-- ==== Sys2Proof/Word.lean ====
section
/-! DEFINITION. Word types and their plainest arithmetic (00 R12 to R16): registers are 32-bit words, counters
saturate, and sparse collections are lists of key and value pairs. -/

namespace Sys2Proof

/-- A register word (R16). -/
abbrev Word := BitVec 32

/-- A byte. -/
abbrev Byte := BitVec 8

/-- A sparse collection by key, in canonical form: keys strictly rising, no entry equal to the collection's default. -/
abbrev SMap (α : Type) := List (Nat × α)

/-- The bits `lo` to `lo + n - 1` of a number. -/
def natBits (v lo n : Nat) : Nat := (v >>> lo) % 2 ^ n

/-- A number with bits `lo` to `lo + n - 1` replaced by the low bits of `x`. -/
def natSetBits (v lo n x : Nat) : Nat :=
  v - (natBits v lo n) * 2 ^ lo + (x % 2 ^ n) * 2 ^ lo

/-- Addition that stops at a maximum (R24 and every saturating counter). -/
def satAdd (top a b : Nat) : Nat := min top (a + b)

/-- A number as 0 or 1. -/
def bitOf (b : Bool) : Nat := if b then 1 else 0

/-- Two's complement reading of an `n`-bit number. -/
def toSigned (n v : Nat) : Int := if v % 2 ^ n < 2 ^ (n - 1) then (v % 2 ^ n : Nat) else ((v % 2 ^ n : Nat) : Int) - (2 ^ n : Nat)

/-- Two's complement `n`-bit encoding of an integer. -/
def ofSigned (n : Nat) (v : Int) : Nat := (v % ((2 ^ n : Nat) : Int)).toNat

/-- An integer held between two limits. -/
def clampInt (lo hi v : Int) : Int := max lo (min hi v)

/-- Division rounded to nearest, halves away from zero (R14). -/
def roundDiv (a : Int) (b : Nat) : Int :=
  if b = 0 then 0
  else if 0 ≤ a then (2 * a + b) / (2 * b) else -((2 * (-a) + b) / (2 * b))

end Sys2Proof
end

