-- ==== Sys2Proof/Syntax.lean ====
section
/-! DEFINITION. The commands of spec/opcode_table.json, one constructor a row, with the operands the spec's chapters
give each: what comes from outside the block (a host, a tower, a pin, the shelf manager) or which unit a timer or an
engine's completion names. -/

namespace Sys2Proof

/-- Who writes a register: the operator (a Sirsis packet, 02 R54) or firmware running on the cores. -/
inductive Writer | operator | firmware
deriving DecidableEq, Repr

/-- The clock sources and PLLs a detector watches (16 R584). -/
inductive ClockUnit | core | net | rootPll | tuPll | fwsPll | flashTx (n : Nat) | hostTx (n : Nat) | dram (n : Nat)
deriving DecidableEq, Repr

/-- Why BTH packets are answered (03 R88 to R92): the operation of a received packet. -/
inductive RoceOp | send | readResponse | ack | nak | rnrNak | rdmaRead | rdmaWrite | atomic
deriving DecidableEq, Repr

/-- PTP message types (03 R99 to R102). -/
inductive PtpMsg | sync | delayReq | pdelayReq | pdelayResp | followUp | delayResp | announce | management | signalling
deriving DecidableEq, Repr

/-- Handling of a memory-to-zone name: which zones a Zone Management Send names (05 Table 05-3). -/
inductive ZoneSel | one | all
deriving DecidableEq, Repr

/-- A command capsule as it arrives: opcode, FCTYPE, CID, NSID, CDW10 to CDW15, SGL length, in-capsule bytes. -/
structure CapsuleIn where
  opc : Nat
  fctype : Nat
  cid : Nat
  nsid : Nat
  cdw10 : Nat
  cdw11 : Nat
  cdw12 : Nat
  cdw13 : Nat
  cdw14 : Nat
  cdw15 : Nat
  sglLen : Nat
  inCapsule : List Nat
deriving DecidableEq, Repr

/-- The commands (spec/opcode_table.json), one constructor a row; after each its mnemonic and rule. -/
inductive Instr where
  | porstNAssert (powerRemoved : Bool)  -- PORST_N_ASSERT (20 R720)
  | porstNRelease (hmode : Nat) (i3c : Bool) (addr : Nat) (testmode : Bool) (coreRuns netRuns : Bool)  -- PORST_N_RELEASE (20 R720)
  | railFail (rail : Nat)  -- RAIL_FAIL (20 R722)
  | bootSlotSelect  -- BOOT_SLOT_SELECT (18 R676)
  | signatureCheckDone  -- SIGNATURE_CHECK_DONE (16 R598)
  | dramTrainingDone (storedOk : Bool) (failMask : Nat) (cap : Nat) (ranks2 metaCopy : Bool) (retain : Nat)  -- DRAM_TRAINING_DONE (15 R560)
  | adminServedPoint  -- ADMIN_SERVED_POINT (01 R28)
  | readsServedPoint  -- READS_SERVED_POINT (12 R479)
  | openRowReplayDone  -- OPEN_ROW_REPLAY_DONE (12 R480)
  | quiesceRequest  -- QUIESCE_REQUEST (01 R34)
  | retainedRequest  -- RETAINED_REQUEST (01 R34)
  | resumeRequest  -- RESUME_REQUEST (01 R38)
  | quiesceDrainExpire  -- QUIESCE_DRAIN_EXPIRE (01 R34)
  | quiesceComplete  -- QUIESCE_COMPLETE (01 R34)
  | retainedEntry  -- RETAINED_ENTRY (01 R38)
  | retainedResumeDone (failedGroups : Nat)  -- RETAINED_RESUME_DONE (01 R38)
  | pwrwarnStuck  -- PWRWARN_STUCK (20 R718)
  | pwrwarnUnstick  -- PWRWARN_UNSTICK (20 R718)
  | timeMark  -- TIME_MARK (01 R41)
  | skimDueWrite (w : Writer) (value : Word)  -- SKIM_DUE_WRITE (01 R52)
  | modeApply  -- MODE_APPLY (03 R69)
  | modeSave (forget : Bool)  -- MODE_SAVE (03 R103)
  | modeForget (save : Bool)  -- MODE_FORGET (03 R103)
  | laneLossOfLockTimeout (lane : Nat) (allTogether : Bool)  -- LANE_LOSS_OF_LOCK_TIMEOUT (03 R74)
  | laneUncorrInterval (lane : Nat) (uncorr : Nat)  -- LANE_UNCORR_INTERVAL (03 R74)
  | portTrainingDone (port : Nat) (ok : Bool) (failedLanes : Nat)  -- PORT_TRAINING_DONE (03 R75)
  | narrowCandidateTimeout (port : Nat)  -- NARROW_CANDIDATE_TIMEOUT (03 R75)
  | portRetrainTimer (port : Nat)  -- PORT_RETRAIN_TIMER (03 R74)
  | portWiden (port : Nat)  -- PORT_WIDEN (03 R77)
  | autoWidenTimer (port : Nat)  -- AUTO_WIDEN_TIMER (03 R77)
  | nextHopResolved (hop : Nat)  -- NEXT_HOP_RESOLVED (03 R72)
  | nextHopTimeout (hop : Nat)  -- NEXT_HOP_TIMEOUT (03 R72)
  | frameReceive (port len : Nat) (fcsOk : Bool) (dscp : Option Nat) (vlan : Option Nat) (pcp : Nat)  -- FRAME_RECEIVE (03 R71)
  | pfcXoffRepeat (port : Nat) (b : Bool)  -- PFC_XOFF_REPEAT (03 R83)
  | pfcXon (port : Nat) (b : Bool) (drained : Nat)  -- PFC_XON (03 R83)
  | pfcFrameReceive (port prio quanta : Nat)  -- PFC_FRAME_RECEIVE (03 R83)
  | pfcStormDetect (port : Nat) (b : Bool)  -- PFC_STORM_DETECT (03 R84)
  | pfcStormEnd (port : Nat) (b : Bool)  -- PFC_STORM_END (03 R84)
  | rocePacketReceive (conn psn : Nat) (op : RoceOp) (icrcOk ce : Bool) (len : Nat) (cap : CapsuleIn)  -- ROCE_PACKET_RECEIVE (03 R92)
  | cnpReceive (conn : Nat)  -- CNP_RECEIVE (03 R86)
  | rateRecoverTimer (conn : Nat)  -- RATE_RECOVER_TIMER (03 R86)
  | rdmaAckTimeout (conn : Nat)  -- RDMA_ACK_TIMEOUT (03 R92)
  | rdmaConnectRequest (port entry tenant hop : Nat) (io : Bool)  -- RDMA_CONNECT_REQUEST (03 R91)
  | tcpSyn (port entry dport tenant hop : Nat)  -- TCP_SYN (03 R94)
  | tcpIcreq (conn : Nat) (hdgst ddgst : Bool) (maxR2t : Nat) (tls : Bool)  -- TCP_ICREQ (03 R95)
  | h2cDataPdu (conn cid offset len : Nat) (digestOk : Bool) (data : List Nat)  -- H2C_DATA_PDU (03 R97)
  | tcpFatalPdu (conn : Nat) (digest : Bool) (field : Nat)  -- TCP_FATAL_PDU (03 R97)
  | tcpRetransmitTimeout (conn : Nat)  -- TCP_RETRANSMIT_TIMEOUT (03 R94)
  | ptpMessageReceive (port : Nat) (msg : PtpMsg) (transport domain seqId : Nat) (sec ns frac : Nat) (master : Nat) (prio : Nat) (utc : Option Int)  -- PTP_MESSAGE_RECEIVE (03 R100)
  | ptpTsRead  -- PTP_TS_READ (03 R102)
  | portCntClear (port sel : Nat)  -- PORT_CNT_CLEAR (03 R120)
  | tenantCtlWrite (tenant : Nat) (value : Word)  -- TENANT_CTL_WRITE (04 R128)
  | taskQuotaWrite (tenant : Nat) (isMax : Bool) (value : Word)  -- TASK_QUOTA_WRITE (04 R133)
  | zoneQuotaWrite (tenant : Nat) (value : Word)  -- ZONE_QUOTA_WRITE (04 R154)
  | connQuotaWrite (tenant : Nat) (value : Word)  -- CONN_QUOTA_WRITE (04 R135)
  | diesetWrite (tenant : Nat) (value : Word)  -- DIESET_WRITE (04 R143)
  | connBucketRefill  -- CONN_BUCKET_REFILL (04 R135)
  | bwInterval (backlogged : List Nat)  -- BW_INTERVAL (04 R136)
  | powerEntitlementRecompute  -- POWER_ENTITLEMENT_RECOMPUTE (04 R140)
  | powerTokenGrant (die : Nat)  -- POWER_TOKEN_GRANT (07 R263)
  | commandFetch (slot : Nat)  -- COMMAND_FETCH (04 R138)
  | getLogPage (slot : Nat)  -- GET_LOG_PAGE (05 R170)
  | identify (slot : Nat)  -- IDENTIFY (05 R168)
  | abort (slot : Nat)  -- ABORT (05 R180)
  | setFeatures (slot : Nat)  -- SET_FEATURES (05 R169)
  | getFeatures (slot : Nat)  -- GET_FEATURES (05 R169)
  | asyncEventRequest (slot : Nat)  -- ASYNC_EVENT_REQUEST (05 R187)
  | asyncEventRaise (tenant cntlid typ info : Nat)  -- ASYNC_EVENT_RAISE (05 R187)
  | firmwareImageDownload (slot : Nat)  -- FIRMWARE_IMAGE_DOWNLOAD (18 R678)
  | firmwareCommit (slot : Nat)  -- FIRMWARE_COMMIT (18 R679)
  | namespaceAttachment (slot : Nat)  -- NAMESPACE_ATTACHMENT (04 R125)
  | keepAlive (slot : Nat)  -- KEEP_ALIVE (05 R184)
  | keepAliveTimeout (tenant cntlid : Nat)  -- KEEP_ALIVE_TIMEOUT (05 R184)
  | formatNvm (slot : Nat)  -- FORMAT_NVM (12 R486)
  | sanitize (slot : Nat)  -- SANITIZE (12 R483)
  | sanitizeBlockDone (ok : Bool)  -- SANITIZE_BLOCK_DONE (12 R485)
  | sanitizeExitFailure (slot : Nat)  -- SANITIZE_EXIT_FAILURE (05 R182)
  | sirsisInbandSubmit (slot : Nat)  -- SIRSIS_INBAND_SUBMIT (17 R652)
  | sirsisInbandFetch (slot : Nat)  -- SIRSIS_INBAND_FETCH (17 R652)
  | invalidAdminOpcode (slot : Nat)  -- INVALID_ADMIN_OPCODE (05 R161)
  | connect (slot : Nat)  -- CONNECT (05 R163)
  | propertySet (slot : Nat)  -- PROPERTY_SET (05 R162)
  | shutdownNotification (tenant cntlid : Nat)  -- SHUTDOWN_NOTIFICATION (05 R164)
  | propertyGet (slot : Nat)  -- PROPERTY_GET (05 R162)
  | disconnect (slot : Nat)  -- DISCONNECT (05 R162)
  | flush (slot : Nat)  -- FLUSH (05 R179)
  | write (slot : Nat)  -- WRITE (05 R176)
  | read (slot : Nat)  -- READ (05 R176)
  | writeZeroes (slot : Nat)  -- WRITE_ZEROES (05 R165)
  | datasetManagement (slot : Nat)  -- DATASET_MANAGEMENT (05 R165)
  | verify (slot : Nat)  -- VERIFY (05 R165)
  | zoneAppend (slot : Nat)  -- ZONE_APPEND (05 R177)
  | zoneOpen (slot : Nat)  -- ZONE_OPEN (06 R201)
  | zoneClose (slot : Nat)  -- ZONE_CLOSE (06 R201)
  | zoneFinish (slot : Nat)  -- ZONE_FINISH (06 R201)
  | zoneReset (slot : Nat)  -- ZONE_RESET (06 R201)
  | zoneOffline (slot : Nat)  -- ZONE_OFFLINE (06 R201)
  | reportZones (slot : Nat)  -- REPORT_ZONES (05 R165)
  | invalidIoOpcode (slot : Nat)  -- INVALID_IO_OPCODE (05 R165)
  | dataPhaseStart (slot : Nat)  -- DATA_PHASE_START (10 R377)
  | writeCommit (slot : Nat)  -- WRITE_COMMIT (05 R175)
  | readTransferStart (slot : Nat)  -- READ_TRANSFER_START (13 R508)
  | readTransferDone (slot : Nat)  -- READ_TRANSFER_DONE (05 R174)
  | dataPhaseTimeout (slot : Nat)  -- DATA_PHASE_TIMEOUT (05 R186)
  | connectionLoss (conn : Nat)  -- CONNECTION_LOSS (05 R183)
  | shrinkFinish (zone : Nat)  -- SHRINK_FINISH (06 R209)
  | memberLoss (stripe member : Nat)  -- MEMBER_LOSS (06 R207)
  | spareReplenish  -- SPARE_REPLENISH (06 R212)
  | readyListRefill (home : Nat) (blocks : List Nat)  -- READY_LIST_REFILL (02 R56)
  | reservationReplace (zone block : Nat)  -- RESERVATION_REPLACE (06 R208)
  | rehome (group : Nat)  -- REHOME (06 R220)
  | logStripeAssemble (tenant : Nat) (blocks : List Nat)  -- LOG_STRIPE_ASSEMBLE (06 R225)
  | linkTrainingDone (link : Nat) (ok : Bool) (cause serial : Nat)  -- LINK_TRAINING_DONE (07 R237)
  | storedTrainingFallback (link : Nat)  -- STORED_TRAINING_FALLBACK (07 R238)
  | lockLossTimeout (link : Nat)  -- LOCK_LOSS_TIMEOUT (07 R247)
  | retrainTimeout (link : Nat)  -- RETRAIN_TIMEOUT (07 R247)
  | linkRetryTimer (link : Nat)  -- LINK_RETRY_TIMER (07 R247)
  | linkFail (link : Nat)  -- LINK_FAIL (07 R251)
  | linkGraceExpire (link : Nat)  -- LINK_GRACE_EXPIRE (07 R251)
  | linkDisable (link : Nat)  -- LINK_DISABLE (07 R279)
  | linkEnable (link : Nat)  -- LINK_ENABLE (07 R279)
  | linkRetrainRequest (link : Nat)  -- LINK_RETRAIN_REQUEST (07 R279)
  | linkFullTrainRequest (link : Nat)  -- LINK_FULL_TRAIN_REQUEST (07 R279)
  | flashFrameReceive (link syncDist : Nat) (crcOk : Bool) (kind seq ack : Nat)  -- FLASH_FRAME_RECEIVE (07 R249)
  | flashNakReceive (link ack : Nat)  -- FLASH_NAK_RECEIVE (07 R250)
  | flashReplayTimeout (link : Nat)  -- FLASH_REPLAY_TIMEOUT (07 R250)
  | maintFrameReceive (link : Nat) (temps : List Nat) (failed busy : Nat) (fault : Bool)  -- MAINT_FRAME_RECEIVE (07 R245)
  | maintFrameSend (link : Nat)  -- MAINT_FRAME_SEND (07 R244)
  | dieLoss (die : Nat)  -- DIE_LOSS (07 R252)
  | dieOpTimeout (die : Nat)  -- DIE_OP_TIMEOUT (07 R252)
  | readPageDone (die status : Nat) (data : List Nat)  -- READ_PAGE_DONE (07 R258)
  | readLevelDone (die status : Nat) (codes : List (List Nat))  -- READ_LEVEL_DONE (07 R258)
  | programFoggyDone (die status detail : Nat)  -- PROGRAM_FOGGY_DONE (10 R388)
  | programFineDone (die status detail : Nat)  -- PROGRAM_FINE_DONE (10 R388)
  | programOneDone (die status detail : Nat)  -- PROGRAM_ONE_DONE (07 R258)
  | eraseDone (die status : Nat)  -- ERASE_DONE (11 R423)
  | eraseVerifyDone (die status unerased : Nat)  -- ERASE_VERIFY_DONE (11 R423)
  | suspendDone (die : Nat) (notSuspended : Bool)  -- SUSPEND_DONE (07 R262)
  | resumeDone (die status : Nat)  -- RESUME_DONE (07 R261)
  | identifyDone (link : Nat) (partOk geometryOk : Bool) (serial goodDies : Nat)  -- IDENTIFY_DONE (07 R237)
  | readCalDone (link : Nat) (crcOk : Bool) (records : List (Nat × List Int × Nat × Nat))  -- READ_CAL_DONE (07 R257)
  | readDefectsDone (die plane : Nat) (groups : List Nat)  -- READ_DEFECTS_DONE (08 R288)
  | dieStatusDone (die : Nat) (busy suspended failed : Bool)  -- DIE_STATUS_DONE (07 R258)
  | standbyDone (link : Nat)  -- STANDBY_DONE (07 R268)
  | resetDieDone (die : Nat)  -- RESET_DIE_DONE (07 R259)
  | echoDone (link value : Nat)  -- ECHO_DONE (07 R258)
  | suspendDeferred (die : Nat)  -- SUSPEND_DEFERRED (07 R260)
  | groupDrainStart (group : Nat)  -- GROUP_DRAIN_START (07 R267)
  | groupWake (group : Nat)  -- GROUP_WAKE (07 R269)
  | groupWakeWrite (value : Word)  -- GROUP_WAKE_WRITE (07 R275)
  | groupWakeTimeout (group : Nat)  -- GROUP_WAKE_TIMEOUT (07 R269)
  | powerBudgetWrite (w : Writer) (value : Word)  -- POWER_BUDGET_WRITE (07 R264)
  | codewordDecodeDone (cw : Nat)  -- CODEWORD_DECODE_DONE (08 R311)
  | l5Reconstruct (cw : Nat)  -- L5_RECONSTRUCT (08 R312)
  | sampleHoldExpire (key : Nat)  -- SAMPLE_HOLD_EXPIRE (08 R294)
  | exitCntClear (sel : Nat)  -- EXIT_CNT_CLEAR (08 R322)
  | ageTick  -- AGE_TICK (09 R337)
  | arrheniusConstantWrite (w : Writer) (reg : Nat) (value : Word)  -- ARRHENIUS_CONSTANT_WRITE (09 R339)
  | shelfTempWrite (value : Word)  -- SHELF_TEMP_WRITE (09 R338)
  | shelfTempExpire  -- SHELF_TEMP_EXPIRE (09 R338)
  | darkRecompute  -- DARK_RECOMPUTE (09 R344)
  | probeResult (die : Nat)  -- PROBE_RESULT (09 R347)
  | pilotReport  -- PILOT_REPORT (09 R354)
  | learnResetDie (die : Nat)  -- LEARN_RESET_DIE (09 R357)
  | learnResetAll  -- LEARN_RESET_ALL (09 R357)
  | rowComplete (stripe : Nat)  -- ROW_COMPLETE (10 R387)
  | parkTimeout (die : Nat)  -- PARK_TIMEOUT (10 R388)
  | stageHorizon (stripe : Nat)  -- STAGE_HORIZON (10 R399)
  | horizonMiss (ns : Nat)  -- HORIZON_MISS (10 R399)
  | coolerBlockReclaim (block : Nat)  -- COOLER_BLOCK_RECLAIM (10 R401)
  | programFailure (stripe member : Nat)  -- PROGRAM_FAILURE (10 R394)
  | dramCrcMismatch (addr port object key : Nat)  -- DRAM_CRC_MISMATCH (02 R60)
  | churnStart  -- CHURN_START (11 R426)
  | unitRemap (ns lba source target : Nat)  -- UNIT_REMAP (11 R428)
  | blockRelease (block : Nat)  -- BLOCK_RELEASE (11 R428)
  | eraseBegin (block : Nat)  -- ERASE_BEGIN (11 R422)
  | blockFree (block : Nat)  -- BLOCK_FREE (11 R422)
  | scanProbe  -- SCAN_PROBE (11 R434)
  | refreshStart  -- REFRESH_START (11 R432)
  | refreshRemap (zone : Nat)  -- REFRESH_REMAP (11 R432)
  | refreshPassComplete  -- REFRESH_PASS_COMPLETE (11 R434)
  | wearLevelCheck  -- WEAR_LEVEL_CHECK (11 R420)
  | rebuildRow (stripe : Nat)  -- REBUILD_ROW (11 R440)
  | rebuildReplacementRetry  -- REBUILD_REPLACEMENT_RETRY (11 R438)
  | mmeRateWindow (churn refresh rebuild : Nat)  -- MME_RATE_WINDOW (11 R442)
  | mmeFloorWrite (w : Writer) (value : Word)  -- MME_FLOOR_WRITE (11 R443)
  | journalPageSeal  -- JOURNAL_PAGE_SEAL (12 R461)
  | journalPageAccept (seq : Nat)  -- JOURNAL_PAGE_ACCEPT (12 R462)
  | journalCopyFail (seq copy status : Nat)  -- JOURNAL_COPY_FAIL (12 R462)
  | checkpointStart  -- CHECKPOINT_START (12 R476)
  | checkpointStartWrite  -- CHECKPOINT_START_WRITE (12 R489)
  | checkpointComplete  -- CHECKPOINT_COMPLETE (12 R475)
  | rebaseCopyRow (zone : Nat)  -- REBASE_COPY_ROW (12 R472)
  | tagCompute (slot unit : Nat)  -- TAG_COMPUTE (13 R499)
  | tagCheck (cw : Nat)  -- TAG_CHECK (13 R506)
  | keyWordWrite (tenant slot word : Nat) (value : Word)  -- KEY_WORD_WRITE (13 R502)
  | keyCommit (tenant slot : Nat)  -- KEY_COMMIT (13 R503)
  | keyActivate (tenant slot : Nat)  -- KEY_ACTIVATE (13 R503)
  | keyClear (tenant slot : Nat)  -- KEY_CLEAR (13 R503)
  | keyActionResult  -- KEY_ACTION_RESULT (13 R503)
  | bufferAllocate (port owner tenant size : Nat) (opportunistic linkBad : Bool)  -- BUFFER_ALLOCATE (14 R526)
  | bufferRelease (port owner handle : Nat)  -- BUFFER_RELEASE (14 R531)
  | bufferHandOver (port owner handle newOwner : Nat)  -- BUFFER_HAND_OVER (14 R531)
  | bufferReference (port owner handle : Nat)  -- BUFFER_REFERENCE (14 R532)
  | bufferCancel (port owner : Nat)  -- BUFFER_CANCEL (14 R529)
  | freeListRebuildDone (pool : Nat)  -- FREE_LIST_REBUILD_DONE (14 R536)
  | bpmCntClear (pool sel : Nat)  -- BPM_CNT_CLEAR (14 R543)
  | dramRefresh (channel bank : Nat)  -- DRAM_REFRESH (15 R557)
  | refreshRatePoll (channel rate : Nat)  -- REFRESH_RATE_POLL (15 R557)
  | rowHammerRfm (channel bank row port acts : Nat)  -- ROW_HAMMER_RFM (15 R558)
  | activationWindowEnd  -- ACTIVATION_WINDOW_END (15 R558)
  | throttleExpire (port bank : Nat)  -- THROTTLE_EXPIRE (15 R559)
  | panicAssert (port : Nat)  -- PANIC_ASSERT (15 R556)
  | panicRelease (port : Nat)  -- PANIC_RELEASE (15 R556)
  | panicLong (port : Nat)  -- PANIC_LONG (15 R556)
  | rowCloseTimer (channel bank : Nat)  -- ROW_CLOSE_TIMER (15 R555)
  | dqsTracking (channel : Nat)  -- DQS_TRACKING (15 R561)
  | zqCalibration (channel : Nat)  -- ZQ_CALIBRATION (15 R561)
  | monitorWindow (coreCount netCount : Nat)  -- MONITOR_WINDOW (16 R583)
  | referenceGood (net : Bool)  -- REFERENCE_GOOD (16 R583)
  | stoppedClockTrip (unit : ClockUnit)  -- STOPPED_CLOCK_TRIP (16 R584)
  | pllLockLoss (unit : ClockUnit)  -- PLL_LOCK_LOSS (16 R584)
  | rcCheckWindow (count : Nat)  -- RC_CHECK_WINDOW (16 R585)
  | rcReady  -- RC_READY (16 R578)
  | rcTrimWrite (w : Writer) (value : Word)  -- RC_TRIM_WRITE (16 R617)
  | switchRetry  -- SWITCH_RETRY (16 R586)
  | clockSwitchDone (forced : Bool)  -- CLOCK_SWITCH_DONE (16 R589)
  | rootPllLock  -- ROOT_PLL_LOCK (16 R592)
  | accPllRelock  -- ACC_PLL_RELOCK (16 R587)
  | doubleFaultSelfRefresh  -- DOUBLE_FAULT_SELF_REFRESH (16 R591)
  | clockSwitchRequest (w : Writer) (target : Nat) (autoReturn : Bool)  -- CLOCK_SWITCH_REQUEST (16 R592)
  | deviceReset (w : Writer) (key : Nat)  -- DEVICE_RESET (16 R596)
  | scWatchdogExpire  -- SC_WATCHDOG_EXPIRE (16 R597)
  | ccWatchdogExpire (core : Nat)  -- CC_WATCHDOG_EXPIRE (16 R597)
  | trstAssert  -- TRST_ASSERT (16 R594)
  | tuStep (sec : Word)  -- TU_STEP (16 R603)
  | tuNowRead  -- TU_NOW_READ (16 R602)
  | ptpServoUpdate (e : Int) (dtNs : Nat) (delay : Option Int)  -- PTP_SERVO_UPDATE (16 R606)
  | ptpSyncTimeout  -- PTP_SYNC_TIMEOUT (16 R604)
  | holdoverExpire  -- HOLDOVER_EXPIRE (16 R608)
  | loadWindow (cc0 cc1 cc2 cc3 sc : Nat) (svcSum svcCount : Nat)  -- LOAD_WINDOW (17 R634)
  | mgmtPortWrite (offset : Nat) (data : List Nat) (pecOk : Bool)  -- MGMT_PORT_WRITE (17 R638)
  | taskGo  -- TASK_GO (17 R639)
  | taskReplyDone  -- TASK_REPLY_DONE (17 R639)
  | entdaa (addr : Nat)  -- ENTDAA (17 R637)
  | setdasa (static addr : Nat)  -- SETDASA (17 R637)
  | rstdaa  -- RSTDAA (17 R637)
  | enec (events : Nat)  -- ENEC (17 R637)
  | disec (events : Nat)  -- DISEC (17 R637)
  | getpid  -- GETPID (17 R637)
  | getbcr  -- GETBCR (17 R637)
  | getdcr  -- GETDCR (17 R637)
  | getstatus  -- GETSTATUS (17 R637)
  | getmwl  -- GETMWL (17 R637)
  | nvmeMiBasicRead (offset : Nat)  -- NVME_MI_BASIC_READ (17 R653)
  | nop (path : Nat)  -- NOP (17 R648)
  | regRead (path : Nat)  -- REG_READ (17 R647)
  | regWrite (path : Nat)  -- REG_WRITE (17 R647)
  | regRmw (path : Nat)  -- REG_RMW (17 R648)
  | stateReq (path : Nat)  -- STATE_REQ (17 R648)
  | devReset (path : Nat)  -- DEV_RESET (17 R648)
  | devResetDelayExpire  -- DEV_RESET_DELAY_EXPIRE (17 R648)
  | timeSet (path : Nat)  -- TIME_SET (16 R605)
  | portCfg (path : Nat)  -- PORT_CFG (17 R650)
  | portRead (path : Nat)  -- PORT_READ (17 R648)
  | aclAdd (path : Nat)  -- ACL_ADD (17 R648)
  | aclRemove (path : Nat)  -- ACL_REMOVE (17 R650)
  | aclList (path : Nat)  -- ACL_LIST (17 R648)
  | nsCreate (path : Nat)  -- NS_CREATE (17 R649)
  | nsDelete (path : Nat)  -- NS_DELETE (17 R649)
  | nsMove (path : Nat)  -- NS_MOVE (17 R649)
  | nsResize (path : Nat)  -- NS_RESIZE (17 R649)
  | nsInfo (path : Nat)  -- NS_INFO (17 R648)
  | zoneHint (path : Nat)  -- ZONE_HINT (06 R216)
  | homeRead (path : Nat)  -- HOME_READ (17 R648)
  | shelfClimate (path : Nat)  -- SHELF_CLIMATE (09 R342)
  | modelLoad (path : Nat)  -- MODEL_LOAD (17 R651)
  | fwDownload (path : Nat)  -- FW_DOWNLOAD (18 R678)
  | fwCommit (path : Nat)  -- FW_COMMIT (18 R679)
  | protSet (path : Nat)  -- PROT_SET (18 R682)
  | protectionEraseDone  -- PROTECTION_ERASE_DONE (18 R682)
  | hbRead (path : Nat)  -- HB_READ (19 R702)
  | healthRead (path : Nat)  -- HEALTH_READ (19 R703)
  | activationPause (us : Nat)  -- ACTIVATION_PAUSE (17 R655)
  | activationAbandon (us : Nat)  -- ACTIVATION_ABANDON (17 R656)
  | probationEnd  -- PROBATION_END (17 R657)
  | sectorErase (w : Writer) (sector : Nat)  -- SECTOR_ERASE (18 R666)
  | pageProgram (w : Writer) (sector page : Nat)  -- PAGE_PROGRAM (18 R665)
  | sectorEraseDone (ok : Bool) (pulses : Nat)  -- SECTOR_ERASE_DONE (18 R668)
  | pageProgramDone (ok : Bool) (pulses : Nat)  -- PAGE_PROGRAM_DONE (18 R668)
  | storeEraseResume  -- STORE_ERASE_RESUME (18 R671)
  | continuousRead  -- CONTINUOUS_READ (18 R670)
  | settingsCompact  -- SETTINGS_COMPACT (18 R680)
  | settingsPageProgram  -- SETTINGS_PAGE_PROGRAM (18 R680)
  | eventFire (source sev index : Nat) (detail : List Nat)  -- EVENT_FIRE (19 R693)
  | eventTokenRefill (source : Nat)  -- EVENT_TOKEN_REFILL (19 R696)
  | summaryEnter (source : Nat)  -- SUMMARY_ENTER (19 R697)
  | eventFifoDrain  -- EVENT_FIFO_DRAIN (19 R697)
  | herdbookPageProgram  -- HERDBOOK_PAGE_PROGRAM (19 R698)
  | herdbookSectorFail (result : Nat)  -- HERDBOOK_SECTOR_FAIL (19 R698)
  | mirrorProgram (ok : Bool)  -- MIRROR_PROGRAM (19 R700)
  | swRaise (value : Word)  -- SW_RAISE (19 R710)
  | inputTransition (input : Nat) (level : Bool)  -- INPUT_TRANSITION (20 R717)
  | chatterMaskEnd (input : Nat)  -- CHATTER_MASK_END (20 R717)
  | chatterWindowEnd (input : Nat)  -- CHATTER_WINDOW_END (20 R717)
  | inputFilterChange (input : Nat)  -- INPUT_FILTER_CHANGE (20 R716)
  | thermalSample (temp : Nat)  -- THERMAL_SAMPLE (20 R730)
  | extest (cells : Nat)  -- EXTEST (20 R733)
  | idcode  -- IDCODE (20 R733)
  | samplePreload (cells : Nat)  -- SAMPLE_PRELOAD (20 R733)
  | clamp  -- CLAMP (20 R733)
  | highz  -- HIGHZ (20 R733)
  | bypass (code : Nat)  -- BYPASS (20 R733)
  | manufacturingTest (code : Nat)  -- MANUFACTURING_TEST (20 R733)
  | regPairLowRead (addr : Nat)  -- REG_PAIR_LOW_READ (00 R19)
  | regPairHighRead (addr : Nat)  -- REG_PAIR_HIGH_READ (00 R19)
  | regPairHighWrite (addr : Nat) (value : Word)  -- REG_PAIR_HIGH_WRITE (00 R19)
  | regPairLowWrite (addr : Nat) (value : Word)  -- REG_PAIR_LOW_WRITE (00 R19)
  | rcRead (addr : Nat)  -- RC_READ (00 R20)
  | w1cWrite (addr : Nat) (value : Word)  -- W1C_WRITE (00 R20)
  | registerWrite (w : Writer) (addr : Nat) (value : Word)  -- REGISTER_WRITE (00 R20)
  | railsGood  -- RAILS_GOOD (20 R723)
  | syncCandidateOpen (link bitpos : Nat)  -- SYNC_CANDIDATE_OPEN (07 R246)
  | ptpDelayReqSend (seqId sec ns frac : Nat)  -- PTP_DELAY_REQ_SEND (03 R99)
  | pfcPauseExpire (port : Nat) (b : Bool)  -- PFC_PAUSE_EXPIRE (03 R83)
  | tcpCapsuleCmd (conn : Nat) (cap : CapsuleIn)  -- TCP_CAPSULE_CMD (03 R97)
  | invalidFabricsCommand (slot : Nat)  -- INVALID_FABRICS_COMMAND (05 R162)
  | zoneSendInvalidAction (slot : Nat)  -- ZONE_SEND_INVALID_ACTION (05 R165)
  | hdrEntry  -- HDR_ENTRY (17 R637)
  | hdrExitPattern  -- HDR_EXIT_PATTERN (17 R637)
  | unsupportedCcc (code : Nat) (directed : Bool)  -- UNSUPPORTED_CCC (17 R637)
  | rnrRetryTimer (conn : Nat)  -- RNR_RETRY_TIMER (03 R110)
  | storeEraseSuspend  -- STORE_ERASE_SUSPEND (18 R671)
deriving DecidableEq, Repr

end Sys2Proof
end

