-- ==== Sys2Proof/Machine/StateHost.lean ====
section
/-! DEFINITION. State of the host side: HFE (03), TIU (04), QE (05) and MGC (17). Plain data. -/

namespace Sys2Proof.Machine

/-- One host lane (03 R74, Table 03-7). `down`: PCS alignment lock lost and not regained. -/
structure Lane where
  locked : Bool
  active : Bool
  degraded : Bool
  failed : Bool
  /-- Uncorrectable codewords of the running 1 s interval. -/
  uncorr : Nat
deriving DecidableEq, Repr

/-- Flow control of one port on one priority (03 R83, R84). -/
structure Prio where
  /-- Receive fill in bytes. -/
  fill : Nat
  xoff : Bool
  paused : Bool
  storm : Bool
  /-- Frames queued for transmission. -/
  queued : Nat
deriving DecidableEq, Repr

/-- One port (03 R74 to R78). `st` is HFE_PORT_STATUS.STATE; `mask` the lanes carrying the port. -/
structure Port where
  st : Nat
  mask : Nat
  /-- Lanes of the attempt in training, and whether it is a narrowing candidate. -/
  trying : Nat
  narrowing : Bool
  /-- A widening was attempted or a narrowing took place: the AUTO_WIDEN timer runs. -/
  widenTimer : Bool
  nonOpt : Bool
  prioA : Prio
  prioB : Prio
deriving DecidableEq, Repr

/-- An IP address entry of a port (03 R71, 17 PORT_CFG). -/
structure AddrEntry where
  valid : Bool
  tagged : Bool
  pfx : Nat
  vlan : Nat
  addr : Nat
deriving DecidableEq, Repr

/-- What a connection carries. -/
inductive Role | unassigned | admin | io | discovery
deriving DecidableEq, Repr

/-- A command capsule: opcode, CID, NSID, CDW10 to CDW15, the data length its SGL describes, the in-capsule data,
and for Fabrics commands FCTYPE. -/
structure Capsule where
  opc : Nat
  fctype : Nat
  cid : Nat
  nsid : Nat
  cdw10 : Nat
  cdw11 : Nat
  cdw12 : Nat
  cdw13 : Nat
  cdw14 : Nat
  cdw15 : Nat
  sglLen : Nat
  inCapsule : List Nat
deriving DecidableEq, Repr

/-- One fabric connection, RoCEv2 or NVMe/TCP (03 R85 to R97). -/
structure Conn where
  tcp : Bool
  port : Nat
  /-- Address entry of the port (0 to 7) the connection was made to. -/
  entry : Nat
  tenant : Nat
  role : Role
  cntlid : Nat
  qid : Nat
  sqsize : Nat
  /-- Next hop the transmissions wait for (R72). -/
  waitHop : Option Nat
  /-- Capsules received and not fetched, oldest first. -/
  ring : List Capsule
  /-- Congestion rate r, time of the last cut and step in ns (R86). -/
  rate : Nat
  tCut : Option Nat
  tStep : Nat
  lastCnp : Option Nat
  /-- Next PSN expected from the host, and next of the controller's own. -/
  psn : Nat
  txPsn : Nat
  /-- Packets or segments sent and not acknowledged. -/
  unacked : List Nat
  retries : Nat
  rnrRetries : Nat
  rnrWaiting : Bool
  /-- HFE_RDMA_CFG and HFE_TCP_CFG as they stood at the connection (R109, R110). -/
  cfg : Nat
  /-- NVMe/TCP: ICReq exchanged, header and data digests, R2T limit (R95, R96). -/
  icDone : Bool
  hdgst : Bool
  ddgst : Bool
  maxR2t : Nat
deriving DecidableEq, Repr

/-- One PTP timestamp (03 R102). -/
structure PtpTs where
  seqId : Nat
  msgType : Nat
  tx : Bool
  port : Nat
  sec : Nat
  ns : Nat
  frac : Nat
deriving DecidableEq, Repr

/-- A foreign master (03 R99). -/
structure Master where
  ident : Nat
  priority : Nat
  utc : Option Int
deriving DecidableEq, Repr

/-- Host Fabric Engine (03). -/
structure Hfe where
  mode : Nat
  training : Bool
  strapBad : Bool
  savedMode : Bool
  lanes : SMap Lane
  ports : SMap Port
  /-- Address entries, key port × 8 + entry. -/
  addrs : SMap AddrEntry
  /-- Neighbour cache (R72): resolved next hops. -/
  neigh : List Nat
  conns : SMap Conn
  nextConn : Nat
  fifo : List PtpTs
  lastTs : PtpTs
  masters : List Master
  /-- Port counters, key port × 32 + SEL (R120). -/
  counters : SMap Nat
  /-- Unresolved byte pool carry of 04 R136. -/
  carry : Nat
  /-- Generation counter of the Discovery Log Page (R98). -/
  discGen : Nat
deriving DecidableEq, Repr

/-- What the TIU keeps per tenant beside its registers (04). -/
structure Tenant where
  /-- Access list: host NQNs, each the number its bytes spell (R127). -/
  acl : List Nat
  /-- Connection-rate bucket; none: full (R135). -/
  tokens : Option Nat
  /-- Thousandths of a token accrued toward the next (1 ms steps of RATE per second). -/
  milli : Nat
  /-- Byte bucket (R137). -/
  bytes : Int
  /-- Smooth weighted round-robin credit (R138), and whether the tenant was eligible at the last grant. -/
  credit : Int
  eligible : Bool
  /-- Last connection served in the tenant's round robin. -/
  lastConn : Nat
  spill : Bool
  /-- Power entitlement in mW (R140). -/
  entitled : Nat
  /-- SMART counters of its controllers (05 Table 05-6): commands, LBAs, media errors. -/
  readCmds : Nat
  writeCmds : Nat
  readLbas : Nat
  writeLbas : Nat
  mediaErrors : Nat
deriving DecidableEq, Repr

/-- A controller of a tenant subsystem (05 R163 to R187). -/
structure Ctl where
  live : Bool
  host : Nat
  conn : Nat
  port : Nat
  kato : Nat
  kaTick : Nat
  cc : Nat
  shst : Nat
  shutting : Bool
  /-- Over- and under-temperature thresholds in kelvins (feature 0x04). -/
  tempOver : Nat
  tempUnder : Nat
  wce : Bool
  aec : Nat
  acre : Bool
  /-- Slots of outstanding Asynchronous Event Requests. -/
  aers : List Nat
  /-- Events waiting for a request, and those already raised whose log page is unread: type × 256 + information. -/
  waitingEv : List Nat
  unread : List Nat
  changedNs : List Nat
  changedZones : List Nat
  errors : List Nat
  /-- Changes of its ANA state (03 R78), and namespaces with the stamps that a shutdown waits for (R164). -/
  anaCount : Nat
  shutWait : List (Nat × Nat)
deriving DecidableEq, Repr

/-- Task-slot states (05 Table 05-8). -/
inductive TaskSt | free | admitted | receiving | reading | transferring | executing | committed | completing
deriving DecidableEq, Repr

/-- A unit of a write being received: the number its bytes spell, bytes received, KEY_ID and tag once computed; `recheck`: it
was fetched again and awaits the comparison with its tag (13 R501). -/
structure TUnit where
  data : Nat
  bytes : Nat
  keyId : Nat
  tag : Option Nat
  recheck : Bool
deriving DecidableEq, Repr

/-- A task slot (05 R174). -/
structure Task where
  st : TaskSt
  conn : Nat
  tenant : Nat
  cntlid : Nat
  sqid : Nat
  admin : Bool
  cap : Capsule
  ns : Nat
  /-- Range in LBAs. -/
  slba : Nat
  nlb : Nat
  fua : Bool
  append : Bool
  zeroes : Bool
  stamp : Nat
  /-- Order of admission in its zone (05 R177), rising over the device. -/
  order : Nat
  /-- Vat buffers, and the units received by index in the range. -/
  bufs : List Nat
  units : SMap TUnit
  /-- Its data phase is held under 10 R377. -/
  held : Bool
  /-- Bytes whose data phases have started (03 R96, 04 R137). -/
  moved : Nat
  /-- Zones that a Zone Management Send names, fixed at its admission (06 R203). -/
  zones : List Nat
  /-- Status to be posted from Completing, and Dword 0 and 1. -/
  sct : Nat
  sc : Nat
  dnr : Bool
  dw0 : Nat
  dw1 : Nat
  /-- Journal record the slot waits for (05 Table 05-8), and stamps of namespaces below which every write must be durable
  first (05 R179). -/
  waitJsn : Option Nat
  waitDurable : List (Nat × Nat)
  /-- Units of a read that passed, and failures by class, lowest LBA first (13 R508). -/
  passed : SMap (Option (List Nat))
  failed : List (Nat × Nat × Nat)
  /-- Admitted to the slow path (17 R635). -/
  slow : Bool
  /-- An MME internal command. -/
  internal : Bool
  /-- Completing is posted but no completion goes to a lost connection (05 R183). -/
  lost : Bool
deriving DecidableEq, Repr

/-- Queue Engine and Tenant Isolation Unit (04, 05). -/
structure Qe where
  tasks : SMap Task
  ctls : SMap Ctl
  tenants : SMap Tenant
  cfgCode : Nat
  cfgTenant : Nat
  /-- Next admission order. -/
  order : Nat
deriving DecidableEq, Repr

/-- A Sirsis packet taken for execution (17 Table 17-6). -/
structure Packet where
  opcode : Nat
  flags : Nat
  seq : Nat
  scope : Nat
  params : List Nat
  /-- Task slot of an in-band phase 0, if any. -/
  slot : Option Nat
deriving DecidableEq, Repr

/-- A Sirsis reply, and the request it answered. -/
structure Reply where
  opcode : Nat
  status : Nat
  seq : Nat
  detail : Nat
  params : List Nat
deriving DecidableEq, Repr

/-- One Sirsis path (17 R645, R646): the packet being executed, the reply not yet delivered, the kept reply, and the
open fragment assembly (opcode, next SEQ, parameters so far, fragments). -/
structure SirPath where
  packet : Option Packet
  ready : Option Reply
  kept : Option Reply
  fragOpcode : Nat
  fragSeq : Nat
  fragData : List Nat
  fragCount : Nat
deriving DecidableEq, Repr

/-- Management Complex (17). -/
structure Mgc where
  activeBank : Nat
  /-- MGC_TASK_BUF bytes that are not zero. -/
  buf : SMap Byte
  portOff : Nat
  taskSt : Nat
  overrun : Bool
  ibiEn : Bool
  replyLen : Nat
  dynAddr : Option Nat
  ibiAllowed : Bool
  hdrIgnore : Bool
  /-- Key 0: management port; key 1 + CNTLID: a tenant-0 controller. -/
  paths : SMap SirPath
  loads : List Nat
  scLoad : Nat
  shed : Bool
  lowRun : Nat
  /-- Admitted slow-path operations: per tenant, and device-wide for tenants 1 to 512. -/
  admitted : SMap Nat
  admittedAll : Nat
  /-- Service times of operations completed in the last second: sum in µs and count (R636). -/
  svcSum : Nat
  svcCount : Nat
  actPhase : Nat
  actFailed : Bool
  actSlot : Nat
  pauseUs : Nat
  /-- A DEV_RESET reply has been posted; the reset follows in 1 ms. -/
  resetPending : Bool
  /-- FR of the running firmware (18 Table 18-4a REVISION), as a number. -/
  revision : Nat
  hoOwn : Nat
  /-- A quiesce or Retained request held while an activation runs (R658): the REQ code, 0 none. -/
  actHeld : Nat
deriving DecidableEq, Repr

end Sys2Proof.Machine
end

