-- ==== Sys2Proof/Machine/StateLow.lean ====
section
/-! DEFINITION. State of the always-on and management-side blocks: TOP (01), CRU and TU (16), PAD (20), firmware
store FWS (18) and Event Controller EVC (19). Plain data. -/

namespace Sys2Proof.Machine

/-- The device states of 01 Table 01-1. -/
inductive Dev | off | boot | replay | serving | quiescing | retained
deriving DecidableEq, Repr

/-- The requests of TOP_STATE_CTL.REQ (01 R49). -/
inductive Req | quiesce | retained | resume
deriving DecidableEq, Repr

/-- Where an accepted PWRWARN_N found the controller (01 R43): its state, and QUIESCE_DONE then. -/
structure PwrCtx where
  dev : Dev
  done : Bool
deriving DecidableEq, Repr

/-- TOP: device state and the fields of TOP_STATE, TOP_STATE_CTL and TOP_SKIM_AGE (01 R48 to R51). -/
structure Top where
  dev : Dev
  /-- The admin-served and the reads-served points have been reached (01 Table 01-4). -/
  adminOk : Bool
  readsOk : Bool
  quiesceDone : Bool
  pwrActive : Bool
  pwrStuck : Bool
  skimSoon : Bool
  skimOverdue : Bool
  lastCause : Nat
  result : Nat
  /-- TOP_SKIM_AGE.AGE (R51). -/
  skimAge : Nat
  /-- The pending request of R745. -/
  req : Option Req
  /-- The running quiesce ends in Retained (R34). -/
  retainedAfter : Bool
  /-- TU_LOCAL at the accepted request, for source 9 (19 Table 19-1). -/
  reqTick : Nat
  /-- Step 2 of R34 has ended (drained or DRAIN_MS elapsed). -/
  drained : Bool
  /-- The CLEAN record of R34 step 5 has been issued and accepted. -/
  cleanAccepted : Bool
  /-- A checkpoint and a time mark of the running quiesce have been accepted. -/
  ckptAccepted : Bool
  markAccepted : Bool
  pwrFrom : Option PwrCtx
  /-- Power-cycle count, 32 bits saturating (00 R24, 01 R29). -/
  powerCycles : Nat
  /-- Operating time in powered seconds, 40 bits saturating (00 R24). -/
  poweredSec : Nat
  /-- Unsafe-shutdown count of the SMART log (01 R30), and whether the last shutdown was unsafe. -/
  unsafeCount : Nat
  unsafeLast : Bool
deriving DecidableEq, Repr

/-- The fuse array (00 R5, 16 R617, 18 R664, R681, 20 R725): grade, RC trim, CORE_VID code, PL2, key digests, revoked keys, MAC base,
the serial number as the number its ASCII bytes spell, and the vendor identifier. -/
structure Fuses where
  gradeB : Bool
  rcTrim : Nat
  vid : Nat
  pl2 : Bool
  keyHash : List Nat
  revoked : List Nat
  macBase : Nat
  serial : Nat
  vendor : Nat
deriving DecidableEq, Repr

/-- How far the reset release of 16 Table 16-7 has come: which blocks answer register accesses. -/
inductive Stage | held | early | trainers | bpm | all
deriving DecidableEq, Repr

/-- Clock and Reset Unit (16 R577 to R598). -/
structure Cru where
  rootMode : Nat
  coreGood : Bool
  netGood : Bool
  rcReady : Bool
  rcGood : Bool
  accOnNet : Bool
  netOnRoot : Bool
  progHold : Bool
  doubleFault : Bool
  /-- Selected root reference, encoded as CRU_SWITCH_CTL.TARGET. -/
  current : Nat
  /-- Target of a switch in progress. -/
  switching : Option Nat
  /-- Target of a refused switch repeated each RC cycle (R586). -/
  retrying : Option Nat
  /-- A request held while a switch is in progress (R589). -/
  heldReq : Option Nat
  /-- The root's loop is closed on the selected reference and a lock is awaited (R586 step 4, R592). -/
  relocking : Bool
  lastForced : Bool
  /-- A refusal of the running fail-over has already fired source 70. -/
  refusalFired : Bool
  coreBadRun : Nat
  netBadRun : Nat
  rcBadRun : Nat
  coreCount : Nat
  netCount : Nat
  rcCount : Nat
  vsNet : Bool
  coreStopped : Bool
  netStopped : Bool
  /-- The accurate PLLs (R587) and the network PLLs (R590) hold a frozen loop. -/
  accFrozen : Bool
  netFrozen : Bool
  cause : Nat
  devResets : Nat
  stage : Stage
deriving DecidableEq, Repr

/-- Time Unit (16 R599 to R609). `t` is in units of 2⁻⁴⁸ ns. -/
structure Tu where
  t : Nat
  /-- TU_LOCAL (R600). -/
  ticks : Nat
  /-- TU_STATUS.STATE, Table 16-8. -/
  st : Nat
  srcRoot : Bool
  stepRefused : Bool
  integ : Int
  lockRun : Nat
  unlockRun : Nat
  offset : Int
  /-- TU_LOCAL of the last step; exchanges that straddle it are discarded (Table 16-10). -/
  stepTick : Nat
  holdTick : Nat
  /-- currentUtcOffset in use from Announce messages (R609). -/
  utcPtp : Option Int
  /-- The last 16 delay measurements in ns (R606). -/
  delays : List Int
  /-- Shadows of TU_NOW_SEC_LO and TU_NOW_SEC_HI (R602). -/
  shadowLo : Option Nat
  shadowHi : Option Nat
deriving DecidableEq, Repr

/-- One discrete input (20 R716 to R719). -/
structure Pin where
  raw : Bool
  filt : Bool
  /-- Raw transitions in the running 1 s window. -/
  count : Nat
  chatter : Bool
deriving DecidableEq, Repr

/-- How the functional pins are driven (20 R733). -/
inductive PinDrive | functional | boundary | clamp | highz
deriving DecidableEq, Repr

/-- PAD: straps, discrete inputs, rails, thermal management and the TAP (20). -/
structure Pad where
  hmode : Nat
  mgmtI3c : Bool
  mgmtAddr : Nat
  testmode : Bool
  /-- PAD_STRAP.BAD, bit s for strap s (R715). -/
  bad : Nat
  testJudged : Bool
  /-- Inputs 0 to 15; unlisted: high, stable, count 0. -/
  pins : SMap Pin
  stuck : Bool
  railsGood : Bool
  porstLow : Bool
  vidValid : Bool
  vidCode : Nat
  fusesSensed : Bool
  tj : Nat
  tjMax : Nat
  throttle : Bool
  hold : Bool
  thermtrip : Bool
  /-- TAP instruction register and the boundary cells last sampled or preloaded (R732, R733). -/
  tapIr : Nat
  bsr : Nat
  drive : PinDrive
deriving DecidableEq, Repr

/-- One firmware-store sector (18 R664 to R667). -/
structure Sector where
  headerOk : Bool
  mode : Nat
  pulses : Nat
  eraseCount : Nat
  boot : Nat
  bad : Bool
  next : Nat
deriving DecidableEq, Repr

/-- Who asked for a store operation. -/
inductive StoreUser | command | herdbook | commit
deriving DecidableEq, Repr

/-- A store program or erase in progress (18 R668, R671). -/
structure StoreOp where
  erase : Bool
  sector : Nat
  page : Nat
  data : List Word
  pulseMode : Bool
  user : StoreUser
  /-- ERASE_COUNT that the header row will hold (R666). -/
  count : Nat
  /-- Suspended because PWRWARN_N was accepted (R672). -/
  forPwr : Bool
  /-- TU_LOCAL when the erase last resumed; 0 before its first resume. -/
  runTick : Nat
deriving DecidableEq, Repr

/-- A commit that programs a slot or activates it (18 R678, R679): slot, action, image length, operations done, whether one
failed, and the task slot or Sirsis path that it answers. -/
structure FwJob where
  slot : Nat
  action : Nat
  len : Nat
  done : Nat
  failed : Bool
  task : Option Nat
  path : Option Nat
deriving DecidableEq, Repr

/-- A boot record (18 Table 18-4). -/
structure BootRec where
  seq : Nat
  active : Nat
  previous : Nat
  next : Nat
  trial : Bool
  attempts : Nat
  reverted : Bool
deriving DecidableEq, Repr

/-- Firmware store (18). Page contents are 128 words; an unlisted page is blank (all 0xFF). -/
structure Fws where
  sectors : SMap Sector
  pages : SMap (List Word)
  op : Option StoreOp
  /-- An erase suspended while another operation runs (R671). -/
  suspended : Option StoreOp
  result : Nat
  pulses : Nat
  lastSector : Nat
  recovery : Bool
  unsigned : Bool
  bootSlot : Nat
  /-- Level in the protection row (0 or 1) and its ERASE_PENDING mark (R681 to R683). -/
  rowLevel : Nat
  erasePending : Bool
  record : BootRec
  /-- Staging buffer, one byte per offset, and the 4 KiB granules written since the last commit (R678). -/
  staging : SMap Byte
  granules : List Nat
  /-- The commit in progress (R678). -/
  job : Option FwJob
  /-- Settings in force in the configuration region by identity, and changes not yet programmed (R680). -/
  saved : SMap (List Nat)
  dirty : SMap (List Nat)
  /-- SEQ of the last settings page and its sector (R680). -/
  settingsSeq : Nat
  settingsSector : Nat
  /-- Execute-in-place line stores (R669): prefetched lines and branch-cache lines, most recent first. -/
  prefetch : List Nat
  branch : List Nat
deriving DecidableEq, Repr

/-- A Herdbook record (19 Table 19-2) without CHECK and MARK, which are computed. -/
structure HbRec where
  seq : Nat
  sec : Nat
  ns : Nat
  typ : Nat
  sev : Nat
  source : Nat
  tqual : Nat
  index : Nat
  detail : List Nat
deriving DecidableEq, Repr

/-- What the EVC keeps for one source (19 R693 to R697). `tokens` is none until first used after boot: full. -/
structure EvcSrc where
  tokens : Option Nat
  supp : Nat
  firstSec : Nat
  firstNs : Nat
  lastSec : Nat
  lastNs : Nat
  lastIndex : Nat
  lastSev : Nat
  occ : Nat
deriving DecidableEq, Repr

/-- A Herdbook record with the store sector that holds it. -/
structure HbCell where
  sector : Nat
  body : HbRec
deriving DecidableEq, Repr

/-- Event Controller (19). -/
structure Evc where
  src : SMap EvcSrc
  /-- EVC_CFG.BURST at boot, the tokens of a bucket not yet touched. -/
  bootBurst : Nat
  /-- Staging FIFO, oldest first; records without SEQ. -/
  fifo : List HbRec
  /-- Page buffer being filled and the one being programmed (R698). -/
  filling : List HbRec
  programming : Option (List HbRec)
  nextSeq : Nat
  /-- Exempt occurrences lost since the last record of source 866. -/
  lost : Nat
  curSector : Nat
  ring : List HbCell
  /-- Bad Herdbook sectors (292 to 323). -/
  badSectors : List Nat
  sramRing : List HbRec
  mirror : List HbRec
  /-- Highest SEQ in the mirror, and whether a record waits for it at once (R700). -/
  mirrorSeq : Nat
  mirrorNow : Bool
  mirrorOn : Bool
  mirrorDown : Bool
deriving DecidableEq, Repr

end Sys2Proof.Machine
end

