-- ==== Sys2Proof/Machine/StateMedia.lean ====
section
/-! DEFINITION. State of the media side: zones and stripes (06), flash links and dies (07), the cell level channel (08),
retention (09), the write path (10), media management (11), the journal (12), integrity tags (13), buffer pools (14) and
the DRAM controller (15). A die-block reference is die + block × 4096 (12 R464), a zone key is namespace index × 262144 +
zone, a unit key is namespace index × 2⁴⁰ + LBA. Plain data. -/

namespace Sys2Proof.Machine

/-- A namespace (04 R124, 05 R175, 06). -/
structure Ns where
  valid : Bool
  tenant : Nat
  nsid : Nat
  conv : Bool
  /-- Zones, or LBAs of a conventional namespace. -/
  size : Nat
  /-- CNTLIDs of the owner's controllers it is attached to. -/
  attached : List Nat
  /-- Next commit stamp. -/
  stamp : Nat
  /-- An SES = 1 Format runs (12 R486). -/
  formatting : Bool
deriving DecidableEq, Repr

/-- The seven zone states (06 Table 06-2). -/
inductive ZoneSt | empty | implicit | explicit | closed | readOnly | full | offline
deriving DecidableEq, Repr

/-- A zone descriptor (06). Pointers are offsets from ZSLBA. -/
structure Zone where
  st : ZoneSt
  wp : Nat
  adm : Nat
  dataEnd : Nat
  zcap : Nat
  zfc : Bool
  zgen : Nat
  hint : Nat
  stripe : Option Nat
  reserve : List Nat
  /-- Admission order of its last admitted write (R205). -/
  lastOrder : Nat
  /-- Admission closed by a pending shrink (R209). -/
  shrinking : Bool
  /-- Refresh or re-base target stripe (11 R432, 12 R472), and whether it is a re-base. -/
  target : Option Nat
  rebase : Bool
deriving DecidableEq, Repr

/-- A stripe (06 Table 06-1, R225; 12 BIND): die-blocks in member order; for a log stripe `zone` is none. -/
structure Stripe where
  live : Bool
  zone : Option Nat
  tenant : Nat
  members : List Nat
  /-- Members lost without replacement, and replacements being written: member and rows done (R440). -/
  lost : List Nat
  rebuild : List (Nat × Nat)
  waiting : Bool
  /-- Rows with an accepted ROW-ISSUE, ROW-PROG and SKIM record. -/
  issued : List Nat
  prog : List Nat
  skimmed : List Nat
  sealed : Bool
  sealedAt : Nat
  /-- Units placed in the open row of a log stripe, in landing order (R225). -/
  filling : List Nat
deriving DecidableEq, Repr

/-- Die-block states (11 Table 11-1). -/
inductive BlkSt | needsErase | erasing | free | ready | reserved | bound | released | retired | lost
deriving DecidableEq, Repr

/-- A die-block (11 R415): `stage` of an erase: 0 none, 1 ERASE-BEGIN issued, 2 ERASE sent, 3 verify sent, 4 header
issued. `unconf`: ERASE-BEGIN with no block header after it. `snaps` and `stamps` are the age groups of 09 R331. -/
structure Block where
  st : BlkSt
  mode : Nat
  wear : Nat
  senses : Nat
  owner : Nat
  stripe : Option Nat
  unconf : Bool
  recovery : Bool
  stage : Nat
  /-- Wordlines fine-programmed. -/
  wl : Nat
  snaps : SMap (Option Nat)
  stamps : SMap Nat
deriving DecidableEq, Repr

/-- A Cooler slice (10 R397): its stripe, the unit keys it holds, and whether it only holds the Pail of an unverified
row; its lanes' blocks, and the number of each codeword in its block. -/
structure Slice where
  stripe : Nat
  row : Nat
  units : List Nat
  pailOnly : Bool
  refs : List Nat
  spots : List Nat
deriving DecidableEq, Repr

/-- Sanitize or Format progress (05 R182, 12 R483 to R486). `action` is JNL_SAN_STATUS.ACTION; `status` the state of the
Sanitize Status log: 0 never, 1 completed, 2 in progress, 3 failed. -/
structure San where
  active : Bool
  action : Nat
  tenant : Nat
  ns : Option Nat
  passes : Nat
  pass : Nat
  work : List Nat
  total : Nat
  unreached : Nat
  status : Nat
  ause : Bool
  slot : Option Nat
  oipbp : Bool
  pattern : Nat
deriving DecidableEq, Repr

/-- What an accepted FMT, SAN or NSCFG record wipes (12 R483, R486, 17 R649): the namespaces of a tenant; `kind` 0 Format
without erase, 1 Format with erase, 2 Sanitize, 3 deletion; `san`: the progress that begins with it. -/
structure Wipe where
  tenant : Nat
  nss : List Nat
  kind : Nat
  san : San
deriving DecidableEq, Repr

/-- The tables that journal records rebuild (12 Table 12-1). -/
structure Tables where
  nss : SMap Ns
  zones : SMap Zone
  stripes : SMap Stripe
  blocks : SMap Block
  slices : SMap Slice
  /-- Homes of recall groups: mask × 2 + pinned (06 R218, R220). -/
  homes : SMap Nat
  /-- Skip lists and grown maps, key die × 4 + plane; a grown entry is group × 16 + hits (08 R288, R305). -/
  skips : SMap (List Nat)
  grown : SMap (List Nat)
  lostDies : List Nat
  lostUnits : List Nat
  san : San
  /-- The last Sanitize of each tenant, running or ended (05 R182). -/
  sanLog : SMap San
deriving DecidableEq, Repr

/-- One version of a stored 4 KiB unit (10 Table 10-1, 13 Table 13-2): `data` is the number its bytes spell. -/
structure UnitV where
  data : Nat
  stamp : Nat
  kind : Nat
  zgen : Nat
  rgen : Nat
  tenant : Nat
  keyId : Nat
  tag : Nat
  durable : Bool
  /-- Its copy in the Vat is still there. -/
  vat : Bool
  /-- A slice that holds it. -/
  slice : Option Nat
  /-- Conventional: stripe, row and position in the row. -/
  place : Option (Nat × Nat × Nat)
deriving DecidableEq, Repr

/-- A die operation (07 Table 07-9). -/
inductive OpKind | readPage | readLevel | foggy | fine | one | erase | verify
deriving DecidableEq, Repr

/-- An operation running or waiting on a die. `cls` is the serving class of R263 (1 SLC programs of journal, Cooler and
mirror, 2 tenant, 3 internal), `dcls` the decoder class of R310, `work` the MME class (0 none, 1 Churn, 2 refresh,
3 rebuild), `cws` the codewords a read serves, `probe` 1 for a probe of R345 and 2 for a scan probe of R434, `free` a
read or SLC program that draws on a suspended operation's token. `offs` and `vbase` are set when it is sent. -/
structure DieOp where
  kind : OpKind
  block : Nat
  wl : Nat
  mode : Nat
  page : Nat
  planes : Nat
  col : Nat
  count : Nat
  vbase : Int
  offs : List Int
  tenant : Option Nat
  cls : Nat
  dcls : Nat
  work : Nat
  cws : List Nat
  probe : Nat
  free : Bool
  suspended : Bool
  suspensions : Nat
  reads : Nat
  resumeTick : Nat
  recovery : Bool
  arrived : Nat
deriving DecidableEq, Repr

/-- One die (07 R252 to R266; 08; 09). `op` is the program, erase or verify that runs, `reading` the reads sent and not
answered, oldest first; `held`: foggy wordlines in the bridge, block and wordline, oldest first. -/
structure Die where
  op : Option DieOp
  /-- SUSPEND, RESUME and RESET_DIE sent and not answered. -/
  suspSent : Bool
  resumeSent : Bool
  resetSent : Bool
  waiting : List DieOp
  reading : List DieOp
  held : List (Nat × Nat)
  /-- TU_LOCAL of its operation timeouts. -/
  timeouts : List Nat
  temp : Option Int
  throttle : Bool
  draining : Bool
  /-- READ_DEFECTS of its planes not yet answered. -/
  defectsLeft : Nat
  usable : Bool
deriving DecidableEq, Repr

/-- Link states of FLC_LN_STATUS.STATE. -/
structure Link where
  st : Nat
  cause : Nat
  lock : Bool
  stored : Bool
  haveStored : Bool
  storedSerial : Nat
  serial : Nat
  lost : Bool
  failed : Bool
  /-- TU_LOCAL when declared failed. -/
  failTick : Nat
  faults : Nat
  firstDone : Bool
  misses : Nat
  /-- Hunt candidates: bit positions (R246). -/
  cands : List Nat
  /-- Sequence numbers: next to send, unacknowledged oldest first, last accepted (4095: none). -/
  txNext : Nat
  unacked : List Nat
  rxLast : Nat
  nakSent : Bool
  /-- TU_LOCAL of the last NAK sent. -/
  nakTick : Nat
  lastNak : Option Nat
  resends : Nat
  tempMax : Nat
  tempDie : Nat
  standby : Bool
  awaitCal : Bool
deriving DecidableEq, Repr

/-- Link-group gating (R267). -/
inductive GateSt | awake | draining | gated | waking
deriving DecidableEq, Repr

/-- Flash Link Controller (07). -/
structure Flc where
  links : SMap Link
  dies : SMap Die
  groups : SMap GateSt
  /-- STANDBY sent to a tower of the group. -/
  standbySent : List Nat
  ps : Nat
  order : Nat
deriving DecidableEq, Repr

/-- One level sense of a die wordline (08 R286): its window shift and, for each plane, the codes of the first sense and
of the second with the same VBASE when one was made. -/
structure Sense where
  vbase : Int
  planes : List (Nat × List Nat × List Nat)
deriving DecidableEq, Repr

/-- A codeword being read (08 R311). `ref` and `wl` say where it lies, `pos` its place in the die wordline (06 R195);
`stripe`, `member` and `row` its place in a stripe (`inStripe`); a slice codeword has row 256, the slice in `stripe`
and its number in the slice in `member`. `cls` is the decoder class (R310); `step` the ladder step;
`st`: 0 waits for a sense, 1 sensed, 2 passed, 3 at L5, 4 failed. `hard` holds the 4,600 bytes of a page-hard read,
`sense` the level samples, `nbr` the codes of the next wordline. `cfg` is CLC_LADDER_CFG as it entered L0 (R319). -/
structure Cw where
  slot : Option Nat
  index : Nat
  key : Nat
  zgen : Nat
  ref : Nat
  wl : Nat
  inStripe : Bool
  stripe : Nat
  member : Nat
  row : Nat
  pos : Nat
  mode : Nat
  level : Bool
  cls : Nat
  step : Nat
  rereads : Nat
  st : Nat
  cfg : Nat
  hard : List Nat
  sense : Option Sense
  nbr : List Nat
  nbrBad : Bool
  /-- Highest step of L0 to L3 that has run; iterations and corrected bits of the last decode. -/
  ran : Nat
  iters : Nat
  corrected : Nat
  miscorrected : Bool
  bytes : List Nat
  parent : Option Nat
  /-- At L5: member codewords passed, with their symbols, and members failed. -/
  parts : List (Nat × List Nat)
  memFailed : List Nat
  /-- Class of the first failed tag check (13 R507): 0 none, 1 misdirected, 3 mismatch; and whether it was rebuilt. -/
  firstFail : Nat
  rebuilt : Bool
  /-- Refresh or Churn relocation it serves. -/
  moving : Bool
deriving DecidableEq, Repr

/-- Held samples (R294): the P3 buffer that holds them. -/
structure Held where
  die : Nat
  block : Nat
  wl : Nat
  handle : Nat
  sense : Sense
deriving DecidableEq, Repr

/-- The pilot reports of one sense (R298): die, block reference, wordline, VBASE, the age the read used, whether it is a
probe of R345, and per plane its number, the 31 offsets and their validity. -/
structure Report where
  die : Nat
  ref : Nat
  wl : Nat
  vbase : Int
  age : Nat
  probe : Bool
  planes : List (Nat × List Int × Bool)
deriving DecidableEq, Repr

/-- Cell Level Channel (08). -/
structure Clc where
  cws : SMap Cw
  next : Nat
  held : SMap Held
  nextHeld : Nat
  exits : SMap Nat
  /-- Last host read end per zone, most recent first: zone key, LBA (R293). -/
  seq : List (Nat × Nat)
  /-- Hit counters, key (die × 4 + plane) × 1024 + group (R305). -/
  hits : SMap Nat
  reports : List Report
deriving DecidableEq, Repr

/-- Model inputs of a die (09 R351): c[1] to c[31], τ, β. -/
structure Model where
  c : List Int
  tau : Nat
  beta : Nat
deriving DecidableEq, Repr

/-- What the RCU keeps for a die (09). `age` is A in 2⁻³² reference minutes. -/
structure DieAge where
  age : Nat
  sat : Bool
  base : Nat
  dark : Nat
  powered : Nat
  delta : Int
  refreshed : Nat
  ticking : Bool
  /-- Time at which its dark interval ended: TU seconds, and TU_LOCAL then (R340). -/
  endSec : Option Nat
  endTick : Nat
  overridden : Bool
  probing : Bool
  probe : Option (Nat × Nat × Nat)
  cal : Option Model
  loaded : Option Model
  learned : Option (List Int)
deriving DecidableEq, Repr

/-- An accepted shelf-climate record (R341). -/
structure Climate where
  start : Nat
  interval : Nat
  mask : Nat
  samples : List Int
deriving DecidableEq, Repr

/-- A time mark (01 R41): TU seconds, NS, and tower temperatures. -/
structure Mark where
  sec : Nat
  ns : Nat
  temps : List (Option Int)
deriving DecidableEq, Repr

/-- Retention and Calibration Unit (09). -/
structure Rcu where
  dies : SMap DieAge
  b : Nat
  shelfValid : Bool
  source : Nat
  climate : Option Climate
  sealed : Bool
  lockLate : Bool
  clockBack : Bool
  probesDone : Bool
  lockedAtSeal : Bool
  darkMin : Option Nat
  /-- The latest accepted time mark, and those accepted after the last checkpoint, oldest first. -/
  lastMark : Option Mark
  marks : List Mark
  /-- Age clocks as the newest checkpoint holds them, key die, in 2⁻³² minutes. -/
  ckptAges : SMap Nat
  ckptRefreshed : SMap Nat
  ckptLearned : SMap (Option (List Int))
  /-- The same as the running image captured them, and the marks since its TIME record. -/
  imgAges : SMap Nat
  imgRefreshed : SMap Nat
  imgLearned : SMap (Option (List Int))
  imgMarks : List Mark
  /-- Pre-seal snapshots: block reference and age group (R349). -/
  preseal : List (Nat × Nat)
deriving DecidableEq, Repr

/-- Skim results of one member so far (10 R391, R392): codewords left, Marginal ones, any Failed, pilots valid and σ
within SIGMA_MAX on every plane, and the verdict: 1 Good, 2 Weak, 3 Bad. -/
structure SkimM where
  left : Nat
  marginal : Nat
  failed : Bool
  pilotsBad : Bool
  sigmaBad : Bool
  verdict : Nat
deriving DecidableEq, Repr

/-- A row in programming or awaiting its Skim (10 R386 to R393). `st`: 0 ROW-ISSUE issued, 1 programming, 2 ROW-PROG
issued, 3 programmed, Skim running. -/
structure RowSt where
  st : Nat
  foggy : List Nat
  sent : List Nat
  fineSent : List Nat
  fine : List Nat
  /-- The row still holds its Vat references, and its Pail codewords. -/
  vat : Bool
  pail : Bool
  skim : SMap SkimM
deriving DecidableEq, Repr

/-- Write Path Engine (10). -/
structure Wpe where
  /-- Set-asides of rows not yet complete, bytes not yet filled, key stripe × 256 + row (R377). -/
  setAside : SMap Nat
  /-- Vat buffers referenced by a row: key stripe × 256 + row (R380). -/
  rowBufs : SMap (List Nat)
  /-- Rows in progress, key stripe × 256 + row. -/
  rows : SMap RowSt
  full : Bool
  areaBlocks : List Nat
  nextSlice : Nat
  /-- Open log stripe of each tenant, key tenant, value stripe + 1. -/
  openLog : SMap Nat
  /-- Staging-area size in die-blocks that this boot uses (R412). -/
  areaN : Nat
deriving DecidableEq, Repr

/-- A refresh request (11 Table 11-3): class, order within the class, stripe. -/
structure Refresh where
  cls : Nat
  order : Nat
  stripe : Nat
deriving DecidableEq, Repr

/-- Media Management Engine (11). -/
structure Mme where
  ready : List (List Nat)
  /-- Matching entries per home, key recall group. -/
  homeReady : SMap (List (List Nat))
  queue : List Refresh
  current : Option Nat
  /-- Rows of the refresh target that have been written. -/
  currentRows : Nat
  churning : Bool
  victim : Option Nat
  passActive : Bool
  cursor : Nat
  /-- Scan cursor in the newest complete image and in the running one (R434). -/
  ckptCursor : Nat
  imgCursor : Nat
  scanned : Nat
  passQueued : List Nat
  wlQueued : Bool
  remaps : Nat
  /-- Classes at or above their ceiling, and below their floor, in the last window: bit 0 Churn, 1 refresh, 2 rebuild. -/
  above : Nat
  below : Nat
  /-- Conventional namespaces are write-protected (06 R215). -/
  convWp : Bool
deriving DecidableEq, Repr

/-- What replaces a table entry when a record is accepted. -/
inductive Patch
  | ns (k : Nat) (v : Ns)
  | zone (k : Nat) (v : Zone)
  /-- The binding of a zone: stripe, target, whether the target is a re-base target. -/
  | bind (k : Nat) (stripe target : Option Nat) (rebase : Bool)
  | stripe (k : Nat) (v : Stripe)
  | block (k : Nat) (v : Block)
  | slice (k : Nat) (v : Slice)
  | dropSlice (k : Nat)
  | home (k v : Nat)
  /-- The hint word of a range of zones: namespace, first zone, count, word. -/
  | hints (ns first count hint : Nat)
  | skip (k : Nat) (v : List Nat)
  | grown (k : Nat) (v : List Nat)
  | dieLost (k : Nat)
  | lostUnit (k : Nat) (gone : Bool)
  | san (v : San)
deriving DecidableEq, Repr

/-- What follows the acceptance of a record (12 Table 12-4). -/
inductive After
  | nothing
  | sendErase (ref : Nat)
  | startRow (stripe row : Nat)
  | rowDurable (stripe row : Nat)
  | rowVerified (stripe row : Nat)
  | sliceDurable (slice : Nat)
  | dropUnits (ns lo n stamp : Nat)
  /-- Ranges: first LBA and length. -/
  | dealloc (ns stamp : Nat) (ranges : List (Nat × Nat))
  | timeMark (sec ns : Nat) (temps : List (Option Int))
  | clean
  | releaseSource (stripe : Nat)
  | wipe (w : Wipe)
  | ckptBegun
  | ckptEnded
deriving DecidableEq, Repr

/-- A journal record (12 R464): TYPE of Table 12-3, its identifying payload words, what it changes and what follows. -/
structure Rec where
  typ : Nat
  words : List Nat
  patches : List Patch
  after : After
deriving DecidableEq, Repr

/-- A journal page in flight (12 R461, R462). -/
structure JPage where
  seq : Nat
  first : Nat
  recs : List Rec
  pair : Nat
  ok : Bool
deriving DecidableEq, Repr

/-- A commit that is not yet wholly durable (12 R467). -/
structure Commit where
  ns : Nat
  stamp : Nat
  jsn : Nat
  slba : Nat
  nlb : Nat
  postTick : Option Nat
  missed : Bool
  /-- Journal volume when its COMMIT was issued. -/
  vol : Nat
deriving DecidableEq, Repr

/-- The JNL (12). -/
structure Jnl where
  buffer : List Rec
  nextJsn : Nat
  nextSeq : Nat
  pages : List JPage
  /-- Records below this JSN are accepted. -/
  accJsn : Nat
  accSeq : Nat
  /-- TYPE of the last accepted record that is not TIME or PAD (R479). -/
  lastType : Nat
  commits : List Commit
  /-- Journal pairs in service: two block references each (R461); emergency pairs (R465). -/
  pairs : List (Nat × Nat)
  emergency : List (Nat × Nat)
  ckptActive : Bool
  /-- BEGIN and END of the running image: JSN of CKPT-BEGIN, and a trigger held until it completes. -/
  ckptJsn : Nat
  ckptHeld : Bool
  ckptForQuiesce : Bool
  imageSeq : Nat
  lastSeq : Nat
  /-- Journal bytes issued; the value at the replay-from JSN of the newest complete image and of the running one (R476). -/
  volume : Nat
  fromVol : Nat
  ckptFrom : Nat
  /-- CKPT-END of the running image is accepted. -/
  endAccepted : Bool
  lastStart : Nat
  /-- Links of the towers that hold the newest anchor (R477), and journal blocks out of use: reference and the image
  sequence at that moment (R478). -/
  anchors : List Nat
  old : List (Nat × Nat)
  phase : Nat
  anchorFew : Bool
  gap : Bool
  unsafeLast : Bool
  phase1Tick : Nat
  phase1Ms : Nat
  phase2Ms : Nat
  rebased : Nat
  sealedLog : Nat
  anchorTower : Nat
  emergencyMode : Bool
  /-- JNL_CFG.PAIRS as this boot found it (R488). -/
  pairsN : Nat
  /-- Wipes whose record has just been accepted. -/
  wipes : List Wipe
deriving DecidableEq, Repr

/-- One key slot (13 R502, R503). -/
structure KeySlot where
  staged : SMap Nat
  marks : List Nat
  key : List Nat
  keyId : Nat
  loaded : Bool
deriving DecidableEq, Repr

/-- Keys of one tenant: slots 0 to 3, ACTIVE (none: no active key), generation number, REPORT. -/
structure TenKeys where
  slots : SMap KeySlot
  active : Option Nat
  gen : Nat
  report : Bool
deriving DecidableEq, Repr

/-- A message that holds or waits for an ITE context (13 R511, R512). -/
structure Msg where
  lane : Nat
  /-- 0 urgent, 1 normal, 2 background. -/
  cls : Nat
  blocks : Nat
  suspended : Bool
deriving DecidableEq, Repr

/-- Integrity Tag Engine (13). -/
structure Ite where
  keys : SMap TenKeys
  code : Nat
  kcv : Nat
  busy : Bool
  /-- A clear waiting for the writes that use the slot: tenant and slot. -/
  clearing : Option (Nat × Nat)
  /-- Tenant and KCV that ITE_KEY_RESULT will show when the slot state is programmed. -/
  nextTenant : Nat
  nextKcv : Nat
  msgs : List Msg
deriving DecidableEq, Repr

/-- A buffer that is not Free: state 1 Allocated or 2 Retired, and its side-table entry (14 R523). -/
structure Buf where
  st : Nat
  owner : Nat
  tenant : Nat
  refs : Nat
deriving DecidableEq, Repr

/-- A waiting allocation (14 R528). -/
structure Waiter where
  port : Nat
  owner : Nat
  tenant : Nat
deriving DecidableEq, Repr

/-- One pool (14). The free list: buffers freed since initialisation, most recent first, over the never-used tail that
starts at `fresh`. -/
structure Pool where
  freed : List Nat
  fresh : Nat
  waiters : List Waiter
  rebuilding : Bool
deriving DecidableEq, Repr

/-- Buffer Pool Manager (14). Buffers by handle, counters by pool × 16 + SEL. -/
structure Bpm where
  pools : SMap Pool
  bufs : SMap Buf
  counters : SMap Nat
  /-- BPM_LAST_ERR: handle, cause; BPM_LAST_ERR2: owner, port, op. -/
  errHandle : Nat
  errCause : Nat
  errOwner : Nat
  errPort : Nat
  errOp : Nat
  /-- Armed shadows of BPM_LAST_ERR2 and BPM_INSPECT2. -/
  errShadow : Option Nat
  inspShadow : Option Nat
  /-- Status of the last request (14 Table 14-4) and the handle it granted. -/
  status : Nat
  handle : Nat
deriving DecidableEq, Repr

/-- One bank of one channel (15 R555, R558): open row, postponed refreshes, rolling activation count, and the tracker:
row, count, activations by port, already reached once in the window. -/
structure Bank where
  openRow : Option Nat
  refreshes : Nat
  raa : Nat
  track : List (Nat × Nat × List Nat × Bool)
deriving DecidableEq, Repr

/-- DRAM Controller (15). `selfRef`: every rank is in self-refresh; `blocked`: Retained segments masked. -/
structure Dmc where
  cap : Nat
  ranks2 : Bool
  metaCopy : Bool
  retainSeg : Nat
  trained : Bool
  cold : Bool
  storedBad : Bool
  halted : Bool
  failMask : Nat
  selfRef : Bool
  masked : Bool
  panic : Nat
  /-- Throttles in force: port and bank key. -/
  throttles : List (Nat × Nat)
  /-- Banks by channel × 16 + bank. -/
  banks : SMap Bank
  /-- Refresh rate reported by each channel. -/
  rates : SMap Nat
  /-- Drift trackings and ZQ calibrations made, by channel. -/
  tracked : SMap Nat
  zq : SMap Nat
  lastAddr : Nat
  lastChannel : Nat
  lastPort : Nat
deriving DecidableEq, Repr

end Sys2Proof.Machine
end

