-- ==== Sys2Proof/Machine/State.lean ====
section
/-! DEFINITION. The machine's state, its faults and refusals, and the state after reset. -/

namespace Sys2Proof.Machine

/-- Why the block could stop. No command of the table stops it: the block has no exception entry, and every error
condition of the spec is a status, a RESULT code or an event. `unreachable` is raised by no meaning (safe). -/
inductive Fault
  /-- Raised by no meaning; kept so that the type is inhabited. Safe. -/
  | unreachable
deriving DecidableEq, Repr

/-- Refusals of the model. -/
inductive Refusal
  /-- Raised by the dispatch for a command that has no meaning yet. Safe: it stops. -/
  | notModelled (mnemonic : String)
deriving DecidableEq, Repr

/-- What leaves the block: completions, replies, frames and pin events, newest first in `State.out`. -/
inductive Out
  /-- An NVMe completion: connection, CID, SCT, SC, DNR, CRD, Dword 0, Dword 1. -/
  | completion (conn cid sct sc : Nat) (dnr : Bool) (crd dw0 dw1 : Nat)
  /-- Data of a read, a log page or an Identify sent to a host. -/
  | data (conn cid : Nat) (bytes : List Nat)
  /-- A register value returned to a reader. -/
  | value (addr : Nat) (v : Word)
  /-- An in-band interrupt of the management port with its data byte. -/
  | ibi (byte : Nat)
  /-- A PFC frame: port, priority, quanta. -/
  | pfc (port prio quanta : Nat)
  /-- A transport frame: connection, kind, argument. -/
  | frame (conn : Nat) (kind : String) (arg : Nat)
  /-- A PTP frame: kind, sequence. -/
  | ptp (kind : String) (seq : Nat)
  /-- A flash-link frame or tower command: link, kind, die, argument. -/
  | tower (link : Nat) (kind : String) (die arg : Nat)
  /-- A management-port answer: what, bytes. -/
  | mgmt (kind : String) (bytes : List Nat)
  /-- A pin driven: name, level. -/
  | pin (name : String) (level : Nat)
deriving DecidableEq, Repr

/-- The machine. -/
structure State where
  /-- Registers whose value is not their reset value: the fields with access codes RW, RWL, RC and W1C. Read-only
  fields are the state they describe. -/
  regs : SMap Nat
  /-- Armed shadows of 64-bit pairs, by address of the high word (00 R19). -/
  shadows : SMap (Option Nat)
  /-- High words written and waiting for the low word (00 R19). -/
  heldHigh : SMap (Option Nat)
  fuse : Fuses
  top : Top
  cru : Cru
  tu : Tu
  pad : Pad
  fws : Fws
  evc : Evc
  hfe : Hfe
  qe : Qe
  mgc : Mgc
  /-- Tables as commands see them, and as replay would rebuild them (12 R457). -/
  tabs : Tables
  dur : Tables
  /-- Stored units by unit key, newest version first. -/
  units : SMap (List UnitV)
  flc : Flc
  clc : Clc
  rcu : Rcu
  wpe : Wpe
  mme : Mme
  jnl : Jnl
  ite : Ite
  bpm : Bpm
  dmc : Dmc
  /-- Values drawn so far from Config's free values (the model's own field). -/
  drawn : Nat
  /-- What has left the block, newest first (the model's own field). -/
  out : List Out
  /-- Commands waiting, first in first out. -/
  pending : List Instr
deriving DecidableEq, Repr

/-! ## The state after reset: Boot, at the filtered release of PORST_N, with nothing stored -/

/-- TOP at reset (01 R48, R49, R51). -/
def top0 : Top where
  dev := .boot
  adminOk := false
  readsOk := false
  quiesceDone := false
  pwrActive := false
  pwrStuck := false
  skimSoon := false
  skimOverdue := false
  lastCause := 0
  result := 0
  skimAge := 0
  req := none
  retainedAfter := false
  reqTick := 0
  drained := false
  cleanAccepted := false
  ckptAccepted := false
  markAccepted := false
  pwrFrom := none
  powerCycles := 0
  poweredSec := 0
  unsafeCount := 0
  unsafeLast := false

/-- Fuses of a GN-CX7200-A part with every other fuse unblown. -/
def fuse0 : Fuses := ⟨false, 0, 0, false, [], [], 0, 0, 0⟩

/-- The CRU at reset (16 R611 to R618): root on REFCLK_CORE, nothing in progress. -/
def cru0 : Cru where
  rootMode := 0
  coreGood := false
  netGood := false
  rcReady := false
  rcGood := false
  accOnNet := false
  netOnRoot := false
  progHold := false
  doubleFault := false
  current := 0
  switching := none
  retrying := none
  heldReq := none
  relocking := false
  lastForced := false
  refusalFired := false
  coreBadRun := 0
  netBadRun := 0
  rcBadRun := 0
  coreCount := 0
  netCount := 0
  rcCount := 0
  vsNet := false
  coreStopped := false
  netStopped := false
  accFrozen := false
  netFrozen := false
  cause := 0
  devResets := 0
  stage := .early

/-- The TU at reset (16 R604): Unset, time 0. -/
def tu0 : Tu where
  t := 0
  ticks := 0
  st := 0
  srcRoot := false
  stepRefused := false
  integ := 0
  lockRun := 0
  unlockRun := 0
  offset := 0
  stepTick := 0
  holdTick := 0
  utcPtp := none
  delays := []
  shadowLo := none
  shadowHi := none

/-- PAD at reset: every strap 0, every input high, rails good, fuses not yet sensed. -/
def pad0 : Pad where
  hmode := 0
  mgmtI3c := false
  mgmtAddr := 0
  testmode := false
  bad := 0
  testJudged := false
  pins := []
  stuck := false
  railsGood := true
  porstLow := false
  vidValid := true
  vidCode := 10
  fusesSensed := false
  tj := 0
  tjMax := 0
  throttle := false
  hold := false
  thermtrip := false
  tapIr := 1
  bsr := 0
  drive := .functional

/-- A firmware store with nothing programmed, at PL0. -/
def fws0 : Fws where
  sectors := []
  pages := []
  op := none
  suspended := none
  result := 0
  pulses := 0
  lastSector := 0
  recovery := false
  unsigned := false
  bootSlot := 0
  rowLevel := 0
  erasePending := false
  record := ⟨0, 0, 0, 0, false, 0, false⟩
  staging := []
  granules := []
  job := none
  saved := []
  dirty := []
  settingsSeq := 0
  settingsSector := 324
  prefetch := []
  branch := []

/-- The EVC at reset: empty FIFO, empty Herdbook, SEQ 1 next. -/
def evc0 : Evc where
  src := []
  bootBurst := 8
  fifo := []
  filling := []
  programming := none
  nextSeq := 1
  lost := 0
  curSector := 292
  ring := []
  badSectors := []
  sramRing := []
  mirror := []
  mirrorSeq := 0
  mirrorNow := false
  mirrorOn := false
  mirrorDown := false

/-- The HFE at reset: mode 0, every lane and port down. -/
def hfe0 : Hfe where
  mode := 0
  training := false
  strapBad := false
  savedMode := false
  lanes := []
  ports := []
  addrs := []
  neigh := []
  conns := []
  nextConn := 1
  fifo := []
  lastTs := ⟨0, 0, false, 0, 0, 0, 0⟩
  masters := []
  counters := []
  carry := 0
  discGen := 0

/-- QE and TIU at reset: every slot Free, no tenant listed. -/
def qe0 : Qe := ⟨[], [], [], 0, 0, 0⟩

/-- The MGC at reset. -/
def mgc0 : Mgc where
  activeBank := 0
  buf := []
  portOff := 0
  taskSt := 0
  overrun := false
  ibiEn := false
  replyLen := 0
  dynAddr := none
  ibiAllowed := false
  hdrIgnore := false
  paths := []
  loads := []
  scLoad := 0
  shed := false
  lowRun := 0
  admitted := []
  admittedAll := 0
  svcSum := 0
  svcCount := 0
  actPhase := 0
  actFailed := false
  actSlot := 0
  pauseUs := 0
  resetPending := false
  revision := 0
  hoOwn := 0
  actHeld := 0

/-- No Sanitize. -/
def san0 : San := ⟨false, 0, 0, none, 0, 0, [], 0, 0, 0, false, none, false, 0⟩

/-- Empty tables: the device's first use. -/
def tables0 : Tables := ⟨[], [], [], [], [], [], [], [], [], [], san0, []⟩

/-- The FLC at reset: every link Off, power state 0. -/
def flc0 : Flc := ⟨[], [], [], [], 0, 0⟩

/-- The CLC at reset. -/
def clc0 : Clc := ⟨[], 0, [], 0, [], [], [], []⟩

/-- The RCU at reset (09 R363). -/
def rcu0 : Rcu := ⟨[], 0x31DCF52D, false, 0, none, false, false, false, false, false, none, none, [], [], [], [], [], [], [], [], []⟩

/-- The WPE at reset. -/
def wpe0 : Wpe := ⟨[], [], [], false, [], 0, [], 4096⟩

/-- The MME at reset. -/
def mme0 : Mme := ⟨[], [], [], none, 0, false, none, false, 0, 0, 0, 0, [], false, 0, 0, 0, false⟩

/-- The JNL at reset: an empty journal. -/
def jnl0 : Jnl where
  buffer := []
  nextJsn := 0
  nextSeq := 0
  pages := []
  accJsn := 0
  accSeq := 0
  lastType := 0x1E
  commits := []
  pairs := []
  emergency := []
  ckptActive := false
  ckptJsn := 0
  ckptHeld := false
  ckptForQuiesce := false
  imageSeq := 0
  lastSeq := 0
  volume := 0
  fromVol := 0
  ckptFrom := 0
  endAccepted := false
  lastStart := 0
  anchors := []
  old := []
  phase := 0
  anchorFew := false
  gap := false
  unsafeLast := false
  phase1Tick := 0
  phase1Ms := 0
  phase2Ms := 0
  rebased := 0
  sealedLog := 0
  anchorTower := 0
  emergencyMode := false
  pairsN := 4
  wipes := []

/-- The ITE at reset: no key. -/
def ite0 : Ite := ⟨[], 0, 0, false, none, 0, 0, []⟩

/-- The BPM at reset: every buffer Free. -/
def bpm0 : Bpm := ⟨[], [], [], 0, 0, 0, 0, 0, none, none, 0, 0⟩

/-- The DMC at reset: not trained. -/
def dmc0 : Dmc where
  cap := 0
  ranks2 := false
  metaCopy := false
  retainSeg := 0
  trained := false
  cold := false
  storedBad := false
  halted := false
  failMask := 0
  selfRef := false
  masked := false
  panic := 0
  throttles := []
  banks := []
  rates := []
  tracked := []
  zq := []
  lastAddr := 0
  lastChannel := 0
  lastPort := 0

/-- The machine right after reset. -/
def State.reset : State where
  regs := []
  shadows := []
  heldHigh := []
  fuse := fuse0
  top := top0
  cru := cru0
  tu := tu0
  pad := pad0
  fws := fws0
  evc := evc0
  hfe := hfe0
  qe := qe0
  mgc := mgc0
  tabs := tables0
  dur := tables0
  units := []
  flc := flc0
  clc := clc0
  rcu := rcu0
  wpe := wpe0
  mme := mme0
  jnl := jnl0
  ite := ite0
  bpm := bpm0
  dmc := dmc0
  drawn := 0
  out := []
  pending := []

end Sys2Proof.Machine
end

