-- ==== Sys2Proof/Machine/Defaults.lean ====
section
/-! DEFINITION. What an unlisted entry of each sparse collection reads as: the reset contents. -/

namespace Sys2Proof.Machine

/-- An input: high, stable, no transition counted (20 R716). -/
def pin0 : Pin := ⟨true, true, 0, false⟩

/-- A sector with no header row: unerased (18 R666). -/
def sector0 : Sector := ⟨false, 0, 0, 0, 0, false, 0⟩

/-- A source untouched since boot: full bucket, nothing suppressed. -/
def evcSrc0 : EvcSrc := ⟨none, 0, 0, 0, 0, 0, 0, 0, 0⟩

/-- A lane that has not trained. -/
def lane0 : Lane := ⟨false, false, false, false, 0⟩

/-- A priority with nothing received and nothing paused. -/
def prio0 : Prio := ⟨0, false, false, false, 0⟩

/-- A port that is down. -/
def port0 : Port := ⟨0, 0, 0, false, false, false, prio0, prio0⟩

/-- An invalid address entry. -/
def addr0 : AddrEntry := ⟨false, false, 0, 0, 0⟩

/-- No capsule. -/
def capsule0 : Capsule := ⟨0, 0, 0, 0, 0, 0, 0, 0, 0, 0, 0, []⟩

/-- No connection: port 8 does not exist. -/
def conn0 : Conn :=
  { tcp := false, port := 8, entry := 0, tenant := 0, role := .unassigned, cntlid := 0, qid := 0, sqsize := 0,
    waitHop := none, ring := [], rate := 0, tCut := none, tStep := 0, lastCnp := none, psn := 0, txPsn := 0, unacked := [],
    retries := 0, rnrRetries := 0, rnrWaiting := false, cfg := 0, icDone := false, hdgst := false, ddgst := false,
    maxR2t := 0 }

/-- No timestamp. -/
def ptpTs0 : PtpTs := ⟨0, 0, false, 0, 0, 0, 0⟩

/-- A tenant page as after reset: empty access list, full bucket, credit 0. -/
def tenant0 : Tenant := ⟨[], none, 0, 0, 0, false, 0, false, 0, 0, 0, 0, 0, 0⟩

/-- No namespace. -/
def ns0 : Ns := ⟨false, 0, 0, false, 0, [], 0, false⟩

/-- No controller. -/
def ctl0 : Ctl :=
  { live := false, host := 0, conn := 0, port := 0, kato := 0, kaTick := 0, cc := 0, shst := 0, shutting := false,
    tempOver := 0xFFFF, tempUnder := 0, wce := false, aec := 0, acre := false, aers := [], waitingEv := [], unread := [], changedNs := [],
    changedZones := [], errors := [], anaCount := 0, shutWait := [] }

/-- A Free task slot. -/
def task0 : Task :=
  { st := .free, conn := 0, tenant := 0, cntlid := 0, sqid := 0, admin := false, cap := capsule0, ns := 0, slba := 0,
    nlb := 0, fua := false, append := false, zeroes := false, stamp := 0, order := 0, bufs := [], units := [],
    held := false, moved := 0, zones := [], sct := 0, sc := 0, dnr := false, dw0 := 0, dw1 := 0, waitJsn := none,
    waitDurable := [], passed := [], failed := [], slow := false, internal := false, lost := false }

/-- A Sirsis path with nothing in progress. -/
def path0 : SirPath := ⟨none, none, none, 0, 0, [], 0⟩

/-- A unit not received. -/
def tunit0 : TUnit := ⟨0, 0, 0, none, false⟩

/-- An Empty zone with full capacity (06 R194). -/
def zone0 : Zone := ⟨.empty, 0, 0, 0, 1024000, false, 0, 0, none, [], 0, false, none, false⟩

/-- No stripe. -/
def stripe0 : Stripe := ⟨false, none, 0, [], [], [], false, [], [], [], false, 0, []⟩

/-- A die-block at first use: Needs-erase, wear 0, owned by nobody (11 R416, R417). -/
def block0 : Block := ⟨.needsErase, 0, 0, 0, 0xFFFF, none, false, false, 0, 0, [], []⟩

/-- No slice. -/
def slice0 : Slice := ⟨0, 0, [], false, [], []⟩

/-- A die with nothing running. -/
def die0 : Die := ⟨none, false, false, false, [], [], [], [], none, false, false, 0, true⟩

/-- A link that is Off. -/
def link0 : Link where
  st := 0
  cause := 0
  lock := false
  stored := false
  haveStored := false
  storedSerial := 0
  serial := 0
  lost := false
  failed := false
  failTick := 0
  faults := 0
  firstDone := false
  misses := 0
  cands := []
  txNext := 0
  unacked := []
  rxLast := 4095
  nakSent := false
  nakTick := 0
  lastNak := none
  resends := 0
  tempMax := 0
  tempDie := 0
  standby := false
  awaitCal := false

/-- No codeword. -/
def cw0 : Cw where
  slot := none
  index := 0
  key := 0
  zgen := 0
  ref := 0
  wl := 0
  inStripe := false
  stripe := 0
  member := 0
  row := 0
  pos := 0
  mode := 0
  level := false
  cls := 0
  step := 0
  rereads := 0
  st := 0
  cfg := 0
  hard := []
  sense := none
  nbr := []
  nbrBad := false
  ran := 0
  iters := 0
  corrected := 0
  miscorrected := false
  bytes := []
  parent := none
  parts := []
  memFailed := []
  firstFail := 0
  rebuilt := false
  moving := false

/-- No held sample. -/
def held0 : Held := ⟨0, 0, 0, 0, ⟨0, []⟩⟩

/-- A die as the RCU first knows it (09 R330). -/
def dieAge0 : DieAge where
  age := 0
  sat := false
  base := 0
  dark := 0
  powered := 0
  delta := 0
  refreshed := 0
  ticking := false
  endSec := none
  endTick := 0
  overridden := false
  probing := false
  probe := none
  cal := none
  loaded := none
  learned := none

/-- A row with nothing done. -/
def row0 : RowSt := ⟨0, [], [], [], [], false, false, []⟩

/-- A member not yet Skimmed. -/
def skim0 : SkimM := ⟨0, 0, false, false, false, 0⟩

/-- An empty key slot. -/
def slot0 : KeySlot := ⟨[], [], [], 0, false⟩

/-- A tenant with no key; its generation number is 1 (13 R503). -/
def keys0 : TenKeys := ⟨[], none, 1, false⟩

/-- A Free buffer. -/
def buf0 : Buf := ⟨0, 0, 0x3FF, 0⟩

/-- A pool whose buffers are all Free. -/
def pool0 : Pool := ⟨[], 0, [], false⟩

/-- A bank with no row open. -/
def bank0 : Bank := ⟨none, 0, 0, []⟩

end Sys2Proof.Machine
end

