-- ==== Sys2Proof/Config.lean ====
section
/-! DEFINITION. What an implementation fixes and the spec leaves open: the free values. -/

namespace Sys2Proof.Config

/-- A free value: what the spec leaves without a stated value. Nothing constrains it. `State.drawn` numbers the draws. -/
opaque freeValue : Nat → Nat

/-- Values that an implementation fixes and the spec does not state: 0 the I3C provisional ID, 1 BCR, 2 DCR (17 R637). -/
opaque fixedValue : Nat → Nat

end Sys2Proof.Config
end

