-- ==== Sys2Proof/Machine/EvcTable.lean ====
section
/-! DEFINITION. The event sources of 19 Table 19-1: which exist, their severity and which are exempt (R692, R693). -/

namespace Sys2Proof.Machine

/-- The source bits of a bank that Table 19-1 does not mark reserved (R692). -/
def evcExistsMask (bank : Nat) : Nat :=
  match bank with
  | 0 => 0x3FF
  | 1 => 0xFFFFF
  | 2 => 0x1FFF
  | 3 => 0x3F
  | 4 => 0xFFFFFFFF
  | 5 => 0x7
  | 6 => 0x1F
  | 7 => 0x3F
  | 8 => 0xFFFFFFFF
  | 9 => 0xFFFFFFFF
  | 10 => 0xFFFFFFFF
  | 11 => 0xFFFFFFFF
  | 12 => 0xFFFFFFFF
  | 13 => 0xFFFFFFFF
  | 14 => 0xFFFFFFFF
  | 15 => 0xFFFFFFFF
  | 16 => 0xF
  | 17 => 0xF
  | 18 => 0x1F
  | 19 => 0x1F
  | 20 => 0x3F
  | 21 => 0x3F
  | 22 => 0xF
  | 23 => 0x3FF
  | 24 => 0x3F
  | 25 => 0x1F
  | 26 => 0x1F
  | 27 => 0xF
  | b => if b < 48 then 0xFFFFFFFF else 0

/-- Reset value of EVC_AENb: severities E and C, and every firmware source (19 Table 19-13). -/
def evcAenMask (bank : Nat) : Nat :=
  match bank with
  | 0 => 0x1D4
  | 1 => 0x50000
  | 2 => 0x1F37
  | 3 => 0x0
  | 4 => 0xDDDDDDDD
  | 5 => 0x0
  | 6 => 0x10
  | 7 => 0x2C
  | 8 => 0xFFFFFFFF
  | 9 => 0xFFFFFFFF
  | 10 => 0xFFFFFFFF
  | 11 => 0xFFFFFFFF
  | 12 => 0xFFFFFFFF
  | 13 => 0xFFFFFFFF
  | 14 => 0xFFFFFFFF
  | 15 => 0xFFFFFFFF
  | 16 => 0x0
  | 17 => 0x9
  | 18 => 0x2
  | 19 => 0x3
  | 20 => 0x1E
  | 21 => 0x29
  | 22 => 0x3
  | 23 => 0x30F
  | 24 => 0x30
  | 25 => 0x10
  | 26 => 0xB
  | 27 => 0xF
  | b => if b < 48 then 0xFFFFFFFF else 0

/-- Reset value of EVC_EXEMPTb: the sources marked × in Table 19-1. -/
def evcExemptMask (bank : Nat) : Nat :=
  match bank with
  | 0 => 0x180
  | 1 => 0x40000
  | 2 => 0x1020
  | 3 => 0x0
  | 4 => 0x0
  | 5 => 0x0
  | 6 => 0x0
  | 7 => 0x0
  | 8 => 0x0
  | 9 => 0x0
  | 10 => 0x0
  | 11 => 0x0
  | 12 => 0x0
  | 13 => 0x0
  | 14 => 0x0
  | 15 => 0x0
  | 16 => 0x0
  | 17 => 0x0
  | 18 => 0x0
  | 19 => 0x0
  | 20 => 0x10
  | 21 => 0x1
  | 22 => 0x0
  | 23 => 0x200
  | 24 => 0x10
  | 25 => 0x0
  | 26 => 0x2
  | 27 => 0x7
  | _ => 0

/-- Severities of a hardware bank, two bits a source (0 info, 1 warning, 2 error, 3 critical). -/
def evcSevWord (bank : Nat) : Nat :=
  match bank with
  | 0 => 0x3E624
  | 1 => 0x7255555555
  | 2 => 0x3AA1E6A
  | 3 => 0x144
  | 4 => 0xA6A6A6A6A6A6A6A6
  | 5 => 0x5
  | 6 => 0x245
  | 7 => 0x9A5
  | 8 => 0xAAAAAAAAAAAAAAAA
  | 9 => 0xAAAAAAAAAAAAAAAA
  | 10 => 0xAAAAAAAAAAAAAAAA
  | 11 => 0xAAAAAAAAAAAAAAAA
  | 12 => 0xAAAAAAAAAAAAAAAA
  | 13 => 0xAAAAAAAAAAAAAAAA
  | 14 => 0xAAAAAAAAAAAAAAAA
  | 15 => 0xAAAAAAAAAAAAAAAA
  | 16 => 0x15
  | 17 => 0x96
  | 18 => 0x59
  | 19 => 0x15A
  | 20 => 0x3A8
  | 21 => 0x897
  | 22 => 0x1A
  | 23 => 0xE55AA
  | 24 => 0xB55
  | 25 => 0x201
  | 26 => 0x19E
  | 27 => 0xAE
  | _ => 0

/-- Severity of a hardware source; firmware sources state it with each raise (R692). -/
def evcSev (src : Nat) : Nat := natBits (evcSevWord (src / 32)) (2 * (src % 32)) 2

/-- Whether a source exists (R692). -/
def evcExists (src : Nat) : Bool := decide (natBits (evcExistsMask (src / 32)) (src % 32) 1 = 1)

end Sys2Proof.Machine
end

