-- ==== Sys2Proof/Machine/Maps.lean ====
section
/-! DEFINITION. Operations on the sparse collections of State. Every one keeps the canonical form of `SMap`. -/

namespace Sys2Proof.Machine

/-- The value at a key, or the default. -/
def mapGet {α : Type} (d : α) (m : SMap α) (k : Nat) : α :=
  match m with
  | [] => d
  | (k', v) :: rest => if k = k' then v else mapGet d rest k

/-- Insert a pair, keeping keys rising; an existing entry is replaced. -/
def mapPut {α : Type} (m : SMap α) (k : Nat) (v : α) : SMap α :=
  match m with
  | [] => [(k, v)]
  | (k', v') :: rest =>
    if k < k' then (k, v) :: (k', v') :: rest
    else if k = k' then (k, v) :: rest
    else (k', v') :: mapPut rest k v

/-- Remove a key. -/
def mapDel {α : Type} (m : SMap α) (k : Nat) : SMap α :=
  match m with
  | [] => []
  | (k', v') :: rest => if k = k' then mapDel rest k else (k', v') :: mapDel rest k

/-- Write a value; writing the default removes the entry. -/
def mapSet {α : Type} [DecidableEq α] (d : α) (m : SMap α) (k : Nat) (v : α) : SMap α :=
  if v = d then mapDel m k else mapPut m k v

/-- Change the value at a key. -/
def mapUpd {α : Type} [DecidableEq α] (d : α) (m : SMap α) (k : Nat) (f : α → α) : SMap α :=
  mapSet d m k (f (mapGet d m k))

/-- The canonical form: keys strictly rising and no entry equal to the default. -/
def mapWf {α : Type} [DecidableEq α] (d : α) (m : SMap α) : Bool :=
  match m with
  | [] => true
  | (k, v) :: rest => decide (v ≠ d) && rest.all (fun p => decide (k < p.1)) && mapWf d rest

/-- Write to every key of a list. -/
def mapSetAll {α : Type} [DecidableEq α] (d : α) (m : SMap α) (ks : List Nat) (v : α) : SMap α :=
  ks.foldl (fun acc k => mapSet d acc k v) m

/-- Apply a change to every listed entry, dropping those that become the default. -/
def mapMapVals {α : Type} [DecidableEq α] (d : α) (f : Nat → α → α) (m : SMap α) : SMap α :=
  m.filterMap (fun p => if f p.1 p.2 = d then none else some (p.1, f p.1 p.2))

/-- The listed keys whose value satisfies a test. -/
def mapKeysWhere {α : Type} (p : Nat → α → Bool) (m : SMap α) : List Nat :=
  (m.filter (fun e => p e.1 e.2)).map Prod.fst

/-- How many listed entries satisfy a test. -/
def mapCount {α : Type} (p : Nat → α → Bool) (m : SMap α) : Nat :=
  (m.filter (fun e => p e.1 e.2)).length

end Sys2Proof.Machine
end

