-- ==== Sys2Proof/Machine/RegMap.lean ====
section
/-! DEFINITION. The register map (02 R63, and the register sections of 00, 01 and 03 to 20): for each register its
address, how it repeats, its reset domain (16 R594), who may write it, whether it is kept in the configuration
region (18 R680), and for each field its bits, access code (00 R20), reset value and the values that are not
reserved (00 R15). Below it one name per stored field. -/

namespace Sys2Proof.Machine

/-- The access codes of 00 Table 00-5. -/
inductive Access | ro | rw | w1c | wo | rc | rwl
deriving DecidableEq, Repr

/-- One field: lowest bit, width, access code, reset value, least and greatest unreserved value. -/
structure FieldDesc where
  lo : Nat
  width : Nat
  acc : Access
  reset : Nat
  least : Nat
  most : Nat
deriving DecidableEq, Repr

/-- One register, or `count` of them `stride` bytes apart. `aon`: reset domain RD_AON (16 Table 16-5), otherwise
RD_DEV. `opOnly`: only the operator writes it. `saved`: kept in the configuration region. -/
structure RegDesc where
  addr : Nat
  stride : Nat
  count : Nat
  aon : Bool
  opOnly : Bool
  saved : Bool
  fields : List FieldDesc
deriving DecidableEq, Repr

/-- A named field: register address, lowest bit, width. -/
structure Fld where
  addr : Nat
  lo : Nat
  width : Nat
deriving DecidableEq, Repr

/-- The registers of block TOP. -/
def regsTop : List RegDesc :=
  [
    ⟨0, 0, 1, true, false, false, [⟨16, 16, .ro, 0, 0, 0xFFFF⟩, ⟨8, 8, .ro, 0, 0, 0xFF⟩, ⟨4, 4, .ro, 1, 0, 0xF⟩]⟩,  -- TOP_ID (R5)
    ⟨0x10, 0, 1, false, false, false, [⟨0, 4, .ro, 1, 0, 0xF⟩, ⟨8, 1, .ro, 0, 0, 1⟩, ⟨9, 1, .ro, 0, 0, 1⟩, ⟨10, 1, .ro, 0, 0, 1⟩, ⟨11, 1, .ro, 0, 0, 1⟩, ⟨12, 1, .ro, 0, 0, 1⟩, ⟨13, 1, .ro, 0, 0, 1⟩, ⟨14, 1, .ro, 0, 0, 1⟩, ⟨15, 1, .ro, 0, 0, 1⟩, ⟨16, 4, .ro, 0, 0, 0xF⟩]⟩,  -- TOP_STATE (R48)
    ⟨0x14, 0, 1, false, false, false, [⟨0, 3, .wo, 0, 0, 7⟩, ⟨4, 2, .ro, 0, 0, 3⟩]⟩,  -- TOP_STATE_CTL (R49)
    ⟨0x18, 0, 1, false, false, false, [⟨0, 16, .rw, 0x3E8, 0, 0x2710⟩]⟩,  -- TOP_QUIESCE_CFG (R50)
    ⟨0x20, 0, 1, false, false, false, [⟨0, 32, .ro, 0, 0, 0xFFFFFFFF⟩]⟩,  -- TOP_SKIM_AGE (R51)
    ⟨0x24, 0, 1, false, true, true, [⟨0, 32, .rw, 0x423A8, 0, 0xFFFFFFFF⟩]⟩  -- TOP_SKIM_DUE (R52)
  ]

/-- The registers of block CRU. -/
def regsCru : List RegDesc :=
  [
    ⟨0x1000000, 0, 1, true, false, false, [⟨0, 2, .ro, 0, 0, 3⟩, ⟨2, 1, .ro, 0, 0, 1⟩, ⟨3, 1, .ro, 0, 0, 1⟩, ⟨4, 1, .ro, 0, 0, 1⟩, ⟨5, 1, .ro, 0, 0, 1⟩, ⟨6, 1, .ro, 0, 0, 1⟩, ⟨7, 1, .ro, 0, 0, 1⟩, ⟨8, 1, .ro, 0, 0, 1⟩, ⟨9, 1, .ro, 0, 0, 1⟩]⟩,  -- CRU_STATUS (R611)
    ⟨0x1000004, 0, 1, true, true, false, [⟨0, 2, .rw, 0, 0, 1⟩, ⟨2, 1, .wo, 0, 0, 1⟩, ⟨3, 1, .rw, 1, 0, 1⟩]⟩,  -- CRU_SWITCH_CTL (R612)
    ⟨0x1000008, 0, 1, true, false, false, [⟨0, 2, .ro, 0, 0, 3⟩, ⟨2, 1, .ro, 0, 0, 1⟩, ⟨3, 1, .ro, 0, 0, 1⟩, ⟨8, 8, .rc, 0, 0, 0xFF⟩, ⟨16, 8, .rc, 0, 0, 0xFF⟩, ⟨24, 8, .rc, 0, 0, 0xFF⟩]⟩,  -- CRU_SWITCH_STATUS (R613)
    ⟨0x100000C, 0, 1, true, false, false, [⟨0, 8, .rw, 0x40, 8, 0xFF⟩, ⟨8, 4, .rw, 2, 1, 0xF⟩, ⟨16, 16, .rw, 0x64, 1, 0xFFFF⟩]⟩,  -- CRU_MON_CFG (R614)
    ⟨0x1000010, 0, 1, true, false, false, [⟨0, 12, .ro, 0, 0, 0xFFF⟩, ⟨12, 12, .ro, 0, 0, 0xFFF⟩]⟩,  -- CRU_MON_COUNT (R615)
    ⟨0x1000014, 0, 1, true, false, false, [⟨0, 12, .ro, 0, 0, 0xFFF⟩, ⟨12, 1, .ro, 0, 0, 1⟩]⟩,  -- CRU_RC_COUNT (R615)
    ⟨0x1000018, 0, 1, true, false, false, [⟨0, 8, .rc, 0, 0, 0xFF⟩, ⟨8, 8, .rc, 0, 0, 0xFF⟩, ⟨16, 8, .rc, 0, 0, 0xFF⟩, ⟨24, 8, .rc, 0, 0, 0xFF⟩]⟩,  -- CRU_FAULT_CNT (R616)
    ⟨0x100001C, 0, 1, true, true, false, [⟨0, 7, .rw, 0, 0, 0x7F⟩]⟩,  -- CRU_RC_TRIM (R617)
    ⟨0x1000020, 0, 1, true, false, false, [⟨0, 2, .ro, 0, 0, 3⟩, ⟨8, 4, .w1c, 0, 0, 0xF⟩, ⟨16, 8, .ro, 0, 0, 0xFF⟩]⟩,  -- CRU_RESET_CAUSE (R618)
    ⟨0x1000024, 0, 1, true, true, false, [⟨0, 8, .wo, 0, 0, 0xFF⟩, ⟨8, 1, .wo, 0, 0, 1⟩]⟩,  -- CRU_RESET_CTL (R619)
    ⟨0x1000028, 0, 1, true, true, true, [⟨0, 16, .rw, 0x7D0, 0x64, 0xEA60⟩, ⟨16, 16, .rw, 0x1F4, 0xA, 0x2710⟩]⟩  -- CRU_WDT_CFG (R620)
  ]

/-- The registers of block TU. -/
def regsTu : List RegDesc :=
  [
    ⟨0x2000000, 0, 1, true, false, false, [⟨0, 3, .ro, 0, 0, 7⟩, ⟨3, 1, .ro, 0, 0, 1⟩, ⟨4, 1, .ro, 0, 0, 1⟩, ⟨5, 1, .ro, 0, 0, 1⟩, ⟨8, 8, .rc, 0, 0, 0xFF⟩]⟩,  -- TU_STATUS (R621)
    ⟨0x2000010, 0, 1, true, false, false, [⟨0, 32, .ro, 0, 0, 0xFFFFFFFF⟩]⟩,  -- TU_NOW_NS (R622)
    ⟨0x2000014, 0, 1, true, false, false, [⟨0, 32, .ro, 0, 0, 0xFFFFFFFF⟩]⟩,  -- TU_NOW_SEC_LO (R622)
    ⟨0x2000018, 0, 1, true, false, false, [⟨0, 16, .ro, 0, 0, 0xFFFF⟩, ⟨16, 16, .ro, 0, 0, 0xFFFF⟩]⟩,  -- TU_NOW_SEC_HI (R622)
    ⟨0x2000020, 0, 1, true, false, false, [⟨0, 32, .rw, 0, 0, 0xFFFFFFFF⟩]⟩,  -- TU_ADDEND_LO (R623)
    ⟨0x2000024, 0, 1, true, false, false, [⟨0, 32, .rw, 0x400, 0, 0xFFFFFFFF⟩]⟩,  -- TU_ADDEND_HI (R623)
    ⟨0x2000028, 0, 1, true, false, false, [⟨0, 32, .rw, 0, 0, 0xFFFFFFFF⟩]⟩,  -- TU_STEP_NS (R624)
    ⟨0x200002C, 0, 1, true, false, false, [⟨0, 32, .wo, 0, 0, 0xFFFFFFFF⟩]⟩,  -- TU_STEP_SEC (R624)
    ⟨0x2000030, 0, 1, true, false, true, [⟨0, 4, .rw, 1, 0, 0xF⟩, ⟨4, 4, .rw, 4, 0, 0xF⟩, ⟨8, 8, .rw, 8, 1, 0xFF⟩, ⟨16, 12, .rw, 0x64, 1, 0xFFF⟩]⟩,  -- TU_SERVO_CFG (R625)
    ⟨0x2000034, 0, 1, true, false, true, [⟨0, 16, .rw, 0x18, 1, 0xFFFF⟩]⟩,  -- TU_HOLD_CFG (R626)
    ⟨0x2000038, 0, 1, true, false, false, [⟨0, 32, .ro, 0, 0, 0xFFFFFFFF⟩]⟩,  -- TU_OFFSET (R627)
    ⟨0x2000040, 0, 1, true, false, false, [⟨0, 32, .ro, 0, 0, 0xFFFFFFFF⟩]⟩,  -- TU_LOCAL_LO (R628)
    ⟨0x2000044, 0, 1, true, false, false, [⟨0, 32, .ro, 0, 0, 0xFFFFFFFF⟩]⟩,  -- TU_LOCAL_HI (R628)
    ⟨0x2000048, 0, 1, true, false, true, [⟨0, 16, .rw, 0x25, 0, 0xFFFF⟩, ⟨16, 1, .ro, 0, 0, 1⟩]⟩  -- TU_UTC (R629)
  ]

/-- The registers of block HFE. -/
def regsHfe : List RegDesc :=
  [
    ⟨0x3000000, 0, 1, false, false, false, [⟨0, 2, .rw, 0, 0, 2⟩, ⟨2, 1, .wo, 0, 0, 1⟩, ⟨3, 1, .wo, 0, 0, 1⟩, ⟨4, 1, .wo, 0, 0, 1⟩]⟩,  -- HFE_MODE_CTL (R103)
    ⟨0x3000004, 0, 1, false, false, false, [⟨0, 2, .ro, 0, 0, 3⟩, ⟨2, 1, .ro, 0, 0, 1⟩, ⟨3, 1, .ro, 0, 0, 1⟩, ⟨4, 1, .ro, 0, 0, 1⟩]⟩,  -- HFE_MODE_STATUS (R104)
    ⟨0x3000008, 0, 1, false, false, false, [⟨0, 1, .ro, 0, 0, 1⟩, ⟨1, 1, .ro, 0, 0, 1⟩, ⟨2, 1, .ro, 0, 0, 1⟩, ⟨3, 1, .ro, 0, 0, 1⟩, ⟨4, 1, .ro, 0, 0, 1⟩, ⟨5, 1, .ro, 0, 0, 1⟩, ⟨6, 1, .ro, 0, 0, 1⟩, ⟨7, 1, .ro, 0, 0, 1⟩, ⟨8, 1, .ro, 0, 0, 1⟩, ⟨9, 1, .ro, 0, 0, 1⟩, ⟨10, 1, .ro, 0, 0, 1⟩, ⟨11, 1, .ro, 0, 0, 1⟩, ⟨12, 1, .ro, 0, 0, 1⟩, ⟨13, 1, .ro, 0, 0, 1⟩, ⟨14, 1, .ro, 0, 0, 1⟩, ⟨15, 1, .ro, 0, 0, 1⟩, ⟨16, 1, .ro, 0, 0, 1⟩, ⟨17, 1, .ro, 0, 0, 1⟩, ⟨18, 1, .ro, 0, 0, 1⟩, ⟨19, 1, .ro, 0, 0, 1⟩, ⟨20, 1, .ro, 0, 0, 1⟩, ⟨21, 1, .ro, 0, 0, 1⟩, ⟨22, 1, .ro, 0, 0, 1⟩, ⟨23, 1, .ro, 0, 0, 1⟩, ⟨24, 1, .ro, 0, 0, 1⟩, ⟨25, 1, .ro, 0, 0, 1⟩, ⟨26, 1, .ro, 0, 0, 1⟩, ⟨27, 1, .ro, 0, 0, 1⟩, ⟨28, 1, .ro, 0, 0, 1⟩, ⟨29, 1, .ro, 0, 0, 1⟩, ⟨30, 1, .ro, 0, 0, 1⟩, ⟨31, 1, .ro, 0, 0, 1⟩]⟩,  -- HFE_LANE_STATUS (R105)
    ⟨0x300000C, 0, 1, false, false, false, [⟨0, 8, .rw, 0xA, 1, 0xFF⟩, ⟨8, 16, .rw, 0x10, 0, 0xFFFF⟩]⟩,  -- HFE_LANE_FAIL_CFG (R106)
    ⟨0x3000020, 0, 1, false, false, false, [⟨0, 1, .rw, 1, 0, 1⟩, ⟨8, 8, .rw, 0x32, 1, 0xFF⟩, ⟨16, 6, .rw, 0x30, 0, 0x3F⟩, ⟨24, 3, .rw, 6, 0, 7⟩]⟩,  -- HFE_CC_NP (R107)
    ⟨0x3000024, 0, 1, false, false, false, [⟨0, 1, .rw, 1, 0, 1⟩, ⟨8, 8, .rw, 0x40, 1, 0xFF⟩, ⟨16, 8, .rw, 0x64, 1, 0xFF⟩, ⟨24, 8, .rw, 0xA, 1, 0xFF⟩]⟩,  -- HFE_CC_RP (R108)
    ⟨0x3000028, 0, 1, false, false, false, [⟨0, 1, .rw, 0, 0, 1⟩, ⟨1, 1, .rw, 1, 0, 1⟩]⟩,  -- HFE_TCP_CFG (R109)
    ⟨0x300002C, 0, 1, false, false, false, [⟨0, 5, .rw, 0x10, 1, 0x1F⟩, ⟨5, 3, .rw, 7, 0, 7⟩, ⟨8, 3, .rw, 7, 0, 7⟩, ⟨12, 2, .rw, 2, 0, 2⟩]⟩,  -- HFE_RDMA_CFG (R110)
    ⟨0x3000040, 0, 1, false, false, true, [⟨0, 1, .rw, 0, 0, 1⟩, ⟨1, 3, .rw, 0, 0, 7⟩, ⟨4, 1, .rw, 0, 0, 1⟩, ⟨5, 3, .rw, 2, 0, 7⟩, ⟨8, 8, .rw, 0, 0, 0xFF⟩, ⟨16, 3, .rw, 7, 0, 7⟩]⟩,  -- HFE_PTP_CFG (R111)
    ⟨0x3000044, 0, 1, false, false, false, [⟨0, 16, .rw, 0, 0, 0xFFFF⟩]⟩,  -- HFE_PTP_ASYM (R112)
    ⟨0x3000048, 0, 1, false, false, false, [⟨0, 7, .ro, 0, 0, 0x7F⟩, ⟨8, 16, .rc, 0, 0, 0xFFFF⟩]⟩,  -- HFE_PTP_TS_STATUS (R113)
    ⟨0x3000050, 0, 1, false, false, false, [⟨0, 16, .ro, 0, 0, 0xFFFF⟩, ⟨16, 4, .ro, 0, 0, 0xF⟩, ⟨20, 1, .ro, 0, 0, 1⟩, ⟨21, 3, .ro, 0, 0, 7⟩, ⟨24, 1, .ro, 0, 0, 1⟩]⟩,  -- HFE_PTP_TS0 (R114)
    ⟨0x3000054, 0, 1, false, false, false, [⟨0, 32, .ro, 0, 0, 0xFFFFFFFF⟩]⟩,  -- HFE_PTP_TS1 (R115)
    ⟨0x3000058, 0, 1, false, false, false, [⟨0, 32, .ro, 0, 0, 0xFFFFFFFF⟩]⟩,  -- HFE_PTP_TS2 (R115)
    ⟨0x300005C, 0, 1, false, false, false, [⟨0, 16, .ro, 0, 0, 0xFFFF⟩, ⟨16, 16, .ro, 0, 0, 0xFFFF⟩]⟩,  -- HFE_PTP_TS3 (R115)
    ⟨0x3001000, 0x100, 8, false, false, false, [⟨0, 1, .rw, 1, 0, 1⟩, ⟨1, 1, .rw, 0, 0, 1⟩, ⟨2, 1, .wo, 0, 0, 1⟩, ⟨4, 2, .rw, 1, 0, 3⟩]⟩  -- HFE_PORT_CTL (R116)
  ] ++
  [
    ⟨0x3001004, 0x100, 8, false, false, false, [⟨0, 2, .ro, 0, 0, 3⟩, ⟨2, 2, .ro, 0, 0, 3⟩, ⟨4, 8, .ro, 0, 0, 0xFF⟩, ⟨12, 1, .ro, 0, 0, 1⟩, ⟨13, 1, .ro, 0, 0, 1⟩]⟩,  -- HFE_PORT_STATUS (R117)
    ⟨0x3001008, 0x100, 8, false, false, false, [⟨0, 3, .rw, 3, 0, 7⟩, ⟨3, 1, .rw, 1, 0, 1⟩, ⟨4, 3, .rw, 0, 0, 7⟩, ⟨7, 1, .rw, 0, 0, 1⟩, ⟨8, 1, .rw, 1, 0, 1⟩, ⟨9, 1, .rw, 0, 0, 1⟩, ⟨16, 16, .rw, 0xC8, 0, 0xFFFF⟩]⟩,  -- HFE_PORT_PFC_CFG (R118)
    ⟨0x300100C, 0x100, 8, false, false, false, [⟨0, 16, .rw, 0x200, 0, 0xFFFF⟩, ⟨16, 16, .rw, 0x180, 0, 0xFFFF⟩]⟩,  -- HFE_PORT_PFC_THR (R119)
    ⟨0x3001010, 0x100, 8, false, false, false, [⟨0, 5, .rw, 0, 0, 0x1F⟩, ⟨5, 1, .wo, 0, 0, 1⟩]⟩,  -- HFE_PORT_CNT_SEL (R120)
    ⟨0x3001014, 0x100, 8, false, false, false, [⟨0, 32, .ro, 0, 0, 0xFFFFFFFF⟩]⟩,  -- HFE_PORT_CNT_LO (R121)
    ⟨0x3001018, 0x100, 8, false, false, false, [⟨0, 32, .ro, 0, 0, 0xFFFFFFFF⟩]⟩  -- HFE_PORT_CNT_HI (R121)
  ]

/-- The registers of block QE. -/
def regsQe : List RegDesc :=
  [
    ⟨0x4000000, 0, 1, false, false, false, [⟨0, 19, .ro, 0, 0, 0x7FFFF⟩]⟩,  -- QE_TASK_USED (R188)
    ⟨0x4000004, 0, 1, false, false, false, [⟨0, 16, .rw, 0x12C, 1, 0xFFFF⟩, ⟨16, 8, .rw, 1, 1, 0xFF⟩]⟩,  -- QE_CMD_CFG (R189)
    ⟨0x4000008, 0, 1, false, false, false, [⟨0, 16, .rc, 0, 0, 0xFFFF⟩, ⟨16, 16, .rc, 0, 0, 0xFFFF⟩]⟩,  -- QE_ABORT_CNT (R190)
    ⟨0x4000010, 0, 1, false, false, false, [⟨0, 13, .rw, 0, 0, 0x1FFF⟩]⟩,  -- QE_STAMP_SEL (R191)
    ⟨0x4000014, 0, 1, false, false, false, [⟨0, 32, .ro, 0, 0, 0xFFFFFFFF⟩]⟩,  -- QE_STAMP_LO (R192)
    ⟨0x4000018, 0, 1, false, false, false, [⟨0, 32, .ro, 0, 0, 0xFFFFFFFF⟩]⟩  -- QE_STAMP_HI (R192)
  ]

/-- The registers of block TIU. -/
def regsTiu : List RegDesc :=
  [
    ⟨0x5000000, 0, 1, false, false, false, [⟨0, 3, .ro, 0, 0, 7⟩, ⟨4, 10, .ro, 0, 0, 0x3FF⟩]⟩,  -- TIU_CFG_RESULT (R147)
    ⟨0x5000004, 0, 1, false, false, false, [⟨0, 18, .ro, 0, 0, 0x3FFFF⟩]⟩,  -- TIU_TASK_MIN_SUM (R148)
    ⟨0x5100000, 0x1000, 513, false, false, true, [⟨0, 2, .rw, 0, 0, 3⟩, ⟨2, 1, .rw, 0, 0, 1⟩]⟩,  -- TIU_TEN_CTL (R149)
    ⟨0x5100004, 0x1000, 513, false, false, false, [⟨0, 7, .ro, 0, 0, 0x7F⟩, ⟨8, 5, .ro, 0, 0, 0x1F⟩, ⟨16, 9, .ro, 0, 0, 0x1FF⟩, ⟨25, 1, .ro, 0, 0, 1⟩]⟩,  -- TIU_TEN_STATUS (R150)
    ⟨0x5100010, 0x1000, 513, false, false, true, [⟨0, 21, .rw, 0x800, 0, 0x100000⟩, ⟨21, 7, .rw, 0x20, 1, 0x40⟩]⟩,  -- TIU_TEN_QP (R151)
    ⟨0x5100014, 0x1000, 513, false, false, false, [⟨0, 21, .ro, 0, 0, 0x1FFFFF⟩]⟩,  -- TIU_TEN_QP_USED (R152)
    ⟨0x5100020, 0x1000, 513, false, false, false, [⟨0, 19, .ro, 0, 0, 0x7FFFF⟩]⟩,  -- TIU_TEN_TASK_USED (R152)
    ⟨0x5100018, 0x1000, 513, false, false, true, [⟨0, 19, .rw, 0, 0, 0x40000⟩]⟩,  -- TIU_TEN_TASK_MIN (R153)
    ⟨0x510001C, 0x1000, 513, false, false, true, [⟨0, 19, .rw, 0x1000, 1, 0x40000⟩]⟩,  -- TIU_TEN_TASK_MAX (R153)
    ⟨0x5100024, 0x1000, 513, false, false, true, [⟨0, 12, .rw, 0x10, 0, 0x800⟩, ⟨12, 15, .rw, 0x80, 0, 0x4000⟩]⟩,  -- TIU_TEN_ZONES (R154)
    ⟨0x5100028, 0x1000, 513, false, false, false, [⟨0, 12, .ro, 0, 0, 0xFFF⟩, ⟨12, 15, .ro, 0, 0, 0x7FFF⟩]⟩,  -- TIU_TEN_ZONES_USED (R154)
    ⟨0x510002C, 0x1000, 513, false, false, true, [⟨0, 16, .rw, 0x64, 1, 0xFFFF⟩, ⟨16, 16, .rw, 0, 0, 0x4B0⟩]⟩,  -- TIU_TEN_BW (R155)
    ⟨0x5100030, 0x1000, 513, false, false, true, [⟨0, 16, .rw, 0x64, 1, 0xFFFF⟩, ⟨16, 16, .rw, 0, 0, 0xFA0⟩]⟩,  -- TIU_TEN_PWR (R155)
    ⟨0x5100034, 0x1000, 513, false, false, true, [⟨0, 16, .rw, 0x1F4, 1, 0x4E20⟩, ⟨16, 8, .rw, 0x40, 1, 0xFF⟩, ⟨24, 8, .rw, 8, 1, 0xFF⟩]⟩,  -- TIU_TEN_CONN (R156)
    ⟨0x5100040, 0x1000, 513, false, false, true, [⟨0, 32, .rw, 0, 0, 0xFFFFFFFF⟩]⟩,  -- TIU_TEN_DIESET (R157)
    ⟨0x5100080, 0x1000, 513, false, false, false, [⟨0, 13, .ro, 0, 0, 0x1FFF⟩, ⟨15, 1, .ro, 0, 0, 1⟩]⟩  -- TIU_TEN_NS0 (R158)
  ] ++
  [
    ⟨0x5100084, 0x1000, 513, false, false, false, [⟨0, 13, .ro, 0, 0, 0x1FFF⟩, ⟨15, 1, .ro, 0, 0, 1⟩]⟩,  -- TIU_TEN_NS1 (R158)
    ⟨0x5100088, 0x1000, 513, false, false, false, [⟨0, 13, .ro, 0, 0, 0x1FFF⟩, ⟨15, 1, .ro, 0, 0, 1⟩]⟩,  -- TIU_TEN_NS2 (R158)
    ⟨0x510008C, 0x1000, 513, false, false, false, [⟨0, 13, .ro, 0, 0, 0x1FFF⟩, ⟨15, 1, .ro, 0, 0, 1⟩]⟩,  -- TIU_TEN_NS3 (R158)
    ⟨0x5100090, 0x1000, 513, false, false, false, [⟨0, 13, .ro, 0, 0, 0x1FFF⟩, ⟨15, 1, .ro, 0, 0, 1⟩]⟩,  -- TIU_TEN_NS4 (R158)
    ⟨0x5100094, 0x1000, 513, false, false, false, [⟨0, 13, .ro, 0, 0, 0x1FFF⟩, ⟨15, 1, .ro, 0, 0, 1⟩]⟩,  -- TIU_TEN_NS5 (R158)
    ⟨0x5100098, 0x1000, 513, false, false, false, [⟨0, 13, .ro, 0, 0, 0x1FFF⟩, ⟨15, 1, .ro, 0, 0, 1⟩]⟩,  -- TIU_TEN_NS6 (R158)
    ⟨0x510009C, 0x1000, 513, false, false, false, [⟨0, 13, .ro, 0, 0, 0x1FFF⟩, ⟨15, 1, .ro, 0, 0, 1⟩]⟩,  -- TIU_TEN_NS7 (R158)
    ⟨0x51000A0, 0x1000, 513, false, false, false, [⟨0, 13, .ro, 0, 0, 0x1FFF⟩, ⟨15, 1, .ro, 0, 0, 1⟩]⟩,  -- TIU_TEN_NS8 (R158)
    ⟨0x51000A4, 0x1000, 513, false, false, false, [⟨0, 13, .ro, 0, 0, 0x1FFF⟩, ⟨15, 1, .ro, 0, 0, 1⟩]⟩,  -- TIU_TEN_NS9 (R158)
    ⟨0x51000A8, 0x1000, 513, false, false, false, [⟨0, 13, .ro, 0, 0, 0x1FFF⟩, ⟨15, 1, .ro, 0, 0, 1⟩]⟩,  -- TIU_TEN_NS10 (R158)
    ⟨0x51000AC, 0x1000, 513, false, false, false, [⟨0, 13, .ro, 0, 0, 0x1FFF⟩, ⟨15, 1, .ro, 0, 0, 1⟩]⟩,  -- TIU_TEN_NS11 (R158)
    ⟨0x51000B0, 0x1000, 513, false, false, false, [⟨0, 13, .ro, 0, 0, 0x1FFF⟩, ⟨15, 1, .ro, 0, 0, 1⟩]⟩,  -- TIU_TEN_NS12 (R158)
    ⟨0x51000B4, 0x1000, 513, false, false, false, [⟨0, 13, .ro, 0, 0, 0x1FFF⟩, ⟨15, 1, .ro, 0, 0, 1⟩]⟩,  -- TIU_TEN_NS13 (R158)
    ⟨0x51000B8, 0x1000, 513, false, false, false, [⟨0, 13, .ro, 0, 0, 0x1FFF⟩, ⟨15, 1, .ro, 0, 0, 1⟩]⟩,  -- TIU_TEN_NS14 (R158)
    ⟨0x51000BC, 0x1000, 513, false, false, false, [⟨0, 13, .ro, 0, 0, 0x1FFF⟩, ⟨15, 1, .ro, 0, 0, 1⟩]⟩,  -- TIU_TEN_NS15 (R158)
    ⟨0x5100100, 0x1000, 513, false, false, false, [⟨0, 32, .wo, 0, 0, 0xFFFFFFFF⟩]⟩  -- TIU_TEN_KEY0_W0 (R159)
  ] ++
  [
    ⟨0x5100104, 0x1000, 513, false, false, false, [⟨0, 32, .wo, 0, 0, 0xFFFFFFFF⟩]⟩,  -- TIU_TEN_KEY0_W1 (R159)
    ⟨0x5100108, 0x1000, 513, false, false, false, [⟨0, 32, .wo, 0, 0, 0xFFFFFFFF⟩]⟩,  -- TIU_TEN_KEY0_W2 (R159)
    ⟨0x510010C, 0x1000, 513, false, false, false, [⟨0, 32, .wo, 0, 0, 0xFFFFFFFF⟩]⟩,  -- TIU_TEN_KEY0_W3 (R159)
    ⟨0x5100110, 0x1000, 513, false, false, false, [⟨0, 32, .wo, 0, 0, 0xFFFFFFFF⟩]⟩,  -- TIU_TEN_KEY0_W4 (R159)
    ⟨0x5100114, 0x1000, 513, false, false, false, [⟨0, 32, .wo, 0, 0, 0xFFFFFFFF⟩]⟩,  -- TIU_TEN_KEY0_W5 (R159)
    ⟨0x5100118, 0x1000, 513, false, false, false, [⟨0, 32, .wo, 0, 0, 0xFFFFFFFF⟩]⟩,  -- TIU_TEN_KEY0_W6 (R159)
    ⟨0x510011C, 0x1000, 513, false, false, false, [⟨0, 32, .wo, 0, 0, 0xFFFFFFFF⟩]⟩,  -- TIU_TEN_KEY0_W7 (R159)
    ⟨0x5100120, 0x1000, 513, false, false, false, [⟨0, 32, .wo, 0, 0, 0xFFFFFFFF⟩]⟩,  -- TIU_TEN_KEY1_W0 (R159)
    ⟨0x5100124, 0x1000, 513, false, false, false, [⟨0, 32, .wo, 0, 0, 0xFFFFFFFF⟩]⟩,  -- TIU_TEN_KEY1_W1 (R159)
    ⟨0x5100128, 0x1000, 513, false, false, false, [⟨0, 32, .wo, 0, 0, 0xFFFFFFFF⟩]⟩,  -- TIU_TEN_KEY1_W2 (R159)
    ⟨0x510012C, 0x1000, 513, false, false, false, [⟨0, 32, .wo, 0, 0, 0xFFFFFFFF⟩]⟩,  -- TIU_TEN_KEY1_W3 (R159)
    ⟨0x5100130, 0x1000, 513, false, false, false, [⟨0, 32, .wo, 0, 0, 0xFFFFFFFF⟩]⟩,  -- TIU_TEN_KEY1_W4 (R159)
    ⟨0x5100134, 0x1000, 513, false, false, false, [⟨0, 32, .wo, 0, 0, 0xFFFFFFFF⟩]⟩,  -- TIU_TEN_KEY1_W5 (R159)
    ⟨0x5100138, 0x1000, 513, false, false, false, [⟨0, 32, .wo, 0, 0, 0xFFFFFFFF⟩]⟩,  -- TIU_TEN_KEY1_W6 (R159)
    ⟨0x510013C, 0x1000, 513, false, false, false, [⟨0, 32, .wo, 0, 0, 0xFFFFFFFF⟩]⟩,  -- TIU_TEN_KEY1_W7 (R159)
    ⟨0x5100140, 0x1000, 513, false, false, false, [⟨0, 32, .wo, 0, 0, 0xFFFFFFFF⟩]⟩  -- TIU_TEN_KEY2_W0 (R159)
  ] ++
  [
    ⟨0x5100144, 0x1000, 513, false, false, false, [⟨0, 32, .wo, 0, 0, 0xFFFFFFFF⟩]⟩,  -- TIU_TEN_KEY2_W1 (R159)
    ⟨0x5100148, 0x1000, 513, false, false, false, [⟨0, 32, .wo, 0, 0, 0xFFFFFFFF⟩]⟩,  -- TIU_TEN_KEY2_W2 (R159)
    ⟨0x510014C, 0x1000, 513, false, false, false, [⟨0, 32, .wo, 0, 0, 0xFFFFFFFF⟩]⟩,  -- TIU_TEN_KEY2_W3 (R159)
    ⟨0x5100150, 0x1000, 513, false, false, false, [⟨0, 32, .wo, 0, 0, 0xFFFFFFFF⟩]⟩,  -- TIU_TEN_KEY2_W4 (R159)
    ⟨0x5100154, 0x1000, 513, false, false, false, [⟨0, 32, .wo, 0, 0, 0xFFFFFFFF⟩]⟩,  -- TIU_TEN_KEY2_W5 (R159)
    ⟨0x5100158, 0x1000, 513, false, false, false, [⟨0, 32, .wo, 0, 0, 0xFFFFFFFF⟩]⟩,  -- TIU_TEN_KEY2_W6 (R159)
    ⟨0x510015C, 0x1000, 513, false, false, false, [⟨0, 32, .wo, 0, 0, 0xFFFFFFFF⟩]⟩,  -- TIU_TEN_KEY2_W7 (R159)
    ⟨0x5100160, 0x1000, 513, false, false, false, [⟨0, 32, .wo, 0, 0, 0xFFFFFFFF⟩]⟩,  -- TIU_TEN_KEY3_W0 (R159)
    ⟨0x5100164, 0x1000, 513, false, false, false, [⟨0, 32, .wo, 0, 0, 0xFFFFFFFF⟩]⟩,  -- TIU_TEN_KEY3_W1 (R159)
    ⟨0x5100168, 0x1000, 513, false, false, false, [⟨0, 32, .wo, 0, 0, 0xFFFFFFFF⟩]⟩,  -- TIU_TEN_KEY3_W2 (R159)
    ⟨0x510016C, 0x1000, 513, false, false, false, [⟨0, 32, .wo, 0, 0, 0xFFFFFFFF⟩]⟩,  -- TIU_TEN_KEY3_W3 (R159)
    ⟨0x5100170, 0x1000, 513, false, false, false, [⟨0, 32, .wo, 0, 0, 0xFFFFFFFF⟩]⟩,  -- TIU_TEN_KEY3_W4 (R159)
    ⟨0x5100174, 0x1000, 513, false, false, false, [⟨0, 32, .wo, 0, 0, 0xFFFFFFFF⟩]⟩,  -- TIU_TEN_KEY3_W5 (R159)
    ⟨0x5100178, 0x1000, 513, false, false, false, [⟨0, 32, .wo, 0, 0, 0xFFFFFFFF⟩]⟩,  -- TIU_TEN_KEY3_W6 (R159)
    ⟨0x510017C, 0x1000, 513, false, false, false, [⟨0, 32, .wo, 0, 0, 0xFFFFFFFF⟩]⟩,  -- TIU_TEN_KEY3_W7 (R159)
    ⟨0x5100180, 0x1000, 513, false, false, false, [⟨0, 4, .ro, 0, 0, 0xF⟩, ⟨4, 2, .ro, 0, 0, 3⟩]⟩  -- TIU_TEN_KEY_STATUS (R160)
  ]

/-- The registers of block ZM. -/
def regsZm : List RegDesc :=
  [
    ⟨0x6000000, 0, 1, false, false, false, [⟨0, 12, .ro, 0, 0, 0xFFF⟩, ⟨12, 15, .ro, 0, 0, 0x7FFF⟩]⟩,  -- ZM_ZONE_USED (R227)
    ⟨0x6000004, 0, 1, false, true, true, [⟨0, 3, .rw, 2, 1, 4⟩, ⟨8, 24, .rw, 0x400, 0, 0xFFFFFF⟩]⟩,  -- ZM_RSV_CFG (R228)
    ⟨0x6000008, 0, 1, false, false, false, [⟨0, 32, .ro, 0, 0, 0xFFFFFFFF⟩]⟩,  -- ZM_SPARE (R229)
    ⟨0x600000C, 0, 1, false, false, false, [⟨0, 1, .ro, 0, 0, 1⟩, ⟨1, 1, .ro, 0, 0, 1⟩, ⟨2, 1, .ro, 0, 0, 1⟩, ⟨3, 1, .ro, 0, 0, 1⟩]⟩,  -- ZM_STATUS (R230)
    ⟨0x6000010, 0, 1, false, false, false, [⟨0, 16, .rc, 0, 0, 0xFFFF⟩, ⟨16, 16, .rc, 0, 0, 0xFFFF⟩]⟩,  -- ZM_EVENT_CNT (R231)
    ⟨0x6000014, 0, 1, false, false, false, [⟨0, 4, .rw, 4, 0, 0xF⟩, ⟨4, 1, .rw, 1, 0, 1⟩]⟩,  -- ZM_HINT_CFG (R232)
    ⟨0x6000018, 0, 1, false, false, false, [⟨0, 32, .rc, 0, 0, 0xFFFFFFFF⟩]⟩  -- ZM_HINT_MISS (R233)
  ]

/-- The registers of block FLC. -/
def regsFlc : List RegDesc :=
  [
    ⟨0x7000000, 0, 1, false, true, true, [⟨0, 9, .rw, 0x12C, 0x28, 0x190⟩, ⟨9, 3, .ro, 0, 0, 7⟩]⟩,  -- FLC_PWR_BUDGET (R271)
    ⟨0x7000004, 0, 1, false, false, false, [⟨0, 19, .ro, 0, 0, 0x7FFFF⟩]⟩,  -- FLC_PWR_USED (R272)
    ⟨0x7000010, 0, 1, false, false, false, [⟨0, 1, .rw, 1, 0, 1⟩, ⟨1, 4, .rw, 7, 7, 0xF⟩, ⟨8, 8, .rw, 0x1E, 1, 0xFF⟩]⟩,  -- FLC_GATE_CFG (R273)
    ⟨0x7000014, 0, 1, false, false, false, [⟨0, 16, .ro, 0, 0, 0xFFFF⟩, ⟨16, 16, .ro, 0, 0, 0xFFFF⟩]⟩,  -- FLC_GATE_STATUS (R274)
    ⟨0x7000018, 0, 1, false, false, false, [⟨0, 16, .rw, 0, 0, 0xFFFF⟩, ⟨16, 16, .wo, 0, 0, 0xFFFF⟩]⟩,  -- FLC_GATE_CTL (R275)
    ⟨0x7000020, 0, 1, false, false, false, [⟨0, 1, .rw, 1, 0, 1⟩, ⟨4, 4, .rw, 8, 1, 0xF⟩, ⟨8, 8, .rw, 0x64, 1, 0xFF⟩, ⟨16, 4, .rw, 8, 1, 0xF⟩]⟩,  -- FLC_SUSP_CFG (R276)
    ⟨0x7000024, 0, 1, false, false, false, [⟨0, 8, .rw, 0x28, 1, 0xFF⟩, ⟨8, 8, .rw, 0xA, 1, 0xFF⟩, ⟨16, 16, .rw, 0x12C, 0, 0xFFFF⟩]⟩,  -- FLC_LINK_CFG (R277)
    ⟨0x7000028, 0, 1, false, false, false, [⟨0, 10, .rw, 0x154, 0xA0, 0x1FC⟩]⟩,  -- FLC_THERM_CFG (R278)
    ⟨0x7001000, 0x40, 128, false, false, false, [⟨0, 1, .rw, 1, 0, 1⟩, ⟨1, 1, .wo, 0, 0, 1⟩, ⟨2, 1, .wo, 0, 0, 1⟩]⟩,  -- FLC_LN_CTL (R279)
    ⟨0x7001004, 0x40, 128, false, false, false, [⟨0, 3, .ro, 0, 0, 7⟩, ⟨4, 4, .ro, 0, 0, 0xF⟩, ⟨8, 1, .ro, 0, 0, 1⟩, ⟨9, 1, .ro, 0, 0, 1⟩, ⟨10, 1, .ro, 0, 0, 1⟩]⟩,  -- FLC_LN_STATUS (R280)
    ⟨0x7001008, 0x40, 128, false, false, false, [⟨0, 16, .rc, 0, 0, 0xFFFF⟩, ⟨16, 16, .rc, 0, 0, 0xFFFF⟩]⟩,  -- FLC_LN_ERR (R281)
    ⟨0x700100C, 0x40, 128, false, false, false, [⟨0, 16, .rc, 0, 0, 0xFFFF⟩, ⟨16, 16, .rc, 0, 0, 0xFFFF⟩]⟩,  -- FLC_LN_SYNC (R281)
    ⟨0x7001010, 0x40, 128, false, false, false, [⟨0, 32, .ro, 0, 0, 0xFFFFFFFF⟩]⟩,  -- FLC_LN_DIE_LOST (R282)
    ⟨0x7001014, 0x40, 128, false, false, false, [⟨0, 10, .ro, 0, 0, 0x3FF⟩, ⟨16, 5, .ro, 0, 0, 0x1F⟩]⟩  -- FLC_LN_TEMP (R283)
  ]

/-- The registers of block CLC. -/
def regsClc : List RegDesc :=
  [
    ⟨0x8000000, 0, 1, false, false, false, [⟨0, 3, .rw, 3, 1, 5⟩, ⟨4, 1, .rw, 1, 0, 1⟩, ⟨8, 16, .rw, 0x7D0, 0, 0xFFFF⟩]⟩,  -- CLC_MODE_CFG (R317)
    ⟨0x8000004, 0, 1, false, false, false, [⟨0, 8, .rw, 0x18, 1, 0xFF⟩, ⟨8, 3, .rw, 4, 1, 7⟩, ⟨12, 8, .rw, 0xF, 1, 0xFF⟩, ⟨20, 8, .rw, 0x30, 1, 0xFF⟩]⟩,  -- CLC_LLR_CFG (R318)
    ⟨0x8000008, 0, 1, false, false, false, [⟨0, 1, .rw, 1, 0, 1⟩, ⟨1, 1, .rw, 1, 0, 1⟩, ⟨2, 1, .rw, 1, 0, 1⟩, ⟨3, 1, .rw, 1, 0, 1⟩, ⟨4, 1, .rw, 0, 0, 1⟩, ⟨8, 4, .rw, 8, 1, 0xF⟩, ⟨16, 5, .rw, 0x18, 1, 0x18⟩, ⟨24, 6, .rw, 0x28, 1, 0x28⟩]⟩,  -- CLC_LADDER_CFG (R319)
    ⟨0x800000C, 0, 1, false, false, false, [⟨0, 9, .rw, 0x20, 1, 0x100⟩, ⟨12, 4, .rw, 3, 1, 0xF⟩]⟩,  -- CLC_DEF_CFG (R320)
    ⟨0x8000010, 0, 1, false, false, true, [⟨0, 4, .rw, 0, 0, 0xF⟩, ⟨4, 4, .rw, 0, 0, 0xF⟩, ⟨8, 4, .rw, 0, 0, 0xF⟩, ⟨12, 4, .rw, 0, 0, 0xF⟩, ⟨16, 4, .rw, 0, 0, 0xF⟩, ⟨20, 4, .rw, 0, 0, 0xF⟩, ⟨24, 4, .rw, 0, 0, 0xF⟩, ⟨28, 4, .rw, 0, 0, 0xF⟩]⟩,  -- CLC_NWC_COEF (R321)
    ⟨0x8000014, 0, 1, false, false, false, [⟨0, 3, .rw, 0, 0, 7⟩, ⟨3, 1, .wo, 0, 0, 1⟩]⟩,  -- CLC_EXIT_SEL (R322)
    ⟨0x8000018, 0, 1, false, false, false, [⟨0, 32, .ro, 0, 0, 0xFFFFFFFF⟩]⟩,  -- CLC_EXIT_LO (R323)
    ⟨0x800001C, 0, 1, false, false, false, [⟨0, 32, .ro, 0, 0, 0xFFFFFFFF⟩]⟩,  -- CLC_EXIT_HI (R323)
    ⟨0x8000020, 0, 1, false, false, false, [⟨0, 16, .rc, 0, 0, 0xFFFF⟩, ⟨16, 16, .rc, 0, 0, 0xFFFF⟩]⟩,  -- CLC_PILOT_CNT (R324)
    ⟨0x8000024, 0, 1, false, false, false, [⟨0, 12, .rw, 0, 0, 0xFFF⟩, ⟨12, 2, .rw, 0, 0, 3⟩, ⟨16, 5, .rw, 0, 0, 0x1F⟩]⟩,  -- CLC_DEF_SEL (R325)
    ⟨0x8000028, 0, 1, false, false, false, [⟨0, 10, .ro, 0, 0, 0x3FF⟩, ⟨12, 4, .ro, 0, 0, 0xF⟩, ⟨16, 6, .ro, 0, 0, 0x3F⟩, ⟨31, 1, .ro, 0, 0, 1⟩]⟩  -- CLC_DEF_DATA (R326)
  ]

/-- The registers of block RCU. -/
def regsRcu : List RegDesc :=
  [
    ⟨0x9000000, 0, 1, false, true, true, [⟨0, 32, .rw, 0x1199999A, 0x199999A, 0x30000000⟩]⟩,  -- RCU_EA (R360)
    ⟨0x9000004, 0, 1, false, true, true, [⟨0, 32, .rw, 0x5A5C0, 1, 0xFFFFFFFF⟩]⟩,  -- RCU_KB (R361)
    ⟨0x9000008, 0, 1, false, true, true, [⟨0, 10, .rw, 0xA0, 0, 0x1FF⟩]⟩,  -- RCU_TREF (R362)
    ⟨0x900000C, 0, 1, false, false, false, [⟨0, 32, .ro, 0x31DCF52D, 0, 0xFFFFFFFF⟩]⟩,  -- RCU_B (R363)
    ⟨0x9000010, 0, 1, false, false, true, [⟨0, 10, .rw, 0x8C, 0, 0x3FF⟩]⟩,  -- RCU_DARK_CFG (R364)
    ⟨0x9000014, 0, 1, false, false, false, [⟨0, 10, .rw, 0, 0, 0x3FF⟩, ⟨16, 1, .ro, 0, 0, 1⟩]⟩,  -- RCU_SHELF_TEMP (R365)
    ⟨0x9000018, 0, 1, false, false, false, [⟨0, 2, .ro, 0, 0, 3⟩, ⟨2, 1, .ro, 0, 0, 1⟩, ⟨3, 1, .ro, 0, 0, 1⟩, ⟨4, 1, .ro, 0, 0, 1⟩, ⟨5, 1, .ro, 0, 0, 1⟩, ⟨6, 1, .ro, 0, 0, 1⟩, ⟨7, 1, .ro, 0, 0, 1⟩, ⟨16, 13, .ro, 0, 0, 0x1FFF⟩]⟩,  -- RCU_DARK_STATUS (R366)
    ⟨0x900001C, 0, 1, false, false, false, [⟨0, 32, .ro, 0, 0, 0xFFFFFFFF⟩]⟩,  -- RCU_DARK_MIN (R367)
    ⟨0x9000020, 0, 1, false, false, true, [⟨0, 1, .rw, 1, 0, 1⟩, ⟨1, 4, .rw, 4, 1, 0xF⟩, ⟨8, 8, .rw, 0x10, 0, 0xFF⟩]⟩,  -- RCU_LEARN_CFG (R368)
    ⟨0x9000024, 0, 1, false, false, false, [⟨0, 12, .wo, 0, 0, 0xFFF⟩, ⟨12, 1, .wo, 0, 0, 1⟩, ⟨13, 1, .wo, 0, 0, 1⟩]⟩,  -- RCU_LEARN_RESET (R369)
    ⟨0x9000030, 0, 1, false, false, false, [⟨0, 12, .rw, 0, 0, 0xFFF⟩]⟩,  -- RCU_DIE_SEL (R370)
    ⟨0x9000034, 0, 1, false, false, false, [⟨0, 32, .ro, 0, 0, 0xFFFFFFFF⟩]⟩,  -- RCU_AGE_LO (R371)
    ⟨0x9000038, 0, 1, false, false, false, [⟨0, 16, .ro, 0, 0, 0xFFFF⟩]⟩,  -- RCU_AGE_HI (R371)
    ⟨0x900003C, 0, 1, false, false, false, [⟨0, 32, .ro, 0, 0, 0xFFFFFFFF⟩]⟩,  -- RCU_DIE_DARK (R372)
    ⟨0x9000040, 0, 1, false, false, false, [⟨0, 32, .ro, 0, 0, 0xFFFFFFFF⟩]⟩,  -- RCU_DIE_DELTA (R373)
    ⟨0x9000044, 0, 1, false, false, false, [⟨0, 16, .rc, 0, 0, 0xFFFF⟩, ⟨16, 16, .rc, 0, 0, 0xFFFF⟩]⟩  -- RCU_EVENT_CNT (R374)
  ]

/-- The registers of block WPE. -/
def regsWpe : List RegDesc :=
  [
    ⟨0xA000000, 0, 1, false, true, true, [⟨0, 7, .rw, 0x30, 0x24, 0x48⟩]⟩,  -- WPE_VAT_CFG (R404)
    ⟨0xA000004, 0, 1, false, false, false, [⟨0, 17, .ro, 0, 0, 0x1FFFF⟩, ⟨17, 1, .ro, 0, 0, 1⟩]⟩,  -- WPE_VAT_STATUS (R405)
    ⟨0xA000008, 0, 1, false, false, false, [⟨0, 8, .rw, 0x32, 1, 0xFF⟩]⟩,  -- WPE_PROG_CFG (R406)
    ⟨0xA00000C, 0, 1, false, false, false, [⟨0, 5, .rw, 8, 1, 0x18⟩, ⟨8, 10, .rw, 0x78, 1, 0x3FF⟩, ⟨20, 4, .rw, 4, 0, 0xF⟩, ⟨24, 8, .rw, 0x30, 1, 0xFF⟩]⟩,  -- WPE_SKIM_CFG (R407)
    ⟨0xA000010, 0, 1, false, false, false, [⟨0, 16, .rc, 0, 0, 0xFFFF⟩, ⟨16, 16, .rc, 0, 0, 0xFFFF⟩]⟩,  -- WPE_SKIM_CNT (R408)
    ⟨0xA000014, 0, 1, false, false, false, [⟨0, 16, .rc, 0, 0, 0xFFFF⟩, ⟨16, 16, .rc, 0, 0, 0xFFFF⟩]⟩,  -- WPE_FAIL_CNT (R409)
    ⟨0xA000018, 0, 1, false, false, false, [⟨0, 11, .rw, 0x5DC, 0x64, 0x708⟩]⟩,  -- WPE_HORIZON_CFG (R410)
    ⟨0xA00001C, 0, 1, false, false, false, [⟨0, 16, .rc, 0, 0, 0xFFFF⟩]⟩,  -- WPE_HORIZON_STATUS (R411)
    ⟨0xA000020, 0, 1, false, true, true, [⟨0, 14, .rw, 0x1000, 0x400, 0x2000⟩]⟩,  -- WPE_COOLER_CFG (R412)
    ⟨0xA000024, 0, 1, false, false, false, [⟨0, 7, .ro, 0, 0, 0x7F⟩, ⟨7, 1, .ro, 0, 0, 1⟩, ⟨8, 7, .ro, 0, 0, 0x7F⟩]⟩,  -- WPE_COOLER_STATUS (R413)
    ⟨0xA000028, 0, 1, false, false, false, [⟨0, 18, .ro, 0, 0, 0x3FFFF⟩]⟩  -- WPE_PAIL_STATUS (R414)
  ]

/-- The registers of block MME. -/
def regsMme : List RegDesc :=
  [
    ⟨0xB000000, 0, 1, false, true, true, [⟨0, 16, .rw, 0x80E8, 0x7530, 0xFDE8⟩, ⟨16, 8, .rw, 0x3C, 1, 0xFF⟩, ⟨24, 1, .rw, 1, 0, 1⟩]⟩,  -- MME_WEAR_CFG (R445)
    ⟨0xB000004, 0, 1, false, false, false, [⟨0, 16, .ro, 0, 0, 0xFFFF⟩, ⟨16, 16, .ro, 0, 0, 0xFFFF⟩]⟩,  -- MME_WEAR_STATUS (R446)
    ⟨0xB000008, 0, 1, false, true, true, [⟨0, 24, .rw, 0x100000, 1, 0xFFFFFF⟩]⟩,  -- MME_SPARE_CFG (R447)
    ⟨0xB00000C, 0, 1, false, false, false, [⟨0, 8, .rw, 4, 1, 0xFF⟩, ⟨8, 8, .rw, 0x20, 1, 0xFF⟩, ⟨16, 16, .rw, 0x10, 0, 0xFFFF⟩]⟩,  -- MME_ERASE_CFG (R448)
    ⟨0xB000010, 0, 1, false, false, false, [⟨0, 16, .rw, 0x100, 1, 0xFFFE⟩, ⟨16, 16, .rw, 0x400, 2, 0xFFFF⟩]⟩,  -- MME_CHURN_CFG (R449)
    ⟨0xB000014, 0, 1, false, false, false, [⟨0, 8, .rw, 0x28, 1, 0xFF⟩, ⟨8, 16, .rw, 0x190, 1, 0xFFFF⟩, ⟨24, 1, .rw, 1, 0, 1⟩]⟩,  -- MME_REFRESH_CFG (R450)
    ⟨0xB000018, 0, 1, false, false, false, [⟨0, 16, .rw, 0xC8, 1, 0xFFFF⟩, ⟨16, 16, .rw, 0x3E8, 1, 0xFFFF⟩]⟩,  -- MME_DISTURB_CFG (R451)
    ⟨0xB00001C, 0, 1, false, true, true, [⟨0, 10, .rw, 0x32, 0, 0x3FF⟩, ⟨10, 10, .rw, 0xC8, 0, 0x3FF⟩, ⟨20, 10, .rw, 0x19, 0, 0x3FF⟩]⟩,  -- MME_FLOOR_CFG (R452)
    ⟨0xB000020, 0, 1, false, false, false, [⟨0, 8, .rw, 0x64, 1, 0xFF⟩, ⟨8, 8, .rw, 0xC8, 1, 0xFF⟩, ⟨16, 8, .rw, 0x28, 1, 0xFF⟩]⟩,  -- MME_CEIL_CFG (R453)
    ⟨0xB000024, 0, 1, false, false, false, [⟨0, 7, .ro, 0, 0, 0x7F⟩, ⟨7, 1, .ro, 0, 0, 1⟩, ⟨8, 4, .ro, 0, 0, 0xF⟩, ⟨12, 19, .ro, 0, 0, 0x7FFFF⟩]⟩,  -- MME_PASS_STATUS (R454)
    ⟨0xB000028, 0, 1, false, false, false, [⟨0, 19, .ro, 0, 0, 0x7FFFF⟩, ⟨19, 1, .ro, 0, 0, 1⟩, ⟨20, 12, .ro, 0, 0, 0xFFF⟩]⟩,  -- MME_REBUILD_STATUS (R455)
    ⟨0xB00002C, 0, 1, false, false, false, [⟨0, 24, .ro, 0, 0, 0xFFFFFF⟩, ⟨24, 8, .ro, 0, 0, 0xFF⟩]⟩  -- MME_RETIRED (R456)
  ]

/-- The registers of block JNL. -/
def regsJnl : List RegDesc :=
  [
    ⟨0xC000000, 0, 1, false, true, true, [⟨0, 4, .rw, 4, 2, 8⟩, ⟨8, 8, .rw, 0x64, 1, 0xFF⟩]⟩,  -- JNL_CFG (R488)
    ⟨0xC000004, 0, 1, false, true, true, [⟨0, 12, .rw, 0x400, 0x100, 0x800⟩, ⟨12, 1, .wo, 0, 0, 1⟩, ⟨16, 12, .rw, 0x258, 0x3C, 0xE10⟩]⟩,  -- JNL_CKPT_CFG (R489)
    ⟨0xC000008, 0, 1, false, false, false, [⟨0, 3, .ro, 0, 0, 7⟩, ⟨3, 1, .ro, 0, 0, 1⟩, ⟨4, 1, .ro, 0, 0, 1⟩, ⟨5, 1, .ro, 0, 0, 1⟩, ⟨6, 1, .ro, 0, 0, 1⟩, ⟨7, 1, .ro, 0, 0, 1⟩, ⟨8, 1, .ro, 0, 0, 1⟩, ⟨9, 1, .ro, 0, 0, 1⟩]⟩,  -- JNL_STATUS (R490)
    ⟨0xC000010, 0, 1, false, false, false, [⟨0, 32, .ro, 0, 0, 0xFFFFFFFF⟩]⟩,  -- JNL_JSN_LO (R491)
    ⟨0xC000014, 0, 1, false, false, false, [⟨0, 32, .ro, 0, 0, 0xFFFFFFFF⟩]⟩,  -- JNL_JSN_HI (R491)
    ⟨0xC000018, 0, 1, false, false, false, [⟨0, 7, .ro, 0, 0, 0x7F⟩, ⟨8, 24, .ro, 0, 0, 0xFFFFFF⟩]⟩,  -- JNL_CKPT_STATUS (R492)
    ⟨0xC00001C, 0, 1, false, false, false, [⟨0, 16, .ro, 0, 0, 0xFFFF⟩, ⟨16, 16, .ro, 0, 0, 0xFFFF⟩]⟩,  -- JNL_REPLAY_TIME (R493)
    ⟨0xC000020, 0, 1, false, false, false, [⟨0, 1, .ro, 0, 0, 1⟩, ⟨1, 2, .ro, 0, 0, 3⟩, ⟨4, 10, .ro, 0, 0, 0x3FF⟩, ⟨16, 16, .ro, 0, 0, 0xFFFF⟩]⟩,  -- JNL_SAN_STATUS (R494)
    ⟨0xC000024, 0, 1, false, false, false, [⟨0, 19, .ro, 0, 0, 0x7FFFF⟩, ⟨19, 13, .ro, 0, 0, 0x1FFF⟩]⟩  -- JNL_REPLAY_CNT (R495)
  ]

/-- The registers of block ITE. -/
def regsIte : List RegDesc :=
  [
    ⟨0xD000000, 0, 1, false, true, false, [⟨0, 1, .rw, 1, 0, 1⟩, ⟨4, 4, .rw, 8, 1, 0xE⟩, ⟨8, 4, .rw, 2, 0, 4⟩]⟩,  -- ITE_CFG (R514)
    ⟨0xD000004, 0, 1, false, false, false, [⟨0, 10, .wo, 0, 0, 0x3FF⟩, ⟨10, 2, .wo, 0, 0, 3⟩, ⟨12, 3, .wo, 0, 0, 7⟩]⟩,  -- ITE_KEY_CTL (R515)
    ⟨0xD000008, 0, 1, false, false, false, [⟨0, 32, .rw, 0, 0, 0xFFFFFFFF⟩]⟩,  -- ITE_KEY_ID (R516)
    ⟨0xD00000C, 0, 1, false, false, false, [⟨0, 4, .ro, 0, 0, 0xF⟩, ⟨8, 24, .ro, 0, 0, 0xFFFFFF⟩]⟩,  -- ITE_KEY_RESULT (R517)
    ⟨0xD000010, 0, 1, false, false, false, [⟨0, 10, .rw, 0, 0, 0x200⟩]⟩,  -- ITE_TEN_SEL (R518)
    ⟨0xD000014, 0, 1, false, false, true, [⟨0, 1, .rw, 0, 0, 1⟩]⟩,  -- ITE_TEN_CFG (R518)
    ⟨0xD000018, 4, 4, false, false, false, [⟨0, 32, .ro, 0, 0, 0xFFFFFFFF⟩]⟩,  -- ITE_SLOT_ID (R519)
    ⟨0xD000030, 0, 1, false, false, false, [⟨0, 16, .rc, 0, 0, 0xFFFF⟩, ⟨16, 16, .rc, 0, 0, 0xFFFF⟩]⟩,  -- ITE_ERR_CNT (R520)
    ⟨0xD000034, 0, 1, false, false, false, [⟨0, 16, .rc, 0, 0, 0xFFFF⟩, ⟨16, 16, .rc, 0, 0, 0xFFFF⟩]⟩,  -- ITE_ERR_CNT2 (R520)
    ⟨0xD000038, 0, 1, false, false, false, [⟨0, 32, .rc, 0, 0, 0xFFFFFFFF⟩]⟩  -- ITE_SUSP_CNT (R520)
  ]

/-- The registers of block BPM. -/
def regsBpm : List RegDesc :=
  [
    ⟨0xE000000, 0, 1, false, false, true, [⟨0, 1, .rwl, 0, 0, 1⟩, ⟨1, 2, .rwl, 1, 0, 1⟩, ⟨16, 16, .rwl, 0x100, 0, 0xFFFF⟩]⟩,  -- BPM_POOL_CFG0 (R540)
    ⟨0xE000004, 0, 1, false, false, true, [⟨0, 1, .rwl, 1, 0, 1⟩, ⟨1, 2, .rwl, 1, 0, 1⟩, ⟨16, 16, .rwl, 0x400, 0, 0xFFFF⟩]⟩,  -- BPM_POOL_CFG1 (R540)
    ⟨0xE000008, 0, 1, false, false, true, [⟨0, 1, .rwl, 1, 0, 1⟩, ⟨1, 2, .rwl, 1, 0, 1⟩, ⟨16, 16, .rwl, 0x200, 0, 0xFFFF⟩]⟩,  -- BPM_POOL_CFG2 (R540)
    ⟨0xE00000C, 0, 1, false, false, true, [⟨0, 1, .rwl, 1, 0, 1⟩, ⟨1, 2, .rwl, 0, 0, 0⟩, ⟨16, 16, .rwl, 0x800, 0, 0x7FFF⟩]⟩,  -- BPM_POOL_CFG3 (R540)
    ⟨0xE000010, 0, 1, false, false, false, [⟨0, 1, .rwl, 0, 0, 1⟩]⟩,  -- BPM_LOCK (R541)
    ⟨0xE000020, 4, 4, false, false, false, [⟨0, 23, .ro, 0, 0, 0x7FFFFF⟩, ⟨23, 7, .ro, 0, 0, 0x7F⟩, ⟨30, 1, .ro, 0, 0, 1⟩, ⟨31, 1, .ro, 0, 0, 1⟩]⟩,  -- BPM_POOL_STATUS (R542)
    ⟨0xE000030, 0, 1, false, false, false, [⟨0, 4, .rw, 0, 0, 0xF⟩, ⟨4, 2, .rw, 0, 0, 3⟩, ⟨6, 1, .wo, 0, 0, 1⟩]⟩,  -- BPM_CNT_SEL (R543)
    ⟨0xE000034, 0, 1, false, false, false, [⟨0, 32, .ro, 0, 0, 0xFFFFFFFF⟩]⟩,  -- BPM_CNT (R544)
    ⟨0xE000038, 0, 1, false, false, false, [⟨0, 25, .ro, 0, 0, 0x1FFFFFF⟩, ⟨25, 4, .ro, 0, 0, 0xF⟩]⟩,  -- BPM_LAST_ERR (R545)
    ⟨0xE00003C, 0, 1, false, false, false, [⟨0, 12, .ro, 0, 0, 0xFFF⟩, ⟨12, 4, .ro, 0, 0, 0xF⟩, ⟨16, 4, .ro, 0, 0, 0xF⟩]⟩,  -- BPM_LAST_ERR2 (R545)
    ⟨0xE000040, 0, 1, false, false, false, [⟨0, 25, .rw, 0, 0, 0x1FFFFFF⟩]⟩,  -- BPM_INSPECT_SEL (R546)
    ⟨0xE000044, 0, 1, false, false, false, [⟨0, 2, .ro, 0, 0, 3⟩, ⟨2, 10, .ro, 0, 0, 0x3FF⟩]⟩,  -- BPM_INSPECT (R547)
    ⟨0xE000048, 0, 1, false, false, false, [⟨0, 12, .ro, 0, 0, 0xFFF⟩, ⟨12, 10, .ro, 0, 0, 0x3FF⟩]⟩  -- BPM_INSPECT2 (R547)
  ]

/-- The registers of block DMC. -/
def regsDmc : List RegDesc :=
  [
    ⟨0xF000000, 0, 1, false, false, false, [⟨0, 2, .ro, 0, 0, 3⟩, ⟨2, 1, .ro, 0, 0, 1⟩, ⟨3, 1, .ro, 0, 0, 1⟩, ⟨4, 8, .ro, 0, 0, 0xFF⟩]⟩,  -- DMC_CFG (R566)
    ⟨0xF000010, 0, 1, false, false, false, [⟨0, 22, .rwl, 0x1111, 0, 0x3FFFFF⟩]⟩,  -- DMC_BANK_XOR0 (R567)
    ⟨0xF000014, 0, 1, false, false, false, [⟨0, 22, .rwl, 0x2222, 0, 0x3FFFFF⟩]⟩,  -- DMC_BANK_XOR1 (R567)
    ⟨0xF000018, 0, 1, false, false, false, [⟨0, 22, .rwl, 0x4444, 0, 0x3FFFFF⟩]⟩,  -- DMC_BANK_XOR2 (R567)
    ⟨0xF00001C, 0, 1, false, false, false, [⟨0, 22, .rwl, 0x8888, 0, 0x3FFFFF⟩]⟩,  -- DMC_BANK_XOR3 (R567)
    ⟨0xF000020, 0, 1, false, false, false, [⟨0, 1, .rwl, 0, 0, 1⟩]⟩,  -- DMC_LOCK (R568)
    ⟨0xF000024, 0, 1, false, false, false, [⟨0, 10, .rw, 0xC8, 1, 0x3FF⟩, ⟨10, 6, .rw, 0x30, 1, 0x3F⟩, ⟨16, 6, .rw, 0x10, 0, 0x3E⟩, ⟨22, 8, .rw, 0x14, 1, 0xFF⟩]⟩,  -- DMC_SCHED_CFG (R569)
    ⟨0xF000028, 0, 1, false, false, false, [⟨0, 8, .rw, 0x18, 1, 0x7F⟩, ⟨8, 8, .rw, 0x30, 2, 0x80⟩, ⟨16, 16, .rw, 0x14, 1, 0xFFFF⟩]⟩,  -- DMC_PANIC_CFG (R570)
    ⟨0xF00002C, 0, 1, false, false, false, [⟨0, 8, .ro, 0, 0, 0xFF⟩, ⟨16, 16, .rc, 0, 0, 0xFFFF⟩]⟩,  -- DMC_PANIC_STATUS (R571)
    ⟨0xF000030, 0, 1, false, false, false, [⟨0, 12, .rw, 0x400, 0x40, 0xFFF⟩, ⟨12, 8, .rw, 0x32, 1, 0xFF⟩, ⟨20, 8, .rw, 0x20, 1, 0xFF⟩]⟩,  -- DMC_RH_CFG (R572)
    ⟨0xF000034, 0, 1, false, false, false, [⟨0, 16, .rc, 0, 0, 0xFFFF⟩, ⟨16, 16, .rc, 0, 0, 0xFFFF⟩]⟩,  -- DMC_RH_CNT (R573)
    ⟨0xF000038, 0, 1, false, false, false, [⟨0, 12, .ro, 0, 0, 0xFFF⟩]⟩,  -- DMC_RH_STATUS (R573)
    ⟨0xF000040, 0, 1, false, false, false, [⟨0, 16, .rc, 0, 0, 0xFFFF⟩, ⟨16, 16, .rc, 0, 0, 0xFFFF⟩]⟩,  -- DMC_CRC_CNT (R574)
    ⟨0xF000044, 0, 1, false, false, false, [⟨0, 32, .ro, 0, 0, 0xFFFFFFFF⟩]⟩,  -- DMC_CRC_LAST_LO (R575)
    ⟨0xF000048, 0, 1, false, false, false, [⟨0, 7, .ro, 0, 0, 0x7F⟩, ⟨8, 5, .ro, 0, 0, 0x1F⟩, ⟨16, 4, .ro, 0, 0, 0xF⟩]⟩,  -- DMC_CRC_LAST_HI (R575)
    ⟨0xF000050, 0, 1, false, true, false, [⟨0, 1, .wo, 0, 0, 1⟩]⟩  -- DMC_TRAIN_CTL (R576)
  ] ++
  [
    ⟨0xF000054, 0, 1, false, false, false, [⟨0, 1, .ro, 0, 0, 1⟩, ⟨1, 1, .ro, 0, 0, 1⟩, ⟨2, 1, .ro, 0, 0, 1⟩, ⟨8, 24, .ro, 0, 0, 0xFFFFFF⟩]⟩  -- DMC_TRAIN_STATUS (R576)
  ]

/-- The registers of block MGC. -/
def regsMgc : List RegDesc :=
  [
    ⟨0x10000000, 0, 1, false, false, false, [⟨0, 7, .ro, 0, 0, 0x7F⟩, ⟨8, 7, .ro, 0, 0, 0x7F⟩, ⟨16, 7, .ro, 0, 0, 0x7F⟩, ⟨24, 7, .ro, 0, 0, 0x7F⟩]⟩,  -- MGC_LOAD (R659)
    ⟨0x10000004, 0, 1, false, true, true, [⟨0, 7, .rw, 0x55, 0x32, 0x64⟩, ⟨8, 7, .rw, 0x4B, 0, 0x63⟩, ⟨16, 16, .rw, 0x3E8, 0x64, 0xEA60⟩]⟩,  -- MGC_SHED_CFG (R660)
    ⟨0x10000008, 0, 1, false, true, true, [⟨0, 10, .rw, 0x200, 1, 0x3FF⟩, ⟨16, 10, .rw, 0x80, 1, 0x3FF⟩]⟩,  -- MGC_ADMIT_CFG (R661)
    ⟨0x1000000C, 0, 1, false, false, false, [⟨0, 1, .ro, 0, 0, 1⟩, ⟨1, 3, .ro, 0, 0, 7⟩, ⟨4, 1, .ro, 0, 0, 1⟩, ⟨8, 7, .ro, 0, 0, 0x7F⟩, ⟨16, 10, .ro, 0, 0, 0x3FF⟩]⟩,  -- MGC_STATUS (R662)
    ⟨0x10000010, 0, 1, false, false, false, [⟨0, 16, .rc, 0, 0, 0xFFFF⟩, ⟨16, 16, .ro, 0, 0, 0xFFFF⟩]⟩  -- MGC_CNT (R663)
  ]

/-- The registers of block FWS. -/
def regsFws : List RegDesc :=
  [
    ⟨0x11000000, 0, 1, false, false, false, [⟨0, 2, .ro, 0, 0, 3⟩, ⟨2, 1, .ro, 0, 0, 1⟩, ⟨3, 1, .ro, 0, 0, 1⟩, ⟨4, 1, .ro, 0, 0, 1⟩, ⟨5, 1, .ro, 0, 0, 1⟩, ⟨6, 2, .ro, 0, 0, 3⟩, ⟨8, 1, .ro, 0, 0, 1⟩, ⟨9, 1, .ro, 0, 0, 1⟩]⟩,  -- FWS_STATUS (R685)
    ⟨0x11000004, 0, 1, false, false, false, [⟨0, 1, .rw, 1, 0, 1⟩, ⟨8, 8, .rw, 0x32, 1, 0xFF⟩, ⟨16, 16, .rw, 0x3E8, 0x64, 0x2710⟩]⟩,  -- FWS_CFG (R686)
    ⟨0x11000008, 0, 1, false, false, false, [⟨0, 3, .wo, 0, 0, 7⟩, ⟨8, 9, .wo, 0, 0, 0x1FF⟩, ⟨17, 9, .wo, 0, 0, 0x1FF⟩]⟩,  -- FWS_CMD (R687)
    ⟨0x1100000C, 0, 1, false, false, false, [⟨0, 3, .ro, 0, 0, 7⟩, ⟨4, 4, .ro, 0, 0, 0xF⟩, ⟨8, 9, .ro, 0, 0, 0x1FF⟩]⟩,  -- FWS_CMD_STATUS (R688)
    ⟨0x11000010, 0, 1, false, false, false, [⟨2, 25, .rw, 0, 0, 0x1FFFFFF⟩]⟩,  -- FWS_CREAD_ADDR (R689)
    ⟨0x11000014, 0, 1, false, false, false, [⟨0, 32, .ro, 0, 0, 0xFFFFFFFF⟩]⟩,  -- FWS_CREAD_DATA (R689)
    ⟨0x11000018, 0, 1, false, false, false, [⟨0, 9, .rw, 0, 0, 0x1FF⟩]⟩,  -- FWS_SECT_SEL (R690)
    ⟨0x1100001C, 0, 1, false, false, false, [⟨0, 3, .ro, 0, 0, 7⟩, ⟨3, 1, .ro, 0, 0, 1⟩, ⟨4, 1, .ro, 0, 0, 1⟩, ⟨5, 10, .ro, 0, 0, 0x3FF⟩, ⟨15, 17, .ro, 0, 0, 0x1FFFF⟩]⟩,  -- FWS_SECT_INFO (R690)
    ⟨0x11001000, 4, 128, false, false, false, [⟨0, 32, .rw, 0, 0, 0xFFFFFFFF⟩]⟩  -- FWS_PROG_BUF (R691)
  ]

/-- The registers of block EVC. -/
def regsEvc : List RegDesc :=
  [
    ⟨0x12000000, 0, 1, false, true, true, [⟨0, 4, .rw, 8, 1, 0xF⟩, ⟨4, 12, .rw, 0xA, 1, 0xFFF⟩, ⟨16, 8, .rw, 0x64, 1, 0xFF⟩, ⟨24, 8, .rw, 0xA, 1, 0xFF⟩]⟩,  -- EVC_CFG (R705)
    ⟨0x12000004, 0, 1, false, false, false, [⟨0, 1, .ro, 0, 0, 1⟩, ⟨1, 1, .ro, 0, 0, 1⟩, ⟨2, 1, .ro, 0, 0, 1⟩, ⟨4, 6, .ro, 0, 0, 0x3F⟩, ⟨16, 7, .ro, 0, 0, 0x7F⟩]⟩,  -- EVC_STATUS (R706)
    ⟨0x12000008, 0, 1, false, false, false, [⟨0, 16, .rc, 0, 0, 0xFFFF⟩, ⟨16, 16, .rc, 0, 0, 0xFFFF⟩]⟩,  -- EVC_CNT (R707)
    ⟨0x1200000C, 0, 1, false, false, false, [⟨0, 11, .rw, 0, 0, 0x5FF⟩]⟩,  -- EVC_SUPP_SEL (R708)
    ⟨0x12000010, 0, 1, false, false, false, [⟨0, 16, .ro, 0, 0, 0xFFFF⟩, ⟨16, 4, .ro, 0, 0, 0xF⟩]⟩,  -- EVC_SUPP (R708)
    ⟨0x12000014, 0, 1, false, false, false, [⟨0, 32, .ro, 0, 0, 0xFFFFFFFF⟩]⟩,  -- EVC_SEQ_LO (R709)
    ⟨0x12000018, 0, 1, false, false, false, [⟨0, 32, .ro, 0, 0, 0xFFFFFFFF⟩]⟩,  -- EVC_SEQ_HI (R709)
    ⟨0x1200001C, 0, 1, false, false, false, [⟨0, 11, .wo, 0, 0, 0x7FF⟩, ⟨11, 2, .wo, 0, 0, 3⟩]⟩,  -- EVC_SW_RAISE (R710)
    ⟨0x12000020, 0, 1, false, false, false, [⟨0, 32, .rw, 0, 0, 0xFFFFFFFF⟩]⟩,  -- EVC_SW_INDEX (R710)
    ⟨0x12001000, 0x20, 48, false, false, true, [⟨0, 32, .rw, 1, 0, 0xFFFFFFFF⟩]⟩,  -- EVC_ENb (R711)
    ⟨0x12001004, 0x20, 48, false, false, false, [⟨0, 32, .w1c, 0, 0, 0xFFFFFFFF⟩]⟩,  -- EVC_LATCHb (R711)
    ⟨0x12001008, 0x20, 48, false, false, true, [⟨0, 32, .rw, 1, 0, 0xFFFFFFFF⟩]⟩,  -- EVC_LOGb (R711)
    ⟨0x1200100C, 0x20, 48, false, false, true, [⟨0, 32, .rw, 1, 0, 0xFFFFFFFF⟩]⟩,  -- EVC_AENb (R711)
    ⟨0x12001010, 0x20, 48, false, false, true, [⟨0, 32, .rw, 0, 0, 0xFFFFFFFF⟩]⟩,  -- EVC_IBIb (R711)
    ⟨0x12001014, 0x20, 48, false, false, true, [⟨0, 32, .rw, 1, 0, 0xFFFFFFFF⟩]⟩  -- EVC_EXEMPTb (R711)
  ]

/-- The registers of block PAD. -/
def regsPad : List RegDesc :=
  [
    ⟨0x13000000, 0, 1, true, false, false, [⟨0, 2, .ro, 0, 0, 3⟩, ⟨2, 1, .ro, 0, 0, 1⟩, ⟨3, 3, .ro, 0, 0, 7⟩, ⟨6, 1, .ro, 0, 0, 1⟩, ⟨8, 4, .ro, 0, 0, 0xF⟩]⟩,  -- PAD_STRAP (R738)
    ⟨0x13000004, 0, 1, true, true, true, [⟨0, 8, .rw, 0x32, 1, 0xFF⟩, ⟨8, 16, .rw, 0x3E8, 0xA, 0xFFFF⟩, ⟨24, 8, .rw, 0xA, 1, 0xFF⟩]⟩,  -- PAD_FILT_CFG (R739)
    ⟨0x13000008, 0, 1, true, true, true, [⟨0, 16, .rw, 0x7D0, 0x64, 0xEA60⟩, ⟨16, 16, .rw, 0x64, 1, 0xFFFF⟩]⟩,  -- PAD_STUCK_CFG (R740)
    ⟨0x1300000C, 0, 1, true, false, false, [⟨0, 16, .ro, 0xFFFF, 0, 0xFFFF⟩, ⟨16, 16, .ro, 0, 0, 0xFFFF⟩]⟩,  -- PAD_IN_STATE (R741)
    ⟨0x13000010, 0, 1, true, false, false, [⟨0, 16, .ro, 0, 0, 0xFFFF⟩, ⟨16, 1, .ro, 0, 0, 1⟩]⟩,  -- PAD_IN_MASK (R742)
    ⟨0x13000014, 0, 1, true, false, false, [⟨0, 10, .ro, 0, 0, 0x3FF⟩, ⟨10, 1, .ro, 0, 0, 1⟩, ⟨11, 1, .ro, 0, 0, 1⟩, ⟨16, 10, .ro, 0, 0, 0x3FF⟩]⟩,  -- PAD_THERM (R743)
    ⟨0x13000018, 0, 1, true, false, false, [⟨0, 5, .ro, 0xA, 0, 0x1F⟩, ⟨5, 5, .ro, 0, 0, 0x1F⟩]⟩  -- PAD_VID (R744)
  ]

/-- The registers of the block whose window holds an address (02 Table 02-10). -/
def blockRegs (blk : Nat) : List RegDesc :=
  match blk with
  | 0 => regsTop
  | 1 => regsCru
  | 2 => regsTu
  | 3 => regsHfe
  | 4 => regsQe
  | 5 => regsTiu
  | 6 => regsZm
  | 7 => regsFlc
  | 8 => regsClc
  | 9 => regsRcu
  | 10 => regsWpe
  | 11 => regsMme
  | 12 => regsJnl
  | 13 => regsIte
  | 14 => regsBpm
  | 15 => regsDmc
  | 16 => regsMgc
  | 17 => regsFws
  | 18 => regsEvc
  | 19 => regsPad
  | _ => []

/-- The number of a repeated register that an address names. -/
def regIndex (d : RegDesc) (addr : Nat) : Nat := if d.stride = 0 then 0 else (addr - d.addr) / d.stride

/-- Whether a descriptor covers an address. -/
def regCovers (d : RegDesc) (addr : Nat) : Bool :=
  decide (d.addr ≤ addr) && decide (d.addr + d.stride * regIndex d addr = addr) && decide (regIndex d addr < d.count)

/-- The descriptor of a register address, none where the offset is unmapped (R17). -/
def regFind (addr : Nat) : Option RegDesc := (blockRegs (addr / 0x1000000)).find? (fun d => regCovers d addr)

/-! One name for each stored field (access codes RW, RWL, RC and W1C). -/
namespace F

def TOP_QUIESCE_CFG_DRAIN_MS : Fld := ⟨0x18, 0, 16⟩
def TOP_SKIM_DUE_DUE : Fld := ⟨0x24, 0, 32⟩
def HFE_MODE_CTL_MODE : Fld := ⟨0x3000000, 0, 2⟩
def HFE_LANE_FAIL_CFG_LOL_MS : Fld := ⟨0x300000C, 0, 8⟩
def HFE_LANE_FAIL_CFG_UNCORR_MAX : Fld := ⟨0x300000C, 8, 16⟩
def HFE_CC_NP_NP_EN : Fld := ⟨0x3000020, 0, 1⟩
def HFE_CC_NP_CNP_INTERVAL_US : Fld := ⟨0x3000020, 8, 8⟩
def HFE_CC_NP_CNP_DSCP : Fld := ⟨0x3000020, 16, 6⟩
def HFE_CC_NP_CNP_PRIO : Fld := ⟨0x3000020, 24, 3⟩
def HFE_CC_RP_RP_EN : Fld := ⟨0x3000024, 0, 1⟩
def HFE_CC_RP_CUT : Fld := ⟨0x3000024, 8, 8⟩
def HFE_CC_RP_RECOVER_US : Fld := ⟨0x3000024, 16, 8⟩
def HFE_CC_RP_MIN_RATE : Fld := ⟨0x3000024, 24, 8⟩
def HFE_TCP_CFG_CC : Fld := ⟨0x3000028, 0, 1⟩
def HFE_TCP_CFG_ECN : Fld := ⟨0x3000028, 1, 1⟩
def HFE_RDMA_CFG_ACK_TIMEOUT : Fld := ⟨0x300002C, 0, 5⟩
def HFE_RDMA_CFG_RETRY : Fld := ⟨0x300002C, 5, 3⟩
def HFE_RDMA_CFG_RNR_RETRY : Fld := ⟨0x300002C, 8, 3⟩
def HFE_RDMA_CFG_MTU : Fld := ⟨0x300002C, 12, 2⟩
def HFE_PTP_CFG_ENABLE : Fld := ⟨0x3000040, 0, 1⟩
def HFE_PTP_CFG_PORT : Fld := ⟨0x3000040, 1, 3⟩
def HFE_PTP_CFG_DELAY_MECH : Fld := ⟨0x3000040, 4, 1⟩
def HFE_PTP_CFG_TRANSPORT : Fld := ⟨0x3000040, 5, 3⟩
def HFE_PTP_CFG_DOMAIN : Fld := ⟨0x3000040, 8, 8⟩
def HFE_PTP_CFG_PRIO : Fld := ⟨0x3000040, 16, 3⟩
def HFE_PTP_ASYM_ASYM_NS : Fld := ⟨0x3000044, 0, 16⟩
def HFE_PTP_TS_STATUS_OVERFLOW : Fld := ⟨0x3000048, 8, 16⟩
def HFE_PORT_CTL_ENABLE (i : Nat) : Fld := ⟨0x3001000 + i * 0x100, 0, 1⟩
def HFE_PORT_CTL_AUTO_WIDEN (i : Nat) : Fld := ⟨0x3001000 + i * 0x100, 1, 1⟩
def HFE_PORT_CTL_MEDIA (i : Nat) : Fld := ⟨0x3001000 + i * 0x100, 4, 2⟩
def HFE_PORT_PFC_CFG_PRIO_A (i : Nat) : Fld := ⟨0x3001008 + i * 0x100, 0, 3⟩
def HFE_PORT_PFC_CFG_EN_A (i : Nat) : Fld := ⟨0x3001008 + i * 0x100, 3, 1⟩
def HFE_PORT_PFC_CFG_PRIO_B (i : Nat) : Fld := ⟨0x3001008 + i * 0x100, 4, 3⟩
def HFE_PORT_PFC_CFG_EN_B (i : Nat) : Fld := ⟨0x3001008 + i * 0x100, 7, 1⟩
def HFE_PORT_PFC_CFG_TRUST_DSCP (i : Nat) : Fld := ⟨0x3001008 + i * 0x100, 8, 1⟩
def HFE_PORT_PFC_CFG_TCP_ON_B (i : Nat) : Fld := ⟨0x3001008 + i * 0x100, 9, 1⟩
def HFE_PORT_PFC_CFG_STORM_MS (i : Nat) : Fld := ⟨0x3001008 + i * 0x100, 16, 16⟩
def HFE_PORT_PFC_THR_XOFF_KIB (i : Nat) : Fld := ⟨0x300100C + i * 0x100, 0, 16⟩
def HFE_PORT_PFC_THR_XON_KIB (i : Nat) : Fld := ⟨0x300100C + i * 0x100, 16, 16⟩
def HFE_PORT_CNT_SEL_SEL (i : Nat) : Fld := ⟨0x3001010 + i * 0x100, 0, 5⟩
def TIU_TEN_CTL_STATE (i : Nat) : Fld := ⟨0x5100000 + i * 0x1000, 0, 2⟩
def TIU_TEN_CTL_ANY_HOST (i : Nat) : Fld := ⟨0x5100000 + i * 0x1000, 2, 1⟩
def TIU_TEN_QP_QP_MAX (i : Nat) : Fld := ⟨0x5100010 + i * 0x1000, 0, 21⟩
def TIU_TEN_QP_CTRL_MAX (i : Nat) : Fld := ⟨0x5100010 + i * 0x1000, 21, 7⟩
def TIU_TEN_TASK_MIN_MIN (i : Nat) : Fld := ⟨0x5100018 + i * 0x1000, 0, 19⟩
def TIU_TEN_TASK_MAX_MAX (i : Nat) : Fld := ⟨0x510001C + i * 0x1000, 0, 19⟩
def TIU_TEN_ZONES_OPEN_MAX (i : Nat) : Fld := ⟨0x5100024 + i * 0x1000, 0, 12⟩
def TIU_TEN_ZONES_ACTIVE_MAX (i : Nat) : Fld := ⟨0x5100024 + i * 0x1000, 12, 15⟩
def TIU_TEN_BW_WEIGHT (i : Nat) : Fld := ⟨0x510002C + i * 0x1000, 0, 16⟩
def TIU_TEN_BW_CAP (i : Nat) : Fld := ⟨0x510002C + i * 0x1000, 16, 16⟩
def TIU_TEN_PWR_WEIGHT (i : Nat) : Fld := ⟨0x5100030 + i * 0x1000, 0, 16⟩
def TIU_TEN_PWR_CAP (i : Nat) : Fld := ⟨0x5100030 + i * 0x1000, 16, 16⟩
def TIU_TEN_CONN_RATE (i : Nat) : Fld := ⟨0x5100034 + i * 0x1000, 0, 16⟩
def TIU_TEN_CONN_BURST (i : Nat) : Fld := ⟨0x5100034 + i * 0x1000, 16, 8⟩
def TIU_TEN_CONN_ADMIN_DEPTH (i : Nat) : Fld := ⟨0x5100034 + i * 0x1000, 24, 8⟩
def TIU_TEN_DIESET_MASK (i : Nat) : Fld := ⟨0x5100040 + i * 0x1000, 0, 32⟩
def QE_CMD_CFG_DATA_TO : Fld := ⟨0x4000004, 0, 16⟩
def QE_CMD_CFG_KATO_MIN_S : Fld := ⟨0x4000004, 16, 8⟩
def QE_ABORT_CNT_ABORTED : Fld := ⟨0x4000008, 0, 16⟩
def QE_ABORT_CNT_NOT_ABORTED : Fld := ⟨0x4000008, 16, 16⟩
def QE_STAMP_SEL_NS_INDEX : Fld := ⟨0x4000010, 0, 13⟩
def ZM_RSV_CFG_PER_ZONE : Fld := ⟨0x6000004, 0, 3⟩
def ZM_RSV_CFG_LOW_MARK : Fld := ⟨0x6000004, 8, 24⟩
def ZM_EVENT_CNT_SHRINK : Fld := ⟨0x6000010, 0, 16⟩
def ZM_EVENT_CNT_AUTO_OFFLINE : Fld := ⟨0x6000010, 16, 16⟩
def ZM_HINT_CFG_PER_HOME : Fld := ⟨0x6000014, 0, 4⟩
def ZM_HINT_CFG_AUTO_REHOME : Fld := ⟨0x6000014, 4, 1⟩
def ZM_HINT_MISS_COUNT : Fld := ⟨0x6000018, 0, 32⟩
def FLC_PWR_BUDGET_BUDGET_W : Fld := ⟨0x7000000, 0, 9⟩
def FLC_GATE_CFG_GATE_EN : Fld := ⟨0x7000010, 0, 1⟩
def FLC_GATE_CFG_MIN_AWAKE : Fld := ⟨0x7000010, 1, 4⟩
def FLC_GATE_CFG_IDLE_S : Fld := ⟨0x7000010, 8, 8⟩
def FLC_GATE_CTL_KEEP : Fld := ⟨0x7000018, 0, 16⟩
def FLC_SUSP_CFG_EN : Fld := ⟨0x7000020, 0, 1⟩
def FLC_SUSP_CFG_MAX_PER_OP : Fld := ⟨0x7000020, 4, 4⟩
def FLC_SUSP_CFG_MIN_RUN_US : Fld := ⟨0x7000020, 8, 8⟩
def FLC_SUSP_CFG_MAX_READS : Fld := ⟨0x7000020, 16, 4⟩
def FLC_LINK_CFG_REPLAY : Fld := ⟨0x7000024, 0, 8⟩
def FLC_LINK_CFG_RETRY_S : Fld := ⟨0x7000024, 8, 8⟩
def FLC_LINK_CFG_GRACE_S : Fld := ⟨0x7000024, 16, 16⟩
def FLC_THERM_CFG_LIMIT : Fld := ⟨0x7000028, 0, 10⟩
def FLC_LN_CTL_ENABLE (i : Nat) : Fld := ⟨0x7001000 + i * 0x40, 0, 1⟩
def FLC_LN_ERR_CRC_ERR (i : Nat) : Fld := ⟨0x7001008 + i * 0x40, 0, 16⟩
def FLC_LN_ERR_REPLAY (i : Nat) : Fld := ⟨0x7001008 + i * 0x40, 16, 16⟩
def FLC_LN_SYNC_MISS (i : Nat) : Fld := ⟨0x700100C + i * 0x40, 0, 16⟩
def FLC_LN_SYNC_LOCK_LOSS (i : Nat) : Fld := ⟨0x700100C + i * 0x40, 16, 16⟩
def CLC_MODE_CFG_LEVEL_PAGES : Fld := ⟨0x8000000, 0, 3⟩
def CLC_MODE_CFG_SEQ_EN : Fld := ⟨0x8000000, 4, 1⟩
def CLC_MODE_CFG_HOLD_US : Fld := ⟨0x8000000, 8, 16⟩
def CLC_LLR_CFG_SCALE : Fld := ⟨0x8000004, 0, 8⟩
def CLC_LLR_CFG_HARD_MAG : Fld := ⟨0x8000004, 8, 3⟩
def CLC_LLR_CFG_SIGMA_FLOOR : Fld := ⟨0x8000004, 12, 8⟩
def CLC_LLR_CFG_SIGMA_DEF : Fld := ⟨0x8000004, 20, 8⟩
def CLC_LADDER_CFG_L1_EN : Fld := ⟨0x8000008, 0, 1⟩
def CLC_LADDER_CFG_L2_EN : Fld := ⟨0x8000008, 1, 1⟩
def CLC_LADDER_CFG_L3_EN : Fld := ⟨0x8000008, 2, 1⟩
def CLC_LADDER_CFG_L4_EN : Fld := ⟨0x8000008, 3, 1⟩
def CLC_LADDER_CFG_NWC_FIXED : Fld := ⟨0x8000008, 4, 1⟩
def CLC_LADDER_CFG_ERASE_MAX : Fld := ⟨0x8000008, 8, 4⟩
def CLC_LADDER_CFG_HARD_ITER : Fld := ⟨0x8000008, 16, 5⟩
def CLC_LADDER_CFG_SOFT_ITER : Fld := ⟨0x8000008, 24, 6⟩
def CLC_DEF_CFG_HIT_BITS : Fld := ⟨0x800000C, 0, 9⟩
def CLC_DEF_CFG_HITS : Fld := ⟨0x800000C, 12, 4⟩
def CLC_NWC_COEF_C0 : Fld := ⟨0x8000010, 0, 4⟩
def CLC_NWC_COEF_C1 : Fld := ⟨0x8000010, 4, 4⟩
def CLC_NWC_COEF_C2 : Fld := ⟨0x8000010, 8, 4⟩
def CLC_NWC_COEF_C3 : Fld := ⟨0x8000010, 12, 4⟩
def CLC_NWC_COEF_C4 : Fld := ⟨0x8000010, 16, 4⟩
def CLC_NWC_COEF_C5 : Fld := ⟨0x8000010, 20, 4⟩
def CLC_NWC_COEF_C6 : Fld := ⟨0x8000010, 24, 4⟩
def CLC_NWC_COEF_C7 : Fld := ⟨0x8000010, 28, 4⟩
def CLC_EXIT_SEL_SEL : Fld := ⟨0x8000014, 0, 3⟩
def CLC_PILOT_CNT_DROPPED : Fld := ⟨0x8000020, 0, 16⟩
def CLC_PILOT_CNT_INVALID : Fld := ⟨0x8000020, 16, 16⟩
def CLC_DEF_SEL_DIE : Fld := ⟨0x8000024, 0, 12⟩
def CLC_DEF_SEL_PLANE : Fld := ⟨0x8000024, 12, 2⟩
def CLC_DEF_SEL_INDEX : Fld := ⟨0x8000024, 16, 5⟩
def RCU_EA_EA : Fld := ⟨0x9000000, 0, 32⟩
def RCU_KB_KB : Fld := ⟨0x9000004, 0, 32⟩
def RCU_TREF_TEMP : Fld := ⟨0x9000008, 0, 10⟩
def RCU_DARK_CFG_DEF_TEMP : Fld := ⟨0x9000010, 0, 10⟩
def RCU_SHELF_TEMP_TEMP : Fld := ⟨0x9000014, 0, 10⟩
def RCU_LEARN_CFG_EN : Fld := ⟨0x9000020, 0, 1⟩
def RCU_LEARN_CFG_LR_SHIFT : Fld := ⟨0x9000020, 1, 4⟩
def RCU_LEARN_CFG_L_MIN : Fld := ⟨0x9000020, 8, 8⟩
def RCU_DIE_SEL_DIE : Fld := ⟨0x9000030, 0, 12⟩
def RCU_EVENT_CNT_DISAGREE : Fld := ⟨0x9000044, 0, 16⟩
def RCU_EVENT_CNT_LEARN : Fld := ⟨0x9000044, 16, 16⟩
def WPE_VAT_CFG_LIMIT_GIB : Fld := ⟨0xA000000, 0, 7⟩
def WPE_PROG_CFG_PARK_MS : Fld := ⟨0xA000008, 0, 8⟩
def WPE_SKIM_CFG_ITER : Fld := ⟨0xA00000C, 0, 5⟩
def WPE_SKIM_CFG_BITS : Fld := ⟨0xA00000C, 8, 10⟩
def WPE_SKIM_CFG_WEAK_CW : Fld := ⟨0xA00000C, 20, 4⟩
def WPE_SKIM_CFG_SIGMA_MAX : Fld := ⟨0xA00000C, 24, 8⟩
def WPE_SKIM_CNT_WEAK : Fld := ⟨0xA000010, 0, 16⟩
def WPE_SKIM_CNT_BAD : Fld := ⟨0xA000010, 16, 16⟩
def WPE_FAIL_CNT_PROG_FAIL : Fld := ⟨0xA000014, 0, 16⟩
def WPE_FAIL_CNT_RECON : Fld := ⟨0xA000014, 16, 16⟩
def WPE_HORIZON_CFG_STAGE_MS : Fld := ⟨0xA000018, 0, 11⟩
def WPE_HORIZON_STATUS_MISS : Fld := ⟨0xA00001C, 0, 16⟩
def WPE_COOLER_CFG_BLOCKS : Fld := ⟨0xA000020, 0, 14⟩
def MME_WEAR_CFG_LIMIT : Fld := ⟨0xB000000, 0, 16⟩
def MME_WEAR_CFG_WL_DELTA : Fld := ⟨0xB000000, 16, 8⟩
def MME_WEAR_CFG_WL_EN : Fld := ⟨0xB000000, 24, 1⟩
def MME_SPARE_CFG_FULL : Fld := ⟨0xB000008, 0, 24⟩
def MME_ERASE_CFG_NORM_SAMPLES : Fld := ⟨0xB00000C, 0, 8⟩
def MME_ERASE_CFG_REC_SAMPLES : Fld := ⟨0xB00000C, 8, 8⟩
def MME_ERASE_CFG_MAX_UNERASED : Fld := ⟨0xB00000C, 16, 16⟩
def MME_CHURN_CFG_LOW : Fld := ⟨0xB000010, 0, 16⟩
def MME_CHURN_CFG_HIGH : Fld := ⟨0xB000010, 16, 16⟩
def MME_REFRESH_CFG_MARGIN : Fld := ⟨0xB000014, 0, 8⟩
def MME_REFRESH_CFG_SCAN_RATE : Fld := ⟨0xB000014, 8, 16⟩
def MME_REFRESH_CFG_EARLY_WEAK : Fld := ⟨0xB000014, 24, 1⟩
def MME_DISTURB_CFG_PLC_LIMIT : Fld := ⟨0xB000018, 0, 16⟩
def MME_DISTURB_CFG_TLC_LIMIT : Fld := ⟨0xB000018, 16, 16⟩
def MME_FLOOR_CFG_CHURN : Fld := ⟨0xB00001C, 0, 10⟩
def MME_FLOOR_CFG_REFRESH : Fld := ⟨0xB00001C, 10, 10⟩
def MME_FLOOR_CFG_REBUILD : Fld := ⟨0xB00001C, 20, 10⟩
def MME_CEIL_CFG_CHURN : Fld := ⟨0xB000020, 0, 8⟩
def MME_CEIL_CFG_REFRESH : Fld := ⟨0xB000020, 8, 8⟩
def MME_CEIL_CFG_REBUILD : Fld := ⟨0xB000020, 16, 8⟩
def JNL_CFG_PAIRS : Fld := ⟨0xC000000, 0, 4⟩
def JNL_CFG_COALESCE_US : Fld := ⟨0xC000000, 8, 8⟩
def JNL_CKPT_CFG_JRNL_MIB : Fld := ⟨0xC000004, 0, 12⟩
def JNL_CKPT_CFG_PERIOD_S : Fld := ⟨0xC000004, 16, 12⟩
def ITE_CFG_RETAG : Fld := ⟨0xD000000, 0, 1⟩
def ITE_CFG_URG_MAX : Fld := ⟨0xD000000, 4, 4⟩
def ITE_CFG_BG_MIN : Fld := ⟨0xD000000, 8, 4⟩
def ITE_KEY_ID_ID : Fld := ⟨0xD000008, 0, 32⟩
def ITE_TEN_SEL_TENANT : Fld := ⟨0xD000010, 0, 10⟩
def ITE_TEN_CFG_REPORT : Fld := ⟨0xD000014, 0, 1⟩
def ITE_ERR_CNT_MISMATCH : Fld := ⟨0xD000030, 0, 16⟩
def ITE_ERR_CNT_MISDIRECT : Fld := ⟨0xD000030, 16, 16⟩
def ITE_ERR_CNT2_NOKEY : Fld := ⟨0xD000034, 0, 16⟩
def ITE_ERR_CNT2_WAIVED : Fld := ⟨0xD000034, 16, 16⟩
def ITE_SUSP_CNT_COUNT : Fld := ⟨0xD000038, 0, 32⟩
def BPM_POOL_CFG0_MODE : Fld := ⟨0xE000000, 0, 1⟩
def BPM_POOL_CFG0_POLICY : Fld := ⟨0xE000000, 1, 2⟩
def BPM_POOL_CFG0_RESERVE : Fld := ⟨0xE000000, 16, 16⟩
def BPM_POOL_CFG1_MODE : Fld := ⟨0xE000004, 0, 1⟩
def BPM_POOL_CFG1_POLICY : Fld := ⟨0xE000004, 1, 2⟩
def BPM_POOL_CFG1_RESERVE : Fld := ⟨0xE000004, 16, 16⟩
def BPM_POOL_CFG2_MODE : Fld := ⟨0xE000008, 0, 1⟩
def BPM_POOL_CFG2_POLICY : Fld := ⟨0xE000008, 1, 2⟩
def BPM_POOL_CFG2_RESERVE : Fld := ⟨0xE000008, 16, 16⟩
def BPM_POOL_CFG3_MODE : Fld := ⟨0xE00000C, 0, 1⟩
def BPM_POOL_CFG3_POLICY : Fld := ⟨0xE00000C, 1, 2⟩
def BPM_POOL_CFG3_RESERVE : Fld := ⟨0xE00000C, 16, 16⟩
def BPM_LOCK_LOCK : Fld := ⟨0xE000010, 0, 1⟩
def BPM_CNT_SEL_SEL : Fld := ⟨0xE000030, 0, 4⟩
def BPM_CNT_SEL_POOL : Fld := ⟨0xE000030, 4, 2⟩
def BPM_INSPECT_SEL_HANDLE : Fld := ⟨0xE000040, 0, 25⟩
def DMC_BANK_XOR0_MASK : Fld := ⟨0xF000010, 0, 22⟩
def DMC_BANK_XOR1_MASK : Fld := ⟨0xF000014, 0, 22⟩
def DMC_BANK_XOR2_MASK : Fld := ⟨0xF000018, 0, 22⟩
def DMC_BANK_XOR3_MASK : Fld := ⟨0xF00001C, 0, 22⟩
def DMC_LOCK_LOCK : Fld := ⟨0xF000020, 0, 1⟩
def DMC_SCHED_CFG_AGE_MAX : Fld := ⟨0xF000024, 0, 10⟩
def DMC_SCHED_CFG_WR_HI : Fld := ⟨0xF000024, 10, 6⟩
def DMC_SCHED_CFG_WR_LO : Fld := ⟨0xF000024, 16, 6⟩
def DMC_SCHED_CFG_CLOSE : Fld := ⟨0xF000024, 22, 8⟩
def DMC_PANIC_CFG_LOW_KIB : Fld := ⟨0xF000028, 0, 8⟩
def DMC_PANIC_CFG_HIGH_KIB : Fld := ⟨0xF000028, 8, 8⟩
def DMC_PANIC_CFG_PANIC_MAX_US : Fld := ⟨0xF000028, 16, 16⟩
def DMC_PANIC_STATUS_LONG : Fld := ⟨0xF00002C, 16, 16⟩
def DMC_RH_CFG_ROW_THR : Fld := ⟨0xF000030, 0, 12⟩
def DMC_RH_CFG_THROT_NS : Fld := ⟨0xF000030, 12, 8⟩
def DMC_RH_CFG_THROT_MS : Fld := ⟨0xF000030, 20, 8⟩
def DMC_RH_CNT_RFM_TARGETED : Fld := ⟨0xF000034, 0, 16⟩
def DMC_RH_CNT_THROTTLES : Fld := ⟨0xF000034, 16, 16⟩
def DMC_CRC_CNT_MISMATCH : Fld := ⟨0xF000040, 0, 16⟩
def DMC_CRC_CNT_POISON : Fld := ⟨0xF000040, 16, 16⟩
def CRU_SWITCH_CTL_TARGET : Fld := ⟨0x1000004, 0, 2⟩
def CRU_SWITCH_CTL_AUTO_RETURN : Fld := ⟨0x1000004, 3, 1⟩
def CRU_SWITCH_STATUS_REFUSED : Fld := ⟨0x1000008, 8, 8⟩
def CRU_SWITCH_STATUS_FORCED : Fld := ⟨0x1000008, 16, 8⟩
def CRU_SWITCH_STATUS_SWITCHES : Fld := ⟨0x1000008, 24, 8⟩
def CRU_MON_CFG_TOL : Fld := ⟨0x100000C, 0, 8⟩
def CRU_MON_CFG_BAD_N : Fld := ⟨0x100000C, 8, 4⟩
def CRU_MON_CFG_GOOD_MS : Fld := ⟨0x100000C, 16, 16⟩
def CRU_FAULT_CNT_CORE : Fld := ⟨0x1000018, 0, 8⟩
def CRU_FAULT_CNT_NET : Fld := ⟨0x1000018, 8, 8⟩
def CRU_FAULT_CNT_RC : Fld := ⟨0x1000018, 16, 8⟩
def CRU_FAULT_CNT_UNLOCK : Fld := ⟨0x1000018, 24, 8⟩
def CRU_RC_TRIM_TRIM : Fld := ⟨0x100001C, 0, 7⟩
def CRU_RESET_CAUSE_CC_MASK : Fld := ⟨0x1000020, 8, 4⟩
def CRU_WDT_CFG_SC_WDT_MS : Fld := ⟨0x1000028, 0, 16⟩
def CRU_WDT_CFG_CC_WDT_MS : Fld := ⟨0x1000028, 16, 16⟩
def TU_STATUS_STEPS : Fld := ⟨0x2000000, 8, 8⟩
def TU_ADDEND_LO_VALUE : Fld := ⟨0x2000020, 0, 32⟩
def TU_ADDEND_HI_VALUE : Fld := ⟨0x2000024, 0, 32⟩
def TU_STEP_NS_NS : Fld := ⟨0x2000028, 0, 32⟩
def TU_SERVO_CFG_KP_SH : Fld := ⟨0x2000030, 0, 4⟩
def TU_SERVO_CFG_KI_SH : Fld := ⟨0x2000030, 4, 4⟩
def TU_SERVO_CFG_LOCK_N : Fld := ⟨0x2000030, 8, 8⟩
def TU_SERVO_CFG_LOCK_NS : Fld := ⟨0x2000030, 16, 12⟩
def TU_HOLD_CFG_HOLD_MAX_H : Fld := ⟨0x2000034, 0, 16⟩
def TU_UTC_OFFSET : Fld := ⟨0x2000048, 0, 16⟩
def MGC_SHED_CFG_SHED_PCT : Fld := ⟨0x10000004, 0, 7⟩
def MGC_SHED_CFG_EXIT_PCT : Fld := ⟨0x10000004, 8, 7⟩
def MGC_SHED_CFG_TELEM_MS : Fld := ⟨0x10000004, 16, 16⟩
def MGC_ADMIT_CFG_DEPTH : Fld := ⟨0x10000008, 0, 10⟩
def MGC_ADMIT_CFG_SHED_DEPTH : Fld := ⟨0x10000008, 16, 10⟩
def MGC_CNT_BUSY_REFUSED : Fld := ⟨0x10000010, 0, 16⟩
def FWS_CFG_SUSP_EN : Fld := ⟨0x11000004, 0, 1⟩
def FWS_CFG_RESUME_IDLE_US : Fld := ⟨0x11000004, 8, 8⟩
def FWS_CFG_MIN_RUN_US : Fld := ⟨0x11000004, 16, 16⟩
def FWS_CREAD_ADDR_ADDR : Fld := ⟨0x11000010, 2, 25⟩
def FWS_SECT_SEL_SECTOR : Fld := ⟨0x11000018, 0, 9⟩
def FWS_PROG_BUF_DATA (i : Nat) : Fld := ⟨0x11001000 + i * 4, 0, 32⟩
def EVC_CFG_BURST : Fld := ⟨0x12000000, 0, 4⟩
def EVC_CFG_REFILL_S : Fld := ⟨0x12000000, 4, 12⟩
def EVC_CFG_FLUSH_MS : Fld := ⟨0x12000000, 16, 8⟩
def EVC_CFG_MIRROR_S : Fld := ⟨0x12000000, 24, 8⟩
def EVC_CNT_OVERFLOW : Fld := ⟨0x12000008, 0, 16⟩
def EVC_CNT_SUMMARIES : Fld := ⟨0x12000008, 16, 16⟩
def EVC_SUPP_SEL_SOURCE : Fld := ⟨0x1200000C, 0, 11⟩
def EVC_SW_INDEX_INDEX : Fld := ⟨0x12000020, 0, 32⟩
def EVC_ENb_EN (i : Nat) : Fld := ⟨0x12001000 + i * 0x20, 0, 32⟩
def EVC_LATCHb_LATCH (i : Nat) : Fld := ⟨0x12001004 + i * 0x20, 0, 32⟩
def EVC_LOGb_LOG (i : Nat) : Fld := ⟨0x12001008 + i * 0x20, 0, 32⟩
def EVC_AENb_AEN (i : Nat) : Fld := ⟨0x1200100C + i * 0x20, 0, 32⟩
def EVC_IBIb_IBI (i : Nat) : Fld := ⟨0x12001010 + i * 0x20, 0, 32⟩
def EVC_EXEMPTb_EXEMPT (i : Nat) : Fld := ⟨0x12001014 + i * 0x20, 0, 32⟩
def PAD_FILT_CFG_STABLE_US : Fld := ⟨0x13000004, 0, 8⟩
def PAD_FILT_CFG_CHATTER_MAX : Fld := ⟨0x13000004, 8, 16⟩
def PAD_FILT_CFG_MASK_S : Fld := ⟨0x13000004, 24, 8⟩
def PAD_STUCK_CFG_STUCK_MS : Fld := ⟨0x13000008, 0, 16⟩
def PAD_STUCK_CFG_UNSTICK_MS : Fld := ⟨0x13000008, 16, 16⟩

end F

end Sys2Proof.Machine
end

