-- ==== Sys2Proof/Machine/Regs.lean ====
section
/-! DEFINITION. Stored register fields: reading, writing, counting, locks and resets (00 R15 to R22), elapsed time,
free values and the outbox. -/

namespace Sys2Proof.Machine

/-- The reset value of a register: its fields' reset values, with those that differ by position (tenant 0's STATE,
04 Table 04-7; the masks of the EVC banks, 19 Table 19-13). -/
def regReset (addr : Nat) : Nat :=
  match regFind addr with
  | none => 0
  | some d =>
    let i := regIndex d addr
    if d.addr = 0x12001000 ∨ d.addr = 0x12001008 then evcExistsMask i
    else if d.addr = 0x1200100C then evcAenMask i
    else if d.addr = 0x12001014 then evcExemptMask i
    else if addr = 0x5100000 then 1
    else d.fields.foldl (fun acc f => acc + f.reset * 2 ^ f.lo) 0

/-- The stored word of a register. -/
def getReg (s : State) (addr : Nat) : Nat := mapGet 0 s.regs addr ^^^ regReset addr

/-- Store a word in a register. -/
def setReg (addr v : Nat) (s : State) : State :=
  { s with regs := mapSet 0 s.regs addr (v ^^^ regReset addr) }

/-- A stored field. -/
def getF (s : State) (f : Fld) : Nat := natBits (getReg s f.addr) f.lo f.width

/-- Store a field. -/
def setF (f : Fld) (v : Nat) (s : State) : State :=
  setReg f.addr (natSetBits (getReg s f.addr) f.lo f.width v) s

/-- A one-bit field as a truth value. -/
def flagF (s : State) (f : Fld) : Bool := decide (getF s f = 1)

/-- Count in a field that saturates at its maximum. -/
def bumpF (f : Fld) (n : Nat) (s : State) : State := setF f (satAdd (2 ^ f.width - 1) (getF s f) n) s

/-- Whether a field descriptor takes a value (00 R15). -/
def fieldAccepts (f : FieldDesc) (v : Nat) : Bool := decide (f.least ≤ v) && decide (v ≤ f.most)

/-- Whether the lock that governs a register's RWL fields is set (14 R541, 15 R568). -/
def regLocked (s : State) (addr : Nat) : Bool :=
  if addr / 0x1000000 = 14 then flagF s F.BPM_LOCK_LOCK
  else if addr / 0x1000000 = 15 then flagF s F.DMC_LOCK_LOCK
  else false

/-- The word that a register holds after a write of `v` to its RW and RWL fields: a field given a reserved value,
a locked field and every other field keep their bits (00 R15, R20). -/
def mergeWrite (locked : Bool) (old v : Nat) (fs : List FieldDesc) : Nat :=
  match fs with
  | [] => old
  | f :: rest =>
    let x := natBits v f.lo f.width
    let writable := (f.acc = .rw ∨ (f.acc = .rwl ∧ locked = false))
    mergeWrite locked (if writable ∧ fieldAccepts f x = true then natSetBits old f.lo f.width x else old) v rest

/-- Whether a write carries a reserved value for a writable field. -/
def writesReserved (v : Nat) (fs : List FieldDesc) : Bool :=
  fs.any (fun f => (decide (f.acc = .rw) || decide (f.acc = .rwl)) && !(fieldAccepts f (natBits v f.lo f.width)))

/-- Queue a setting for the configuration region (18 R680). Register settings use the address as identity. -/
def saveSetting (id : Nat) (vals : List Nat) (s : State) : State :=
  { s with fws := { s.fws with dirty := mapPut s.fws.dirty id vals } }

/-- Store a register and, where the spec keeps it in the configuration region, queue the setting. -/
def setRegSaved (addr v : Nat) (s : State) : State :=
  let s := setReg addr v s
  match regFind addr with
  | some d => if d.saved then saveSetting addr [v] s else s
  | none => s

/-- A write of a register's RW and RWL fields with no further effect (00 R15, R20). -/
def plainWrite (addr v : Nat) (s : State) : State :=
  match regFind addr with
  | none => s
  | some d => setRegSaved addr (mergeWrite (regLocked s addr) (getReg s addr) v d.fields) s

/-- Nanoseconds of the local clock: TU_LOCAL ticks of 3.2 ns (16 R599, R600). -/
def nowNs (s : State) : Nat := s.tu.ticks * 16 / 5

/-- Draw a free value of `n` bits. -/
def drawFree (n : Nat) (s : State) : Nat × State :=
  (Config.freeValue s.drawn % 2 ^ n, { s with drawn := s.drawn + 1 })

/-- Send something out of the block. -/
def emit (o : Out) (s : State) : State := { s with out := o :: s.out }

/-- Registers of RD_DEV return to their reset values; those of RD_AON stay (16 Table 16-5). -/
def resetDevRegs (s : State) : State :=
  { s with regs := s.regs.filter (fun p => match regFind p.1 with | some d => d.aon | none => false) }

/-- The encoding of TOP_STATE.STATE (01 Table 01-6); Off has none and reads 0. -/
def devCode (d : Dev) : Nat :=
  match d with
  | .off => 0 | .boot => 1 | .replay => 2 | .serving => 3 | .quiescing => 4 | .retained => 5

/-- SEC, NS and FRAC of a TU count (16 R599). -/
def tuSec (t : Nat) : Nat := t / (1000000000 * 2 ^ 48)
def tuNs (t : Nat) : Nat := t / 2 ^ 48 % 1000000000
def tuFrac (t : Nat) : Nat := t / 2 ^ 32 % 2 ^ 16

/-- A write stamp: minutes since the archive epoch (16 R601); times before the epoch give 0. -/
def writeStamp (s : State) : Nat := (tuSec s.tu.t - 1577836800) / 60

/-- ADDEND (16 R599). -/
def addendOf (s : State) : Nat := getF s F.TU_ADDEND_HI_VALUE * 2 ^ 32 + getF s F.TU_ADDEND_LO_VALUE

/-- INC, units of 2⁻⁴⁸ ns per TU tick (16 R599). -/
def tuInc (s : State) : Nat := (roundDiv ((addendOf s * 2 ^ 16 : Nat) : Int) 320).toNat

/-- One TU tick (16 R599, R600): TU_LOCAL counts and T advances by INC. -/
def tuTick (s : State) : State :=
  { s with tu := { s.tu with t := s.tu.t + tuInc s, ticks := (s.tu.ticks + 1) % 2 ^ 64 } }

end Sys2Proof.Machine
end

