-- ==== Sys2Proof/Machine/ViewsLow.lean ====
section
/-! DEFINITION. The read-only register fields of TOP, CRU, TU, HFE, QE, TIU, MGC, FWS, EVC and PAD, as the state they
describe (00 R5, 01 R48, R49, R51, 03 R104, R105, R113 to R121, 04 R147 to R152, R158, 05 R188, R192, 16 R611, R613,
R615, R618, R621, R622, R627 to R629, 17 R659, R662, R663, 18 R685, R688, R690, 19 R706, R708, R709, 20 R738, R741 to
R744). -/

namespace Sys2Proof.Machine

/-- A flag at a bit position. -/
def bitAt (b : Bool) (n : Nat) : Nat := if b then 2 ^ n else 0

/-- TOP_STATE (01 Table 01-6). -/
def viewTopState (t : Top) : Nat :=
  devCode t.dev + bitAt (t.adminOk && t.dev != .retained) 8 + bitAt (t.readsOk && (t.dev == .replay || t.dev == .serving)) 9
    + bitAt (t.dev == .serving) 10 + bitAt t.quiesceDone 11
    + bitAt t.pwrActive 12 + bitAt t.pwrStuck 13 + bitAt t.skimSoon 14 + bitAt t.skimOverdue 15 + t.lastCause * 2 ^ 16

/-- TOP (00 R5, 01 R48 to R51). -/
def viewTop (s : State) (off : Nat) : Nat :=
  match off with
  | 0x0 => if s.fuse.gradeB then 0x71644010 else 0x72008010
  | 0x10 => viewTopState s.top
  | 0x14 => s.top.result * 16
  | 0x20 => s.top.skimAge
  | _ => 0

/-- CRU (16 R611, R613, R615, R618). -/
def viewCru (s : State) (off : Nat) : Nat :=
  let c := s.cru
  match off with
  | 0x0 => c.rootMode + bitAt c.coreGood 2 + bitAt c.netGood 3 + bitAt c.rcReady 4 + bitAt c.rcGood 5
      + bitAt c.accOnNet 6 + bitAt c.netOnRoot 7 + bitAt c.progHold 8 + bitAt c.doubleFault 9
  | 0x8 => c.current + bitAt (c.switching.isSome || c.retrying.isSome) 2 + bitAt c.lastForced 3
  | 0x10 => c.coreCount % 4096 + (c.netCount % 4096) * 4096
  | 0x14 => c.rcCount % 4096 + bitAt c.vsNet 12
  | 0x20 => c.cause + c.devResets * 2 ^ 16
  | _ => 0

/-- TU_OFFSET saturates at 32 bits (16 R607). -/
def sat32 (v : Int) : Nat := ofSigned 32 (clampInt (-(2 ^ 31)) (2 ^ 31 - 1) v)

/-- TU (16 R621, R622, R627 to R629). -/
def viewTu (s : State) (off : Nat) : Nat :=
  let t := s.tu
  match off with
  | 0x0 => t.st + bitAt (t.st == 3) 3 + bitAt t.srcRoot 4 + bitAt t.stepRefused 5
  | 0x10 => tuNs t.t
  | 0x14 => tuSec t.t % 2 ^ 32
  | 0x18 => tuSec t.t / 2 ^ 32 % 2 ^ 16 + tuFrac t.t * 2 ^ 16
  | 0x38 => sat32 t.offset
  | 0x40 => t.ticks % 2 ^ 32
  | 0x44 => t.ticks / 2 ^ 32 % 2 ^ 32
  | 0x48 => bitAt t.utcPtp.isSome 16
  | _ => 0

/-- Lane status bits of lane `l` (03 Table 03-7). -/
def viewLane (l : Lane) : Nat := bitOf l.active + 2 * bitOf l.locked + 4 * bitOf l.degraded + 8 * bitOf l.failed

/-- The number of lanes in a mask. -/
def laneCount (mask : Nat) : Nat := ((List.range 8).filter (fun l => natBits mask l 1 = 1)).length

/-- WIDTH of HFE_PORT_STATUS (03 R117). -/
def widthCode (mask : Nat) : Nat :=
  match laneCount mask with
  | 0 => 0 | 1 => 1 | 2 => 2 | _ => 3

/-- HFE_PORT_STATUS (03 R117). -/
def viewPort (p : Port) : Nat :=
  p.st + widthCode p.mask * 4 + p.mask * 16 + bitAt p.nonOpt 12 + bitAt (p.prioA.storm || p.prioB.storm) 13

/-- HFE (03 R104, R105, R113 to R115, R117, R121). -/
def viewHfe (s : State) (off : Nat) : Nat :=
  let h := s.hfe
  if off = 0x4 then h.mode + bitAt h.training 2 + bitAt h.strapBad 3 + bitAt h.savedMode 4
  else if off = 0x8 then ((List.range 8).map (fun l => viewLane (mapGet lane0 h.lanes l) * 16 ^ l)).sum
  else if off = 0x48 then h.fifo.length
  else if off = 0x54 then h.lastTs.ns
  else if off = 0x58 then h.lastTs.sec % 2 ^ 32
  else if off = 0x5C then h.lastTs.sec / 2 ^ 32 % 2 ^ 16 + h.lastTs.frac * 2 ^ 16
  else if 0x1000 ≤ off ∧ off < 0x1800 then
    let p := (off - 0x1000) / 0x100
    let cnt := mapGet 0 h.counters (p * 32 + getF s (F.HFE_PORT_CNT_SEL_SEL p))
    match off % 0x100 with
    | 0x04 => viewPort (mapGet port0 h.ports p)
    | 0x14 => cnt % 2 ^ 32
    | 0x18 => cnt / 2 ^ 32
    | _ => 0
  else 0

/-- Task slots not Free (05 R188). -/
def tasksUsed (s : State) : Nat := mapCount (fun _ t => t.st != .free) s.qe.tasks

/-- Task slots held by a tenant's commands. -/
def tasksOf (s : State) (t : Nat) : Nat := mapCount (fun _ x => x.st != .free && x.tenant == t) s.qe.tasks

/-- I/O queue pairs of a tenant. -/
def qpsOf (s : State) (t : Nat) : Nat := mapCount (fun _ c => c.role == .io && c.tenant == t) s.hfe.conns

/-- The key of a controller: tenant and CNTLID (04 R123). -/
def ctlKey (tenant cntlid : Nat) : Nat := tenant * 0x100 + cntlid

/-- Controllers of a tenant in existence. -/
def ctlsOf (s : State) (t : Nat) : Nat := mapCount (fun k c => c.live && k / 0x100 == t) s.qe.ctls

/-- Namespaces of a tenant. -/
def nssOf (s : State) (t : Nat) : Nat := mapCount (fun _ n => n.valid && n.tenant == t) s.tabs.nss

/-- The device-wide index of a tenant's NSID (04 R124). -/
def nsIndex? (s : State) (t nsid : Nat) : Option Nat :=
  (s.tabs.nss.find? (fun p => p.2.valid && p.2.tenant == t && p.2.nsid == nsid)).map Prod.fst

/-- TIU_TASK_MIN_SUM (04 R148). -/
def minSum (s : State) : Nat := ((List.range 512).map (fun i => getF s (F.TIU_TEN_TASK_MIN_MIN (i + 1)))).sum

/-- QE (05 R188, R192). -/
def viewQe (s : State) (off : Nat) : Nat :=
  let n := mapGet ns0 s.tabs.nss (getF s F.QE_STAMP_SEL_NS_INDEX)
  match off with
  | 0x0 => tasksUsed s
  | 0x14 => if n.valid then n.stamp % 2 ^ 32 else 0
  | 0x18 => if n.valid then n.stamp / 2 ^ 32 % 2 ^ 32 else 0
  | _ => 0

/-- TIU without TIU_TEN_ZONES_USED and TIU_TEN_KEY_STATUS, which the ZM and the ITE supply (04 R147 to R153, R158). -/
def viewTiu (s : State) (off : Nat) : Nat :=
  if off = 0 then s.qe.cfgCode + s.qe.cfgTenant * 16
  else if off = 4 then minSum s
  else if 0x100000 ≤ off ∧ off < 0x301000 then
    let t := (off - 0x100000) / 0x1000
    let o := off % 0x1000
    let ten := mapGet tenant0 s.qe.tenants t
    if o = 0x4 then ctlsOf s t + nssOf s t * 2 ^ 8 + ten.acl.length * 2 ^ 16 + bitAt ten.spill 25
    else if o = 0x14 then qpsOf s t
    else if o = 0x20 then tasksOf s t
    else if 0x80 ≤ o ∧ o < 0xC0 then
      match nsIndex? s t ((o - 0x80) / 4 + 1) with
      | some i => i + 2 ^ 15
      | none => 0
    else 0
  else 0

/-- MGC (17 R659, R662, R663). -/
def viewMgc (s : State) (off : Nat) : Nat :=
  let m := s.mgc
  match off with
  | 0x0 => m.loads.getD 0 0 + m.loads.getD 1 0 * 2 ^ 8 + m.loads.getD 2 0 * 2 ^ 16 + m.loads.getD 3 0 * 2 ^ 24
  | 0xC => bitOf m.shed + m.actPhase * 2 + bitAt m.actFailed 4 + m.scLoad * 2 ^ 8 + min 1023 m.admittedAll * 2 ^ 16
  | 0x10 => min 0xFFFF m.pauseUs * 2 ^ 16
  | _ => 0

/-- The region of a store sector (18 Table 18-1). -/
def regionOf (sector : Nat) : Nat :=
  if sector < 4 then 0 else if sector < 100 then 1 else if sector < 196 then 2 else if sector < 292 then 3
  else if sector < 324 then 4 else if sector < 340 then 5 else if sector < 348 then 6 else 7

/-- The protection level: the higher of row and fuses (18 R681). -/
def protLevel (s : State) : Nat := if s.fuse.pl2 then 2 else s.fws.rowLevel

/-- FWS_SECT_INFO (18 R690). -/
def viewSector (n : Nat) (x : Sector) : Nat :=
  regionOf n + bitAt x.headerOk 3 + bitAt x.bad 4 + x.next * 32 + min 131071 x.eraseCount * 2 ^ 15

/-- FWS (18 R685, R688, R690). -/
def viewFws (s : State) (off : Nat) : Nat :=
  let f := s.fws
  match off with
  | 0x0 => protLevel s + bitAt f.erasePending 2 + bitAt f.recovery 3 + bitAt f.unsigned 4 + bitAt f.record.reverted 5
      + f.bootSlot * 64 + bitAt f.op.isSome 8 + bitAt f.suspended.isSome 9
  | 0xC => f.result + f.pulses * 16 + f.lastSector * 2 ^ 8
  | 0x1C => let n := getF s F.FWS_SECT_SEL_SECTOR; viewSector n (mapGet sector0 f.sectors n)
  | _ => 0

/-- Tokens of a source's bucket (19 R696). -/
def evcTokens (s : State) (src : Nat) : Nat :=
  min (getF s F.EVC_CFG_BURST) ((mapGet evcSrc0 s.evc.src src).tokens.getD s.evc.bootBurst)

/-- Good Herdbook sectors (19 R698). -/
def goodSectors (s : State) : Nat := 32 - s.evc.badSectors.length

/-- The Herdbook runs from SRAM (19 R699). -/
def hbDegraded (s : State) : Bool := decide (goodSectors s < 2)

/-- EVC (19 R706, R708, R709). -/
def viewEvc (s : State) (off : Nat) : Nat :=
  let e := s.evc
  match off with
  | 0x4 => bitOf (hbDegraded s) + bitAt e.mirrorDown 1 + bitAt e.mirrorOn 2 + goodSectors s * 16 + e.fifo.length * 2 ^ 16
  | 0x10 => let src := getF s F.EVC_SUPP_SEL_SOURCE
      (mapGet evcSrc0 e.src src).supp + evcTokens s src * 2 ^ 16
  | 0x14 => e.nextSeq % 2 ^ 32
  | 0x18 => e.nextSeq / 2 ^ 32 % 2 ^ 32
  | _ => 0

/-- Bits of the sixteen inputs. -/
def pinBits (s : State) (f : Pin → Bool) : Nat :=
  ((List.range 16).map (fun i => bitAt (f (mapGet pin0 s.pad.pins i)) i)).sum

/-- The Composite Temperature in kelvins of a junction temperature in quarter degrees (00 R23). DESIGN CHOICE: the spec does not
define it; it is the junction's, in whole degrees. -/
def kelvin (tj : Nat) : Nat := (toSigned 10 tj / 4 + 273).toNat

/-- PAD (20 R738, R741 to R744). -/
def viewPad (s : State) (off : Nat) : Nat :=
  let p := s.pad
  match off with
  | 0x0 => p.hmode + bitAt p.mgmtI3c 2 + p.mgmtAddr * 8 + bitAt p.testmode 6 + p.bad * 2 ^ 8
  | 0xC => pinBits s Pin.filt + pinBits s Pin.raw * 2 ^ 16
  | 0x10 => pinBits s Pin.chatter + bitAt p.stuck 16
  | 0x14 => p.tj + bitAt p.throttle 10 + bitAt p.hold 11 + p.tjMax * 2 ^ 16
  | 0x18 => p.vidCode + (if p.fusesSensed then s.fuse.vid else 0) * 32
  | _ => 0

end Sys2Proof.Machine
end

