-- ==== Sys2Proof/Machine/MediaQuery.lean ====
section
/-! DEFINITION. What the state says about the media: access by key, names, and the counts and conditions that registers and
health flags report (06 R211, 07, 10, 11, 12, 14). -/

namespace Sys2Proof.Machine

/-! ## Tables and names -/

def getNs (s : State) (n : Nat) : Ns := mapGet ns0 s.tabs.nss n
def getZone (s : State) (z : Nat) : Zone := mapGet zone0 s.tabs.zones z
def getStripe (s : State) (k : Nat) : Stripe := mapGet stripe0 s.tabs.stripes k
def getBlock (s : State) (r : Nat) : Block := mapGet block0 s.tabs.blocks r
def getDie (s : State) (d : Nat) : Die := mapGet die0 s.flc.dies d
def getLink (s : State) (k : Nat) : Link := mapGet link0 s.flc.links k
def getTask (s : State) (k : Nat) : Task := mapGet task0 s.qe.tasks k

/-- Die and block of a reference (12 R464), and the link of a die. -/
def refDie (r : Nat) : Nat := r % 4096
def refBlock (r : Nat) : Nat := r / 4096
def refOf (die block : Nat) : Nat := die + block * 4096
def refLink (r : Nat) : Nat := refDie r / 32

/-- Zone key, and its namespace and zone. -/
def zoneKey (ns z : Nat) : Nat := ns * 262144 + z
def zoneNs (zk : Nat) : Nat := zk / 262144
def zoneNum (zk : Nat) : Nat := zk % 262144

/-- Unit key, and its namespace and LBA. -/
def unitKey (ns lba : Nat) : Nat := ns * 2 ^ 40 + lba
def unitNs (k : Nat) : Nat := k / 2 ^ 40
def unitLba (k : Nat) : Nat := k % 2 ^ 40

/-- LBAs of a zone, and the zone of an LBA. -/
def zoneLbas : Nat := 1048576
def zoneOfLba (ns lba : Nat) : Nat := zoneKey ns (lba / zoneLbas)
def zslba (zk : Nat) : Nat := zoneNum zk * zoneLbas

/-- LBAs of one stripe row of a zone. -/
def rowLbas : Nat := 4000

/-- Enabled links of the grade (00 R2). -/
def linkCount (s : State) : Nat := if s.fuse.gradeB then 64 else 128

/-- The link groups of the grade. -/
def groupCount (s : State) : Nat := linkCount s / 8

/-- A link counts as trained: Up or Gated (07 Table 07-2). -/
def linkTrained (s : State) (k : Nat) : Bool := decide ((getLink s k).st = 3) || decide ((getLink s k).st = 1)

/-- Trained links. -/
def trainedLinks (s : State) : Nat := ((List.range (linkCount s)).filter (linkTrained s)).length

/-- A die is lost. -/
def dieIsLost (s : State) (d : Nat) : Bool := s.tabs.lostDies.contains d

/-- Gating state of a group; Awake unless recorded. -/
def groupSt (s : State) (g : Nat) : GateSt := mapGet .awake s.flc.groups g

/-- A die can be reached: not lost, and its link Up or Gated and not declared failed. -/
def dieReach (s : State) (d : Nat) : Bool := !dieIsLost s d && linkTrained s (d / 32) && !(getLink s (d / 32)).failed

/-- F: Free and Ready die-blocks of the PLC pool (06 R211, 11 R416). -/
def freePlc (s : State) : Nat := mapCount (fun _ b => (b.st == .free || b.st == .ready) && b.mode == 0) s.tabs.blocks

/-- Free TLC die-blocks (11 R426). -/
def freeTlc (s : State) : Nat := mapCount (fun _ b => b.st == .free && b.mode == 1) s.tabs.blocks

/-- Zones of a namespace in a state. A zone that is not listed is Empty. -/
def zonesIn (s : State) (ns : Nat) (p : Zone → Bool) : Nat :=
  let n := getNs s ns
  let listed := s.tabs.zones.filter (fun e => zoneNs e.1 == ns)
  (listed.filter (fun e => p e.2)).length + (if p zone0 then n.size - listed.length else 0)

/-- Zoned namespaces. -/
def zonedNss (s : State) : List Nat := mapKeysWhere (fun _ n => n.valid && !n.conv) s.tabs.nss

/-- E: Empty zones of all zoned namespaces. -/
def emptyZones (s : State) : Nat := ((zonedNss s).map (fun n => zonesIn s n (fun z => z.st == .empty))).sum

/-- S, the spare reserve (06 R211). -/
def spare (s : State) : Int := (freePlc s : Int) - 52 * (emptyZones s : Int)

/-- A zone is active, or open. -/
def Zone.isActive (z : Zone) : Bool := z.st == .implicit || z.st == .explicit || z.st == .closed
def Zone.isOpen (z : Zone) : Bool := z.st == .implicit || z.st == .explicit

/-- Open and active zones, device-wide and of a tenant. -/
def openZones (s : State) : Nat := mapCount (fun _ z => z.isOpen) s.tabs.zones
def activeZones (s : State) : Nat := mapCount (fun _ z => z.isActive) s.tabs.zones
def openOf (s : State) (t : Nat) : Nat := mapCount (fun k z => z.isOpen && (getNs s (zoneNs k)).tenant == t) s.tabs.zones
def activeOf (s : State) (t : Nat) : Nat := mapCount (fun k z => z.isActive && (getNs s (zoneNs k)).tenant == t) s.tabs.zones

/-- The journal buffer's bytes (12 R460): the first word of a record is its LEN. -/
def bufBytes (s : State) : Nat := (s.jnl.buffer.map (fun r => r.words.headD 8)).sum

/-- BUF_FULL: another record of the largest length would not fit in 16 MiB. -/
def bufFull (s : State) : Bool := decide (16777216 < bufBytes s + 65472)

/-- JRNL_HELD (12 R476): 4,096 MiB of journal hold further commits. -/
def journalHeld (s : State) : Bool := decide (4096 * 2 ^ 20 ≤ s.jnl.volume - s.jnl.fromVol)

/-! ## Buffer pools -/

/-- Buffers of a pool (14 Table 14-1). -/
def poolCount (p : Nat) : Nat :=
  match p with
  | 0 => 65536 | 1 => 4194304 | 2 => 524288 | _ => 32768

/-- Buffer size of a pool in bytes. -/
def poolSize (p : Nat) : Nat :=
  match p with
  | 0 => 256 | 1 => 4096 | 2 => 65536 | _ => 1048576

/-- A handle: pool and index (14 R522). -/
def handleOf (p i : Nat) : Nat := p * 2 ^ 23 + i
def handlePool (h : Nat) : Nat := h / 2 ^ 23
def handleIndex (h : Nat) : Nat := h % 2 ^ 23

/-- Whether a handle names a buffer. -/
def handleValid (h : Nat) : Bool := decide (handlePool h < 4) && decide (handleIndex h < poolCount (handlePool h))

/-- Free buffers of a pool. -/
def poolFree (s : State) (p : Nat) : Nat :=
  let x := mapGet pool0 s.bpm.pools p
  x.freed.length + (poolCount p - x.fresh)

/-! ## Choice of die-blocks and the reserve -/

/-- The better of two die-blocks by 11 R419: lowest wear, then die, then block. -/
def lessWorn (s : State) (a b : Nat) : Bool :=
  let x := ((getBlock s a).wear, refDie a, refBlock a)
  let y := ((getBlock s b).wear, refDie b, refBlock b)
  decide (x.1 < y.1) || (x.1 == y.1 && (decide (x.2.1 < y.2.1) || (x.2.1 == y.2.1 && decide (x.2.2 < y.2.2))))

/-- The die-block 11 R419 takes among candidates. -/
def pickLeast (s : State) (l : List Nat) : Option Nat :=
  l.foldl (fun m r => match m with
    | none => some r
    | some x => if lessWorn s r x then some r else some x) none

def reserveLow (s : State) : Bool := s.top.readsOk && decide (spare s < getF s F.ZM_RSV_CFG_LOW_MARK)
def openRefusing (s : State) : Bool := s.top.readsOk && decide (spare s < getF s F.ZM_RSV_CFG_PER_ZONE)

/-! ## Age clocks -/

def getAge (s : State) (d : Nat) : DieAge := mapGet dieAge0 s.rcu.dies d

/-- ⌊A⌋ of a die. -/
def ageInt (s : State) (d : Nat) : Nat := (getAge s d).age / 2 ^ 32

/-- Enabled dies. -/
def allDies (s : State) : List Nat := List.range (linkCount s * 32)

/-- RCU_B (R334). -/
def rcuB (s : State) : Nat := min (2 ^ 32 - 1) (roundDiv ((getF s F.RCU_EA_EA * 2 ^ 20 : Nat) : Int) (getF s F.RCU_KB_KB)).toNat

/-- Dies overridden (RCU_DARK_STATUS.OVERRIDE). -/
def overrides (s : State) : Nat := mapCount (fun _ a => a.overridden) s.rcu.dies

/-! ## Power -/

/-- Power token in mW (Table 07-13). -/
def opMw (k : OpKind) : Nat :=
  match k with
  | .readPage | .readLevel | .verify => 60
  | .foggy | .fine | .one => 75
  | .erase => 90

/-- Enabled links of a group. -/
def groupLinks (s : State) (g : Nat) : List Nat :=
  ((List.range 8).map (fun i => g * 8 + i)).filter (fun k => decide (k < linkCount s) && flagF s (F.FLC_LN_CTL_ENABLE k))

/-- Awake groups. -/
def awakeGroups (s : State) : List Nat := (List.range (groupCount s)).filter (fun g => groupSt s g == .awake)

/-- Token power held on a die: reads on a suspended operation draw on its token (R261). -/
def dieMw (x : Die) : Nat :=
  (match x.op with
    | some o => opMw o.kind
    | none => 0) + (x.reading.map (fun o => if o.free then 0 else opMw o.kind)).sum

/-- Tokens held plus the idle draw of awake groups (R59, R272). -/
def usedMw (s : State) : Nat := (s.flc.dies.map (fun e => dieMw e.2)).sum + 512 * (awakeGroups s).length

/-- The flash budget in force in mW (Table 07-15). -/
def budgetMw (s : State) : Nat :=
  1000 * (match s.flc.ps with
    | 0 => getF s F.FLC_PWR_BUDGET_BUDGET_W
    | 1 => 200
    | 2 => 120
    | 3 => 80
    | _ => 40)

/-! ## Grown maps -/

def grownOf (s : State) (die plane : Nat) : List (Nat × Nat) := (mapGet [] s.tabs.grown (die * 4 + plane)).map (fun e => (e / 16, e % 16))

/-! ## The Cooler and the Vat -/

/-- A log stripe: stripe indexes from 262,144 (12 R464). -/
def isLog (k : Nat) : Bool := decide (262144 ≤ k)

/-- Links that may carry lanes and journal blocks: Up, not failed, in awake groups (R396, 12 R461). -/
def laneLinks (s : State) : List Nat :=
  (List.range (linkCount s)).filter (fun k => (getLink s k).st == 3 && !(getLink s k).failed && groupSt s (k / 8) == .awake)

/-- A tower's anchor block (12 R477). -/
def isAnchor (ref : Nat) : Bool := decide (refDie ref % 32 = 0) && decide (refBlock ref < 2)

/-- A die from which blocks may be taken. -/
def dieTakes (s : State) (d : Nat) : Bool := (getDie s d).usable && !(getDie s d).draining && !dieIsLost s d

/-- A die-block that no command has touched yet: good, Needs-erase, wear 0 (11 R416). -/
def untouched (s : State) (ref : Nat) : Bool :=
  !isAnchor ref && dieTakes s (refDie ref) && (getBlock s ref).st == .needsErase && (getBlock s ref).wear == 0

/-- The SLC die-block a link gives (11 R419): Free by wear, die and block; before any SLC block of the link has been
erased, the first one that no command has touched. -/
def usableSlc (s : State) (k : Nat) : Option Nat :=
  match pickLeast s ((s.tabs.blocks.filter (fun e => e.2.st == .free && e.2.mode == 2 && refLink e.1 == k && dieTakes s (refDie e.1))).map Prod.fst) with
  | some r => some r
  | none =>
    if s.tabs.blocks.any (fun e => refLink e.1 == k && e.2.mode == 2 && e.2.wear != 0) then none
    else (List.range 32).findSome? (fun d => (List.range 3800).findSome? (fun b =>
      let r := refOf (k * 32 + d) b
      if untouched s r then some r else none))

/-- Codewords a staging block holds: 256 wordlines of 16. -/
def stageCap : Nat := 4096

/-- The open staging block of a link. -/
def laneBlock (s : State) (k : Nat) : Option Nat :=
  s.wpe.areaBlocks.find? (fun r => refLink r == k && (getBlock s r).st == .bound && decide ((getBlock s r).wl < stageCap))

/-- Staging blocks that still take up the area: those that have been erased again, retired or lost do not. -/
def areaTaken (s : State) : List Nat :=
  s.wpe.areaBlocks.filter (fun r => let b := (getBlock s r).st; b == .bound || b == .released || b == .needsErase || b == .erasing)

/-- The staging area has room for another block. -/
def areaRoom (s : State) : Bool := decide ((areaTaken s).length < s.wpe.areaN)

/-- Links that serve as lanes, at most 64 (R396). -/
def lanes (s : State) : List Nat :=
  ((laneLinks s).filter (fun k => (laneBlock s k).isSome || (areaRoom s && (usableSlc s k).isSome))).take 64

/-- USED_PCT: staging blocks that hold live slices, in percent. -/
def coolerUsed (s : State) : Nat :=
  let live := s.wpe.areaBlocks.filter (fun r => s.tabs.slices.any (fun e => e.2.refs.contains r))
  if s.wpe.areaN = 0 then 0 else min 100 (100 * live.length / s.wpe.areaN)

/-- Bytes of a row's set-aside (R377). -/
def rowBytes (s : State) (k : Nat) : Nat :=
  if isLog k then ((getStripe s k).members.length - 2) * 196608 else 16384000

/-- Bytes of Vat buffers in use: those of the WPE. -/
def vatBuffers (s : State) : Nat :=
  ((s.bpm.bufs.filter (fun e => e.2.st == 1 && e.2.owner == 3)).map (fun e => poolSize (handlePool e.1))).sum

/-- Vat occupancy (R377): buffers in use and set-asides not yet filled. -/
def vatUsed (s : State) : Nat := vatBuffers s + (s.wpe.setAside.map Prod.snd).sum

/-! ## Journal pairs -/

/-- Both blocks of a pair lie on links in service. -/
def pairUp (s : State) (p : Nat × Nat) : Bool :=
  let ls := laneLinks s
  ls.contains (refLink p.1) && ls.contains (refLink p.2)

/-- Journal pairs in service. -/
def pairsUp (s : State) : Nat := (s.jnl.pairs.filter (pairUp s)).length

/-- PAIR_LOW (R490). -/
def pairLow (s : State) : Bool := s.top.readsOk && decide (pairsUp s < s.jnl.pairsN)

/-! ## Links -/

/-- Fewer than 53 links have trained (00 R4). -/
def linksFew (s : State) : Bool := s.top.readsOk && decide (trainedLinks s < 53)

/-! ## Keys -/

def getKeys (s : State) (t : Nat) : TenKeys := mapGet keys0 s.ite.keys t
def getSlot (k : TenKeys) (i : Nat) : KeySlot := mapGet slot0 k.slots i

end Sys2Proof.Machine
end

