-- ==== Sys2Proof/Machine/ViewsMedia.lean ====
section
/-! DEFINITION. Read-only register fields of the media side: TIU_TEN_ZONES_USED and TIU_TEN_KEY_STATUS (04), ZM (06), FLC (07),
CLC (08), RCU (09), WPE (10), MME (11), JNL (12), ITE (13), BPM (14), DMC (15). -/

namespace Sys2Proof.Machine

/-- TIU_TEN_ZONES_USED and TIU_TEN_KEY_STATUS (04 R154, R160). -/
def viewTiuMedia (s : State) (off : Nat) : Nat :=
  if 0x100000 ≤ off ∧ off < 0x301000 then
    let t := (off - 0x100000) / 0x1000
    if off % 0x1000 = 0x28 then openOf s t + activeOf s t * 2 ^ 12
    else if off % 0x1000 = 0x180 then
      ((List.range 4).map (fun i => bitAt (getSlot (getKeys s t) i).loaded i)).sum + (getKeys s t).active.getD 0 * 16
    else 0
  else 0

/-- ZM_ZONE_USED, ZM_SPARE, ZM_STATUS (06 R227, R229, R230). -/
def viewZm (s : State) (off : Nat) : Nat :=
  match off with
  | 0x0 => openZones s + activeZones s * 2 ^ 12
  | 0x8 => if s.top.readsOk then ofSigned 32 (spare s) else 0
  | 0xC => bitOf (reserveLow s) + bitAt (openRefusing s) 1 + bitAt s.mme.convWp 2 + bitAt (linksFew s) 3
  | _ => 0

/-- FLC_LN_DIE_LOST of a link (07 R282). -/
def lostMask (s : State) (k : Nat) : Nat := ((List.range 32).map (fun d => bitAt (dieIsLost s (k * 32 + d)) d)).sum

/-- FLC (07 R271 to R274, R280 to R283). -/
def viewFlc (s : State) (off : Nat) : Nat :=
  let groups (st : GateSt) : Nat := ((List.range (groupCount s)).map (fun g => bitAt (groupSt s g == st) g)).sum
  if 0x1000 ≤ off ∧ off < 0x3000 then
    let k := (off - 0x1000) / 0x40
    let x := getLink s k
    match off % 0x40 with
    | 0x4 => x.st + x.cause * 16 + bitAt x.lock 8 + bitAt x.stored 9 + bitAt x.lost 10
    | 0x10 => lostMask s k
    | 0x14 => x.tempMax + x.tempDie * 2 ^ 16
    | _ => 0
  else
    match off with
    | 0x0 => s.flc.ps * 2 ^ 9
    | 0x4 => usedMw s
    | 0x14 => groups .awake + groups .waking * 2 ^ 16
    | _ => 0

/-- The exit counter that CLC_EXIT_SEL names (08 R322). -/
def exitShown (s : State) : Nat := mapGet 0 s.clc.exits (getF s F.CLC_EXIT_SEL_SEL)

/-- CLC_DEF_DATA (08 R326). -/
def viewDef (s : State) : Nat :=
  let d := getF s F.CLC_DEF_SEL_DIE
  if s.top.readsOk = false ∨ linkCount s * 32 ≤ d then 0
  else
    let l := grownOf s d (getF s F.CLC_DEF_SEL_PLANE)
    l.length * 2 ^ 16 + (match l[getF s F.CLC_DEF_SEL_INDEX]? with
      | some e => e.1 + min 15 e.2 * 2 ^ 12 + 2 ^ 31
      | none => 0)

/-- CLC (08 R323, R326). -/
def viewClc (s : State) (off : Nat) : Nat :=
  match off with
  | 0x18 => exitShown s % 2 ^ 32
  | 0x1C => exitShown s / 2 ^ 32
  | 0x28 => viewDef s
  | _ => 0

/-- RCU (09 R363 to R373). -/
def viewRcu (s : State) (off : Nat) : Nat :=
  let r := s.rcu
  let d := getF s F.RCU_DIE_SEL_DIE
  let a := getAge s d
  let die (v : Nat) : Nat := if linkCount s * 32 ≤ d then 0 else v
  match off with
  | 0xC => rcuB s
  | 0x14 => bitAt r.shelfValid 16
  | 0x18 => r.source + bitAt r.climate.isSome 2 + bitAt r.sealed 3 + bitAt r.lockLate 4 + bitAt r.clockBack 5
      + bitAt (r.dies.any (fun e => e.2.sat)) 6 + bitAt r.probesDone 7 + overrides s * 2 ^ 16
  | 0x1C => r.darkMin.getD 0
  | 0x34 => if s.top.readsOk then die (ageInt s d % 2 ^ 32) else 0
  | 0x38 => if s.top.readsOk then die (ageInt s d / 2 ^ 32 % 2 ^ 16) else 0
  | 0x3C => die (min (2 ^ 32 - 1) (a.dark / 2 ^ 32))
  | 0x40 => die (ofSigned 32 (clampInt (-(2 ^ 31)) (2 ^ 31 - 1) a.delta))
  | _ => 0

/-- WPE (10 R405, R413, R414). -/
def viewWpe (s : State) (off : Nat) : Nat :=
  match off with
  | 0x4 => vatUsed s / 2 ^ 20 + bitAt (s.qe.tasks.any (fun e => e.2.held)) 17
  | 0x24 => coolerUsed s + bitAt s.wpe.full 7 + (if s.top.readsOk then (lanes s).length else 0) * 2 ^ 8
  | 0x28 => mapCount (fun _ r => r.pail) s.wpe.rows
  | _ => 0

/-- Wear counts of the Bound and Free die-blocks of a pool (11 R421). -/
def poolWears (s : State) (mode : Nat) : List Nat :=
  (s.tabs.blocks.filter (fun e => e.2.mode == mode && (e.2.st == .bound || e.2.st == .free))).map (fun e => e.2.wear)
def meanWear (s : State) (mode : Nat) : Nat := (poolWears s mode).sum / max 1 (poolWears s mode).length

/-- Age groups that a refresh pass scans (11 R431, R434). -/
def scanTotal (s : State) : Nat :=
  (s.tabs.blocks.map (fun e =>
    if e.2.mode = 0 then e.2.snaps.length
    else if e.2.mode = 1 ∧ (e.2.stripe.any (fun k => (getStripe s k).sealed)) = true then 1 else 0)).sum

/-- Live stripes with a member lost or being rebuilt. -/
def hurtStripes (s : State) (n : Nat) : Nat := mapCount (fun _ x => x.live && decide (n ≤ x.lost.length + x.rebuild.length)) s.tabs.stripes

/-- MME (11 R446, R454 to R456). -/
def viewMme (s : State) (off : Nat) : Nat :=
  match off with
  | 0x4 => if s.top.readsOk then min 0xFFFF (meanWear s 0) + min 0xFFFF ((poolWears s 0).foldl max 0) * 2 ^ 16 else 0
  | 0x24 => (if s.mme.passActive then min 100 (100 * s.mme.scanned / max 1 (scanTotal s)) else 0) + bitAt s.mme.passActive 7
      + s.mme.cursor / 8 / 4096 / 256 % 16 * 2 ^ 8 + min 0x7FFFF s.mme.queue.length * 2 ^ 12
  | 0x28 => min 0x7FFFF (hurtStripes s 1) + bitAt (decide (0 < hurtStripes s 2)) 19
      + min 4095 (mapCount (fun _ x => x.live && x.waiting) s.tabs.stripes) * 2 ^ 20
  | 0x2C => if s.top.readsOk then min 0xFFFFFF (mapCount (fun _ b => b.st == .retired) s.tabs.blocks)
      + min 255 (mapCount (fun _ d => d.draining) s.flc.dies) * 2 ^ 24 else 0
  | _ => 0

/-- Progress of the running checkpoint: its CKPT-BEGIN issued, and CKPT-END accepted; what lies between is free (12 R492). -/
def ckptPct (s : State) : Nat := if s.jnl.ckptActive then (if s.jnl.endAccepted then 100 else 0) else 0

/-- JNL (12 R490 to R495). -/
def viewJnl (s : State) (off : Nat) : Nat :=
  let j := s.jnl
  let san := s.tabs.san
  let jsn := if s.top.readsOk then j.nextJsn else 0
  match off with
  | 0x8 => j.phase + bitAt j.ckptActive 3 + bitAt (bufFull s) 4 + bitAt (journalHeld s) 5 + bitAt j.anchorFew 6 + bitAt j.gap 7
      + bitAt j.unsafeLast 8 + bitAt (pairLow s) 9
  | 0x10 => jsn % 2 ^ 32
  | 0x14 => jsn / 2 ^ 32 % 2 ^ 32
  | 0x18 => ckptPct s + j.lastSeq % 2 ^ 24 * 2 ^ 8
  | 0x1C => min 0xFFFF j.phase1Ms + min 0xFFFF j.phase2Ms * 2 ^ 16
  | 0x20 => bitOf san.active + san.action * 2 + san.tenant * 16 + min 0xFFFF san.unreached * 2 ^ 16
  | 0x24 => min 0x7FFFF j.rebased + min 8191 j.sealedLog * 2 ^ 19
  | _ => 0

/-- ITE (13 R517, R519). -/
def viewIte (s : State) (off : Nat) : Nat :=
  if off = 0xC then s.ite.code + s.ite.kcv * 2 ^ 8
  else if off = 0x14 then bitOf (getKeys s (getF s F.ITE_TEN_SEL_TENANT)).report
  else if 0x18 ≤ off ∧ off < 0x28 then
    let x := getSlot (getKeys s (getF s F.ITE_TEN_SEL_TENANT)) ((off - 0x18) / 4)
    if x.loaded then x.keyId else 0
  else 0

/-- The buffer that BPM_INSPECT_SEL names (14 R547). -/
def inspected (s : State) : Buf :=
  let h := getF s F.BPM_INSPECT_SEL_HANDLE
  if handleValid h then mapGet buf0 s.bpm.bufs h else buf0

/-- BPM (14 R542 to R547): BPM_LAST_ERR2 and BPM_INSPECT2 as they stand without a shadow. -/
def viewBpm (s : State) (off : Nat) : Nat :=
  let b := s.bpm
  if 0x20 ≤ off ∧ off < 0x30 then
    let p := (off - 0x20) / 4
    let x := mapGet pool0 b.pools p
    poolFree s p + x.waiters.length * 2 ^ 23 + bitAt x.rebuilding 30 + bitAt (b.bufs.any (fun e => handlePool e.1 == p && e.2.st == 2)) 31
  else
    match off with
    | 0x34 => mapGet 0 b.counters (getF s F.BPM_CNT_SEL_POOL * 16 + getF s F.BPM_CNT_SEL_SEL)
    | 0x38 => b.errHandle + b.errCause * 2 ^ 25
    | 0x3C => b.errOwner + b.errPort * 2 ^ 12 + b.errOp * 2 ^ 16
    | 0x44 => (inspected s).st + (inspected s).refs * 4
    | 0x48 => (inspected s).owner + (inspected s).tenant * 2 ^ 12
    | _ => 0

/-- DMC (15 R566, R571 to R576). -/
def viewDmc (s : State) (off : Nat) : Nat :=
  let d := s.dmc
  match off with
  | 0x0 => d.cap + bitAt d.ranks2 2 + bitAt d.metaCopy 3 + d.retainSeg * 16
  | 0x2C => d.panic
  | 0x38 => ((List.range 12).map (fun p => bitAt (d.throttles.any (fun e => e.1 == p)) p)).sum
  | 0x44 => d.lastAddr % 2 ^ 32
  | 0x48 => d.lastAddr / 2 ^ 32 % 2 ^ 7 + d.lastChannel * 2 ^ 8 + d.lastPort * 2 ^ 16
  | 0x54 => bitOf d.cold + bitAt d.storedBad 1 + bitAt d.halted 2 + d.failMask * 2 ^ 8
  | _ => 0

end Sys2Proof.Machine
end

