-- ==== Sys2Proof/Machine/Views.lean ====
section
/-! DEFINITION. The value a register shows to a reader: its stored fields and the read-only fields, without the side
effects of the read (00 R15 to R20). -/

namespace Sys2Proof.Machine

/-- The read-only fields of a register. -/
def viewReg (s : State) (addr : Nat) : Nat :=
  let off := addr % 0x1000000
  match addr / 0x1000000 with
  | 0 => viewTop s off
  | 1 => viewCru s off
  | 2 => viewTu s off
  | 3 => viewHfe s off
  | 4 => viewQe s off
  | 5 => viewTiu s off + viewTiuMedia s off
  | 6 => viewZm s off
  | 7 => viewFlc s off
  | 8 => viewClc s off
  | 9 => viewRcu s off
  | 10 => viewWpe s off
  | 11 => viewMme s off
  | 12 => viewJnl s off
  | 13 => viewIte s off
  | 14 => viewBpm s off
  | 15 => viewDmc s off
  | 16 => viewMgc s off
  | 17 => viewFws s off
  | 18 => viewEvc s off
  | 19 => viewPad s off
  | _ => 0

/-- The stored bits a reader sees: write-only fields read 0. -/
def storedBits (v : Nat) (fs : List FieldDesc) : Nat :=
  (fs.map (fun f => if f.acc = .rw ∨ f.acc = .rwl ∨ f.acc = .rc ∨ f.acc = .w1c then natBits v f.lo f.width * 2 ^ f.lo
    else 0)).sum

/-- The word a reader sees; an unmapped offset reads 0 (00 R17). Tenant 0's task quotas read 4,096 (04 R153). -/
def readReg (s : State) (addr : Nat) : Nat :=
  match regFind addr with
  | none => 0
  | some d =>
    if addr = 0x5100018 ∨ addr = 0x510001C then 4096
    else storedBits (getReg s addr) d.fields + viewReg s addr

end Sys2Proof.Machine
end

