-- ==== Sys2Proof/Machine/Events.lean ====
section
/-! DEFINITION. Event Controller (19): firing a source, rate limits, the staging FIFO, pages, the ring and the mirror;
and raising asynchronous events (05 R187). -/

namespace Sys2Proof.Machine

/-! ## Completions and asynchronous events -/

/-- The task slot after its completion has been handed over: Free, and its slow-path admission (17 R635) ended. -/
def freeSlot (slot : Nat) (s : State) : State :=
  let t := mapGet task0 s.qe.tasks slot
  let s := { s with qe := { s.qe with tasks := mapSet task0 s.qe.tasks slot task0 } }
  if t.slow then
    let n := mapGet 0 s.mgc.admitted t.tenant
    { s with mgc := { s.mgc with
        admitted := mapSet 0 s.mgc.admitted t.tenant (n - 1)
        admittedAll := if t.tenant = 0 then s.mgc.admittedAll else s.mgc.admittedAll - 1 } }
  else s

/-- Count in a port counter (03 Table 03-23): 64 bits, saturating. -/
def portCount (p sel n : Nat) (s : State) : State :=
  if n = 0 then s
  else { s with hfe := { s.hfe with counters := mapUpd 0 s.hfe.counters (p * 32 + sel) (fun x => satAdd (2 ^ 64 - 1) x n) } }

/-- The lossless priority a connection's frames use (03 R81): 0 A, 1 B, 2 none. -/
def connPrio (s : State) (x : Conn) : Nat :=
  if x.tcp then
    (if flagF s (F.HFE_PORT_PFC_CFG_EN_B x.port) && flagF s (F.HFE_PORT_PFC_CFG_TCP_ON_B x.port) then 1 else 2)
  else 0

/-- A packet or segment goes out on a connection: it waits for its acknowledgement; on a paused priority it is queued (03
R83). -/
def transmit (c : Nat) (s : State) : State :=
  let x := mapGet conn0 s.hfe.conns c
  if x.port = 8 then s
  else
    let s := { s with hfe := { s.hfe with
      conns := mapSet conn0 s.hfe.conns c { x with unacked := x.unacked ++ [x.txPsn], txPsn := (x.txPsn + 1) % 2 ^ 24 } } }
    let p := mapGet port0 s.hfe.ports x.port
    let k := connPrio s x
    let put (p : Port) : State := { s with hfe := { s.hfe with ports := mapSet port0 s.hfe.ports x.port p } }
    if k = 0 ∧ p.prioA.paused then put { p with prioA := { p.prioA with queued := p.prioA.queued + 1 } }
    else if k = 1 ∧ p.prioB.paused then put { p with prioB := { p.prioB with queued := p.prioB.queued + 1 } }
    else portCount x.port 1 1 s

/-- A command completes (05 R174) with a CRD: from Completing its one completion is handed to the transport and the slot becomes
Free; a command whose connection is lost gets none (05 R183). -/
def finishCrd (slot sct sc : Nat) (dnr : Bool) (crd dw0 dw1 : Nat) (s : State) : State :=
  let t := mapGet task0 s.qe.tasks slot
  let s := if t.lost ∨ t.internal ∨ t.st = .free then s else emit (.completion t.conn t.cap.cid sct sc dnr crd dw0 dw1) (transmit t.conn s)
  freeSlot slot s

/-- A command completes with CRD 0. -/
def finish (slot sct sc : Nat) (dnr : Bool) (dw0 dw1 : Nat) (s : State) : State := finishCrd slot sct sc dnr 0 dw0 dw1 s

/-- Successful Completion. -/
def finishOk (slot : Nat) (s : State) : State := finish slot 0 0 false 0 0 s

/-- Completion with an error status and DNR = 1 (05 R171). -/
def finishErr (slot sct sc : Nat) (s : State) : State := finish slot sct sc true 0 0 s

/-- Completion with an error status and DNR = 0. -/
def finishRetry (slot sct sc : Nat) (s : State) : State := finish slot sct sc false 0 0 s

/-- CRD of a refusal with a retry hint in ms (05 R173): the smallest of 100 ms, 1 s and 10 s that is at least the hint, when the
host has set ACRE; the hint maps to CRDT3 above 10 s. -/
def crdOf (acre : Bool) (hint : Nat) : Nat := if acre then (if hint ≤ 100 then 1 else if hint ≤ 1000 then 2 else 3) else 0

/-- The retry hint (17 R636): the operations admitted device-wide times the mean service time of the last second, or 1,000 µs. -/
def retryHint (s : State) : Nat :=
  let mean := if s.mgc.svcCount = 0 then 1000 else s.mgc.svcSum / s.mgc.svcCount
  max 1 (min 65535 ((s.mgc.admittedAll * mean + 3999) / 4000))

/-- Command Interrupted, DNR = 0, with the CRD of the retry hint (05 R173). -/
def finishBusy (slot : Nat) (s : State) : State :=
  let t := mapGet task0 s.qe.tasks slot
  let c := mapGet ctl0 s.qe.ctls (ctlKey t.tenant t.cntlid)
  finishCrd slot 0 0x21 false (crdOf c.acre (retryHint s)) 0 0 s

/-- Change a controller. -/
def updCtl (key : Nat) (f : Ctl → Ctl) (s : State) : State :=
  { s with qe := { s.qe with ctls := mapUpd ctl0 s.qe.ctls key f } }

/-- The log page named by an asynchronous event (05 Table 05-10). -/
def aenLog (typ info : Nat) : Nat :=
  if typ = 1 then 0x02
  else if typ = 7 then 0xC0
  else if typ = 6 then 0x81
  else if info = 0x00 then 0x04
  else if info = 0x01 then 0x03
  else if info = 0x03 then 0x0C
  else if info = 0xEF then 0xBF
  else if info = 0xF0 then 0x70
  else 0

/-- The bit of feature 0x0B that enables an event (NVMe Asynchronous Event Configuration); types 6 and 7 need none. -/
def aenEnabled (aec typ info : Nat) : Bool :=
  let bit (n : Nat) := decide (natBits aec n 1 = 1)
  if typ = 1 then (if info = 0 then bit 2 else if info = 1 then bit 1 else bit 0)
  else if typ = 2 then
    (if info = 0x00 then bit 8 else if info = 0x01 then bit 9 else if info = 0x03 then bit 11
     else if info = 0xEF then bit 27 else if info = 0xF0 then bit 31 else false)
  else true

/-- Raise an event on one controller (05 R187): it completes an outstanding request or waits for the next; the same
type and information is not raised again until its log page has been read. -/
def raiseAen (key typ info : Nat) (s : State) : State :=
  let c := mapGet ctl0 s.qe.ctls key
  let ev := typ * 256 + info
  if c.live = false ∨ aenEnabled c.aec typ info = false ∨ ev ∈ c.unread then s
  else
    match c.aers with
    | slot :: rest =>
      let s := updCtl key (fun c => { c with aers := rest, unread := ev :: c.unread }) s
      finish slot 0 0 false (typ + info * 2 ^ 8 + aenLog typ info * 2 ^ 16) 0 s
    | [] => updCtl key (fun c => { c with waitingEv := c.waitingEv ++ [ev], unread := ev :: c.unread }) s

/-- Raise an event on every live controller that satisfies a test. -/
def raiseAenWhere (p : Nat → Ctl → Bool) (typ info : Nat) (s : State) : State :=
  (mapKeysWhere (fun k c => c.live && p k c) s.qe.ctls).foldl (fun s k => raiseAen k typ info s) s

/-- Raise an event on tenant 0's controllers. -/
def raiseAenOperator (typ info : Nat) (s : State) : State := raiseAenWhere (fun k _ => decide (k < 0x100)) typ info s

/-- Raise an event on every controller. -/
def raiseAenAll (typ info : Nat) (s : State) : State := raiseAenWhere (fun _ _ => true) typ info s

/-- An address, a port mode or an access list has changed (03 R98): hosts on persistent discovery connections are told. -/
def discChanged (s : State) : State :=
  raiseAenWhere (fun k _ => decide (0x40000 ≤ k)) 2 0xF0 { s with hfe := { s.hfe with discGen := s.hfe.discGen + 1 } }

/-! ## Firing a source -/

/-- Change what the EVC keeps for a source. -/
def updSrc (src : Nat) (f : EvcSrc → EvcSrc) (s : State) : State :=
  { s with evc := { s.evc with src := mapUpd evcSrc0 s.evc.src src f } }

/-- A mask bit of a source's bank. -/
def evcBit (s : State) (f : Nat → Fld) (src : Nat) : Bool := decide (natBits (getF s (f (src / 32))) (src % 32) 1 = 1)

/-- Severity and TQUAL, times and words of an occurrence as a record without SEQ (19 Table 19-2). -/
def occurrence (s : State) (typ src sev index : Nat) (detail : List Nat) : HbRec :=
  { seq := 0, sec := tuSec s.tu.t, ns := tuNs s.tu.t, typ := typ, sev := sev, source := src,
    tqual := s.tu.st + devCode s.top.dev * 16, index := index, detail := detail }

/-- Put a record in the staging FIFO. -/
def fifoPush (r : HbRec) (s : State) : State := { s with evc := { s.evc with fifo := s.evc.fifo ++ [r] } }

/-- Suppress an occurrence (19 R696 step 3). -/
def suppress (src sev index : Nat) (s : State) : State :=
  updSrc src (fun e =>
    { e with
      supp := satAdd 0xFFFF e.supp 1
      firstSec := if e.supp = 0 then tuSec s.tu.t else e.firstSec
      firstNs := if e.supp = 0 then tuNs s.tu.t else e.firstNs
      lastSec := tuSec s.tu.t, lastNs := tuNs s.tu.t, lastIndex := index, lastSev := sev }) s

/-- Set a source's token count. -/
def setTokens (src n : Nat) (s : State) : State := updSrc src (fun e => { e with tokens := some n }) s

/-- The LATCH step of R693: the bit sets, and a bit that was 0 with IBI set raises an in-band interrupt with byte 0x02
when ENEC permits. The occurrence count restarts when LATCH was clear (Table 19-3). -/
def latchSource (src : Nat) (s : State) : State :=
  let was := evcBit s F.EVC_LATCHb_LATCH src
  let f := F.EVC_LATCHb_LATCH (src / 32)
  let ibi := !was && evcBit s F.EVC_IBIb_IBI src && s.mgc.ibiAllowed
  let s := setF f (getF s f ||| 2 ^ (src % 32)) s
  let s := updSrc src (fun e => { e with occ := if was then satAdd (2 ^ 32 - 1) e.occ 1 else 1 }) s
  if ibi then emit (.ibi 2) s else s

/-- The rate limit and the staging FIFO (19 R696, R697). -/
def rateLimit (src sev index : Nat) (detail : List Nat) (s : State) : State :=
  let occ := (mapGet evcSrc0 s.evc.src src).occ
  let r := occurrence s 1 src sev index (occ :: detail)
  if evcBit s F.EVC_EXEMPTb_EXEMPT src then
    if s.evc.fifo.length < 64 then fifoPush r s
    else
      -- lost: counted, and source 866 fires; its record enters when an entry frees
      let s := bumpF F.EVC_CNT_OVERFLOW 1 s
      let s := { s with evc := { s.evc with lost := s.evc.lost + 1 } }
      if evcBit s F.EVC_ENb_EN 866 then latchSource 866 s else s
  else
    let e := mapGet evcSrc0 s.evc.src src
    let tokens := evcTokens s src
    if s.mgc.shed ∧ sev ≤ 1 then suppress src sev index s
    else if 0 < tokens ∧ e.supp = 0 ∧ s.evc.fifo.length < 60 then fifoPush r (setTokens src (tokens - 1) s)
    else suppress src sev index s

/-- A source fires (19 R693). A reserved source never fires (R692). -/
def fireSev (src sev index : Nat) (detail : List Nat) (s : State) : State :=
  if evcExists src = false then s
  else if evcBit s F.EVC_ENb_EN src = false then s
  else
    let s := latchSource src s
    if evcBit s F.EVC_LOGb_LOG src then rateLimit src sev index detail s else s

/-- The status register of the block that raises a hardware source (19 Table 19-3, word 1). -/
def statusAddr (src : Nat) : Option Nat :=
  let bank := src / 32
  let bit := src % 32
  if bank = 0 then some 0x10
  else if bank = 2 then some 0x1000000
  else if bank = 3 then some 0x2000000
  else if bank = 4 then some (0x3001004 + bit / 4 * 0x100)
  else if bank = 5 then some 0x3000004
  else if bank = 7 then some 0x600000C
  else if 8 ≤ bank ∧ bank < 16 then some (0x7001004 + (16 * (bank - 8) + bit / 2) * 0x40)
  else if bank = 16 then some 0x7000014
  else if bank = 18 then some 0x9000018
  else if bank = 21 then some 0xC000008
  else if bank = 25 then some 0x1000000C
  else if bank = 26 then some 0x11000000
  else if bank = 27 then some 0x12000004
  else none

/-- The counter that a row of Table 19-1 names: OVERFLOW, DEV_RESETS or OVERRIDE; other rows name none. -/
def countedIndex (src : Nat) : Bool := src == 160 || src == 76 || src == 580

/-- A hardware source fires with its INDEX. DETAIL words 1 to 6 are the block's status register, the counter the row
names, then zero; a block without one status register gives a free word. -/
def fire (src index : Nat) (s : State) : State :=
  let (w, s) : Nat × State :=
    match statusAddr src with
    | some a => (readReg s a, s)
    | none => drawFree 32 s
  fireSev src (evcSev src) index [w, if countedIndex src then index else 0, 0, 0, 0, 0] s

/-- EVENT_FIRE (19 R693, R696): hardware sources carry the severity of Table 19-1, firmware sources their own. -/
def execEventFire (source sev index : Nat) (detail : List Nat) (s : State) : Host.Outcome State Fault Refusal :=
  if 896 ≤ source then .next (fireSev source sev index ((detail ++ List.replicate 6 0).take 6) s)
  else .next (fire source index s)

/-- SW_RAISE (19 R710): a write of EVC_SW_RAISE fires the named firmware source with EVC_SW_INDEX; any other SOURCE
fires nothing and changes nothing. -/
def execSwRaise (value : Word) (s : State) : Host.Outcome State Fault Refusal :=
  let src := natBits value.toNat 0 11
  let sev := natBits value.toNat 11 2
  if 896 ≤ src ∧ src ≤ 1535 then .next (fireSev src sev (getF s F.EVC_SW_INDEX_INDEX) [0, 0, 0, 0, 0, 0] s)
  else .next s

/-! ## Tokens and summaries -/

/-- Whether a summary of a source can enter: it pends, the bucket holds a token and the FIFO fewer than 60 entries. -/
def summaryReady (s : State) (src : Nat) : Bool :=
  decide (0 < (mapGet evcSrc0 s.evc.src src).supp) && decide (0 < evcTokens s src) && decide (s.evc.fifo.length < 60)

/-- The summary of a source enters the FIFO (19 R697): it takes a token, carries the counter and both times, which are
cleared. -/
def enterSummary (src : Nat) (s : State) : State :=
  let e := mapGet evcSrc0 s.evc.src src
  let r := { occurrence s 2 src e.lastSev e.lastIndex
      [e.supp, e.firstSec % 2 ^ 32, e.firstSec / 2 ^ 32 % 2 ^ 16, e.firstNs,
       e.lastSec % 2 ^ 32, e.lastSec / 2 ^ 32 % 2 ^ 16, e.lastNs] with typ := 2 }
  let s := fifoPush r (setTokens src (evcTokens s src - 1) s)
  updSrc src (fun e => { evcSrc0 with tokens := e.tokens, occ := e.occ }) s

/-- SUMMARY_ENTER (19 R697). -/
def execSummaryEnter (source : Nat) (s : State) : Host.Outcome State Fault Refusal :=
  if summaryReady s source then .next (enterSummary source s) else .next s

/-- EVENT_TOKEN_REFILL (19 R696): a bucket below BURST gains a token; a pending summary takes it at once when the FIFO
has room (R697, Table 19-6). -/
def execEventTokenRefill (source : Nat) (s : State) : Host.Outcome State Fault Refusal :=
  if evcTokens s source < getF s F.EVC_CFG_BURST then
    let s := setTokens source (evcTokens s source + 1) s
    if summaryReady s source then .next (enterSummary source s) else .next s
  else .next s

/-! ## Pages, ring and mirror -/

/-- The FIFO head becomes a record with the next SEQ in the open page buffer (19 R697, R693). A record of source 866
waiting for room enters the FIFO behind. Type 0x7 is raised on tenant 0's controllers when AEN is set. -/
def drainHead (s : State) : State :=
  match s.evc.fifo with
  | [] => s
  | r :: rest =>
    let r := { r with seq := s.evc.nextSeq }
    let s := { s with evc := { s.evc with
        fifo := rest, filling := s.evc.filling ++ [r], nextSeq := s.evc.nextSeq + 1
        mirrorNow := s.evc.mirrorNow || r.sev == 3 || r.source == 864 } }
    let s := if r.typ = 2 then bumpF F.EVC_CNT_SUMMARIES 1 s else s
    let s :=
      if 0 < s.evc.lost ∧ s.evc.fifo.length < 64 then
        let n := s.evc.lost
        let s := { s with evc := { s.evc with lost := 0 } }
        let occ := (mapGet evcSrc0 s.evc.src 866).occ
        if evcBit s F.EVC_LOGb_LOG 866 then fifoPush (occurrence s 1 866 2 n [occ, readReg s 0x12000004, 0, 0, 0, 0, 0]) s
        else s
      else s
    if r.source < 1536 ∧ evcBit s F.EVC_AENb_AEN r.source then raiseAenOperator 7 (r.source / 32) s else s

/-- EVENT_FIFO_DRAIN (19 R697, R698): with both page buffers taken the FIFO holds. The boot marker is the first record of a
boot (R694), so nothing drains before the boot ROM has written it. -/
def execEventFifoDrain (s : State) : Host.Outcome State Fault Refusal :=
  if s.evc.filling.length < 8 ∧ (s.fws.bootSlot ≠ 0 ∨ s.fws.recovery = true) then .next (drainHead s) else .next s

/-- Whether the record at the front of the filling page makes it urgent. -/
def pageUrgent (s : State) : Bool := s.evc.filling.any (fun r => r.sev == 3)

/-- The next good Herdbook sector after `n` in cyclic order (19 R698). -/
def nextHbSector (bad : List Nat) (n : Nat) : Nat → Nat
  | 0 => n
  | fuel + 1 =>
    let m := if n + 1 ≥ 324 then 292 else n + 1
    if m ∈ bad then nextHbSector bad m fuel else m

/-- The page words of a list of records are kept as records: the ring holds the records of each page with its sector. -/
def ringAdd (sector : Nat) (rs : List HbRec) (s : State) : State :=
  { s with evc := { s.evc with ring := s.evc.ring ++ rs.map (fun r => ⟨sector, r⟩) } }

/-- The SRAM ring of R699 keeps the newest 1,024 records. -/
def sramAdd (rs : List HbRec) (s : State) : State :=
  let all := s.evc.sramRing ++ rs
  { s with evc := { s.evc with sramRing := all.drop (all.length - 1024) } }

/-- Every valid record outside the mirror, in ascending SEQ order of the places R700 names. -/
def hbRecords (s : State) : List HbRec :=
  s.evc.ring.map HbCell.body ++ s.evc.sramRing ++ (s.evc.programming.getD []) ++ s.evc.filling

/-- No link has an SLC die-block for the mirror (19 R701, 10 R396). -/
def mirrorBlockless (s : State) : Bool := (laneLinks s).all (fun k => (usableSlc s k).isNone)

/-- MIRROR_PROGRAM (19 R700, R701): the records above the mirror's highest SEQ, at most 1,024, are programmed to a
mirror wordline. A failed program fires source 867; without a block to replace the failed one the mirror is down. -/
def execMirrorProgram (ok : Bool) (s : State) : Host.Outcome State Fault Refusal :=
  if s.evc.mirrorOn = false ∨ (s.evc.mirrorDown = true ∧ mirrorBlockless s = true) then .next s
  else if ok = false then
    let down := mirrorBlockless s
    .next (fire 867 s.evc.mirrorSeq { s with evc := { s.evc with mirrorDown := down } })
  else
    let rs := ((hbRecords s).filter (fun r => decide (s.evc.mirrorSeq < r.seq))).take 1024
    if rs = [] then .next s
    else .next { s with evc := { s.evc with
        mirror := s.evc.mirror ++ rs, mirrorNow := false, mirrorDown := false
        mirrorSeq := rs.foldl (fun m r => max m r.seq) s.evc.mirrorSeq } }

end Sys2Proof.Machine
end

