-- ==== Sys2Proof/Machine/DramOps.lean ====
section
/-! DEFINITION. Operations of the DRAM controller that other blocks use (15): the address mapping, self-refresh, drift
tracking and the trackers of a bank. -/

namespace Sys2Proof.Machine

/-- Change the DMC. -/
def updDmc (f : Dmc → Dmc) (s : State) : State := { s with dmc := f s.dmc }

/-- Change a bank, key channel × 32 + rank × 16 + bank. -/
def updBank (k : Nat) (f : Bank → Bank) (s : State) : State :=
  updDmc (fun d => { d with banks := mapUpd bank0 d.banks k f }) s

/-- Usable system space U in bytes (15 Table 15-1). -/
def dramSpace (s : State) : Nat :=
  match s.dmc.cap with
  | 0 => 381 * 2 ^ 28
  | 1 => 381 * 2 ^ 29
  | _ => 381 * 2 ^ 30

/-- XOR of the bits of a number, of which the low `n` are looked at. -/
def parity (n v : Nat) : Nat := (List.range n).foldl (fun p i => p ^^^ natBits v i 1) 0

/-- Where a system address lies (15 R549). -/
structure DramPlace where
  channel : Nat
  rank : Nat
  bank : Nat
  row : Nat
  col : Nat
  loc : Nat
deriving DecidableEq, Repr

/-- The XOR mask of a bank bit. -/
def bankXor (s : State) (k : Nat) : Nat :=
  getF s (if k = 0 then F.DMC_BANK_XOR0_MASK else if k = 1 then F.DMC_BANK_XOR1_MASK
    else if k = 2 then F.DMC_BANK_XOR2_MASK else F.DMC_BANK_XOR3_MASK)

/-- The address mapping of 15 R549. -/
def dramMap (s : State) (a : Nat) : DramPlace :=
  let n := a / 4096
  let l := n / 24 * 4096 + a % 4096
  let rankBit := if s.dmc.cap = 1 then 32 else 33
  let rank := if s.dmc.ranks2 then natBits l rankBit 1 else 0
  let bank := ((List.range 4).map (fun k => parity 22 ((natBits l 11 22) &&& bankXor s k) * 2 ^ k)).sum
  let rowAll := l / 2 ^ 15
  { channel := n % 24, rank := rank, bank := bank
    row := if s.dmc.ranks2 then rowAll % 2 ^ (rankBit - 15) else rowAll
    col := l % 2048, loc := l }

/-- Drift tracking of one channel (15 R561): counted; requests wait and none is lost. -/
def dmcTrack (ch : Nat) (s : State) : State :=
  updDmc (fun d => { d with tracked := mapUpd 0 d.tracked ch (· + 1) }) s

/-- ZQ calibration of one channel (15 R561). -/
def dmcZq (ch : Nat) (s : State) : State :=
  updDmc (fun d => { d with zq := mapUpd 0 d.zq ch (· + 1) }) s

/-- Drift tracking on every channel, after the accurate PLLs relock (16 R587). -/
def dmcDriftTrackAll (s : State) : State := (List.range 24).foldl (fun s c => dmcTrack c s) s

/-- Every rank enters self-refresh (16 R591): open rows close. -/
def dmcEnterSelfRefresh (s : State) : State :=
  updDmc (fun d => { d with selfRef := true, banks := mapMapVals bank0 (fun _ b => { b with openRow := none }) d.banks }) s

/-- Every rank leaves self-refresh (15 R564, 16 R591); ZQ calibration and tracking follow on every channel. -/
def dmcLeaveSelfRefresh (s : State) : State :=
  if s.dmc.selfRef then
    let s := updDmc (fun d => { d with selfRef := false, masked := false }) s
    dmcDriftTrackAll ((List.range 24).foldl (fun s c => dmcZq c s) s)
  else s

/-- Retained entry (15 R563): queues drained, segments masked, self-refresh; throttles end. -/
def dmcRetainedEntry (s : State) : State :=
  updDmc (fun d => { d with masked := true, throttles := [] }) (dmcEnterSelfRefresh s)

end Sys2Proof.Machine
end

