-- ==== Sys2Proof/Machine/Dram.lean ====
section
/-! DEFINITION. Meanings of the DRAM commands (15 R555 to R561). -/

namespace Sys2Proof.Machine

/-- The key of a bank: channel × 32 + rank and bank. -/
def bankKey (channel bank : Nat) : Nat := channel * 32 + bank

/-- DRAM_REFRESH (15 R557): a per-bank refresh closes the bank's row and ends its postponement. How far it lowers the
accumulated activation count (RAADEC) the device reports: a free value. -/
def execDramRefresh (channel bank : Nat) (s : State) : Host.Outcome State Fault Refusal :=
  match drawFree 16 s with
  | (dec, s) => .next (updBank (bankKey channel bank)
      (fun b => { b with openRow := none, refreshes := 0, raa := b.raa - dec }) s)

/-- REFRESH_RATE_POLL (15 R557): the rate the device reports is taken up. -/
def execRefreshRatePoll (channel rate : Nat) (s : State) : Host.Outcome State Fault Refusal :=
  .next (updDmc (fun d => { d with rates := mapSet 0 d.rates channel rate }) s)

/-- A list with the number at a position raised. -/
def bumpAt (l : List Nat) (i n : Nat) : List Nat :=
  (List.range 12).map (fun j => l.getD j 0 + (if j = i then n else 0))

/-- The tracker of a bank after `acts` activations of a row by a port (15 R558): a row that is not tracked takes a free
entry, or displaces the entry with the lowest count and inherits it plus one. -/
def trackRow (t : List (Nat × Nat × List Nat × Bool)) (row port acts : Nat) : List (Nat × Nat × List Nat × Bool) :=
  if t.any (fun e => e.1 == row) then
    t.map (fun e => if e.1 = row then (row, e.2.1 + acts, bumpAt e.2.2.1 port acts, e.2.2.2) else e)
  else if t.length < 16 then t ++ [(row, acts, bumpAt [] port acts, false)]
  else
    let low := t.foldl (fun m e => min m e.2.1) (t.headD (0, 0, [], false)).2.1
    match t.findIdx? (fun e => e.2.1 == low) with
    | some i => t.set i (row, low + acts, bumpAt [] port acts, false)
    | none => t

/-- The port with the most activations, the lower number on a tie. -/
def topPort (l : List Nat) : Nat :=
  (List.range 12).foldl (fun m p => if l.getD m 0 < l.getD p 0 then p else m) 0

/-- ROW_HAMMER_RFM (15 R558, R559): `acts` activations of a row by a port. At ROW_THR a targeted RFM is issued, the
row's count returns to 0; the second time in the window the port with the most activations is throttled. -/
def execRowHammerRfm (channel bank row port acts : Nat) (s : State) : Host.Outcome State Fault Refusal :=
  let k := bankKey channel bank
  let s := updBank k (fun b => { b with openRow := some row, raa := b.raa + acts, track := trackRow b.track row port acts }) s
  match (mapGet bank0 s.dmc.banks k).track.find? (fun e => e.1 == row) with
  | none => .next s
  | some e =>
    if e.2.1 < getF s F.DMC_RH_CFG_ROW_THR then .next s
    else
      let s := bumpF F.DMC_RH_CNT_RFM_TARGETED 1 s
      let s := updBank k (fun b => { b with
          openRow := none, track := b.track.map (fun x => if x.1 = row then (row, 0, x.2.2.1, true) else x) }) s
      if e.2.2.2 then
        let p := topPort e.2.2.1
        let s := updDmc (fun d => { d with throttles := (p, k) :: d.throttles.filter (fun x => x != (p, k)) }) s
        .next (fire 771 (p * 256 + bank % 16) (bumpF F.DMC_RH_CNT_THROTTLES 1 s))
      else .next s

/-- ACTIVATION_WINDOW_END (15 R558): the trackers restart. -/
def execActivationWindowEnd (s : State) : Host.Outcome State Fault Refusal :=
  .next (updDmc (fun d => { d with banks := mapMapVals bank0 (fun _ b => { b with track := [] }) d.banks }) s)

/-- THROTTLE_EXPIRE (15 R559). -/
def execThrottleExpire (port bank : Nat) (s : State) : Host.Outcome State Fault Refusal :=
  .next (updDmc (fun d => { d with throttles := d.throttles.filter (fun x => x != (port, bank)) }) s)

/-- PANIC_ASSERT (15 R556). -/
def execPanicAssert (port : Nat) (s : State) : Host.Outcome State Fault Refusal :=
  .next (updDmc (fun d => { d with panic := natSetBits d.panic port 1 1 }) s)

/-- PANIC_RELEASE (15 R556). -/
def execPanicRelease (port : Nat) (s : State) : Host.Outcome State Fault Refusal :=
  .next (updDmc (fun d => { d with panic := natSetBits d.panic port 1 0 }) s)

/-- PANIC_LONG (15 R556): counted while the panic stays asserted. -/
def execPanicLong (port : Nat) (s : State) : Host.Outcome State Fault Refusal :=
  if natBits s.dmc.panic port 1 = 1 then .next (fire 770 port (bumpF F.DMC_PANIC_STATUS_LONG 1 s)) else .next s

/-- ROW_CLOSE_TIMER (15 R555): the idle row is precharged. -/
def execRowCloseTimer (channel bank : Nat) (s : State) : Host.Outcome State Fault Refusal :=
  .next (updBank (bankKey channel bank) (fun b => { b with openRow := none }) s)

/-- DQS_TRACKING (15 R561). -/
def execDqsTracking (channel : Nat) (s : State) : Host.Outcome State Fault Refusal := .next (dmcTrack channel s)

/-- ZQ_CALIBRATION (15 R561). -/
def execZqCalibration (channel : Nat) (s : State) : Host.Outcome State Fault Refusal := .next (dmcZq channel s)

end Sys2Proof.Machine
end

