-- ==== Sys2Proof/Machine/Crypto.lean ====
section
/-! DEFINITION. The published algorithms the spec names: CRC-32C (07 R242), SHA-384 (FIPS 180-4) and ECDSA P-384
(FIPS 186-5) for images (18 R674), AES-256 (FIPS 197) and AES-CMAC for integrity tags (13), and GF(2⁸) with the
polynomial 0x11D for the row parities (10 R383). -/

namespace Sys2Proof.Machine

/-! ## CRC-32C -/

/-- One bit of the reflected CRC-32C (polynomial 0x82F6_3B78). -/
def crc32cBit (c : Nat) : Nat := if c % 2 = 1 then (c / 2) ^^^ 0x82F63B78 else c / 2

/-- One byte. -/
def crc32cByte (c b : Nat) : Nat :=
  crc32cBit (crc32cBit (crc32cBit (crc32cBit (crc32cBit (crc32cBit (crc32cBit (crc32cBit (c ^^^ b))))))))

/-- CRC-32C: initial value all ones, final complement. -/
def crc32c (bytes : List Nat) : Nat := (bytes.foldl crc32cByte 0xFFFFFFFF) ^^^ 0xFFFFFFFF

/-! ## SHA-384 -/

/-- Round constants of SHA-512 (FIPS 180-4, 4.2.3). -/
def sha512K : List Nat :=
  [0x428a2f98d728ae22, 0x7137449123ef65cd, 0xb5c0fbcfec4d3b2f, 0xe9b5dba58189dbbc,
   0x3956c25bf348b538, 0x59f111f1b605d019, 0x923f82a4af194f9b, 0xab1c5ed5da6d8118,
   0xd807aa98a3030242, 0x12835b0145706fbe, 0x243185be4ee4b28c, 0x550c7dc3d5ffb4e2,
   0x72be5d74f27b896f, 0x80deb1fe3b1696b1, 0x9bdc06a725c71235, 0xc19bf174cf692694,
   0xe49b69c19ef14ad2, 0xefbe4786384f25e3, 0x0fc19dc68b8cd5b5, 0x240ca1cc77ac9c65,
   0x2de92c6f592b0275, 0x4a7484aa6ea6e483, 0x5cb0a9dcbd41fbd4, 0x76f988da831153b5,
   0x983e5152ee66dfab, 0xa831c66d2db43210, 0xb00327c898fb213f, 0xbf597fc7beef0ee4,
   0xc6e00bf33da88fc2, 0xd5a79147930aa725, 0x06ca6351e003826f, 0x142929670a0e6e70] ++
  [0x27b70a8546d22ffc, 0x2e1b21385c26c926, 0x4d2c6dfc5ac42aed, 0x53380d139d95b3df,
   0x650a73548baf63de, 0x766a0abb3c77b2a8, 0x81c2c92e47edaee6, 0x92722c851482353b,
   0xa2bfe8a14cf10364, 0xa81a664bbc423001, 0xc24b8b70d0f89791, 0xc76c51a30654be30,
   0xd192e819d6ef5218, 0xd69906245565a910, 0xf40e35855771202a, 0x106aa07032bbd1b8,
   0x19a4c116b8d2d0c8, 0x1e376c085141ab53, 0x2748774cdf8eeb99, 0x34b0bcb5e19b48a8,
   0x391c0cb3c5c95a63, 0x4ed8aa4ae3418acb, 0x5b9cca4f7763e373, 0x682e6ff3d6b2b8a3,
   0x748f82ee5defb2fc, 0x78a5636f43172f60, 0x84c87814a1f0ab72, 0x8cc702081a6439ec,
   0x90befffa23631e28, 0xa4506cebde82bde9, 0xbef9a3f7b2c67915, 0xc67178f2e372532b] ++
  [0xca273eceea26619c, 0xd186b8c721c0c207, 0xeada7dd6cde0eb1e, 0xf57d4f7fee6ed178,
   0x06f067aa72176fba, 0x0a637dc5a2c898a6, 0x113f9804bef90dae, 0x1b710b35131c471b,
   0x28db77f523047d84, 0x32caab7b40c72493, 0x3c9ebe0a15c9bebc, 0x431d67c49c100d4c,
   0x4cc5d4becb3e42b6, 0x597f299cfc657e2a, 0x5fcb6fab3ad6faec, 0x6c44198c4a475817]

/-- Initial hash value of SHA-384 (FIPS 180-4, 5.3.4). -/
def sha384H0 : List Nat :=
  [0xcbbb9d5dc1059ed8, 0x629a292a367cd507, 0x9159015a3070dd17, 0x152fecd8f70e5939,
   0x67332667ffc00b31, 0x8eb44a8768581511, 0xdb0c2e0d64f98fa7, 0x47b5481dbefa4fa4]

/-- Rotate right in 64 bits. -/
def rotr64 (n x : Nat) : Nat := (x / 2 ^ n + x * 2 ^ (64 - n)) % 2 ^ 64

/-- A big-endian number from bytes. -/
def beNat (bs : List Nat) : Nat := bs.foldl (fun a b => a * 256 + b) 0

/-- A little-endian number from bytes. -/
def leNat (bs : List Nat) : Nat := bs.foldr (fun b a => b + 256 * a) 0

/-- The `n` little-endian bytes of a number. -/
def leBytes (n v : Nat) : List Nat := (List.range n).map (fun i => v / 256 ^ i % 256)

/-- The `n` big-endian bytes of a number. -/
def beBytes (n v : Nat) : List Nat := (leBytes n v).reverse

/-- Extend the message schedule: the last sixteen words, newest first, give the next. -/
def shaNextW (w : List Nat) : Nat :=
  let a := w.getD 1 0
  let b := w.getD 14 0
  let s1 := rotr64 19 a ^^^ rotr64 61 a ^^^ (a / 2 ^ 6)
  let s0 := rotr64 1 b ^^^ rotr64 8 b ^^^ (b / 2 ^ 7)
  (s1 + w.getD 6 0 + s0 + w.getD 15 0) % 2 ^ 64

/-- The eighty schedule words of a block, newest first. -/
def shaSchedule : Nat → List Nat → List Nat
  | 0, w => w
  | n + 1, w => shaSchedule n (shaNextW w :: w)

/-- One round. -/
def shaRound (h : List Nat) (kw : Nat) : List Nat :=
  match h with
  | [a, b, c, d, e, f, g, hh] =>
    let s1 := rotr64 14 e ^^^ rotr64 18 e ^^^ rotr64 41 e
    let ch := (e &&& f) ^^^ ((2 ^ 64 - 1 - e) &&& g)
    let t1 := (hh + s1 + ch + kw) % 2 ^ 64
    let s0 := rotr64 28 a ^^^ rotr64 34 a ^^^ rotr64 39 a
    let mj := (a &&& b) ^^^ (a &&& c) ^^^ (b &&& c)
    [(t1 + s0 + mj) % 2 ^ 64, a, b, c, (d + t1) % 2 ^ 64, e, f, g]
  | other => other

/-- One 128-byte block. -/
def shaBlock (h : List Nat) (block : List Nat) : List Nat :=
  let w0 := ((List.range 16).map (fun i => beNat ((block.drop (8 * i)).take 8))).reverse
  let w := (shaSchedule 64 w0).reverse
  let r := (List.zipWith (· + ·) sha512K w).foldl shaRound h
  List.zipWith (fun x y => (x + y) % 2 ^ 64) h r

/-- Blocks of a padded message. -/
def shaBlocks : Nat → List Nat → List Nat → List Nat
  | 0, h, _ => h
  | n + 1, h, m => shaBlocks n (shaBlock h (m.take 128)) (m.drop 128)

/-- SHA-384 of a message, as a number. -/
def sha384 (msg : List Nat) : Nat :=
  let zeros := (239 - msg.length % 128) % 128
  let padded := msg ++ [0x80] ++ List.replicate zeros 0 ++ beBytes 16 (8 * msg.length)
  ((shaBlocks (padded.length / 128) sha384H0 padded).take 6).foldl (fun a w => a * 2 ^ 64 + w) 0

/-! ## ECDSA P-384 -/

def p384P : Nat := 2 ^ 384 - 2 ^ 128 - 2 ^ 96 + 2 ^ 32 - 1
def p384N : Nat := 0xffffffffffffffffffffffffffffffffffffffffffffffffc7634d81f4372ddf581a0db248b0a77aecec196accc52973
def p384B : Nat := 0xb3312fa7e23ee7e4988e056be3f82d19181d9c6efe8141120314088f5013875ac656398d8a2ed19d2a85c8edd3ec2aef
def p384Gx : Nat := 0xaa87ca22be8b05378eb1c71ef320ad746e1d3b628ba79b9859f741e082542a385502f25dbf55296c3a545e3872760ab7
def p384Gy : Nat := 0x3617de4a96262c6f5d9e98bf9292dc29f8f41dbd289a147ce9da3113b5f0b8c00a60b1ce1d7e819d7a431d7c90ea0e5f

/-- Modular power by repeated squaring over the bits of the exponent, low bit first. -/
def powModBits (m : Nat) : Nat → Nat → Nat → Nat → Nat
  | 0, _, _, acc => acc
  | n + 1, b, e, acc => powModBits m n (b * b % m) (e / 2) (if e % 2 = 1 then acc * b % m else acc)

/-- Inverse modulo a 384-bit prime. -/
def invMod (a m : Nat) : Nat := powModBits m 384 (a % m) (m - 2) 1

/-- A point of P-384: none is the point at infinity. -/
abbrev EcPoint := Option (Nat × Nat)

/-- Difference modulo p. -/
def subP (a b : Nat) : Nat := (a + p384P - b % p384P) % p384P

/-- Point addition on y² = x³ − 3x + b. -/
def ecAdd (p q : EcPoint) : EcPoint :=
  match p, q with
  | none, q => q
  | p, none => p
  | some (x1, y1), some (x2, y2) =>
    if x1 = x2 ∧ (y1 + y2) % p384P = 0 then none
    else
      let l := if x1 = x2 then subP (3 * x1 * x1) 3 * invMod (2 * y1) p384P % p384P
        else subP y2 y1 * invMod (subP x2 x1) p384P % p384P
      let x3 := subP (l * l) (x1 + x2)
      some (x3, subP (l * subP x1 x3) y1)

/-- Scalar multiple over 384 bits, low bit first. -/
def ecMulBits : Nat → Nat → EcPoint → EcPoint → EcPoint
  | 0, _, _, acc => acc
  | n + 1, k, p, acc => ecMulBits n (k / 2) (ecAdd p p) (if k % 2 = 1 then ecAdd acc p else acc)

/-- ECDSA P-384 verification of a hash (FIPS 186-5). -/
def ecdsaVerify (hash r s qx qy : Nat) : Bool :=
  let onCurve := decide (qx < p384P) && decide (qy < p384P) &&
    decide (qy * qy % p384P = (subP (qx * qx % p384P * qx) (3 * qx) + p384B) % p384P)
  if onCurve = false ∨ r = 0 ∨ p384N ≤ r ∨ s = 0 ∨ p384N ≤ s then false
  else
    let w := invMod s p384N
    let u1 := hash * w % p384N
    let u2 := r * w % p384N
    match ecAdd (ecMulBits 384 u1 (some (p384Gx, p384Gy)) none) (ecMulBits 384 u2 (some (qx, qy)) none) with
    | none => false
    | some (x, _) => decide (x % p384N = r)

/-! ## AES-256 and AES-CMAC -/

/-- The AES S-box (FIPS 197). -/
def aesSbox : List Nat :=
  [99, 124, 119, 123, 242, 107, 111, 197, 48, 1, 103, 43, 254, 215, 171, 118,
   202, 130, 201, 125, 250, 89, 71, 240, 173, 212, 162, 175, 156, 164, 114, 192,
   183, 253, 147, 38, 54, 63, 247, 204, 52, 165, 229, 241, 113, 216, 49, 21,
   4, 199, 35, 195, 24, 150, 5, 154, 7, 18, 128, 226, 235, 39, 178, 117,
   9, 131, 44, 26, 27, 110, 90, 160, 82, 59, 214, 179, 41, 227, 47, 132,
   83, 209, 0, 237, 32, 252, 177, 91, 106, 203, 190, 57, 74, 76, 88, 207,
   208, 239, 170, 251, 67, 77, 51, 133, 69, 249, 2, 127, 80, 60, 159, 168,
   81, 163, 64, 143, 146, 157, 56, 245, 188, 182, 218, 33, 16, 255, 243, 210] ++
  [205, 12, 19, 236, 95, 151, 68, 23, 196, 167, 126, 61, 100, 93, 25, 115,
   96, 129, 79, 220, 34, 42, 144, 136, 70, 238, 184, 20, 222, 94, 11, 219,
   224, 50, 58, 10, 73, 6, 36, 92, 194, 211, 172, 98, 145, 149, 228, 121,
   231, 200, 55, 109, 141, 213, 78, 169, 108, 86, 244, 234, 101, 122, 174, 8,
   186, 120, 37, 46, 28, 166, 180, 198, 232, 221, 116, 31, 75, 189, 139, 138,
   112, 62, 181, 102, 72, 3, 246, 14, 97, 53, 87, 185, 134, 193, 29, 158,
   225, 248, 152, 17, 105, 217, 142, 148, 155, 30, 135, 233, 206, 85, 40, 223,
   140, 161, 137, 13, 191, 230, 66, 104, 65, 153, 45, 15, 176, 84, 187, 22]

/-- S-box lookup. -/
def subByte (b : Nat) : Nat := aesSbox.getD b 0

/-- Multiply by x in the AES field. -/
def xtime (b : Nat) : Nat := ((b * 2) ^^^ (if 128 ≤ b then 0x11B else 0)) % 256

/-- Exclusive or of byte lists. -/
def xorBytes (a b : List Nat) : List Nat := List.zipWith (fun x y => x ^^^ y) a b

/-- Next words of the AES-256 key schedule, four bytes each, newest first; `i` is the word's number. -/
def aesExpand : Nat → Nat → Nat → List (List Nat) → List (List Nat)
  | 0, _, _, ws => ws
  | n + 1, i, rcon, ws =>
    let prev := ws.getD 0 []
    let back := ws.getD 7 []
    let t :=
      if i % 8 = 0 then
        match prev with
        | [a, b, c, d] => [subByte b ^^^ rcon, subByte c, subByte d, subByte a]
        | o => o
      else if i % 8 = 4 then prev.map subByte
      else prev
    aesExpand n (i + 1) (if i % 8 = 0 then xtime rcon else rcon) (xorBytes back t :: ws)

/-- The sixty round-key words of a 32-byte key. -/
def aesKeyWords (key : List Nat) : List (List Nat) :=
  (aesExpand 52 8 1 (((List.range 8).map (fun i => (key.drop (4 * i)).take 4)).reverse)).reverse

/-- Round key `r`, sixteen bytes. -/
def roundKey (ws : List (List Nat)) (r : Nat) : List Nat := ((ws.drop (4 * r)).take 4).flatten

/-- ShiftRows on a state in column order. -/
def shiftRows (st : List Nat) : List Nat :=
  [0, 5, 10, 15, 4, 9, 14, 3, 8, 13, 2, 7, 12, 1, 6, 11].map (fun i => st.getD i 0)

/-- MixColumns of one column. -/
def mixColumn (c : List Nat) : List Nat :=
  match c with
  | [a, b, c, d] =>
    let m (x y z w : Nat) := xtime x ^^^ (xtime y ^^^ y) ^^^ z ^^^ w
    [m a b c d, m b c d a, m c d a b, m d a b c]
  | o => o

/-- MixColumns. -/
def mixColumns (st : List Nat) : List Nat :=
  ((List.range 4).map (fun i => mixColumn ((st.drop (4 * i)).take 4))).flatten

/-- One full round. -/
def aesRound (ws : List (List Nat)) (st : List Nat) (r : Nat) : List Nat :=
  xorBytes (mixColumns (shiftRows (st.map subByte))) (roundKey ws r)

/-- AES-256 encryption of one block. -/
def aesEncrypt (ws : List (List Nat)) (block : List Nat) : List Nat :=
  let st := xorBytes block (roundKey ws 0)
  let st := ((List.range 13).map (· + 1)).foldl (aesRound ws) st
  xorBytes (shiftRows (st.map subByte)) (roundKey ws 14)

/-- Doubling in GF(2¹²⁸) for the CMAC subkeys. -/
def cmacDouble (b : List Nat) : List Nat :=
  let v := beNat b
  beBytes 16 ((v * 2 % 2 ^ 128) ^^^ (if 2 ^ 127 ≤ v then 0x87 else 0))

/-- CMAC chaining over whole blocks. -/
def cmacChain (ws : List (List Nat)) : Nat → List Nat → List Nat → List Nat
  | 0, x, _ => x
  | n + 1, x, m => cmacChain ws n (aesEncrypt ws (xorBytes x (m.take 16))) (m.drop 16)

/-- AES-CMAC (NIST SP 800-38B) of a message under a 32-byte key: sixteen bytes. -/
def aesCmac (key msg : List Nat) : List Nat :=
  let ws := aesKeyWords key
  let k1 := cmacDouble (aesEncrypt ws (List.replicate 16 0))
  let n := if msg.length = 0 then 1 else (msg.length + 15) / 16
  let head := msg.take (16 * (n - 1))
  let last := msg.drop (16 * (n - 1))
  let final := if last.length = 16 then xorBytes last k1
    else xorBytes (last ++ [0x80] ++ List.replicate (15 - last.length) 0) (cmacDouble k1)
  let x := cmacChain ws (n - 1) (List.replicate 16 0) head
  aesEncrypt ws (xorBytes x final)

/-! ## GF(2⁸), polynomial 0x11D -/

/-- Multiply by x. -/
def gfX (a : Nat) : Nat := ((a * 2) ^^^ (if 128 ≤ a then 0x11D else 0)) % 256

/-- Product of field elements: eight steps over the bits of `b`. -/
def gfMulStep : Nat → Nat → Nat → Nat → Nat
  | 0, _, _, acc => acc
  | n + 1, a, b, acc => gfMulStep n (gfX a) (b / 2) (if b % 2 = 1 then acc ^^^ a else acc)

/-- Product in GF(2⁸). -/
def gfMul (a b : Nat) : Nat := gfMulStep 8 a b 0

/-- The power 2ᵏ of the generator. -/
def gfPow2 : Nat → Nat
  | 0 => 1
  | n + 1 => gfX (gfPow2 n)

/-- The inverse of a non-zero element: its 254th power. -/
def gfInv (a : Nat) : Nat := (List.range 253).foldl (fun acc _ => gfMul acc a) a

end Sys2Proof.Machine
end

