-- ==== Sys2Proof/Machine/Ldpc.lean ====
section
/-! DEFINITION. The LDPC code and its decoder (08 R307, R308), the Reed–Solomon and Pail codes (10 R382 to R385) and the
codeword's CRC (08 R289). -/

namespace Sys2Proof.Machine

/-! ## The LDPC code -/

/-- Shift of the block in row `r`, column `c` of the parity-check matrix; none: a zero block (R307). -/
def ldpcShift (r c : Nat) : Option Nat :=
  if c < 104 then (if (c + 3 * r) % 11 < 4 then some ((37 * r * c + 11 * r + 5 * c) % 320) else none)
  else if c = 104 then (if r = 0 ∨ r = 10 then some 1 else if r = 5 then some 0 else none)
  else if c - 105 = r ∨ c - 105 + 1 = r then some 0
  else none

/-- The blocks of a block row: column and shift. -/
def ldpcRow (r : Nat) : List (Nat × Nat) :=
  (List.range 115).filterMap (fun c => (ldpcShift r c).map (fun x => (c, x)))

/-- Bits of check row `q` of block row `r`. -/
def checkBits (row : List (Nat × Nat)) (q : Nat) : List Nat := row.map (fun e => 320 * e.1 + (q + e.2) % 320)

/-- The syndrome of hard decisions "bit 1 when l < 0" is zero (R308). -/
def ldpcClean (l : Array Int) : Bool :=
  (List.range 11).all (fun r =>
    let row := ldpcRow r
    (List.range 320).all (fun q => ((checkBits row q).filter (fun v => decide (l.getD v 0 < 0))).length % 2 == 0))

/-- Least, next least and the place of the least of a list of magnitudes. -/
def twoLeast (qs : List Nat) : Nat × Nat × Nat :=
  (qs.foldl (fun (a : Nat × Nat × Nat × Nat) m =>
    let (m1, m2, e1, i) := a
    if m < m1 then (m, m1, i, i + 1) else if m < m2 then (m1, m, e1, i + 1) else (m1, m2, e1, i + 1))
    (1000, 1000, 0, 0)) |> fun (m1, m2, e1, _) => (m1, m2, e1)

/-- Sign with sign(0) = +1. -/
def sgn (q : Int) : Int := if q < 0 then -1 else 1

/-- One check row of offset min-sum (R308): new values of its bits and of its messages. -/
def checkUpdate (l : Array Int) (bits : List Nat) (rr : List Int) : Array Int × List Int :=
  let qs := List.zipWith (fun v r => clampInt (-7) 7 (l.getD v 0 - r)) bits rr
  let (m1, m2, e1) := twoLeast (qs.map Int.natAbs)
  let sg := qs.foldl (fun a q => a * sgn q) 1
  let rs := qs.zipIdx.map (fun p => sgn (sg * sgn p.1) * (((if p.2 = e1 then m2 else m1) - 1 : Nat) : Int))
  let l := (bits.zip (List.zipWith (fun q r => clampInt (-63) 63 (q + r)) qs rs)).foldl (fun l p => l.setIfInBounds p.1 p.2) l
  (l, rs)

/-- One iteration: the eleven layers in order. Messages are kept by check row. -/
def ldpcIter (l : Array Int) (rr : Array (List Int)) : Array Int × Array (List Int) :=
  (List.range 11).foldl (fun a r =>
    let row := ldpcRow r
    (List.range 320).foldl (fun a q =>
      let (l', rs) := checkUpdate a.1 (checkBits row q) (a.2.getD (r * 320 + q) [])
      (l', a.2.setIfInBounds (r * 320 + q) rs)) a) (l, rr)

/-- Iterations until the syndrome is zero: iterations made, or none after the last. -/
def ldpcLoop : Nat → Nat → Array Int → Array (List Int) → Option Nat × Array Int
  | 0, _, l, _ => (none, l)
  | fuel + 1, n, l, rr =>
    let (l, rr) := ldpcIter l rr
    if ldpcClean l then (some n, l) else ldpcLoop fuel (n + 1) l rr

/-- Messages before the first iteration. -/
def ldpcZero : Array (List Int) :=
  ((List.range 11).flatMap (fun r => List.replicate 320 (List.replicate (ldpcRow r).length (0 : Int)))).toArray

/-- The decoder of R308 on channel values: iterations made (none: failure) and the hard decisions. -/
def ldpcDecode (ch : List Int) (maxIter : Nat) : Option Nat × List Nat :=
  let l := ch.toArray
  let (r, l) := if ldpcClean l then (some 0, l) else ldpcLoop maxIter 1 l ldpcZero
  (r, l.toList.map (fun v => if v < 0 then 1 else 0))

/-- Bytes of a list of bits, most significant first. -/
def packBits : List Nat → List Nat
  | a :: b :: c :: d :: e :: f :: g :: h :: rest =>
    (a * 128 + b * 64 + c * 32 + d * 16 + e * 8 + f * 4 + g * 2 + h) :: packBits rest
  | _ => []

/-- Bits of bytes, most significant first. -/
def bitsOf (bs : List Nat) : List Nat := bs.flatMap (fun b => (List.range 8).map (fun i => natBits b (7 - i) 1))

/-- The CRC of metadata bytes 60 to 63 over data bytes 0 to 4,095 and metadata bytes 0 to 59 (R289). -/
def cwCrcOk (bytes : List Nat) : Bool :=
  decide (leNat ((bytes.drop 4156).take 4) = crc32c (bytes.take 4156))

/-! ## Pail and Rind -/

/-- The 4,156 symbols of a data codeword, and of a parity codeword (10 R376). -/
def dataSyms (bytes : List Nat) : List Nat := bytes.take 4152 ++ (bytes.drop 4156).take 4
def paritySyms (bytes : List Nat) : List Nat := bytes.take 4156

/-- The 4,160 bytes a data codeword's symbols stand for: metadata bytes 56 to 59 are zero. -/
def symsToBytes (syms : List Nat) : List Nat := syms.take 4152 ++ [0, 0, 0, 0] ++ syms.drop 4152

/-- αⁿ. -/
def alpha : Nat → Nat
  | 0 => 1
  | n + 1 => gfMul 2 (alpha n)

/-- Degree of member `m` of a row of `n` data members (R383). -/
def rsDegree (n m : Nat) : Nat := n + 1 - m

/-- Coefficients A and B of x^k mod g(x) (R384). -/
def rsCoef : Nat → Nat × Nat
  | 0 => (0, 1)
  | 1 => (1, 0)
  | k + 2 => let (a, b) := rsCoef (k + 1); (gfMul 6 a ^^^ b, gfMul 8 a)

/-- The two Rind symbols of a position from its data symbols, in member order (R384). -/
def rindOf (data : List Nat) : Nat × Nat :=
  let n := data.length
  (data.zipIdx).foldl (fun r p =>
    let (a, b) := rsCoef (rsDegree n p.2)
    (r.1 ^^^ gfMul p.1 a, r.2 ^^^ gfMul p.1 b)) (0, 0)

/-- The Pail symbol of a position (R382). -/
def pailOf (data : List Nat) : Nat := data.foldl (fun a b => a ^^^ b) 0

/-- Σ cₘ α^(k eₘ) over known members: degree and symbol (R385). -/
def rsSum (k : Nat) (known : List (Nat × Nat)) : Nat :=
  known.foldl (fun a p => a ^^^ gfMul p.2 (alpha (k * p.1))) 0

/-- The symbol of degree `e` from the known ones, with at most one further erasure of degree `e2` (R385). -/
def rsErase (known : List (Nat × Nat)) (e : Nat) (e2 : Option Nat) : Nat :=
  let t1 := rsSum 1 known
  match e2 with
  | none => gfMul t1 (gfInv (alpha e))
  | some f =>
    let x1 := alpha e
    let x2 := alpha f
    gfMul (rsSum 2 known ^^^ gfMul x2 t1) (gfInv (gfMul x1 (x1 ^^^ x2)))

/-- Rebuild a member's symbols from other members' symbols, in a stripe of `n` data members. -/
def rsRebuild (n target : Nat) (parts : List (Nat × List Nat)) : List Nat :=
  let missing := (List.range (n + 2)).filter (fun m => m != target && !(parts.any (fun p => p.1 == m)))
  let other := missing.head?.map (rsDegree n)
  (List.range 4156).map (fun i => rsErase (parts.map (fun p => (rsDegree n p.1, p.2.getD i 0))) (rsDegree n target) other)

end Sys2Proof.Machine
end

