-- ==== Sys2Proof/Machine/Chan.lean ====
section
/-! DEFINITION. The arithmetic of the cell level channel (08 R284 to R306, R747): cells, page layout, pilots, thresholds,
LLR tables, histogram valleys, neighbour cancellation and erasures. -/

namespace Sys2Proof.Machine

/-! ## Cells, states and layout -/

/-- Codes of Table 08-1, by state. -/
def plcCodes : List Nat :=
  [31, 15, 14, 30, 28, 12, 4, 20, 21, 5, 7, 6, 2, 10, 8, 0]
    ++ [1, 3, 11, 9, 13, 29, 25, 27, 19, 17, 16, 24, 26, 18, 22, 23]

/-- Bit `p` of state `s`. -/
def stateBit (p s : Nat) : Nat := natBits (plcCodes.getD s 0) p 1

/-- Thresholds of a page: Table 08-2 (mode 0) and Table 08-2a. -/
def pageThresholds (mode page : Nat) : List Nat :=
  match mode, page with
  | 0, 0 => [2, 8, 11, 16, 26, 31]
  | 0, 1 => [4, 10, 14, 17, 19, 23, 25, 28]
  | 0, 2 => [12, 20, 22, 30]
  | 0, 3 => [6, 13, 15, 18, 24, 27, 29]
  | 0, 4 => [1, 3, 5, 7, 9, 21]
  | 1, 0 => [1, 5]
  | 1, 1 => [2, 4, 6]
  | 1, 2 => [3, 7]
  | 2, 0 => [1]
  | _, _ => []

/-- Column group of logical group `L` past a skip list in ascending order (R288). -/
def physGroup (skip : List Nat) (L : Nat) : Nat := skip.foldl (fun p k => if k ≤ p then p + 1 else p) L

/-- Logical group of a stream group (R287). -/
def logicalGroup (g : Nat) : Nat := if g < 288 then g else g + 1

/-- Page byte of byte `i` of codeword `c` (R287, R288). -/
def cwPageByte (skip : List Nat) (c i : Nat) : Nat :=
  let b := 4600 * c + i
  32 * physGroup skip (logicalGroup (b / 32)) + b % 32

/-- Column groups that a codeword touches: first and last. -/
def cwGroups (skip : List Nat) (c : Nat) : Nat × Nat :=
  (physGroup skip (logicalGroup (4600 * c / 32)), physGroup skip (logicalGroup ((4600 * c + 4599) / 32)))

/-- Cell of bit `b` of codeword `c` (R284, R307). -/
def cwCell (skip : List Nat) (c b : Nat) : Nat := 8 * cwPageByte skip c (b / 8) + b % 8

/-- A codeword's bytes out of a transfer of column groups from `col` on. -/
def cwExtract (skip : List Nat) (col c : Nat) (bytes : List Nat) : List Nat :=
  let a := bytes.toArray
  (List.range 4600).map (fun i => a.getD (cwPageByte skip c i - 32 * col) 0)

/-- Pilot state of cell `k` of the pilot group on wordline `w` (R290). -/
def pilotState (w k : Nat) : Nat := (k + 4 * (k / 32) * w) % 32

/-- First cell of the pilot group. -/
def pilotBase (skip : List Nat) : Nat := 256 * physGroup skip 288

/-! ## Level indices -/

/-- Level indices of a plane: one sense, or two combined (R286). -/
def levelIndex (a b : List Nat) : Array Nat :=
  if b = [] then (a.map (fun x => 4 * x + 2)).toArray
  else (List.zipWith (fun x y => 2 * (x + y) + 2) a b).toArray

/-- Position of a level index (R286). -/
def position (vbase : Int) (i : Nat) : Int := 12 * i + 16 * vbase

/-! ## Pilots and thresholds -/

/-- Mean and spread of every state. -/
structure Levels where
  mu : List Int
  sigma : List Int
deriving DecidableEq, Repr

/-- Insertion into an ascending list. -/
def insertAsc (x : Int) : List Int → List Int
  | [] => [x]
  | y :: r => if x ≤ y then x :: y :: r else y :: insertAsc x r

/-- The six middle values of eight (R295 step 2). -/
def middleSix (l : List Int) : List Int := ((l.foldr insertAsc []).drop 1).take 6

/-- The pilot estimator of R295 for one plane. -/
def pilotLevels (idx : Array Nat) (skip : List Nat) (w : Nat) (vbase : Int) (floor : Nat) : Levels :=
  let base := pilotBase skip
  let per (s : Nat) : Int × Int :=
    let cells := (List.range 256).filter (fun k => pilotState w k == s)
    let six := middleSix (cells.map (fun k => ((idx.getD (base + k) 0 : Nat) : Int)))
    let s6 := six.foldl (· + ·) 0
    let d := six.foldl (fun a i => a + ((6 * i - s6).natAbs : Int)) 0
    (2 * s6 + 16 * vbase, max (floor : Int) (roundDiv (5 * d) 12))
  let l := (List.range 32).map per
  ⟨l.map Prod.fst, l.map Prod.snd⟩

/-- Pilot threshold j, 1 to 31 (R296). -/
def pilotT (x : Levels) (j : Nat) : Int :=
  let m0 := x.mu.getD (j - 1) 0
  let m1 := x.mu.getD j 0
  let s0 := x.sigma.getD (j - 1) 1
  let s1 := x.sigma.getD j 1
  roundDiv (m0 * s1 + m1 * s0) (s0 + s1).toNat

/-- Offset j of a threshold (R296). -/
def offsetOf (t : Int) (j : Nat) : Int := clampInt (-127) 127 (roundDiv (t - 192 * j) 16)

/-- The 31 thresholds of a set of levels. -/
def thresholds (x : Levels) : List Int := (List.range 31).map (fun i => pilotT x (i + 1))

/-- The 31 offsets of a pilot report (R296, R298). -/
def reportOffsets (x : Levels) : List Int := (List.range 31).map (fun i => offsetOf (pilotT x (i + 1)) (i + 1))

/-- Pilots are valid (R297): the pilot group is not in the grown map and the means rise. -/
def pilotsValid (x : Levels) (skip grown : List Nat) : Bool :=
  !(grown.contains (physGroup skip 288))
    && (List.range 31).all (fun i => decide (x.mu.getD i 0 < x.mu.getD (i + 1) 0))

/-- Levels from the model thresholds when no plane has valid pilots (R297). -/
def modelLevels (offsets : List Int) (sigmaDef : Nat) : Levels :=
  let t (j : Nat) : Int := 192 * j + 16 * offsets.getD (j - 1) 0
  ⟨(List.range 32).map (fun s => if s = 0 then t 1 - 96 else if s = 31 then t 31 + 96 else roundDiv (t s + t (s + 1)) 2),
    List.replicate 32 (sigmaDef : Int)⟩

/-- The state of a cell at position `v` by 31 thresholds (R299). -/
def sliceState (ts : List Int) (v : Int) : Nat := (ts.filter (fun t => decide (t ≤ v))).length

/-! ## Channel values -/

/-- Hard channel value of a bit (R299). -/
def hardValue (mag bit : Nat) : Int := if bit = 0 then mag else -(mag : Int)

/-- Least of a list of Nat, with a start. -/
def leastOf (l : List Nat) : Nat := l.foldl min (2 ^ 40)

/-- Squared distance of R300 in 1/4096 nat. -/
def distance (v mu sigma : Int) : Nat :=
  let z := clampInt (-2047) 2047 (roundDiv ((v - mu) * 64) sigma.toNat)
  (z.natAbs * z.natAbs) / 2

/-- Entry `i` of the LLR table of a page (R300). -/
def llrEntry (x : Levels) (vbase : Int) (page scale i : Nat) : Int :=
  let v := position vbase i
  let e (s : Nat) := distance v (x.mu.getD s 0) (x.sigma.getD s 1)
  let ones := leastOf (((List.range 32).filter (fun s => stateBit page s == 1)).map e)
  let zeros := leastOf (((List.range 32).filter (fun s => stateBit page s == 0)).map e)
  clampInt (-7) 7 (roundDiv (((ones : Int) - zeros) * scale) 65536)

/-- The LLR table of a page. -/
def llrTable (x : Levels) (vbase : Int) (page scale : Nat) : Array Int :=
  ((List.range 512).map (llrEntry x vbase page scale)).toArray

/-- Channel values of a codeword from level indices (R300). -/
def softChannel (idx : Array Nat) (table : Array Int) (skip : List Nat) (c : Nat) : List Int :=
  (List.range 36800).map (fun b => table.getD (idx.getD (cwCell skip c b) 0) 0)

/-- Hard bits of a codeword from level indices and thresholds (R299). -/
def hardBits (idx : Array Nat) (ts : List Int) (vbase : Int) (skip : List Nat) (page c : Nat) : List Nat :=
  (List.range 36800).map (fun b => stateBit page (sliceState ts (position vbase (idx.getD (cwCell skip c b) 0))))

/-! ## Histogram valleys -/

/-- Data cells of a plane: outside the pilot group, the skip list and the erasure map (R301). -/
def dataCells (skip grown : List Nat) : List Nat :=
  ((List.range 608).filter (fun g => g != physGroup skip 288 && !(skip.contains g) && !(grown.contains g))).flatMap
    (fun g => (List.range 256).map (fun i => 256 * g + i))

/-- The histogram of level indices with bin width `w`. -/
def histogram (idx : Array Nat) (cells : List Nat) (w : Nat) : Array Nat :=
  cells.foldl (fun h c => let k := idx.getD c 0 / w; h.setIfInBounds k (h.getD k 0 + 1)) ((List.replicate (512 / w) 0).toArray)

/-- The valley between two bins (R301 step 2): least sum of three, nearest b(T), then the lower bin. -/
def valley (h : Array Nat) (a b bt : Nat) : Nat :=
  let h3 (k : Nat) := (if k = 0 then 0 else h.getD (k - 1) 0) + h.getD k 0 + h.getD (k + 1) 0
  let far (k : Nat) := if k ≤ bt then bt - k else k - bt
  ((List.range (b - a - 1)).map (fun i => a + 1 + i)).foldl (fun best k =>
    if h3 k < h3 best ∨ (h3 k = h3 best ∧ far k < far best) then k else best) (a + 1)

/-- Bin of a position (R301 step 1). -/
def binOf (vbase : Int) (w : Nat) (v : Int) : Nat := ((v - 16 * vbase).toNat) / (12 * w)

/-- Thresholds T′ of R301. -/
def valleyThresholds (x : Levels) (h : Array Nat) (vbase : Int) (w : Nat) : List Int :=
  (List.range 31).map (fun i =>
    let j := i + 1
    let a := binOf vbase w (x.mu.getD (j - 1) 0)
    let b := binOf vbase w (x.mu.getD j 0)
    if a + 2 ≤ b then 12 * (w * (valley h a b (binOf vbase w (pilotT x j)) : Nat) + w / 2 : Nat) + 16 * vbase
    else pilotT x j)

/-- States re-estimated from the cells between thresholds (R302). -/
def restate (x : Levels) (ts : List Int) (idx : Array Nat) (cells : List Nat) (vbase : Int) (floor : Nat) : Levels :=
  let vs := cells.map (fun c => position vbase (idx.getD c 0))
  let per (s : Nat) : Int × Int :=
    let mine := vs.filter (fun v => sliceState ts v == s)
    let n := mine.length
    if n < 64 then (x.mu.getD s 0, x.sigma.getD s 1)
    else
      let sum : Int := mine.foldl (· + ·) 0
      let dev : Int := mine.foldl (fun a v => a + (((n : Int) * v - sum).natAbs : Int)) 0
      (roundDiv sum n, max (floor : Int) (roundDiv (5 * dev) (4 * n * n)))
  let l := (List.range 32).map per
  ⟨l.map Prod.fst, l.map Prod.snd⟩

/-! ## Neighbour cancellation -/

/-- Neighbour group of a code on the next wordline (R303). -/
def nbrGroup (vbase : Int) (n : Nat) : Nat :=
  (clampInt 0 7 ((48 * (n : Int) + 24 + 16 * vbase).tdiv 768)).toNat

/-- The coefficients measured on the pilots (R303). -/
def nwcMeasured (idx : Array Nat) (x : Levels) (skip : List Nat) (w : Nat) (vbase : Int) : List Int :=
  let base := pilotBase skip
  (List.range 8).map (fun g =>
    let r := ((List.range 256).filter (fun k => pilotState (w + 1) k / 4 == g)).foldl
      (fun a k => a + (position vbase (idx.getD (base + k) 0) - x.mu.getD (pilotState w k) 0)) 0
    clampInt (-31) 31 (roundDiv r 384))

/-- Corrected level indices (R304). -/
def nwcCorrect (idx : Array Nat) (nbr : List Nat) (coef : List Int) (vbase : Int) : Array Nat :=
  (List.zipWith (fun (i n : Nat) => (clampInt 0 511 ((i : Int) - coef.getD (nbrGroup vbase n) 0)).toNat) idx.toList nbr).toArray

/-! ## Erasures and defects -/

/-- Groups erased at L4 among mapped groups with their hits: at most `n`, most hits first, lower group on a tie (R306). -/
def erasedGroups (mapped : List (Nat × Nat)) (n : Nat) : List Nat :=
  let ins (e : Nat × Nat) (l : List (Nat × Nat)) : List (Nat × Nat) :=
    let before := l.takeWhile (fun x => decide (e.2 < x.2) || (x.2 == e.2 && decide (x.1 < e.1)))
    before ++ e :: l.drop before.length
  ((mapped.foldr ins []).take n).map Prod.fst

/-- Channel values with the bits of erased groups at 0 (R306). -/
def eraseChannel (ch : List Int) (skip : List Nat) (c : Nat) (gone : List Nat) : List Int :=
  ch.zipIdx.map (fun p => if gone.contains (cwCell skip c p.2 / 256) then 0 else p.1)

/-- Column groups of a codeword in which at least `n` bits differ (R305). -/
def hitGroups (a b : List Nat) (skip : List Nat) (c n : Nat) : List Nat :=
  let (lo, hi) := cwGroups skip c
  let diff := ((a.zip b).zipIdx.filter (fun p => p.1.1 != p.1.2)).map (fun p => cwCell skip c p.2 / 256)
  ((List.range (hi + 1 - lo)).map (lo + ·)).filter (fun g => decide (n ≤ (diff.filter (· == g)).length))

end Sys2Proof.Machine
end

