-- ==== Sys2Proof/Machine/Fixed.lean ====
section
/-! DEFINITION. The exact functions of 09 R329: exp and ln, evaluated in fixed point with 400 fraction bits and rounded
once, half away from zero. -/

namespace Sys2Proof.Machine

/-- Fraction bits of the evaluation. -/
def fxBits : Nat := 400

/-- One in fixed point. -/
def fxOne : Int := 2 ^ 400

/-- Round a fixed-point value scaled by 2ⁿ to an integer, half away from zero. -/
def fxRound (v : Int) (n : Nat) : Int := roundDiv (v * 2 ^ n) (2 ^ fxBits)

/-- Terms of the series of exp at `x`, from the term before the `k`-th. -/
def expTerms (x : Int) : Nat → Nat → Int → Int → Int
  | 0, _, _, acc => acc
  | fuel + 1, k, term, acc =>
    let t := (term * x / fxOne) / k
    expTerms x fuel (k + 1) t (acc + t)

/-- exp of a fixed-point value, |x| below 64. -/
def fxExp (x : Int) : Int := expTerms x 420 1 fxOne fxOne

/-- Terms of the series of artanh: odd powers of `z`. -/
def atanhTerms (z2 : Int) : Nat → Nat → Int → Int → Int
  | 0, _, _, acc => acc
  | fuel + 1, k, pow, acc =>
    let p := pow * z2 / fxOne
    atanhTerms z2 fuel (k + 2) p (acc + p / k)

/-- artanh of a fixed-point value of at most 1/3. -/
def fxAtanh (z : Int) : Int := atanhTerms (z * z / fxOne) 150 3 z z

/-- ln 2. -/
def fxLn2 : Int := 2 * fxAtanh (fxOne / 3)

/-- ln (n / d) for n ≥ d > 0. -/
def fxLn (n d : Nat) : Int :=
  let k := Nat.log2 (n / d)
  let m := d * 2 ^ k
  let z := (((n : Int) - m) * fxOne) / ((n : Int) + m)
  k * fxLn2 + 2 * fxAtanh z

end Sys2Proof.Machine
end

