-- ==== Sys2Proof/Machine/BufferOps.lean ====
section
/-! DEFINITION. The Buffer Pool Manager's operations (14): allocation with fallback and waiting, release, hand-over,
reference and cancel, refusals, and the free list. -/

namespace Sys2Proof.Machine

/-- Change the BPM. -/
def updBpm (f : Bpm → Bpm) (s : State) : State := { s with bpm := f s.bpm }

/-- Change a pool. -/
def updPool (p : Nat) (f : Pool → Pool) (s : State) : State := updBpm (fun b => { b with pools := mapUpd pool0 b.pools p f }) s

/-- The pool of an allocation: the smallest whose buffers are large enough (14 R526). -/
def poolFor (size : Nat) : Nat := if size ≤ 256 then 0 else if size ≤ 4096 then 1 else if size ≤ 65536 then 2 else 3

/-- Reference-count mode (14 R540). -/
def poolRefMode (s : State) (p : Nat) : Bool :=
  flagF s (if p = 0 then F.BPM_POOL_CFG0_MODE else if p = 1 then F.BPM_POOL_CFG1_MODE
    else if p = 2 then F.BPM_POOL_CFG2_MODE else F.BPM_POOL_CFG3_MODE)

/-- POLICY: fallback rather than wait; P3 has none (14 R528). -/
def poolFallback (s : State) (p : Nat) : Bool :=
  if p = 0 then flagF s F.BPM_POOL_CFG0_POLICY else if p = 1 then flagF s F.BPM_POOL_CFG1_POLICY
  else if p = 2 then flagF s F.BPM_POOL_CFG2_POLICY else false

/-- RESERVE (14 R530). -/
def poolReserve (s : State) (p : Nat) : Nat :=
  getF s (if p = 0 then F.BPM_POOL_CFG0_RESERVE else if p = 1 then F.BPM_POOL_CFG1_RESERVE
    else if p = 2 then F.BPM_POOL_CFG2_RESERVE else F.BPM_POOL_CFG3_RESERVE)

/-- Whether a port may present an owner identity (14 Table 14-2). -/
def ownerOk (port owner : Nat) : Bool :=
  (decide (port ≤ 11) && decide (owner = port + 1)) || (decide (port = 11) && decide (0x100 ≤ owner) && decide (owner ≤ 0xFFF))

/-- Whether an owner identity exists. -/
def ownerExists (owner : Nat) : Bool := (decide (1 ≤ owner) && decide (owner ≤ 0xC)) || (decide (0x100 ≤ owner) && decide (owner ≤ 0xFFF))

/-- Count in a BPM counter (14 Table 14-10). -/
def bpmCount (p sel : Nat) (s : State) : State :=
  updBpm (fun b => { b with counters := mapUpd 0 b.counters (p * 16 + sel) (satAdd 0xFFFFFFFF · 1) }) s

/-- Answer a request with a status and no handle. -/
def bpmAnswer (st : Nat) (s : State) : State := updBpm (fun b => { b with status := st, handle := 0 }) s

/-- The counter of a refusal cause. -/
def refusalSel (cause : Nat) : Nat := if cause = 4 then 5 else if cause = 5 then 6 else if cause = 6 then 7 else 8

/-- A refused request (14 R533): counted, recorded, and the pool's source fires; nothing else changes. -/
def bpmRefuse (p handle cause owner port op : Nat) (s : State) : State :=
  let s := bpmCount p (refusalSel cause) s
  let s := updBpm (fun b => { b with
      errHandle := handle, errCause := cause, errOwner := owner, errPort := port, errOp := op }) s
  bpmAnswer cause (fire (736 + p % 4) handle s)

/-- The next Free buffer of a pool's list, and the pool without it. -/
def poolPop (p : Nat) (x : Pool) : Option (Nat × Pool) :=
  match x.freed with
  | i :: rest => some (i, { x with freed := rest })
  | [] => if x.fresh < poolCount p then some (x.fresh, { x with fresh := x.fresh + 1 }) else none

/-- Whether a pool's free list passes the link-word check of its head (14 R536). What the DRAM holds is the device's:
the command's check result is an input. -/
def allocFrom (p owner tenant : Nat) (s : State) : Option (Nat × State) :=
  match poolPop p (mapGet pool0 s.bpm.pools p) with
  | none => none
  | some (i, x) =>
    let h := handleOf p i
    let s := updBpm (fun b => { b with
        pools := mapSet pool0 b.pools p x
        bufs := mapSet buf0 b.bufs h ⟨1, owner, tenant, 1⟩
        status := 0, handle := h }) s
    some (h, bpmCount p 0 s)

/-- A normal allocation from a pool (14 R528): granted, passed to the next larger pool, or queued. `fuel` bounds the
fallback. -/
def allocNormal (p port owner tenant : Nat) (s : State) : Nat → State
  | 0 => bpmAnswer 1 s
  | fuel + 1 =>
    match allocFrom p owner tenant s with
    | some (_, s) => s
    | none =>
      if poolFallback s p then allocNormal (p + 1) port owner tenant (bpmCount p 2 s) fuel
      else if (mapGet pool0 s.bpm.pools p).waiters.length < 64 then
        bpmAnswer 2 (bpmCount p 3 (updPool p (fun x => { x with waiters := x.waiters ++ [⟨port, owner, tenant⟩] }) s))
      else bpmAnswer 3 (bpmCount p 4 s)

/-- An allocate request (14 R525 to R530). -/
def bpmAllocate (port owner tenant size : Nat) (opp : Bool) (s : State) : State :=
  let p := poolFor size
  if ownerOk port owner = false ∨ size = 0 ∨ 1048576 < size then bpmRefuse p 0 7 owner port 0 s
  else if opp then
    if poolFree s p ≤ poolReserve s p then bpmAnswer 1 (bpmCount p 1 s)
    else
      match allocFrom p owner tenant s with
      | some (_, s) => s
      | none => bpmAnswer 1 (bpmCount p 1 s)
  else allocNormal p port owner tenant s 4

/-- Free a buffer (14 R528, R531): granted at once to the oldest waiter, or pushed onto the free list. -/
def freeBuffer (h : Nat) (s : State) : State :=
  let p := handlePool h
  match (mapGet pool0 s.bpm.pools p).waiters with
  | w :: rest =>
    let s := updPool p (fun x => { x with waiters := rest }) s
    bpmCount p 0 (updBpm (fun b => { b with bufs := mapSet buf0 b.bufs h ⟨1, w.owner, w.tenant, 1⟩ }) s)
  | [] =>
    let s := updPool p (fun x => { x with freed := handleIndex h :: x.freed }) s
    updBpm (fun b => { b with bufs := mapDel b.bufs h }) s

/-- The check common to requests that name a buffer: RANGE, then RETIRED. -/
def handleCheck (s : State) (port owner h : Nat) : Option Nat :=
  if ownerOk port owner = false ∨ handleValid h = false then some 7
  else if (mapGet buf0 s.bpm.bufs h).st = 2 then some 8
  else none

/-- A release request (14 R531, R532). -/
def bpmRelease (port owner h : Nat) (s : State) : State :=
  let p := handlePool h % 4
  match handleCheck s port owner h with
  | some c => bpmRefuse p h c owner port 1 s
  | none =>
    let b := mapGet buf0 s.bpm.bufs h
    if poolRefMode s p then
      if b.st = 0 then bpmRefuse p h 6 owner port 1 s
      else if b.refs ≤ 1 then bpmAnswer 0 (freeBuffer h s)
      else bpmAnswer 0 (updBpm (fun x => { x with bufs := mapSet buf0 x.bufs h { b with refs := b.refs - 1 } }) s)
    else if b.st = 0 then bpmRefuse p h 4 owner port 1 s
    else if b.owner ≠ owner then bpmRefuse p h 5 owner port 1 s
    else bpmAnswer 0 (freeBuffer h s)

/-- A hand-over request (14 R531): owner mode only, from the current OWNER, to an owner that exists. -/
def bpmHandOver (port owner h new : Nat) (s : State) : State :=
  let p := handlePool h % 4
  match handleCheck s port owner h with
  | some c => bpmRefuse p h c owner port 2 s
  | none =>
    let b := mapGet buf0 s.bpm.bufs h
    if poolRefMode s p ∨ ownerExists new = false then bpmRefuse p h 7 owner port 2 s
    else if b.st = 0 ∨ b.owner ≠ owner then bpmRefuse p h 5 owner port 2 s
    else bpmAnswer 0 (updBpm (fun x => { x with bufs := mapSet buf0 x.bufs h { b with owner := new } }) s)

/-- A reference request (14 R532). -/
def bpmReference (port owner h : Nat) (s : State) : State :=
  let p := handlePool h % 4
  match handleCheck s port owner h with
  | some c => bpmRefuse p h c owner port 3 s
  | none =>
    let b := mapGet buf0 s.bpm.bufs h
    if poolRefMode s p = false then bpmRefuse p h 7 owner port 3 s
    else if b.st = 0 then bpmRefuse p h 6 owner port 3 s
    else if b.refs = 1023 then bpmRefuse p h 9 owner port 3 s
    else bpmAnswer 0 (updBpm (fun x => { x with bufs := mapSet buf0 x.bufs h { b with refs := b.refs + 1 } }) s)

/-- Remove the first waiter of an owner. -/
def dropWaiter (owner : Nat) (l : List Waiter) : List Waiter :=
  match l.findIdx? (fun w => w.owner == owner) with
  | some i => l.eraseIdx i
  | none => l

/-- A cancel request (14 R529): the oldest waiting allocation of the owner leaves every queue in which one stands. -/
def bpmCancel (owner : Nat) (s : State) : State :=
  let stands (p : Nat) := (mapGet pool0 s.bpm.pools p).waiters.any (fun w => w.owner == owner)
  let ps := (List.range 4).filter stands
  let s' := ps.foldl (fun s p => bpmCount p 11 (updPool p (fun x => { x with waiters := dropWaiter owner x.waiters }) s)) s
  bpmAnswer (if ps = [] then 0 else 10) s'

/-- Retire a buffer (14 R534, R537): its source fires. -/
def retireBuffer (h : Nat) (s : State) : State :=
  let s := updBpm (fun b => { b with bufs := mapSet buf0 b.bufs h ⟨2, 0, 0x3FF, 0⟩ }) s
  fire 744 h (bpmCount (handlePool h % 4) 9 s)

/-- Allocate for a block and give the handle granted, if any. -/
def takeBuffer (port tenant size : Nat) (s : State) : Option Nat × State :=
  let s := bpmAllocate port (port + 1) tenant size false s
  (if s.bpm.status = 0 then some s.bpm.handle else none, s)

/-- Reinitialise every pool (14 R538): every buffer Free. -/
def bpmInit (s : State) : State := updBpm (fun b => { b with pools := [], bufs := [] }) s

/-- The free-list check fails at a pop (14 R536): the rest of the list is discarded and rebuilt by scanning the bitmap in
ascending order. -/
def startRebuild (p : Nat) (s : State) : State :=
  let free := (List.range (mapGet pool0 s.bpm.pools p).fresh).filter (fun i => (mapGet buf0 s.bpm.bufs (handleOf p i)).st = 0)
  bpmCount p 10 (updPool p (fun x => { x with freed := free, rebuilding := true }) s)

end Sys2Proof.Machine
end

