-- ==== Sys2Proof/Machine/Cross.lean ====
section
/-! DEFINITION. Effects that one block has on another (16 Table 16-10, 01 Table 01-5 and their like). -/

namespace Sys2Proof.Machine

/-- The flash links that are Up run a fast retrain from stored results when their clock moves (16 R587, R591). -/
def flcRetrainAll (s : State) : State :=
  { s with flc := { s.flc with links := mapMapVals link0 (fun _ l => if l.st = 3 then { l with st := 4, lock := false } else l) s.flc.links } }

end Sys2Proof.Machine
end

