-- ==== Sys2Proof/Machine/MediaOps.lean ====
section
/-! DEFINITION. Changes of zones, stripes, die-blocks, dies and links; zone arithmetic (06 R195); issuing journal records (12
R460, R464). -/

namespace Sys2Proof.Machine

/-! ## Access -/

def updTabs (f : Tables → Tables) (s : State) : State := { s with tabs := f s.tabs }
def updNs (n : Nat) (f : Ns → Ns) (s : State) : State := updTabs (fun t => { t with nss := mapUpd ns0 t.nss n f }) s
def updZone (z : Nat) (f : Zone → Zone) (s : State) : State := updTabs (fun t => { t with zones := mapUpd zone0 t.zones z f }) s
def updStripe (k : Nat) (f : Stripe → Stripe) (s : State) : State :=
  updTabs (fun t => { t with stripes := mapUpd stripe0 t.stripes k f }) s
def updBlock (r : Nat) (f : Block → Block) (s : State) : State :=
  updTabs (fun t => { t with blocks := mapUpd block0 t.blocks r f }) s
def updFlc (f : Flc → Flc) (s : State) : State := { s with flc := f s.flc }
def updDie (d : Nat) (f : Die → Die) (s : State) : State := updFlc (fun x => { x with dies := mapUpd die0 x.dies d f }) s
def updLink (k : Nat) (f : Link → Link) (s : State) : State := updFlc (fun x => { x with links := mapUpd link0 x.links k f }) s
def updClc (f : Clc → Clc) (s : State) : State := { s with clc := f s.clc }
def updRcu (f : Rcu → Rcu) (s : State) : State := { s with rcu := f s.rcu }
def updWpe (f : Wpe → Wpe) (s : State) : State := { s with wpe := f s.wpe }
def updMme (f : Mme → Mme) (s : State) : State := { s with mme := f s.mme }
def updJnl (f : Jnl → Jnl) (s : State) : State := { s with jnl := f s.jnl }
def updTask (k : Nat) (f : Task → Task) (s : State) : State :=
  { s with qe := { s.qe with tasks := mapUpd task0 s.qe.tasks k f } }

/-! ## Names -/

/-- Place of a unit in its zone stripe (06 R195): member, row, and slot k within the die wordline. -/
structure Spot where
  member : Nat
  row : Nat
  k : Nat
deriving DecidableEq, Repr

/-- The zone arithmetic of 06 R195. -/
def zoneSpot (off : Nat) : Spot := ⟨off % 50, off / 50 / 80, off / 50 % 80⟩

/-- Page, plane and codeword of a slot within a wordline (06 R195). -/
def slotPage (k : Nat) : Nat := k / 16
def slotPlane (k : Nat) : Nat := k / 4 % 4
def slotCw (k : Nat) : Nat := k % 4

/-! ## Journal records -/

/-- Issue a record (12 R460): it takes the next JSN and counts into the journal's volume. -/
def issue (typ len : Nat) (words : List Nat) (patches : List Patch) (after : After) (s : State) : State :=
  updJnl (fun j => { j with
    buffer := j.buffer ++ [⟨typ, len :: words, patches, after⟩]
    nextJsn := j.nextJsn + 1
    volume := j.volume + len }) s

/-- Records issued and not accepted. -/
def pendingRecs (s : State) : List Rec := s.jnl.pages.flatMap JPage.recs ++ s.jnl.buffer

/-- A unit REMAP out of a stripe is not yet accepted (12 Table 12-4). -/
def remapPending (s : State) (k : Nat) : Bool :=
  (pendingRecs s).any (fun r => r.typ == 0x0B && r.words.getD 1 1 == 0 && r.words.getD 5 0 == k)

/-- The JSN of the record issued last. -/
def lastJsn (s : State) : Nat := s.jnl.nextJsn - 1

/-- Code of a zone state in Report Zones and ZONE records (06 Table 06-2). -/
def zoneCode (z : ZoneSt) : Nat :=
  match z with
  | .empty => 1 | .implicit => 2 | .explicit => 3 | .closed => 4 | .readOnly => 0xD | .full => 0xE | .offline => 0xF

/-- ZONE record of a zone as it now stands (12 Table 12-3): cause 0 a command, 1 the controller. -/
def issueZone (zk cause stamp : Nat) (after : After) (s : State) : State :=
  let z := getZone s zk
  issue 0x03 40 [zoneNs zk, zoneCode z.st, cause, zoneNum zk, stamp, z.wp, z.dataEnd, z.zcap, z.zgen] [.zone zk z] after s

/-- BIND record of a stripe (12 Table 12-3), with the block entries of its members. -/
def issueBind (k : Nat) (s : State) : State :=
  let x := getStripe s k
  let bind : List Patch := match x.zone with
    | some zk => let z := getZone s zk; [.bind zk z.stripe z.target z.rebase]
    | none => []
  issue 0x04 248 [k, x.zone.getD 0xFFFFFFFF, x.members.length]
    (bind ++ .stripe k x :: x.members.map (fun r => .block r (getBlock s r))) .nothing s

/-- MEMBER record (12 Table 12-3). -/
def issueMember (k member cause old new : Nat) (s : State) : State :=
  issue 0x05 24 [k, member, cause, old, new]
    ([.stripe k (getStripe s k), .block old (getBlock s old)] ++ (if new = 0xFFFFFFFF then [] else [.block new (getBlock s new)]))
    .nothing s

/-- RELEASE record of a die-block (12 Table 12-3): it becomes Released; one on a lost die stays Lost. -/
def issueRelease (r : Nat) (s : State) : State :=
  let b := getBlock s r
  if b.st = .retired ∨ b.st = .lost then s
  else
    let s := updBlock r (fun b => { b with st := .released, stripe := none }) s
    issue 0x0D 16 [r, b.owner] [.block r (getBlock s r)] .nothing s

/-- RETIRE record (11 R435): the die-block is never used again; source 640 fires with the cause. -/
def retireBlock (r cause : Nat) (s : State) : State :=
  if (getBlock s r).st = .retired then s
  else
    let s := updBlock r (fun b => { b with st := .retired, stage := 0 }) s
    fire 640 cause (issue 0x10 16 [r, cause] [.block r (getBlock s r)] .nothing s)

/-- The lowest stripe index not in use in a range (12 R464). -/
def freeStripe (s : State) (lo : Nat) : Nat → Nat
  | 0 => lo
  | fuel + 1 => if (getStripe s lo).live then freeStripe s (lo + 1) fuel else lo

/-- A waiting operation that programs a die-block. -/
def programsBlock (block : Nat) (o : DieOp) : Bool :=
  o.block == block && (o.kind == .foggy || o.kind == .fine || o.kind == .one)

/-- Programs of a die-block not yet sent are dropped, and its held wordlines are forgotten (10 R403). -/
def dropPrograms (r : Nat) (s : State) : State :=
  updDie (refDie r) (fun x => { x with
    waiting := x.waiting.filter (fun o => !programsBlock (refBlock r) o)
    held := x.held.filter (fun h => h.1 != refBlock r) }) s

/-- Drop a row's references to its Vat buffers (10 R380). -/
def dropVat (key : Nat) (s : State) : State :=
  let s := (mapGet [] s.wpe.rowBufs key).foldl (fun s h => bpmRelease 2 3 h s) s
  updWpe (fun w => { w with rowBufs := mapDel w.rowBufs key, rows := mapMapVals row0 (fun k r => if k = key then { r with vat := false } else r) w.rows }) s

/-- Forget a stripe, its rows in progress and their Vat data (10 R380, R403). -/
def forgetStripe (k : Nat) (s : State) : State :=
  let s := ((s.wpe.rowBufs.map Prod.fst).filter (fun key => key / 256 == k)).foldl (fun s key => dropVat key s) s
  let s := { s with
    wpe := { s.wpe with
      setAside := s.wpe.setAside.filter (fun e => e.1 / 256 != k)
      rows := s.wpe.rows.filter (fun e => e.1 / 256 != k) }
    mme := { s.mme with
      queue := s.mme.queue.filter (fun q => q.stripe != k)
      current := if s.mme.current = some k then none else s.mme.current } }
  updTabs (fun t => { t with stripes := mapDel t.stripes k }) s

/-- Die-blocks that a stripe still holds. -/
def heldMembers (s : State) (k : Nat) : List Nat := (getStripe s k).members.filter (fun r => (getBlock s r).stripe == some k)

/-- Release every die-block that a stripe still holds, each with its record, and forget it. -/
def releaseStripe (k : Nat) (s : State) : State :=
  forgetStripe k ((heldMembers s k).foldl (fun s r => dropPrograms r (issueRelease r s)) s)

end Sys2Proof.Machine
end

