-- ==== Sys2Proof/Machine/ZoneOps.lean ====
section
/-! DEFINITION. Zone operations (06): choosing die-blocks, reservations, bindings, limits, transitions, member loss, the
shrink, replenishment and its flags. -/

namespace Sys2Proof.Machine

/-! ## Reports to the hosts -/

/-- Raise an event on the controllers a namespace is attached to. -/
def aenNs (ns typ info : Nat) (s : State) : State :=
  let n := getNs s ns
  raiseAenWhere (fun k _ => k / 0x100 == n.tenant && n.attached.contains (k % 0x100)) typ info s

/-- Change the controllers a namespace is attached to. -/
def updNsCtls (ns : Nat) (f : Ctl → Ctl) (s : State) : State :=
  let n := getNs s ns
  let cs := mapMapVals ctl0 (fun k c => if k / 0x100 = n.tenant ∧ n.attached.contains (k % 0x100) then f c else c) s.qe.ctls
  { s with qe := { s.qe with ctls := cs } }

/-- A zone changed by the controller: Zone Descriptor Changed and the Changed Zone List (06 R199). -/
def zoneChanged (zk : Nat) (s : State) : State :=
  let id := unitKey (zoneNs zk) (zslba zk)
  let s := updNsCtls (zoneNs zk) (fun c => { c with
      changedZones := if c.changedZones.contains id then c.changedZones else c.changedZones ++ [id] }) s
  aenNs (zoneNs zk) 2 0xEF s

/-- Namespace Attribute Changed, with the Changed Namespace List (05 Table 05-10). -/
def nsChanged (ns : Nat) (s : State) : State :=
  let id := (getNs s ns).nsid
  let s := updNsCtls ns (fun c => { c with
      changedNs := if c.changedNs.contains id then c.changedNs else c.changedNs ++ [id] }) s
  aenNs ns 2 0x00 s

/-! ## Choosing die-blocks -/

/-- Whether a die position is the tenant's to draw from (04 R142). -/
def posOwn (s : State) (t d : Nat) : Bool :=
  let m := getF s (F.TIU_TEN_DIESET_MASK t)
  if m ≠ 0 then decide (natBits m (d % 32) 1 = 1)
  else (List.range 513).all (fun u => decide (natBits (getF s (F.TIU_TEN_DIESET_MASK u)) (d % 32) 1 = 0))

/-- A position in no mask (04 R144). -/
def posFree (s : State) (d : Nat) : Bool :=
  (List.range 513).all (fun u => decide (natBits (getF s (F.TIU_TEN_DIESET_MASK u)) (d % 32) 1 = 0))

/-- Free die-blocks of a mode on trained links outside a list, at positions that qualify. -/
def candidates (s : State) (mode : Nat) (links : List Nat) (pos : Nat → Bool) : List Nat :=
  (s.tabs.blocks.filter (fun e => e.2.st == .free && e.2.mode == mode && pos (refDie e.1)
    && linkTrained s (refLink e.1) && !(links.contains (refLink e.1))
    && !dieIsLost s (refDie e.1) && !(getDie s (refDie e.1)).draining)).map Prod.fst

/-- The home of a zone's recall group, as a mask of link groups; none when its hint names none (06 R217, R218). -/
def homeOf (s : State) (zk : Nat) : Option Nat :=
  let h := (getZone s zk).hint
  if natBits h 12 2 = 1 ∧ natBits h 0 12 ≠ 0 then
    let v := mapGet 0 s.tabs.homes (natBits h 0 12)
    if v = 0 then none else some (v / 2)
  else none

/-- A die-block for a zone off the listed links: in its home when that offers one, in the tenant's positions first and
by spill afterwards when `spill` allows (06 R222, 04 R142, R144). The flag tells a spill. -/
def chooseBlock (s : State) (zk t : Nat) (links : List Nat) (spill : Bool) : Option (Nat × Bool) :=
  let own := candidates s 0 links (posOwn s t)
  let inHome := match homeOf s zk with
    | some m => own.filter (fun r => natBits m (refLink r / 8) 1 = 1)
    | none => []
  match pickLeast s inHome with
  | some r => some (r, false)
  | none =>
    match pickLeast s own with
    | some r => some (r, false)
    | none => if spill ∧ getF s (F.TIU_TEN_DIESET_MASK t) ≠ 0 then (pickLeast s (candidates s 0 links (posFree s))).map (fun r => (r, true))
      else none

/-- Set DIESET_SPILL of a tenant and fire source 195 (04 R144). -/
def setSpill (t : Nat) (s : State) : State :=
  if (mapGet tenant0 s.qe.tenants t).spill then s
  else fire 195 t { s with qe := { s.qe with tenants := mapUpd tenant0 s.qe.tenants t (fun x => { x with spill := true }) } }

/-! ## Reservations and bindings -/

/-- Take `n` reserved die-blocks for a zone on distinct links (06 R206). -/
def takeReserve (zk t : Nat) (s : State) : Nat → Option State
  | 0 => some s
  | n + 1 =>
    let z := getZone s zk
    let links := z.reserve.map refLink ++ (match z.stripe with
      | some k => (getStripe s k).members.map refLink
      | none => [])
    match chooseBlock s zk t links true with
    | none => none
    | some (r, sp) =>
      let s := if sp then setSpill t s else s
      let s := updBlock r (fun b => { b with st := .reserved, owner := t }) s
      takeReserve zk t (updZone zk (fun z => { z with reserve := z.reserve ++ [r] }) s) n

/-- Return a zone's reservation to the free pool (06 R206). -/
def dropReserve (zk : Nat) (s : State) : State :=
  let s := (getZone s zk).reserve.foldl
    (fun s r => updBlock r (fun b => if b.st = .reserved then { b with st := .free } else b) s) s
  updZone zk (fun z => { z with reserve := [] }) s

/-- The ready-list entry of 06 R219 for a zone, with whether the hint was missed. -/
def readyEntry (s : State) (zk : Nat) : Option (List Nat × Bool) :=
  let h := (getZone s zk).hint
  let fits (l : List Nat) : Bool := decide (l.length = 52)
  let general (miss : Bool) := (s.mme.ready.find? fits).map (fun l => (l, miss))
  match natBits h 12 2 with
  | 1 =>
    match homeOf s zk with
    | some m =>
      let l := mapGet [] s.mme.homeReady (natBits h 0 12) ++ s.mme.ready
      match l.find? (fun e => fits e && e.all (fun r => natBits m (refLink r / 8) 1 = 1)) with
      | some e => some (e, false)
      | none => general true
    | none => general true
  | 2 =>
    match s.mme.ready.find? (fun e => fits e && e.all (fun r => groupSt s (refLink r / 8) == .awake)) with
    | some e => some (e, false)
    | none => general true
  | _ => general false

/-- Remove an entry from the ready lists. -/
def dropEntry (e : List Nat) (s : State) : State :=
  updMme (fun m => { m with
    ready := m.ready.erase e
    homeReady := mapMapVals [] (fun _ l => l.erase e) m.homeReady }) s

/-- A ready-list entry becomes a stripe of a zone (06 R196): its die-blocks are Bound. -/
def takeStripe (zk : Nat) (e : List Nat) (s : State) : Nat × State :=
  let t := (getNs s (zoneNs zk)).tenant
  let s := dropEntry e s
  let k := freeStripe s 0 262144
  let s := updStripe k (fun _ => { stripe0 with live := true, zone := some zk, tenant := t, members := e }) s
  (k, e.foldl (fun s r => updBlock r (fun b => { b with st := .bound, owner := t, stripe := some k }) s) s)

/-- Bind a zone to a ready-list entry (06 R196): a stripe of 52 members, with its BIND record. -/
def bindZone (zk : Nat) (s : State) : Option State :=
  match readyEntry s zk with
  | none => none
  | some (e, miss) =>
    let (k, s) := takeStripe zk e s
    let s := if miss then bumpF F.ZM_HINT_MISS_COUNT 1 s else s
    some (issueBind k (updZone zk (fun z => { z with stripe := some k }) s))

/-- The stripes a zone binds: its stripe and its target. -/
def boundStripes (s : State) (zk : Nat) : List Nat := (getZone s zk).stripe.toList ++ (getZone s zk).target.toList

/-- A zone gives up its binding and reservation and takes new contents with a ZONE record; its stripes are released behind
that record (12 R466, Table 12-8). -/
def clearZone (zk cause stamp : Nat) (after : After) (z : Zone) (s : State) : State :=
  let ks := boundStripes s zk
  let s := updZone zk (fun _ => { z with stripe := none, target := none, rebase := false, reserve := [] }) (dropReserve zk s)
  ks.foldl (fun s k => releaseStripe k s) (issueZone zk cause stamp after s)

/-! ## Limits and admission -/

/-- Tasks admitted to a zone and not committed (05 R177). -/
def zonePending (s : State) (zk : Nat) : List Nat :=
  mapKeysWhere (fun _ t => !t.admin && t.nlb != 0 && (t.cap.opc == 0x01 || t.cap.opc == 0x08 || t.cap.opc == 0x7D)
    && (t.st == .admitted || t.st == .receiving || t.st == .executing) && t.order != 0
    && !(getNs s t.ns).conv && zoneOfLba t.ns t.slba == zk) s.qe.tasks

/-- The zone that an implicit close takes (06 R205): the tenant's ZSIO zone without uncommitted commands whose last
admission is oldest. -/
def implicitCloseTarget (s : State) (t : Nat) : Option Nat :=
  let l := (s.tabs.zones.filter (fun e => e.2.st == .implicit && (getNs s (zoneNs e.1)).tenant == t
    && (zonePending s e.1).isEmpty)).map (fun e => (e.1, e.2.lastOrder))
  (l.foldl (fun m x => match m with
    | none => some x
    | some y => if x.2 < y.2 then some x else some y) none).map Prod.fst

/-- Close a zone (06 Table 06-3) with its ZONE record: Closed, or Empty when nothing was written and nothing is admitted. -/
def closeZone (zk stamp : Nat) (s : State) : State :=
  let z := getZone s zk
  if z.wp = 0 ∧ (zonePending s zk).isEmpty then
    clearZone zk 0 stamp .nothing { z with st := .empty, adm := 0, dataEnd := 0, shrinking := false } s
  else
    let ks := boundStripes s zk
    let aside := s.wpe.setAside.filter (fun e => !(ks.contains (e.1 / 256)))
    issueZone zk 0 stamp .nothing (updWpe (fun w => { w with setAside := aside }) (updZone zk (fun z => { z with st := .closed }) s))

/-- Open-limit check of 06 R204 row 2, after an implicit close (R205) when `imp`. -/
def openLimit (t : Nat) (imp : Bool) (s : State) : Option State :=
  let tooMany (s : State) := decide (getF s (F.TIU_TEN_ZONES_OPEN_MAX t) ≤ openOf s t) || decide (2048 ≤ openZones s)
  if tooMany s = false then some s
  else if imp then
    match implicitCloseTarget s t with
    | none => none
    | some zk =>
      let s := closeZone zk 0 s
      if tooMany s then none else some s
  else none

/-- A refresh that has not been remapped is abandoned (11 R433): its target's die-blocks are released. -/
def abandonRefresh (zk : Nat) (s : State) : State :=
  let z := getZone s zk
  match z.target with
  | some t =>
    if z.rebase then s
    else updMme (fun m => { m with current := none }) (updZone zk (fun z => { z with target := none }) (releaseStripe t s))
  | none => s

/-- Why an open fails: SCT, SC, DNR. -/
abbrev OpenErr := Nat × Nat × Bool

/-- Open a zone (06 R204): from Empty the active limit, the open limit and the reservation; from Closed the open limit. -/
def openZone (zk : Nat) (explicit : Bool) (s : State) : OpenErr ⊕ State :=
  let z := getZone s zk
  let t := (getNs s (zoneNs zk)).tenant
  let st : ZoneSt := if explicit then .explicit else .implicit
  match z.st with
  | .empty =>
    if getF s (F.TIU_TEN_ZONES_ACTIVE_MAX t) ≤ activeOf s t ∨ 16384 ≤ activeZones s then .inl (1, 0xBD, true)
    else
      match openLimit t (!explicit) s with
      | none => .inl (1, 0xBE, true)
      | some s =>
        if spare s < getF s F.ZM_RSV_CFG_PER_ZONE then .inl (1, 0xC0, false)
        else
          match takeReserve zk t s (getF s F.ZM_RSV_CFG_PER_ZONE) with
          | none => .inl (1, 0xC0, false)
          | some s => .inr (updZone zk (fun z => { z with st := st }) s)
  | .closed =>
    match openLimit t (!explicit) s with
    | none => .inl (1, 0xBE, true)
    | some s => .inr (abandonRefresh zk (updZone zk (fun z => { z with st := st }) s))
  | _ => .inr (updZone zk (fun z => { z with st := if explicit then .explicit else z.st }) s)

/-- Admission of a zoned write (06 R200 Table 06-4, R196): the status of the first row that matches, or the state in
which the zone is open and bound. `pos` is the command's offset, none for a Zone Append. -/
def admitZoned (zk : Nat) (pos : Option Nat) (nlb : Nat) (s : State) : OpenErr ⊕ State :=
  let z := getZone s zk
  if z.st = .offline then .inl (1, 0xBB, true)
  else if z.st = .readOnly then .inl (1, 0xBA, true)
  else if z.st = .full ∨ z.shrinking then .inl (1, 0xB9, true)
  else if pos.isSome ∧ pos ≠ some z.adm then .inl (1, 0xBC, true)
  else if z.zcap < z.adm + nlb then .inl (1, 0xB8, true)
  else
    let opened := if z.isOpen then .inr s else openZone zk false s
    match opened with
    | .inl e => .inl e
    | .inr s' =>
      let s' :=
        if (getZone s' zk).stripe.isSome then some s' else bindZone zk s'
      match s' with
      | none => .inl (1, 0xC0, false)
      | some s' =>
        let s' := if z.isOpen then s' else issueZone zk 0 0 .nothing s'
        .inr s'

/-! ## Leaving the active states -/

/-- The zone becomes Full or Read Only: data end frozen, reservation released (06 Table 06-3). -/
def sealZone (zk : Nat) (st : ZoneSt) (zfc : Bool) (s : State) : State :=
  let s := dropReserve zk s
  updZone zk (fun z => { z with
    st := st, dataEnd := z.wp, zfc := z.zfc || zfc, shrinking := false }) s

/-- Reset a zone (06 Table 06-3): the binding is released, ZGEN counts, and every unit stamped below the Reset is
discarded when its record is accepted. -/
def resetZone (zk stamp : Nat) (s : State) : State :=
  let z := getZone s zk
  clearZone zk 0 stamp (.dropUnits (zoneNs zk) (zslba zk) zoneLbas stamp)
    { zone0 with zgen := z.zgen + 1, hint := z.hint, lastOrder := z.lastOrder } s

/-- Finish a zone (06 Table 06-3). -/
def finishZone (zk stamp : Nat) (s : State) : State := issueZone zk 0 stamp .nothing (sealZone zk .full false s)

/-- A controller transition to Offline (06 R199, R212). -/
def offlineByController (zk : Nat) (s : State) : State :=
  let s := updZone zk (fun z => { z with st := .offline }) s
  let s := fire 225 (zoneNs zk) (bumpF F.ZM_EVENT_CNT_AUTO_OFFLINE 1 (issueZone zk 1 0 .nothing s))
  nsChanged (zoneNs zk) (zoneChanged zk s)

/-- The Empty zone that R212 takes: the highest-numbered of the namespace with the most Empty zones. -/
def replenishTarget (s : State) : Option Nat :=
  let l := (zonedNss s).map (fun n => (n, zonesIn s n (fun z => z.st == .empty)))
  let best := l.foldl (fun m x => match m with
    | none => if x.2 = 0 then none else some x
    | some y => if y.2 < x.2 then some x else some y) none
  match best with
  | none => none
  | some (n, _) =>
    let size := (getNs s n).size
    ((List.range size).map (fun i => zoneKey n (size - 1 - i))).find? (fun zk => (getZone s zk).st == .empty)

/-- One transition of R212 when S is below LOW_MARK. -/
def replenish (s : State) : State :=
  if spare s < getF s F.ZM_RSV_CFG_LOW_MARK then
    match replenishTarget s with
    | some zk => offlineByController zk s
    | none => s
  else s

/-! ## Flags of ZM_STATUS -/

/-- The conventional write protection after a change of S or of the trained links (06 R215). -/
def convWpNext (s : State) : Bool :=
  let low := getF s F.ZM_RSV_CFG_LOW_MARK
  if s.mme.convWp then !(decide ((2 * low : Int) ≤ spare s) && decide (7 ≤ trainedLinks s))
  else s.top.readsOk && ((decide (spare s ≤ low) && decide (emptyZones s = 0)) || decide (trainedLinks s < 7))

/-- DIESET_SPILL of a tenant clears when no die-block of it lies outside its positions any more (04 R144). -/
def spillSettle (s : State) : State :=
  (mapKeysWhere (fun _ x => x.spill) s.qe.tenants).foldl (fun s t =>
    if s.tabs.blocks.any (fun e => (e.2.st == .bound || e.2.st == .reserved) && e.2.owner == t && !(posOwn s t (refDie e.1))) then s
    else { s with qe := { s.qe with tenants := mapUpd tenant0 s.qe.tenants t (fun x => { x with spill := false }) } }) s

/-- After a change: the sources of RESERVE_LOW, OPEN_REFUSING and CONV_WP fire when they set, and a change of CONV_WP
raises Namespace Attribute Changed on the conventional namespaces. `old` is the state before the change. -/
def zmSettle (old s : State) : State :=
  let s := if reserveLow s ∧ reserveLow old = false then fire 228 0 s else s
  let s := spillSettle (if openRefusing s ∧ openRefusing old = false then fire 226 0 s else s)
  let w := convWpNext s
  if w = s.mme.convWp then s
  else
    let s := updMme (fun m => { m with convWp := w }) s
    let s := if w then fire 227 0 s else s
    (mapKeysWhere (fun _ n => n.valid && n.conv) s.tabs.nss).foldl (fun s n => nsChanged n s) s

/-! ## Members -/

/-- Free the Vat buffers of a slot's write. -/
def freeVat (slot : Nat) (s : State) : State :=
  let s := (getTask s slot).bufs.foldl (fun s h => bpmRelease 2 3 h s) s
  updTask slot (fun t => { t with bufs := [], units := [] }) s

/-- Complete every admitted, uncommitted write of a zone with a status (06 R210). -/
def failPending (zk sct sc : Nat) (s : State) : State :=
  (zonePending s zk).foldl (fun s k => finishErr k sct sc (freeVat k s)) (updZone zk (fun z => { z with adm := z.wp }) s)

/-- The shrink of 06 R209: ZCAP at the first multiple of 20,480 at or above the admission pointer, admission closed; with
nothing admitted the zone returns to Empty. -/
def shrinkZone (zk : Nat) (s : State) : State :=
  let z := getZone s zk
  if z.adm = 0 then
    zoneChanged zk (clearZone zk 1 0 .nothing { zone0 with zgen := z.zgen, hint := z.hint } s)
  else
    let s := updZone zk (fun z => { z with zcap := (z.adm + 20479) / 20480 * 20480, shrinking := true }) s
    fire 224 (zoneNs zk) (bumpF F.ZM_EVENT_CNT_SHRINK 1 (issueZone zk 1 0 .nothing s))

/-- A shrunk zone with nothing uncommitted becomes Full with ZFC = 1 (06 R209 step 3). -/
def shrinkDone (zk : Nat) (s : State) : State :=
  if (getZone s zk).shrinking ∧ (zonePending s zk).isEmpty then
    zoneChanged zk (issueZone zk 1 0 .nothing (sealZone zk .full true s))
  else s

/-- A second loss without replacement: Read Only at once (06 R210). -/
def zoneReadOnly (zk : Nat) (s : State) : State :=
  let s := failPending zk 1 0xBA s
  let s := issueZone zk 1 0 .nothing (sealZone zk .readOnly false s)
  zoneChanged zk (fire 229 (zoneNs zk) s)

/-- The replacement of a member of an active zone (06 R207): an unused reserved die-block on a link that holds no other
member, else a free one if S stays at or above 0. -/
def activeReplacement (s : State) (zk k m : Nat) : Option (Nat × Bool) :=
  let x := getStripe s k
  let links := (x.members.eraseIdx m).map refLink
  match (getZone s zk).reserve.find? (fun r => !(links.contains (refLink r)) && dieReach s (refDie r)) with
  | some r => some (r, false)
  | none => if 1 ≤ spare s then chooseBlock s zk x.tenant links true else none

/-- Put a replacement in a member's place: it is Bound, and the member is rebuilt from row 0 (06 R207, 11 R440). -/
def putReplacement (k m r : Nat) (s : State) : State :=
  let x := getStripe s k
  let old := x.members.getD m 0
  let s := updBlock r (fun b => { b with st := .bound, owner := x.tenant, stripe := some k, wl := 0, snaps := [], stamps := [] }) s
  let s := updStripe k (fun x => { x with
      members := x.members.set m r, lost := x.lost.filter (· != m), waiting := false
      rebuild := x.rebuild.filter (fun p => p.1 != m) ++ [(m, 0)] }) s
  let s := match x.zone with
    | some zk => updZone zk (fun z => { z with reserve := z.reserve.filter (· != r) }) s
    | none => s
  issueMember k m 1 old r s

/-- Mark a member lost without replacement (12 MEMBER, cause 0); source 643 fires when two are lost. -/
def markLost (k m : Nat) (s : State) : State :=
  let x := getStripe s k
  if x.lost.contains m then s
  else
    let s := updStripe k (fun x => { x with lost := x.lost ++ [m], rebuild := x.rebuild.filter (fun p => p.1 != m) }) s
    let s := issueMember k m 0 (x.members.getD m 0) 0xFFFFFFFF s
    if x.lost.length + 1 = 2 then fire 643 k s else s

/-- The replacement of a lost member of a zone stripe (11 R438): on a link that holds no other member, from the home or the
tenant's positions or by spill, if S stays at or above 0 after it and after R212 has run; otherwise the stripe waits. -/
def replaceLost (k m : Nat) (s : State) : State :=
  let x := getStripe s k
  match x.zone with
  | none => s
  | some zk =>
    if x.live = false ∨ x.lost.contains m = false then s
    else
      let s0 := replenish s
      let links := (x.members.eraseIdx m).map refLink
      match (if 1 ≤ spare s0 then chooseBlock s0 zk x.tenant links true else none) with
      | some (r, sp) => putReplacement k m r (if sp then setSpill x.tenant s0 else s0)
      | none =>
        if x.waiting then s0
        else
          let s := updStripe k (fun x => { x with waiting := true }) s0
          fire 642 (min 4095 (mapCount (fun _ x => x.waiting) s.tabs.stripes)) s

/-- A member is lost (06 R207 to R210): replaced, or the zone is degraded and shrinks, or a second loss makes it Read
Only; a Full or Read Only zone or a sealed log stripe waits for its rebuild (11 R438). -/
def loseMember (k m : Nat) (s : State) : State :=
  let x := getStripe s k
  if x.live = false ∨ x.members.length ≤ m ∨ x.lost.contains m then s
  else
    match x.zone with
    | some zk =>
      let z := getZone s zk
      if z.isActive then
        let s0 := replenish s
        match activeReplacement s0 zk k m with
        | some (r, sp) => putReplacement k m r (if sp then setSpill x.tenant s0 else s0)
        | none =>
          let s := markLost k m s0
          if z.shrinking ∨ 2 ≤ (getStripe s k).lost.length then zoneReadOnly zk s else shrinkZone zk s
      else replaceLost k m (markLost k m s)
    | none => markLost k m s

/-- A reserved die-block whose link failed is void: journaled (06 R208). -/
def voidReserve (zk r : Nat) (s : State) : State :=
  let s := updZone zk (fun z => { z with reserve := z.reserve.filter (· != r) }) s
  issueMember ((getZone s zk).stripe.getD 0) 0xFF 2 r 0xFFFFFFFF s

end Sys2Proof.Machine
end

