-- ==== Sys2Proof/Machine/RcuOps.lean ====
section
/-! DEFINITION. Retention age and threshold arithmetic (09): the acceleration factor, age clocks, dark accrual, probes, the
offset model, learning and the refresh age (01 R45, R47). -/

namespace Sys2Proof.Machine

/-! ## Access -/

def updAge (d : Nat) (f : DieAge → DieAge) (s : State) : State := updRcu (fun r => { r with dies := mapUpd dieAge0 r.dies d f }) s

/-- The Time Unit is locked (09 R340). -/
def tuLocked (s : State) : Bool := decide (s.tu.st = 3)

/-! ## The acceleration factor -/

/-- l_af of R335 for a temperature in quarter degrees. -/
def lnAf (s : State) (theta : Int) : Int :=
  let tref := toSigned 10 (getF s F.RCU_TREF_TEMP)
  let den := ((25 * tref + 27315) * (25 * theta + 27315)).toNat
  clampInt (-(2 ^ 31)) (2 ^ 31 - 1) (roundDiv (s.rcu.b * 2500 * (theta - tref) * 1024) den)

/-- The acceleration factor, Q17.32 (R336). -/
def accel (s : State) (theta : Int) : Nat := min (2 ^ 48) (fxRound (fxExp (lnAf s theta * 2 ^ 374)) 32).toNat

/-- Age clocks stop at 2⁸⁰ − 1 (R330). -/
def ageTop : Nat := 2 ^ 80 - 1

/-! ## The offset model -/

/-- Model defaults (Table 09-3). -/
def modelDefault : Model := ⟨(List.range 31).map (fun (i : Nat) => -28 * ((i : Int) + 1)), 1440, 32768⟩

/-- The die's origin model: operator values, calibration page, defaults (R351). -/
def modelOrigin (s : State) (d : Nat) : Model :=
  let a := getAge s d
  match a.loaded with
  | some m => m
  | none => match a.cal with
    | some m => if m.tau = 0 then modelDefault else m
    | none => modelDefault

/-- The model in force (R351). -/
def modelOf (s : State) (d : Nat) : Model :=
  let m := modelOrigin s d
  match (getAge s d).learned with
  | some c => { m with c := c }
  | none => m

/-- l of R352. -/
def modelL (tau e : Nat) : Nat := (fxRound (fxLn (tau + e) tau) 26).toNat

/-- w of R352. -/
def modelW (beta pe : Nat) : Nat := 65536 + (roundDiv ((beta * pe : Nat) : Int) 1000).toNat

/-- Offset of threshold `j` (R352). -/
def modelOffset (m : Model) (pe e j : Nat) : Int :=
  clampInt (-127) 127 (roundDiv (m.c.getD (j - 1) 0 * modelL m.tau e * modelW m.beta pe) (2 ^ 50))

/-- PE of a die-block (11 R417). -/
def peOf (s : State) (ref : Nat) : Nat := (getBlock s ref).wear / 100

/-! ## Ages -/

/-- Snapshot of an age group; none when no wordline of it is fine-programmed (R331). -/
def snapOf (s : State) (ref g : Nat) : Option Nat := mapGet none (getBlock s ref).snaps g

/-- The age a read uses (R332, R348): the time-based age, and for the window shift of a level read of an old group the age
moved by δ. -/
def readAge (s : State) (ref wl : Nat) (level : Bool) : Nat :=
  let d := refDie ref
  match snapOf s ref (wl / 32) with
  | none => 0
  | some snap =>
    let e := ageInt s d - snap
    let a := getAge s d
    if level ∧ snap ≤ a.base / 2 ^ 32 then (clampInt 0 (2 ^ 48 - 1) (e + a.delta)).toNat else e

/-- Offsets of a page-hard read (R353): the page's thresholds from the model, zero elsewhere; 31 values. -/
def pageOffsets (s : State) (ref wl : Nat) (ths : List Nat) : List Int :=
  let m := modelOf s (refDie ref)
  let e := readAge s ref wl false
  (List.range 31).map (fun i => if ths.contains (i + 1) then modelOffset m (peOf s ref) e (i + 1) else 0)

/-- All 31 model offsets of a wordline (08 R297). -/
def allOffsets (s : State) (ref wl : Nat) : List Int := pageOffsets s ref wl ((List.range 31).map (· + 1))

/-- VBASE of the first level sense of a wordline (R353, 08 R292). -/
def modelVbase (s : State) (ref wl : Nat) : Int :=
  modelOffset (modelOf s (refDie ref)) (peOf s ref) (readAge s ref wl true) 16

/-! ## Pilot age -/

/-- The pilot age of a sense (R346) from the offsets of its valid planes; none: unusable. -/
def pilotAge (m : Model) (pe : Nat) (planes : List (List Int)) : Option Nat :=
  let dot (o : List Int) : Int := (List.zipWith (fun x c => x * c) o m.c).foldl (· + ·) 0
  let n := (planes.map dot).foldl (· + ·) 0
  let dd := (planes.length : Int) * (m.c.map (fun c => c * c)).foldl (· + ·) 0
  if dd = 0 then none
  else if n ≤ 0 then some 0
  else
    let lh := min (2 ^ 32 - 1) (roundDiv (n * 2 ^ 50) (modelW m.beta pe * dd.toNat)).toNat
    some (min (2 ^ 48 - 1) (fxRound (m.tau * (fxExp ((lh : Int) * 2 ^ 374) - fxOne)) 0).toNat)

/-- Time-based and pilot-based age disagree (R347). -/
def disagree (ep et : Nat) : Bool := decide (2 * et < ep) || decide (2 * ep < et)

/-! ## The refresh age -/

/-- A die that holds a programmed PLC age group. -/
def holdsGroup (s : State) (d : Nat) : Bool := s.tabs.blocks.any (fun e => refDie e.1 == d && e.2.snaps != [])

/-- TOP_SKIM_AGE (R358). -/
def skimAgeOf (s : State) : Nat :=
  let dies := ((s.tabs.blocks.filter (fun e => e.2.snaps != [])).map (fun e => refDie e.1)).eraseDups
  min (2 ^ 32 - 1) ((dies.map (fun d => ageInt s d - (getAge s d).refreshed)).foldl max 0)

/-- Set TOP_SKIM_AGE, and each flag of 01 R47 with its source in the same tick; SKIM_OVERDUE raises NVM Subsystem
Reliability. Before the reads-served point both flags read 0. -/
def skimSettle (s : State) : State :=
  if s.top.readsOk = false then s
  else
    let age := skimAgeOf s
    let due := getF s F.TOP_SKIM_DUE_DUE
    let soon := decide (9 * due ≤ 10 * age)
    let overdue := decide (due ≤ age)
    let wasSoon := s.top.skimSoon
    let wasOver := s.top.skimOverdue
    let s := { s with top := { s.top with skimAge := age, skimSoon := soon, skimOverdue := overdue } }
    let s := if soon ∧ wasSoon = false then fire 5 0 s else s
    if overdue ∧ wasOver = false then raiseAenAll 1 0 (fire 6 0 s) else s

/-! ## Dark accrual -/

/-- Seconds since the TU epoch of a minute of the archive epoch (00 R23). -/
def archiveSec (minute : Nat) : Nat := 1577836800 + 60 * minute

/-- End of an accepted record in TU seconds. -/
def climateEnd (c : Climate) : Nat := archiveSec (c.start + c.samples.length * c.interval)

/-- Now on the Time Unit, in ns. -/
def tuNowNs (s : State) : Nat := s.tu.t / 2 ^ 48

/-- The end of a die's dark interval in whole TU seconds (R340); none: empty. -/
def darkEnd (s : State) (locked : Bool) (d : Nat) : Option Int :=
  if locked then
    match (getAge s d).endSec with
    | none => none
    | some _ => some ((((tuNowNs s : Nat) : Int) - (((s.tu.ticks - (getAge s d).endTick) * 16 / 5 : Nat) : Int)) / 1000000000)
  else s.rcu.climate.map (fun c => (climateEnd c : Int))

/-- Temperature of a dark moment (R343): the covering sample when the record applies to the die's tower, else
DEF_TEMP. -/
def darkTemp (s : State) (d sec : Nat) : Int :=
  let dflt := toSigned 10 (getF s F.RCU_DARK_CFG_DEF_TEMP)
  match s.rcu.climate with
  | none => dflt
  | some c =>
    let lo := archiveSec c.start
    if (c.mask = 0 ∨ natBits c.mask (d / 256) 1 = 1) ∧ lo ≤ sec ∧ sec < climateEnd c then
      let x := c.samples.getD ((sec - lo) / (c.interval * 60)) (-32768)
      if x = -32768 then dflt else x
    else dflt

/-- Boundaries of the segments of a dark interval: its ends and every sample boundary inside (R343). -/
def darkCuts (s : State) (a b : Nat) : List Nat :=
  let inner := match s.rcu.climate with
    | none => []
    | some c => ((List.range (c.samples.length + 1)).map (fun i => archiveSec (c.start + i * c.interval))).filter
        (fun x => decide (a < x) && decide (x < b))
  a :: inner ++ [b]

/-- D of a die in 2⁻³² minutes, and whether its interval ended before it started (R340, R343). -/
def darkOf (s : State) (locked : Bool) (d : Nat) : Nat × Bool :=
  match s.rcu.lastMark, darkEnd s locked d with
  | some m, some e =>
    if e < m.sec then (0, true)
    else
      let cuts := darkCuts s m.sec e.toNat
      (((cuts.zip (cuts.drop 1)).map (fun p =>
        (roundDiv ((accel s (darkTemp s d p.1) * (p.2 - p.1) : Nat) : Int) 60).toNat)).sum, false)
  | _, _ => (0, false)

/-- Move the pre-seal snapshots of a die by the change of ⌊A⌋ (R349). -/
def moveSnaps (d : Nat) (delta : Int) (s : State) : State :=
  (s.rcu.preseal.filter (fun p => refDie p.1 == d)).foldl (fun s p =>
    updBlock p.1 (fun b => { b with
      snaps := mapUpd none b.snaps p.2 (fun o => o.map (fun x => ((x : Int) + delta).toNat)) }) s) s

/-- Set a die's clock before the seal, moving its pre-seal snapshots. -/
def setAge (d a : Nat) (s : State) : State :=
  let old := ageInt s d
  let a := min ageTop a
  moveSnaps d (((a / 2 ^ 32 : Nat) : Int) - old) (updAge d (fun x => { x with age := a }) s)

/-- A die's age clock has saturated: one event (R330). -/
def satCheck (d : Nat) (s : State) : State :=
  let a := getAge s d
  if a.age = ageTop ∧ a.sat = false then fire 577 d (updAge d (fun x => { x with sat := true }) s) else s

/-- Recompute the dark increment of one die and reconcile its stored probe (R344, R347, R348). -/
def darkDie (locked : Bool) (s : State) (d : Nat) : State :=
  let a := getAge s d
  let (dk, back) := darkOf s locked d
  let s := if back ∧ s.rcu.clockBack = false then fire 579 0 (updRcu (fun r => { r with clockBack := true }) s) else s
  let time := a.base + dk + a.powered
  match a.probe with
  | none => satCheck d (setAge d time (updAge d (fun x => { x with dark := dk, overridden := false, delta := 0 }) s))
  | some (ep, _, snap) =>
    let et := time / 2 ^ 32 - snap
    let bad := disagree ep et
    let s := if bad ∧ a.overridden = false then fire 576 d (bumpF F.RCU_EVENT_CNT_DISAGREE 1 s) else s
    if locked then
      let later : Int := (time : Int) + ((ep : Int) - et) * 2 ^ 32
      let t := if bad then max (a.base + a.powered) later.toNat else time
      let s := updAge d (fun x => { x with
          dark := t - a.base - a.powered, overridden := bad, delta := 0, probe := some (ep, et, snap) }) s
      satCheck d (setAge d t s)
    else
      let s := updAge d (fun x => { x with
          dark := dk, overridden := bad, delta := (ep : Int) - et, probe := some (ep, et, snap) }) s
      satCheck d (setAge d time s)

/-- Recompute every die (R344), with the source of Table 09-2. -/
def darkAll (locked : Bool) (s : State) : State :=
  let src := if locked then (if s.rcu.climate.isSome then 1 else 0) else if s.rcu.climate.isSome then 2 else 3
  let s := updRcu (fun r => { r with source := src }) s
  skimSettle ((allDies s).foldl (darkDie locked) s)

/-- A recomputation between the reads-served point and the seal. -/
def darkRecompute (s : State) : State := if s.top.readsOk ∧ s.rcu.sealed = false then darkAll (tuLocked s) s else s

/-- End a die's dark interval now (R340); the first to end gives RCU_DARK_MIN. -/
def endDark (d : Nat) (s : State) : State :=
  if (getAge s d).endSec.isSome then s
  else
    let s := updAge d (fun a => { a with endSec := some (tuSec s.tu.t), endTick := s.tu.ticks, ticking := true }) s
    if s.rcu.darkMin.isSome then s
    else
      let m := match s.rcu.lastMark with
        | some m => (tuSec s.tu.t - m.sec) / 60
        | none => 0
      updRcu (fun r => { r with darkMin := some (min (2 ^ 32 - 1) m) }) s

/-- When no probe is outstanding, PROBES_DONE sets and source 580 fires (R345). -/
def probesSettle (s : State) : State :=
  if s.rcu.probesDone = false ∧ s.top.readsOk ∧ mapCount (fun _ a => a.probing) s.rcu.dies = 0 then
    fire 580 (overrides s) (updRcu (fun r => { r with probesDone := true }) s)
  else s

/-- A die's probe is abandoned (R345, Table 09-4). -/
def abandonProbe (d : Nat) (s : State) : State :=
  if (getAge s d).probing then probesSettle (updAge d (fun a => { a with probing := false }) s) else s

/-- The seal (R349). -/
def sealDark (locked : Bool) (s : State) : State :=
  let s := (allDies s).foldl (fun s d =>
    if (getAge s d).age / 2 ^ 32 = (getAge s d).base / 2 ^ 32 then setAge d ((getAge s d).age + 2 ^ 32) s else s) s
  skimSettle (updRcu (fun r => { r with sealed := true, lockedAtSeal := locked, preseal := [] }) s)

/-- The accrual that replay adds to a checkpointed age clock: every interval between consecutive time marks after it, at
the tower temperature of the later mark (R333). -/
def markAccrual (s : State) (d : Nat) : Nat :=
  let ms := s.rcu.marks
  ((ms.zip (ms.drop 1)).map (fun p =>
    let theta := (p.2.temps.getD (d / 32) none).getD (toSigned 10 (getF s F.RCU_DARK_CFG_DEF_TEMP))
    (roundDiv ((accel s theta * (p.2.sec - p.1.sec) : Nat) : Int) 60).toNat)).sum

/-- Age clocks at the reads-served point of a boot (R333, R344): S from the checkpoint and the marks, and the dark
increment. Dies with no temperature yet end their interval now. -/
def ageRestore (s : State) : State :=
  let s := (allDies s).foldl (fun s d =>
    let base := min ageTop (mapGet 0 s.rcu.ckptAges d + markAccrual s d)
    endDark d (updAge d (fun a => { a with base := base, age := min ageTop (base + a.powered), refreshed := mapGet 0 s.rcu.ckptRefreshed d }) s)) s
  darkAll (tuLocked s) s

/-! ## Ticks -/

/-- Temperature a powered tick uses (R337, R338). -/
def tickTemp (s : State) (d : Nat) : Int :=
  let shelf := toSigned 10 (if s.rcu.shelfValid then getF s F.RCU_SHELF_TEMP_TEMP else getF s F.RCU_DARK_CFG_DEF_TEMP)
  if (getLink s (d / 32)).st = 3 then (getDie s d).temp.getD shelf else shelf

/-- One tick of one die (R337). -/
def tickDie (s : State) (d : Nat) : State :=
  let a := getAge s d
  if a.ticking = false then s
  else
    let inc := (roundDiv ((accel s (tickTemp s d) : Nat) : Int) 60).toNat
    satCheck d (updAge d (fun x => { x with age := min ageTop (x.age + inc), powered := min ageTop (x.powered + inc) }) s)

/-! ## Learning -/

/-- A learning step of one coefficient (R356): the new value and whether the step is not 0. -/
def learnStep (c0 c os : Int) (np l w sh : Nat) : Int × Bool :=
  let den := np * l * w * 2 ^ sh
  let step := clampInt (-32768) 32767 (roundDiv (os * 2 ^ 50 - np * c * l * w) den)
  let m : Int := (c0.natAbs / 2 + 64 : Nat)
  (max (c0 - m) (min (c0 + m) (c + step)), decide (step ≠ 0))

/-- The learned coefficients after a report (R356), and how many steps were not 0. -/
def learnAll (c0 c : List Int) (planes : List (List Int)) (l w sh : Nat) : List Int × Nat :=
  let r := (List.range 31).map (fun i =>
    learnStep (c0.getD i 0) (c.getD i 0) ((planes.map (fun o => o.getD i 0)).foldl (· + ·) 0) planes.length l w sh)
  (r.map Prod.fst, (r.filter Prod.snd).length)

/-- What firmware does with a pilot report (R354 to R356). -/
def takeReport (r : Report) (s : State) : State :=
  let valid := (r.planes.filter (fun p => p.2.2)).map (fun p => p.2.1)
  let m := modelOf s r.die
  let pe := peOf s r.ref
  match pilotAge m pe valid with
  | none => s
  | some ep =>
    if disagree ep r.age then fire 576 r.die (bumpF F.RCU_EVENT_CNT_DISAGREE 1 s)
    else
      let l := modelL m.tau r.age
      if flagF s F.RCU_LEARN_CFG_EN ∧ valid ≠ [] ∧ getF s F.RCU_LEARN_CFG_L_MIN * 2 ^ 22 ≤ l ∧ s.rcu.lockedAtSeal ∧ 0 < l then
        let (c, n) := learnAll (modelOrigin s r.die).c m.c valid l (modelW m.beta pe) (getF s F.RCU_LEARN_CFG_LR_SHIFT)
        bumpF F.RCU_EVENT_CNT_LEARN n (updAge r.die (fun a => { a with learned := some c }) s)
      else s

end Sys2Proof.Machine
end

