-- ==== Sys2Proof/Machine/FlcOps.lean ====
section
/-! DEFINITION. Flash link controller (07): die operations waiting, sent, suspended and granted, power tokens, and link-group
gating; the refresh queue that senses feed (11 R430, R431). -/

namespace Sys2Proof.Machine

/-! ## Refresh queue -/

/-- Queue a stripe for refresh (11 R430): once, at its lowest class. -/
def queueRefresh (cls order stripe : Nat) (s : State) : State :=
  match s.mme.queue.find? (fun q => q.stripe == stripe) with
  | some q =>
    if q.cls ≤ cls then s
    else updMme (fun m => { m with queue := m.queue.filter (fun q => q.stripe != stripe) ++ [⟨cls, order, stripe⟩] }) s
  | none => updMme (fun m => { m with queue := m.queue ++ [⟨cls, order, stripe⟩] }) s

/-- Count a sense of a die-block; at its limit the stripe is queued in class 2, highest count first (11 R431). -/
def countSense (ref : Nat) (s : State) : State :=
  let s := updBlock ref (fun b => { b with senses := b.senses + 1 }) s
  let b := getBlock s ref
  let limit := 1000 * (if b.mode = 0 then getF s F.MME_DISTURB_CFG_PLC_LIMIT else getF s F.MME_DISTURB_CFG_TLC_LIMIT)
  match b.stripe with
  | some k => if b.mode ≤ 1 ∧ limit ≤ b.senses then queueRefresh 2 (2 ^ 32 - b.senses) k s else s
  | none => s

/-! ## Operations -/

/-- An operation with nothing set. -/
def dieOp0 : DieOp where
  kind := .readPage
  block := 0
  wl := 0
  mode := 0
  page := 0
  planes := 0
  col := 0
  count := 0
  vbase := 0
  offs := []
  tenant := none
  cls := 3
  dcls := 0
  work := 0
  cws := []
  probe := 0
  free := false
  suspended := false
  suspensions := 0
  reads := 0
  resumeTick := 0
  recovery := false
  arrived := 0

def DieOp.isRead (o : DieOp) : Bool := o.kind == .readPage || o.kind == .readLevel
/-- An SLC program of the first class of R263. -/
def DieOp.isSlc (o : DieOp) : Bool := o.kind == .one && o.mode == 2
/-- Suspended for reads (R260): foggy, fine, TLC program, erase. -/
def DieOp.suspendable (o : DieOp) : Bool :=
  o.kind == .foggy || o.kind == .fine || o.kind == .erase || (o.kind == .one && o.mode == 1)
/-- Held while PROG_HOLD is 1 or the junction holds (16 R588, 20 R730) and while the die is throttled (R266). -/
def DieOp.progErase (o : DieOp) : Bool := o.kind == .foggy || o.kind == .fine || o.kind == .erase || o.kind == .one

/-- Tower name of an operation (Table 07-9). -/
def opName (k : OpKind) : String :=
  match k with
  | .readPage => "READ_PAGE"
  | .readLevel => "READ_LEVEL"
  | .foggy => "PROGRAM_FOGGY"
  | .fine => "PROGRAM_FINE"
  | .one => "PROGRAM_ONE"
  | .erase => "ERASE"
  | .verify => "ERASE_VERIFY"

/-- Send a tower command: one sequenced frame stands for it and its data (R248). -/
def sendTower (d : Nat) (kind : String) (arg : Nat) (s : State) : State :=
  emit (.tower (d / 32) kind (d % 32) arg)
    (updLink (d / 32) (fun l => { l with txNext := (l.txNext + 1) % 4096, unacked := l.unacked ++ [l.txNext] }) s)

/-! ## Suspension -/

/-- Ticks in a number of microseconds: 312.5 a microsecond (16 R600). -/
def usTicks (us : Nat) : Nat := us * 3125 / 10

/-- Whether a suspended-for-reads operation runs on a die and may be suspended once more (R260). -/
def maySuspend (s : State) (x : Die) : Bool :=
  match x.op with
  | none => false
  | some o => flagF s F.FLC_SUSP_CFG_EN && o.suspendable && !o.suspended && !x.suspSent && !x.resumeSent && !x.resetSent
      && decide (o.suspensions < getF s F.FLC_SUSP_CFG_MAX_PER_OP)

/-- MIN_RUN_US has passed since the operation's last RESUME; an operation never resumed has none (R260). -/
def ranEnough (s : State) (o : DieOp) : Bool :=
  o.suspensions == 0 || decide (usTicks (getF s F.FLC_SUSP_CFG_MIN_RUN_US) ≤ s.tu.ticks - o.resumeTick)

/-- Send SUSPEND. -/
def sendSuspend (d : Nat) (s : State) : State := sendTower d "SUSPEND" 0 (updDie d (fun x => { x with suspSent := true }) s)

/-- Suspend for a waiting read where R260 allows it now. -/
def trySuspend (d : Nat) (s : State) : State :=
  let x := getDie s d
  match x.op with
  | none => s
  | some o => if x.waiting.any DieOp.isRead ∧ maySuspend s x ∧ ranEnough s o then sendSuspend d s else s

/-- Send RESUME when the die has no read waiting or MAX_READS have completed (R261); not while PWRWARN_N is accepted. -/
def tryResume (d : Nat) (s : State) : State :=
  let x := getDie s d
  match x.op with
  | none => s
  | some o =>
    if o.suspended ∧ x.resumeSent = false ∧ x.reading = [] ∧ s.top.pwrActive = false ∧ (getLink s (d / 32)).st = 3
        ∧ (x.waiting.any DieOp.isRead = false ∨ getF s F.FLC_SUSP_CFG_MAX_READS ≤ o.reads) then
      sendTower d "RESUME" 0 (updDie d (fun x => { x with resumeSent := true }) s)
    else s

/-! ## Link groups -/

def setGroup (g : Nat) (v : GateSt) (s : State) : State := updFlc (fun f => { f with groups := mapSet .awake f.groups g v }) s

/-- A link begins training: from stored results when it has them, in full otherwise (R238). -/
def startTraining (k : Nat) (s : State) : State :=
  updLink k (fun l => { l with st := 2, stored := l.haveStored, lock := false, standby := false, misses := 0, cands := [] }) s

/-- Wake a Gated group (R269). -/
def wakeGroup (g : Nat) (s : State) : State :=
  if groupSt s g = .gated then
    (groupLinks s g).foldl (fun s k => if (getLink s k).st = 1 then startTraining k s else s) (setGroup g .waking s)
  else s

/-- An operation arrives for a group that is Draining with no STANDBY sent: it is Awake again (R268). -/
def groupArrival (g : Nat) (s : State) : State :=
  if groupSt s g = .draining ∧ (s.flc.standbySent.contains g) = false then setGroup g .awake s else s

/-! ## Queueing -/

/-- A fine of a held wordline is waiting or running. -/
def finePending (x : Die) (h : Nat × Nat) : Bool :=
  let p (o : DieOp) := o.kind == .fine && o.block == h.1 && o.wl == h.2
  x.waiting.any p || (match x.op with
    | some o => p o
    | none => false)

/-- Put an operation in a die's queue. -/
def enqueue (d : Nat) (o : DieOp) (s : State) : State :=
  let n := s.flc.order
  let s := updFlc (fun f => { f with order := n + 1 }) s
  let s := updDie d (fun x => { x with waiting := x.waiting ++ [{ o with arrived := n }] }) s
  let s := groupArrival (d / 256) s
  if o.isRead then trySuspend d s else s

/-- The fine pass of a held wordline (10 R388). -/
def queueFine (d : Nat) (h : Nat × Nat) (s : State) : State :=
  if finePending (getDie s d) h then s
  else
    let b := getBlock s (refOf d h.1)
    enqueue d { dieOp0 with kind := .fine, block := h.1, wl := h.2, planes := 15, tenant := some b.owner, cls := 2 } s

/-- Closing fines of wordlines held on a die when another block's foggy waits (10 R388 rule 3). -/
def closeOthers (d : Nat) (s : State) : State :=
  let x := getDie s d
  x.held.foldl (fun s h => if x.waiting.any (fun o => o.kind == .foggy && o.block != h.1) then queueFine d h s else s) s

/-- Queue a foggy. -/
def queueFoggy (ref wl : Nat) (tenant : Option Nat) (cls work : Nat) (s : State) : State :=
  closeOthers (refDie ref) (enqueue (refDie ref)
    { dieOp0 with kind := .foggy, block := refBlock ref, wl := wl, planes := 15, tenant := tenant, cls := cls, work := work } s)

/-- Queue a one-pass program. -/
def queueOne (ref wl mode : Nat) (tenant : Option Nat) (cls work : Nat) (s : State) : State :=
  enqueue (refDie ref)
    { dieOp0 with kind := .one, block := refBlock ref, wl := wl, mode := mode, planes := 15, tenant := tenant, cls := cls, work := work } s

/-! ## Power -/

/-- Running power charged to a tenant, and of internal operations (04 R139). -/
def chargedMw (s : State) (t : Option Nat) : Nat :=
  (s.flc.dies.map (fun e =>
    (match e.2.op with
      | some o => if o.tenant = t then opMw o.kind else 0
      | none => 0)
    + (e.2.reading.map (fun o => if o.free ∨ o.tenant ≠ t then 0 else opMw o.kind)).sum)).sum

/-! ## Grants -/

/-- Commands outstanding on a die and on a tower (R256). -/
def dieOut (x : Die) : Nat := (if x.op.isSome then 1 else 0) + x.reading.length
def towerOut (s : State) (k : Nat) : Nat := ((List.range 32).map (fun i => dieOut (getDie s (k * 32 + i)))).sum

/-- An operation is on a suspended die. -/
def Die.isSuspended (x : Die) : Bool :=
  match x.op with
  | some o => o.suspended
  | none => false

/-- Codewords still being read from a die-block (08 Table 08-4). -/
def readsOn (s : State) (ref : Nat) : Bool :=
  s.clc.cws.any (fun e => e.2.ref == ref && (e.2.st == 0 || e.2.st == 1))

/-- PWRWARN_N is accepted and stops new die operations: all but first-class SLC programs (Table 01-5), or programs and
erases in Replay (R746). -/
def pwrStops (s : State) (o : DieOp) : Bool :=
  s.top.pwrActive && (if s.top.dev = .replay then o.progErase else s.top.dev == .quiescing && !(o.isSlc && o.cls == 1))

/-- An operation may be sent to its die now, its token aside. -/
def sendable (s : State) (d : Nat) (o : DieOp) : Bool :=
  let x := getDie s d
  (getLink s (d / 32)).st == 3 && decide ((getLink s (d / 32)).unacked.length < 1024) && groupSt s (d / 256) == .awake && !dieIsLost s d && !x.resetSent && !x.resumeSent
    && decide (dieOut x < 4) && decide (towerOut s (d / 32) < 64) && !pwrStops s o
    && (if o.isRead then
          (match x.op with
            | none => true
            | some p =>
              if p.suspended then decide (p.reads + x.reading.length < getF s F.FLC_SUSP_CFG_MAX_READS)
              else !x.suspSent && (!p.suspendable || !flagF s F.FLC_SUSP_CFG_EN
                || decide (getF s F.FLC_SUSP_CFG_MAX_PER_OP ≤ p.suspensions)))
        else if o.isSlc ∧ x.isSuspended = true then true
        else x.op.isNone && !(o.progErase && x.throttle)
          && !((s.cru.progHold || s.pad.hold) && o.progErase && !(o.isSlc && o.cls == 1))
          && (match o.kind with
            | .foggy => x.held.isEmpty || (x.held == [(o.block, o.wl - 1)] && decide (0 < o.wl))
            | .erase => !readsOn s (refOf d o.block)
            | _ => true))
    && !(o.work != 0 && decide (natBits s.mme.above (o.work - 1) 1 = 1))

/-- Sending order on a die (R256, R388): first-class SLC programs, reads by decoder class, fines, other operations. -/
def dieRank (o : DieOp) : Nat :=
  if o.isSlc ∧ o.cls = 1 then 0 else if o.isRead then 1 + o.dcls else if o.kind = .fine then 10 else 11 + o.cls

/-- The operation a die would be sent next. -/
def nextOp (s : State) (d : Nat) : Option DieOp :=
  ((getDie s d).waiting.filter (sendable s d)).foldl (fun m o => match m with
    | none => some o
    | some y => if dieRank o < dieRank y then some o else some y) none

/-- The token an operation needs: none on a suspended die. -/
def tokenOf (s : State) (d : Nat) (o : DieOp) : Nat := if (getDie s d).isSuspended then 0 else opMw o.kind

/-- R59 holds after the grant. -/
def fitsBudget (s : State) (d : Nat) (o : DieOp) : Bool := decide (usedMw s + tokenOf s d o ≤ budgetMw s)

/-- A class of internal work is below its floor (11 R442). -/
def belowFloor (s : State) (o : DieOp) : Bool := o.work != 0 && decide (natBits s.mme.below (o.work - 1) 1 = 1)

/-- Serving class (R263): first-class SLC programs, internal work below its floor, tenant operations, internal. -/
def serveClass (s : State) (o : DieOp) : Nat :=
  if o.isSlc ∧ o.cls = 1 then 0 else if belowFloor s o then 1 else if o.tenant.isSome then 2 else 3

/-- A tenant operation fits its tenant's entitlement (04 R141). -/
def entitledOk (s : State) (d : Nat) (o : DieOp) : Bool :=
  match o.tenant with
  | none => true
  | some t => decide (chargedMw s (some t) + tokenOf s d o ≤ (mapGet tenant0 s.qe.tenants t).entitled)

/-- Dies with a sendable operation that fits the budget. -/
def fitting (s : State) : List (Nat × DieOp) :=
  s.flc.dies.filterMap (fun e => match nextOp s e.1 with
    | some o => if fitsBudget s e.1 o then some (e.1, o) else none
    | none => none)

/-- Running power over entitlement of a tenant compared: a before b (04 R141). -/
def shareBefore (s : State) (a b : Option Nat) : Bool :=
  match a, b with
  | some a, some b =>
    let ea := (mapGet tenant0 s.qe.tenants a).entitled
    let eb := (mapGet tenant0 s.qe.tenants b).entitled
    decide (chargedMw s (some a) * eb < chargedMw s (some b) * ea)
  | _, _ => false

/-- Whether a die's next operation receives a token now (R263, 04 R141, 11 R442). -/
def grantable (s : State) (d : Nat) : Option DieOp :=
  let all := fitting s
  match all.find? (fun p => p.1 == d) with
  | none => none
  | some (_, o) =>
    let c := serveClass s o
    let ahead (p : Nat × DieOp) : Bool :=
      p.1 != d && (decide (serveClass s p.2 < c)
        || (serveClass s p.2 == 2 && c == 2 && p.2.tenant != o.tenant && (entitledOk s p.1 p.2)
            && (!entitledOk s d o || shareBefore s p.2.tenant o.tenant)))
    if all.any ahead then none else some o

/-- Offsets of a re-read of a TLC or SLC page (08 R314). -/
def rereadOffsets (mode page n : Nat) : List Int :=
  let v : Int := match n with
    | 0 => 0
    | 1 => -8
    | 2 => -16
    | _ => 8
  (List.range 31).map (fun i => if (pageThresholds mode page).contains (i + 1) then v else 0)

/-- Reads of one die wordline waiting at issue that share a sense, or that select a level read (08 R293, R316). -/
def gatherReads (s : State) (x : Die) (o : DieOp) : DieOp × List DieOp :=
  let same (p : DieOp) := p.isRead && p.block == o.block && p.wl == o.wl && p.mode == o.mode && p.probe == o.probe
    && p.recovery == o.recovery && !p.recovery
  let mine := x.waiting.filter (fun p => same p || p.arrived == o.arrived)
  let pages := (mine.filter (fun p => p.kind == .readPage && p.dcls == 0)).map (·.page)
  let anyLevel := mine.any (fun p => p.kind == .readLevel)
  let level := o.kind == .readLevel || (o.mode == 0 && o.probe == 0 && !o.recovery
    && (anyLevel || decide (getF s F.CLC_MODE_CFG_LEVEL_PAGES ≤ pages.eraseDups.length)))
  let take := mine.filter (fun p => p.arrived == o.arrived || (if level then p.kind == .readLevel || p.dcls == 0 else
    p.kind == .readPage && p.page == o.page))
  ({ o with
    kind := if level then .readLevel else .readPage
    planes := take.foldl (fun a p => a ||| p.planes) o.planes
    col := take.foldl (fun a p => min a p.col) o.col
    count := (take.foldl (fun a p => max a (p.col + p.count)) 0) - take.foldl (fun a p => min a p.col) o.col
    cws := take.flatMap (·.cws) }, x.waiting.filter (fun p => !(take.any (fun q => q.arrived == p.arrived))))

/-- Send an operation to its die: the token is taken; a read is given its offsets or its window shift in force now. -/
def sendOp (d : Nat) (o : DieOp) (s : State) : State :=
  let x := getDie s d
  let ref := refOf d o.block
  if o.isRead then
    let (g, rest) := gatherReads s x o
    let g := { g with
      free := x.isSuspended
      vbase := if g.recovery then g.vbase else modelVbase s ref g.wl
      offs := if g.recovery then g.offs else if g.mode = 0 ∧ g.kind = .readPage then pageOffsets s ref g.wl (pageThresholds 0 g.page)
        else List.replicate 31 0 }
    let s := updDie d (fun x => { x with waiting := rest, reading := x.reading ++ [g] }) s
    countSense ref (sendTower d (opName g.kind) ref s)
  else
    let rest := x.waiting.filter (fun p => p.arrived != o.arrived)
    let s := if o.isSlc ∧ x.isSuspended then
        updDie d (fun x => { x with waiting := rest, reading := x.reading ++ [{ o with free := true }] }) s
      else updDie d (fun x => { x with waiting := rest, op := some { o with resumeTick := s.tu.ticks } }) s
    sendTower d (opName o.kind) ref s

end Sys2Proof.Machine
end

