-- ==== Sys2Proof/Machine/LadderOps.lean ====
section
/-! DEFINITION. The read ladder (08 R291 to R316): codewords on their way from a sense to a pass or to L5. -/

namespace Sys2Proof.Machine

/-! ## Access -/

def getCw (s : State) (i : Nat) : Cw := mapGet cw0 s.clc.cws i
def updCw (i : Nat) (f : Cw → Cw) (s : State) : State := updClc (fun c => { c with cws := mapUpd cw0 c.cws i f }) s
def dropCw (i : Nat) (s : State) : State := updClc (fun c => { c with cws := mapDel c.cws i }) s

/-- Page, plane and number of a codeword in its wordline. -/
def Cw.page (c : Cw) : Nat := slotPage c.pos
def Cw.plane (c : Cw) : Nat := slotPlane c.pos
def Cw.num (c : Cw) : Nat := slotCw c.pos

/-- Skip list and grown map of a plane; a grown entry is group × 16 + hits (08 R288, R305). -/
def skipOf (s : State) (die plane : Nat) : List Nat := mapGet [] s.tabs.skips (die * 4 + plane)
def Cw.skip (c : Cw) (s : State) : List Nat := skipOf s (refDie c.ref) c.plane
def Cw.grown (c : Cw) (s : State) : List (Nat × Nat) := grownOf s (refDie c.ref) c.plane

/-- A CLC_LADDER_CFG bit as the codeword entered L0 (R319). -/
def Cw.en (c : Cw) (bit : Nat) : Bool := decide (natBits c.cfg bit 1 = 1)

/-- Count at an exit (R322): 64 bits, saturating. -/
def exitCount (sel : Nat) (s : State) : State :=
  updClc (fun c => { c with exits := mapUpd 0 c.exits sel (fun n => satAdd (2 ^ 64 - 1) n 1) }) s

/-! ## Statistics of a sense -/

/-- One plane of a sense. -/
def sensePlane (x : Sense) (p : Nat) : Option (List Nat × List Nat) := (x.planes.find? (fun e => e.1 == p)).map Prod.snd

/-- Level indices of a plane of a sense. -/
def senseIdx (x : Sense) (p : Nat) : Array Nat :=
  match sensePlane x p with
  | some (a, b) => levelIndex a b
  | none => #[]

/-- Pilot levels of a plane of a sense and their validity (R295, R297). -/
def sensePilots (s : State) (die wl : Nat) (x : Sense) (p : Nat) : Levels × Bool :=
  let skip := skipOf s die p
  let lv := pilotLevels (senseIdx x p) skip wl x.vbase (getF s F.CLC_LLR_CFG_SIGMA_FLOOR)
  (lv, pilotsValid lv skip ((grownOf s die p).map Prod.fst))

/-- Levels in force for a plane: its own pilots, else the lowest-numbered plane's with valid pilots, else the model
(R297). -/
def senseLevels (s : State) (ref wl : Nat) (x : Sense) (p : Nat) : Levels :=
  let own := sensePilots s (refDie ref) wl x p
  if own.2 then own.1
  else
    match (List.range 4).find? (fun q => (sensePlane x q).isSome && (sensePilots s (refDie ref) wl x q).2) with
    | some q => (sensePilots s (refDie ref) wl x q).1
    | none => modelLevels (allOffsets s ref wl) (getF s F.CLC_LLR_CFG_SIGMA_DEF)

/-- Post the pilot reports of a sense (R297, R298): invalid planes are counted; a report that finds the queue full is
dropped and counted, and source 546 fires. -/
def postReport (ref wl : Nat) (x : Sense) (probe : Bool) (s : State) : State :=
  let die := refDie ref
  let per := x.planes.map (fun e => let (lv, ok) := sensePilots s die wl x e.1; (e.1, reportOffsets lv, ok))
  let bad := (per.filter (fun e => !e.2.2)).length
  let s := bumpF F.CLC_PILOT_CNT_INVALID bad s
  let used := (s.clc.reports.map (fun r => r.planes.length)).sum
  let keep := per.take (1024 - used)
  let lost := per.length - keep.length
  let s := if 0 < lost then fire 546 die (bumpF F.CLC_PILOT_CNT_DROPPED lost s) else s
  if keep = [] then s
  else updClc (fun c => { c with reports := c.reports ++ [⟨die, ref, wl, x.vbase, readAge s ref wl true, probe, keep⟩] }) s

/-! ## Channel values of a step -/

/-- Hard bits and channel values of a page-hard read (R299). -/
def hardChannel (s : State) (bits : List Nat) : List Int := bits.map (hardValue (getF s F.CLC_LLR_CFG_HARD_MAG))

/-- The soft decision of one plane at given level indices: channel values and hard bits. -/
def softStep (s : State) (c : Cw) (x : Sense) (idx : Array Nat) (lv : Levels) (ts : List Int) : List Int × List Nat :=
  let skip := c.skip s
  (softChannel idx (llrTable lv x.vbase c.page (getF s F.CLC_LLR_CFG_SCALE)) skip c.num,
    hardBits idx ts x.vbase skip c.page c.num)

/-- The statistics of R301 and R302 on level indices. -/
def histStep (s : State) (c : Cw) (x : Sense) (idx : Array Nat) (lv : Levels) : Levels × List Int :=
  let grown := (c.grown s).map Prod.fst
  let cells := dataCells (c.skip s) grown
  let w := match sensePlane x c.plane with
    | some (_, []) => 4
    | _ => 2
  let ts := valleyThresholds lv (histogram idx cells w) x.vbase w
  (restate lv ts idx cells x.vbase (getF s F.CLC_LLR_CFG_SIGMA_FLOOR), ts)

/-- The coefficients of R303: fixed ones when NWC_FIXED is 1 or the pilots of the next wordline are invalid (R304). -/
def nwcCoef (s : State) (c : Cw) (x : Sense) (idx : Array Nat) (lv : Levels) : List Int :=
  if c.en 4 ∨ c.nbrBad then (List.range 8).map (fun g => 2 * toSigned 4 (natBits (getReg s 0x8000010) (4 * g) 4))
  else nwcMeasured idx lv (c.skip s) c.wl x.vbase

/-- Channel values and hard bits of a step L0 to L3 (R299 to R304, R314). -/
def stepChannel (s : State) (c : Cw) (step : Nat) : List Int × List Nat :=
  match c.sense with
  | none => let b := bitsOf c.hard; (hardChannel s b, b)
  | some x =>
    if c.mode ≠ 0 then let b := bitsOf c.hard; (hardChannel s b, b)
    else
      let idx := senseIdx x c.plane
      let lv := senseLevels s c.ref c.wl x c.plane
      match step with
      | 0 =>
        if c.level then
          let b := hardBits idx (thresholds lv) x.vbase (c.skip s) c.page c.num
          (hardChannel s b, b)
        else let b := bitsOf c.hard; (hardChannel s b, b)
      | 1 => softStep s c x idx lv (thresholds lv)
      | 2 =>
        let (lv2, ts) := histStep s c x idx lv
        softStep s c x idx lv2 ts
      | _ =>
        let idx3 := nwcCorrect idx c.nbr (nwcCoef s c x idx lv) x.vbase
        let raw := pilotLevels idx3 (c.skip s) c.wl x.vbase (getF s F.CLC_LLR_CFG_SIGMA_FLOOR)
        let lv3 := if pilotsValid raw (c.skip s) ((c.grown s).map Prod.fst) then raw else lv
        let (lv4, ts) := histStep s c x idx3 lv3
        softStep s c x idx3 lv4 ts

/-- Channel values of L4 (R306). -/
def erasedChannel (s : State) (c : Cw) : List Int × List Nat :=
  let (ch, hard) := stepChannel s c c.ran
  let (lo, hi) := cwGroups (c.skip s) c.num
  let mapped := (c.grown s).filter (fun e => decide (lo ≤ e.1) && decide (e.1 ≤ hi))
  (eraseChannel ch (c.skip s) c.num (erasedGroups mapped (natBits c.cfg 8 4)), hard)

/-! ## Starting reads -/

/-- The read operation of a codeword: charged to its tenant for host and Skim reads, internal otherwise (04 R139). -/
def readOp (s : State) (c : Cw) : DieOp :=
  let (lo, hi) := cwGroups (c.skip s) c.num
  let tenant := match c.slot with
    | some k => some (getTask s k).tenant
    | none => if c.cls = 4 then some (getStripe s c.stripe).tenant else none
  { dieOp0 with
    kind := if c.level then .readLevel else .readPage
    block := refBlock c.ref, wl := c.wl, mode := c.mode, page := c.page, planes := 2 ^ c.plane, col := lo
    count := hi + 1 - lo, tenant := tenant, cls := if tenant.isSome then 2 else 3, dcls := c.cls - 1 }

/-- A member of a stripe cannot be read directly: its die or link is lost or down, the member is lost, or the row lies
above the watermark of its replacement (R311, 11 R440). -/
def cwDead (s : State) (c : Cw) : Bool :=
  !dieReach s (refDie c.ref)
    || (c.inStripe && (let x := getStripe s c.stripe
        x.lost.contains c.member || x.rebuild.any (fun p => p.1 == c.member && decide (p.2 ≤ c.row))))

/-- Held samples that serve a codeword (R294). -/
def heldFor (s : State) (c : Cw) : Option Sense :=
  (s.clc.held.find? (fun e => e.2.die == refDie c.ref && e.2.block == refBlock c.ref && e.2.wl == c.wl
    && (sensePlane e.2.sense c.plane).isSome)).map (fun e => e.2.sense)

/-- Enter a codeword's read: from held samples, or by a sense. -/
def beginRead (i : Nat) (s : State) : State :=
  let c := getCw s i
  match (if c.mode = 0 then heldFor s c else none) with
  | some x => updCw i (fun c => { c with sense := some x, level := true, st := 1 }) s
  | none => enqueue (refDie c.ref) { readOp s c with cws := [i] } s

/-- A new codeword, with the ladder configuration in force (R319). -/
def addCw (c : Cw) (s : State) : Nat × State :=
  let i := s.clc.next
  (i, updClc (fun x => { x with next := i + 1, cws := mapSet cw0 x.cws i { c with cfg := getReg s 0x8000008 } }) s)

/-! ## L5 -/

/-- Data members of a stripe. -/
def stripeData (x : Stripe) : Nat := x.members.length - 2

/-- A codeword of a Cooler slice. -/
def Cw.inSlice (c : Cw) : Bool := c.row == 256

/-- Codewords that must pass to reconstruct one (R312): n members of a stripe row, every other codeword of a slice (10
R397). -/
def needParts (s : State) (c : Cw) : Nat :=
  if c.inSlice then (mapGet slice0 s.tabs.slices c.stripe).refs.length - 1 else stripeData (getStripe s c.stripe)

/-- Codeword `j` of a slice. -/
def sliceCw (s : State) (c : Cw) (n j : Nat) : Cw :=
  let v := mapGet slice0 s.tabs.slices n
  let spot := v.spots.getD j 0
  { c with ref := v.refs.getD j 0, wl := spot / 16, pos := spot % 16, mode := 2, level := false, inStripe := false, stripe := n, row := 256, member := j }

/-- Members of the stripe row still being read for an L5. -/
def openParts (s : State) (i : Nat) : Nat := mapCount (fun _ c => c.parent == some i && c.st != 4) s.clc.cws

/-- Drop the member reads of an L5. -/
def dropParts (i : Nat) (s : State) : State :=
  updClc (fun c => { c with cws := c.cws.filter (fun e => e.2.parent != some i) }) s

/-- A codeword cannot be read: its own failure, or its member's for the L5 it serves. A member failure that leaves fewer
than n members fails the L5 (R312). -/
def cwUnread (i : Nat) (s : State) : State :=
  let c := getCw s i
  match c.parent with
  | none => updCw i (fun c => { c with st := 4 }) (exitCount 6 s)
  | some p =>
    let s := updCw p (fun x => { x with memFailed := x.memFailed ++ [c.member] }) (dropCw i s)
    let x := getCw s p
    if openParts s p + x.parts.length < needParts s x then
      updCw p (fun x => { x with st := 4 }) (exitCount 6 (dropParts p s))
    else s

/-- Go to L5 (R312): the same position is read from every other member whose die and link are not lost. A codeword
outside a Rind-protected stripe, or itself a member read, fails instead. -/
def toL5 (i : Nat) (s : State) : State :=
  let c := getCw s i
  if (c.inStripe = false ∧ c.inSlice = false) ∨ c.parent.isSome then cwUnread i s
  else
    let x := getStripe s c.stripe
    let s := updCw i (fun c => { c with step := 5, st := 3, parts := [], rebuilt := true }) s
    let fresh : Cw := { c with
      parent := some i, step := 0, rereads := 0, st := 0, hard := [], sense := none
      nbr := [], bytes := [], parts := [], memFailed := [], ran := 0, firstFail := 0, slot := c.slot, rebuilt := false }
    let mem (m : Nat) : Cw := if c.inSlice then sliceCw s fresh c.stripe m else { fresh with ref := x.members.getD m 0, member := m }
    let count := if c.inSlice then (mapGet slice0 s.tabs.slices c.stripe).refs.length else x.members.length
    let ms := (List.range count).filter (fun m => m != c.member && !cwDead s (mem m) && !(c.memFailed.contains m))
    if ms.length < needParts s c then updCw i (fun c => { c with st := 4 }) (exitCount 6 s)
    else ms.foldl (fun s m => let (j, s) := addCw (mem m) s; beginRead j s) s

/-- Start a codeword: at L5 when its member cannot be read, at L0 otherwise (R311). -/
def startCw (c : Cw) (s : State) : State :=
  let (i, s) := addCw c s
  if cwDead s c then toL5 i s else beginRead i s

/-! ## Steps -/

/-- The codeword touches a group of the grown map. -/
def touchesMap (s : State) (c : Cw) : Bool :=
  let (lo, hi) := cwGroups (c.skip s) c.num
  (c.grown s).any (fun e => decide (lo ≤ e.1) && decide (e.1 ≤ hi))

/-- Wordline `w` of a die-block has been fine-programmed. -/
def fineDone (s : State) (ref w : Nat) : Bool := decide (w < (getBlock s ref).wl)

/-- Whether a step runs for a codeword (Table 08-3, R303, R314, R315). -/
def stepRuns (s : State) (c : Cw) (step : Nat) : Bool :=
  match step with
  | 1 => c.mode == 0 && c.sense.isSome && (c.en 0 || c.cls == 4)
  | 2 => c.cls != 4 && c.en 1 && (c.mode == 0 || decide (c.rereads < 3))
  | 3 => c.cls != 4 && c.en 2 && c.mode == 0 && decide (c.wl ≤ 254) && c.sense.isSome && fineDone s c.ref (c.wl + 1)
  | 4 => c.cls != 4 && c.en 3 && touchesMap s c
  | _ => true

/-- The first step after `n` that runs. -/
def nextStep (s : State) (c : Cw) (n : Nat) : Nat :=
  (([1, 2, 3, 4].filter (fun k => decide (n < k) && stepRuns s c k)).head?).getD 5

/-- Enter a step (R301, R303, R314): L1 and L4 decode what is there; L2 and L3 sense. -/
def enterStep (i step : Nat) (s : State) : State :=
  let c := getCw s i
  let s := updCw i (fun c => { c with step := step }) s
  match step with
  | 1 => updCw i (fun c => { c with st := 1 }) s
  | 2 =>
    let s := updCw i (fun c => { c with st := 0, rereads := if c.mode = 0 then c.rereads else c.rereads + 1 }) s
    if c.mode = 0 then
      enqueue (refDie c.ref) { readOp s c with
        kind := .readLevel, cws := [i], recovery := c.sense.isSome
        vbase := match c.sense with
          | some x => x.vbase
          | none => 0 } s
    else
      enqueue (refDie c.ref) { readOp s c with
        kind := .readPage, cws := [i], recovery := true, offs := rereadOffsets c.mode c.page (c.rereads + 1) } s
  | 3 =>
    let s := updCw i (fun c => { c with st := 0 }) s
    enqueue (refDie c.ref) { readOp s c with
      kind := .readLevel, wl := c.wl + 1, cws := [i], recovery := true
      vbase := match c.sense with
        | some x => x.vbase
        | none => 0 } s
  | 4 => updCw i (fun c => { c with st := 1 }) s
  | _ => toL5 i s

/-- Climb after a failed step. TLC and SLC repeat step 2 up to three times (R314). -/
def climb (i : Nat) (s : State) : State :=
  let c := getCw s i
  if c.step = 2 ∧ c.mode ≠ 0 ∧ stepRuns s c 2 then enterStep i 2 s
  else enterStep i (nextStep s c c.step) s

/-! ## Decoding -/

/-- One decode: passed, iterations, corrected bits, miscorrected, the 4,160 bytes, decoded and hard bits. -/
structure Decoded where
  pass : Bool
  iters : Nat
  corrected : Nat
  mis : Bool
  bytes : List Nat
  bits : List Nat
  hard : List Nat
deriving DecidableEq, Repr

/-- Decode a codeword at its step (R299 to R309). -/
def decodeCw (s : State) (c : Cw) : Decoded :=
  let (ch, hard) := if c.step = 4 then erasedChannel s c else stepChannel s c c.step
  let lim := if c.cls = 4 ∧ c.step = 0 then getF s F.WPE_SKIM_CFG_ITER
    else if c.step = 0 then natBits c.cfg 16 5 else natBits c.cfg 24 6
  let (it, bits) := ldpcDecode ch lim
  let bytes := (packBits bits).take 4160
  let ok := cwCrcOk bytes
  ⟨it.isSome && ok, it.getD lim, ((bits.zip hard).filter (fun p => p.1 != p.2)).length, it.isSome && !ok, bytes, bits, hard⟩

/-- Queue a draining die's stripes in refresh class 1 (11 R436). -/
def drainDie (d : Nat) (s : State) : State :=
  if (getDie s d).draining then s
  else
    let s := fire 641 d (updDie d (fun x => { x with draining := true }) s)
    let ks := ((s.tabs.blocks.filter (fun e => refDie e.1 == d && e.2.st == .bound)).filterMap (fun e => e.2.stripe)).eraseDups
    ks.foldl (fun s k => queueRefresh 1 ((getStripe s k).zone.getD (2 ^ 32)) k s) s

/-- One hit of a column group (R305): counted once a wordline; at HITS it enters the grown map with a DEFECT record, and
a full map puts the die into drain. -/
def scoreHit (die plane : Nat) (blkWl : Nat) (s : State) (g : Nat) : State :=
  let key := (die * 4 + plane) * 1024 + g
  let old := mapGet 0 s.clc.hits key
  if old / 16 = blkWl + 1 then s
  else
    let n := min 15 (old % 16 + 1)
    let s := updClc (fun c => { c with hits := mapSet 0 c.hits key (n + 16 * (blkWl + 1)) }) s
    let m := mapGet [] s.tabs.grown (die * 4 + plane)
    if m.any (fun e => e / 16 == g) then
      let m' := m.map (fun e => if e / 16 = g then g * 16 + min 15 (e % 16 + 1) else e)
      updTabs (fun t => { t with grown := mapSet [] t.grown (die * 4 + plane) m' }) s
    else if n < getF s F.CLC_DEF_CFG_HITS then s
    else if m.length < 32 then
      let m' := m ++ [g * 16 + n]
      issue 0x1B 16 [die, plane, 1, g] [.grown (die * 4 + plane) m'] .nothing
        (updTabs (fun t => { t with grown := mapSet [] t.grown (die * 4 + plane) m' }) s)
    else drainDie die (fire 544 (die + plane * 2 ^ 12) s)

/-- Score the differing bits of a codeword that passed at L0 to L3 (R305). -/
def scoreHits (c : Cw) (r : Decoded) (s : State) : State :=
  if c.step ≤ 3 then
    (hitGroups r.bits r.hard (c.skip s) c.num (getF s F.CLC_DEF_CFG_HIT_BITS)).foldl
      (scoreHit (refDie c.ref) c.plane (refBlock c.ref * 256 + c.wl)) s
  else s

/-- A codeword that has passed (R309, R312): a member read gives its symbols to its L5, any other waits for what reads
it. -/
def cwPassed (i : Nat) (bytes : List Nat) (s : State) : State :=
  let c := getCw s i
  match c.parent with
  | none => updCw i (fun c => { c with st := 2, bytes := bytes }) s
  | some p =>
    let syms := if c.member < needParts s c then dataSyms bytes else paritySyms bytes
    updCw p (fun x => { x with parts := x.parts ++ [(c.member, syms)] }) (dropCw i s)

/-- A decode ends (R309, R311): the miscorrection is counted, the codeword passes or climbs. -/
def endDecode (i : Nat) (r : Decoded) (s : State) : State :=
  let c := getCw s i
  let s := updCw i (fun c => { c with
    iters := r.iters, corrected := r.corrected, miscorrected := r.mis, ran := if c.step ≤ 3 then c.step else c.ran }) s
  let s := if r.mis then fire 545 (refDie c.ref) (exitCount 7 s) else s
  if r.pass then cwPassed i r.bytes (scoreHits c r (exitCount c.step s)) else climb i s

/-- The codewords that read a die-block or a die go to L5 (R316). -/
def failReads (p : Cw → Bool) (s : State) : State :=
  (mapKeysWhere (fun _ c => p c && (c.st == 0 || c.st == 1)) s.clc.cws).foldl (fun s i =>
    if (getCw s i).cls = 0 then s else toL5 i s) s

/-- Samples held after a level read (R294): a P3 buffer is taken opportunistically; with none free they are not held. -/
def holdSense (ref wl : Nat) (x : Sense) (s : State) : State :=
  if getF s F.CLC_MODE_CFG_HOLD_US = 0 then s
  else
    let s := bpmAllocate 3 4 0x3FF 1048576 true s
    if s.bpm.status ≠ 0 then s
    else
      let h := s.bpm.handle
      updClc (fun c => { c with
        nextHeld := c.nextHeld + 1, held := mapSet held0 c.held c.nextHeld ⟨refDie ref, refBlock ref, wl, h, x⟩ }) s

/-- Drop held samples and free their buffer. -/
def dropHeld (key : Nat) (s : State) : State :=
  match s.clc.held.find? (fun e => e.1 == key) with
  | none => s
  | some (_, x) => bpmRelease 3 4 x.handle (updClc (fun c => { c with held := mapDel c.held key }) s)

/-- Drop the held samples of a die-block (R294, R316). -/
def dropHeldOf (ref : Nat) (s : State) : State :=
  (mapKeysWhere (fun _ x => refOf x.die x.block == ref) s.clc.held).foldl (fun s k => dropHeld k s) s

end Sys2Proof.Machine
end

