-- ==== Sys2Proof/Machine/RowOps.lean ====
section
/-! DEFINITION. Programming rows and staging (10): rows from ROW-ISSUE to the Skim pass, program failures, the Vat, Cooler
lanes and slices. -/

namespace Sys2Proof.Machine

/-! ## Access -/

/-- Key of a row: stripe × 256 + row. -/
def rowKey (k r : Nat) : Nat := k * 256 + r
def getRow (s : State) (k r : Nat) : RowSt := mapGet row0 s.wpe.rows (rowKey k r)
def updRow (k r : Nat) (f : RowSt → RowSt) (s : State) : State :=
  updWpe (fun w => { w with rows := mapUpd row0 w.rows (rowKey k r) f }) s

/-- Codewords of a die wordline in a zone stripe and in a log stripe (06 R195, R225). -/
def wlCodewords (k : Nat) : Nat := if isLog k then 48 else 80

/-- Members that are neither lost nor being rebuilt. -/
def survivors (s : State) (k : Nat) : List Nat :=
  let x := getStripe s k
  (List.range x.members.length).filter (fun m => !(x.lost.contains m) && !(x.rebuild.any (fun p => p.1 == m)))

/-- Members that are not lost without replacement. -/
def present (s : State) (k : Nat) : List Nat :=
  let x := getStripe s k
  (List.range x.members.length).filter (fun m => !(x.lost.contains m))

/-- The member of a stripe that a die-block is. -/
def memberOf (s : State) (ref : Nat) : Option (Nat × Nat) :=
  match (getBlock s ref).stripe with
  | none => none
  | some k => ((getStripe s k).members.findIdx? (· == ref)).map (fun m => (k, m))

/-- The mask of a list of members. -/
def memberMask (l : List Nat) : Nat := l.foldl (fun a m => a ||| 2 ^ m) 0

/-! ## Units of a row -/

/-- Unit keys of a row: by address in a zone, in landing order in a log stripe. -/
def rowUnits (s : State) (k r : Nat) : List Nat :=
  let x := getStripe s k
  match x.zone with
  | some zk => (s.units.filter (fun e => unitNs e.1 == zoneNs zk && unitLba e.1 / zoneLbas == zoneNum zk
      && unitLba e.1 % zoneLbas / rowLbas == r)).map Prod.fst
  | none => (s.units.filter (fun e => e.2.any (fun v => match v.place with
      | some p => p.1 == k && p.2.1 == r
      | none => false))).map Prod.fst

/-- Change the versions of a unit. -/
def updUnit (key : Nat) (f : List UnitV → List UnitV) (s : State) : State := { s with units := mapUpd [] s.units key f }

/-- A version lies in a row. -/
def inRow (k r : Nat) (zoned : Bool) (v : UnitV) : Bool :=
  zoned || (match v.place with
    | some p => p.1 == k && p.2.1 == r
    | none => false)

/-- Mark the versions of a row. -/
def markRow (k r : Nat) (f : UnitV → UnitV) (s : State) : State :=
  let z := (getStripe s k).zone.isSome
  (rowUnits s k r).foldl (fun s key => updUnit key (fun l => l.map (fun v => if inRow k r z v then f v else v)) s) s

/-! ## Completeness (R386) -/

/-- Rows of a stripe that hold data or padding of its zone, up to its data end. -/
def zoneRowEnd (z : Zone) : Nat := if z.st = .full ∨ z.st = .readOnly then (z.dataEnd + rowLbas - 1) / rowLbas else z.wp / rowLbas

/-- The first row that a stripe programs itself: a re-base target starts at the source's row count (12 R472). -/
def firstRow (s : State) (k : Nat) : Nat :=
  match (getStripe s k).zone with
  | some zk => if (getZone s zk).target = some k ∧ (getZone s zk).rebase then
      (match (getZone s zk).stripe with
        | some src => (getStripe s src).prog.length
        | none => 0) else 0
  | none => 0

/-- The lowest row not yet issued. -/
def currentRow (s : State) (k : Nat) : Nat :=
  ((List.range 256).find? (fun r => decide (firstRow s k ≤ r) && !((getStripe s k).issued.contains r))).getD 256

/-- The stripe a zone's new rows go to: its re-base target when it has one (12 R472). -/
def writeStripe (z : Zone) : Option Nat := if z.rebase then z.target else z.stripe

/-- A row is complete, or closed early (R386). -/
def rowIsComplete (s : State) (k r : Nat) : Bool :=
  let x := getStripe s k
  match x.zone with
  | some zk =>
    let z := getZone s zk
    writeStripe z == some k && decide (r < zoneRowEnd z)
  | none => decide ((x.members.length - 2) * 48 ≤ x.filling.length)

/-! ## Starting a row -/

/-- The tenant of a stripe as a charge (04 R139). -/
def stripeTenant (s : State) (k : Nat) : Option Nat := some (getStripe s k).tenant

/-- The programs of an issued row are queued (R387, R389) for the members that survive. -/
def startRow (k r : Nat) (s : State) : State :=
  if (getStripe s k).live = false ∨ mapCount (fun key _ => key == rowKey k r) s.wpe.rows = 0 then s
  else
    let s := updRow k r (fun x => { x with st := 1 }) s
    (survivors s k).foldl (fun s m =>
      let ref := (getStripe s k).members.getD m 0
      if isLog k then queueOne ref r 1 (stripeTenant s k) 2 0 s else queueFoggy ref r (stripeTenant s k) 2 0 s) s

/-- Give the units of a filled log row their places, by landing order (06 R225). -/
def placeLogRow (k r : Nat) (s : State) : State :=
  let x := getStripe s k
  let n := x.members.length - 2
  let row := x.filling.take (n * 48)
  let s := (row.zip (List.range row.length)).foldl (fun s p =>
    updUnit p.1 (fun l => match l.findIdx? (fun v => v.place == some (k, 256, 0)) with
      | some i => l.mapIdx (fun j v => if j = i then { v with place := some (k, r, p.2) } else v)
      | none => l) s) s
  updStripe k (fun x => { x with filling := x.filling.drop (n * 48) }) s

/-- ROW-ISSUE of a complete row (R387, 12 Table 12-3). The last row of a log stripe seals it. -/
def issueRow (k r : Nat) (s : State) : State :=
  let s := if isLog k then placeLogRow k r s else s
  let last := isLog k && r == 255
  let s := updStripe k (fun x => { x with
    issued := x.issued ++ [r], sealed := x.sealed || last, sealedAt := if last then s.jnl.nextJsn else x.sealedAt }) s
  let s := if last then updWpe (fun w => { w with openLog := mapDel w.openLog (getStripe s k).tenant }) s else s
  let s := updWpe (fun w => { w with setAside := mapDel w.setAside (rowKey k r) }) s
  let s := updRow k r (fun _ => { row0 with vat := true, pail := true }) s
  issue 0x06 16 [k, r] [.stripe k (getStripe s k)] (.startRow k r) s

/-! ## The Skim -/

/-- Codewords of a member's wordline in the Skim, lowest decoder class (R390). -/
def skimCw (s : State) (k m r pos : Nat) : Cw :=
  { cw0 with
    ref := (getStripe s k).members.getD m 0, wl := r, inStripe := true, stripe := k, member := m, row := r, pos := pos
    mode := if isLog k then 1 else 0, level := !isLog k, cls := 4 }

/-- Add the Skim codewords at some positions, answering their numbers. -/
def addSkimCws (k m r : Nat) (ps : List Nat) (s : State) : List Nat × State :=
  ps.foldl (fun acc p => let (i, s) := addCw (skimCw acc.2 k m r p) acc.2; (acc.1 ++ [i], s)) ([], s)

/-- Start the Skim of one member (R390): one level read of four planes, or a read of each of three pages. -/
def startSkim (k r : Nat) (s : State) (m : Nat) : State :=
  let ref := (getStripe s k).members.getD m 0
  let s := updRow k r (fun x => { x with skim := mapSet skim0 x.skim m { skim0 with left := wlCodewords k } }) s
  let op := { dieOp0 with
    block := refBlock ref, wl := r, planes := 15, col := 0, count := 608, tenant := stripeTenant s k, cls := 2, dcls := 3 }
  if isLog k then
    (List.range 3).foldl (fun s p =>
      let (is, s) := addSkimCws k m r ((List.range 16).map (fun j => p * 16 + j)) s
      enqueue (refDie ref) { op with kind := .readPage, mode := 1, page := p, cws := is, recovery := true, offs := List.replicate 31 0 } s) s
  else
    let (is, s) := addSkimCws k m r (List.range 80) s
    enqueue (refDie ref) { op with kind := .readLevel, cws := is } s

/-- Every member that is present has a verdict of Good or Weak: the row passes (R393), with its SKIM record. -/
def rowSkimCheck (k r : Nat) (s : State) : State :=
  let x := getRow s k r
  let ps := present s k
  if x.st = 3 ∧ (getStripe s k).skimmed.contains r = false ∧ ps ≠ []
      ∧ ps.all (fun m => let v := (mapGet skim0 x.skim m).verdict; v == 1 || v == 2) then
    let s := updStripe k (fun x => { x with skimmed := x.skimmed ++ [r] }) s
    issue 0x08 24 [k, r, memberMask ps] [.stripe k (getStripe s k)] (.rowVerified k r) s
  else s

/-- Every surviving member has its fine pass: ROW-PROG is issued and the Skim starts (R390, R398, 12 Table 12-3). -/
def rowProgCheck (k r : Nat) (s : State) : State :=
  let x := getRow s k r
  let sv := survivors s k
  if x.st = 1 ∧ sv ≠ [] ∧ sv.all (fun m => x.fine.contains m) then
    let s := updStripe k (fun x => { x with prog := x.prog ++ [r] }) s
    let s := updRow k r (fun x => { x with st := 3 }) s
    let refs := sv.map (fun m => (getStripe s k).members.getD m 0)
    let s := issue 0x07 (32 + 8 * ((6 * sv.length + 7) / 8)) [k, r, sv.length, writeStamp s, memberMask sv]
      (.stripe k (getStripe s k) :: refs.map (fun f => .block f (getBlock s f))) (.rowDurable k r) s
    (sv.filter (fun m => (mapGet skim0 (getRow s k r).skim m).verdict == 0)).foldl (startSkim k r) s
  else s

/-- A fine pass has been issued to every surviving member: the row drops its Vat references and its Rind codewords (R380,
R381). -/
def rowVatCheck (k r : Nat) (s : State) : State :=
  let x := getRow s k r
  let sv := survivors s k
  if x.vat ∧ sv ≠ [] ∧ sv.all (fun m => x.fineSent.contains m || x.fine.contains m) then
    markRow k r (fun v => { v with vat := false }) (dropVat (rowKey k r) s)
  else s

/-- A fine or one-pass program of a die wordline has been sent to its die. -/
def fineIssued (d : Nat) (o : DieOp) (s : State) : State :=
  match memberOf s (refOf d o.block) with
  | none => s
  | some (k, m) =>
    if o.kind = .fine ∨ (o.kind = .one ∧ o.mode = 1) then
      rowVatCheck k o.wl (updRow k o.wl (fun x => if x.st = 0 then x else { x with fineSent := x.fineSent ++ [m] }) s)
    else if o.kind = .foggy then updRow k o.wl (fun x => if x.st = 0 then x else { x with sent := x.sent ++ [m] }) s
    else s

/-- A fine or one-pass program has completed (09 R331): the snapshot and write stamp of its age group, and the row's
progress. -/
def wordlineDone (ref wl : Nat) (s : State) : State :=
  let d := refDie ref
  let g := wl / 32
  let s := updBlock ref (fun b => { b with
    wl := wl + 1
    snaps := if b.mode = 0 then mapPut b.snaps g (some (ageInt s d)) else b.snaps
    stamps := if b.mode = 0 then mapPut b.stamps g (writeStamp s) else b.stamps }) s
  let s := if s.top.readsOk ∧ s.rcu.sealed = false ∧ (getBlock s ref).mode = 0 ∧ ¬ s.rcu.preseal.contains (ref, g) then
    updRcu (fun r => { r with preseal := r.preseal ++ [(ref, g)] }) s else s
  match memberOf s ref with
  | none => s
  | some (k, m) =>
    let s := updRow k wl (fun x => if x.st = 0 then x else { x with fine := x.fine ++ [m] }) s
    rowProgCheck k wl (rowVatCheck k wl s)

/-! ## Closing fines (R388 rule 3) -/

/-- The last row of a zone. -/
def isLastRow (s : State) (k r : Nat) : Bool :=
  match (getStripe s k).zone with
  | some zk =>
    let z := getZone s zk
    r == 255 || decide ((z.zcap + rowLbas - 1) / rowLbas ≤ r + 1) || ((z.st == .full || z.st == .readOnly) && decide (zoneRowEnd z ≤ r + 1))
  | none => false

/-- A quiesce or a Flush of the zone's namespace covers a held wordline. -/
def flushCovers (s : State) (k : Nat) : Bool :=
  s.top.dev == .quiescing || (match (getStripe s k).zone with
    | some zk => s.qe.tasks.any (fun e => e.2.waitDurable.any (fun w => w.1 == zoneNs zk))
    | none => false)

/-- A foggy has completed (R388): the paired fine of the wordline before, or the wordline is parked; a closing fine
follows at once for the last row of its zone and under a quiesce or a Flush. -/
def foggyDone (d block wl : Nat) (s : State) : State :=
  let s := updDie d (fun x => { x with held := x.held ++ [(block, wl)] }) s
  let s := match memberOf s (refOf d block) with
    | some (k, m) => updRow k wl (fun x => if x.st = 0 then x else { x with foggy := x.foggy ++ [m] }) s
    | none => s
  let s := if 0 < wl ∧ (getDie s d).held.contains (block, wl - 1) then queueFine d (block, wl - 1) s else s
  let s := match memberOf s (refOf d block) with
    | some (k, _) => if isLastRow s k wl ∨ flushCovers s k then queueFine d (block, wl) s else s
    | none => s
  closeOthers d s

/-- Closing fines of every held wordline of a stripe. -/
def closeHeld (k : Nat) (s : State) : State :=
  (getStripe s k).members.foldl (fun s ref =>
    (getDie s (refDie ref)).held.foldl (fun s h => if h.1 = refBlock ref then queueFine (refDie ref) h s else s) s) s

/-! ## Program failures (R394, R395) -/

/-- A member leaves the rows in progress: its passes and its Skim are discarded. -/
def forgetMember (k m : Nat) (s : State) : State :=
  updWpe (fun w => { w with rows := mapMapVals row0 (fun key x => if key / 256 = k then
    { x with
      foggy := x.foggy.filter (· != m), sent := x.sent.filter (· != m), fineSent := x.fineSent.filter (· != m)
      fine := x.fine.filter (· != m), skim := mapDel x.skim m } else x) w.rows }) s

/-- Rows of a stripe in progress. -/
def rowsOf (s : State) (k : Nat) : List Nat := ((s.wpe.rows.filter (fun e => e.1 / 256 == k)).map (fun e => e.1 % 256))

/-- After a member has left: rows that waited for it go on. -/
def rowsSettle (k : Nat) (s : State) : State :=
  (rowsOf s k).foldl (fun s r => rowSkimCheck k r (rowProgCheck k r (rowVatCheck k r s))) s

/-- Drop the Skim codewords of a member. -/
def dropSkim (k m : Nat) (s : State) : State :=
  updClc (fun c => { c with cws := c.cws.filter (fun e => !(e.2.cls == 4 && e.2.stripe == k && e.2.member == m)) }) s

/-- A member is lost: what was running or waiting for it is dropped, and 06 R207 applies. -/
def memberGone (k m : Nat) (s : State) : State :=
  let ref := (getStripe s k).members.getD m 0
  let s := dropSkim k m (forgetMember k m (dropPrograms ref s))
  rowsSettle k (loseMember k m s)

/-- A member program has failed (R394): counted, source 611 fires, the die-block is a lost member and is retired. -/
def progFail (k m : Nat) (s : State) : State :=
  let x := getStripe s k
  if x.live = false ∨ x.members.length ≤ m ∨ x.lost.contains m then s
  else
    let ref := x.members.getD m 0
    let s := fire 611 (refDie ref) (bumpF F.WPE_FAIL_CNT_PROG_FAIL 1 s)
    retireBlock ref 0 (memberGone k m s)

/-- The verdict of a member (R392, Table 10-2) once every codeword has its class. -/
def skimVerdict (k r m : Nat) (s : State) : State :=
  let x := mapGet skim0 (getRow s k r).skim m
  if x.left ≠ 0 ∨ x.verdict ≠ 0 then s
  else
    let ref := (getStripe s k).members.getD m 0
    if x.failed ∨ getF s F.WPE_SKIM_CFG_WEAK_CW < x.marginal ∨ x.pilotsBad then
      progFail k m (fire 612 (refDie ref) (bumpF F.WPE_SKIM_CNT_BAD 1 s))
    else
      let weak := decide (0 < x.marginal) || x.sigmaBad
      let s := updRow k r (fun y => { y with skim := mapSet skim0 y.skim m { x with verdict := if weak then 2 else 1 } }) s
      let s := if weak then
          let s := bumpF F.WPE_SKIM_CNT_WEAK 1 s
          if flagF s F.MME_REFRESH_CFG_EARLY_WEAK then queueRefresh 4 s.jnl.nextJsn k s else s
        else s
      rowSkimCheck k r s

/-- A Skimmed codeword gets its class (R391): 0 Clean, 1 Marginal, 2 Failed. -/
def skimClass (c : Cw) (cls : Nat) (s : State) : State :=
  let s := updRow c.stripe c.row (fun y => if y.st = 0 then y else
    let x := mapGet skim0 y.skim c.member
    { y with skim := mapSet skim0 y.skim c.member { x with
      left := x.left - 1, marginal := x.marginal + (if cls = 1 then 1 else 0), failed := x.failed || decide (cls = 2) } }) s
  skimVerdict c.stripe c.row c.member s

/-- A Skim decode ends (R390, R391). -/
def skimDecoded (i : Nat) (r : Decoded) (s : State) : State :=
  let c := getCw s i
  let s := if r.mis then fire 545 (refDie c.ref) (exitCount 7 s) else s
  if r.pass then
    let s := scoreHits c r (exitCount c.step s)
    let clean := decide (c.step = 0) && decide (r.corrected ≤ getF s F.WPE_SKIM_CFG_BITS)
    skimClass c (if clean then 0 else 1) (dropCw i s)
  else if c.step = 0 ∧ r.mis = false ∧ stepRuns s c 1 then enterStep i 1 s
  else skimClass c 2 (dropCw i s)

/-- Conditions of the pilots of a Skim's level read (R392). -/
def skimPilots (k r m : Nat) (bad sigma : Bool) (s : State) : State :=
  updRow k r (fun y => if y.st = 0 then y else
    let x := mapGet skim0 y.skim m
    { y with skim := mapSet skim0 y.skim m { x with pilotsBad := x.pilotsBad || bad, sigmaBad := x.sigmaBad || sigma } }) s

/-! ## Verified rows -/

/-- Slices of a row. -/
def slicesOf (s : State) (k r : Nat) : List Nat := mapKeysWhere (fun _ x => x.stripe == k && x.row == r) s.tabs.slices

/-- Slices become stale: a STALE record takes them out of the directory (10 R401, 12 Table 12-3). -/
def staleSlices (ns : List Nat) (s : State) : State :=
  if ns = [] then s
  else
    let clear (v : UnitV) : UnitV := if ns.any (fun n => v.slice == some n) then { v with slice := none } else v
    let us := mapMapVals [] (fun _ l => l.map clear) s.units
    let s := { s with units := us }
    let s := updTabs (fun t => { t with slices := t.slices.filter (fun e => !(ns.contains e.1)) }) s
    issue 0x0A (8 + 8 * ((4 * ns.length + 7) / 8)) ns (ns.map Patch.dropSlice) .nothing s

/-- The SKIM record of a row is accepted (R393): its Pail is released and its slices become stale. -/
def rowVerified (k r : Nat) (s : State) : State :=
  let s := updWpe (fun w => { w with rows := mapDel w.rows (rowKey k r) }) (dropVat (rowKey k r) s)
  staleSlices (slicesOf s k r) s

/-- The ROW-PROG record of a row is accepted: its units are durable (R398). -/
def rowDurable (k r : Nat) (s : State) : State := markRow k r (fun v => { v with durable := true }) s

/-! ## Cooler lanes and slices -/

/-- Take an SLC block for the Cooler or the journal; owner 0xFFFF (12 Table 12-3). -/
def takeSlc (ref : Nat) (s : State) : State :=
  updBlock ref (fun b => { b with st := .bound, mode := 2, owner := 0xFFFF, stripe := none, wl := 0 }) s

/-- Open staging blocks on some links. -/
def openLanes (ks : List Nat) (s : State) : State :=
  ks.foldl (fun s k =>
    if (laneBlock s k).isSome ∨ areaRoom s = false then s
    else match usableSlc s k with
      | some r => updWpe (fun w => { w with areaBlocks := w.areaBlocks.filter (· != r) ++ [r] }) (takeSlc r s)
      | none => s) s

/-- Cut a list into pieces of at most `n`. -/
def chunks (n : Nat) (l : List Nat) : Nat → List (List Nat)
  | 0 => []
  | fuel + 1 => if l = [] then [] else l.take n :: chunks n (l.drop n) fuel

/-- Write one slice (R397): k units of one column and their Pail, each codeword on a lane of its own; its SLICE record. -/
def writeSlice (k r col : Nat) (pailOnly : Bool) (units : List Nat) (s : State) : State :=
  let ls := (lanes s).take (units.length + 1)
  if ls.length < units.length + 1 then s
  else
    let s := openLanes ls s
    let refs := ls.filterMap (laneBlock s)
    let spots := refs.map (fun f => (getBlock s f).wl)
    let s := refs.foldl (fun s f => updBlock f (fun b => { b with wl := b.wl + 1 }) s) s
    let n := s.wpe.nextSlice
    let v : Slice := ⟨k, r, units, pailOnly, refs, spots⟩
    let s := updWpe (fun w => { w with nextSlice := n + 1 }) s
    let s := updTabs (fun t => { t with slices := mapSet slice0 t.slices n v }) s
    let s := if pailOnly then s else units.foldl (fun s u =>
      updUnit u (fun l => match l with
        | v :: rest => { v with slice := some n } :: rest
        | [] => []) s) s
    issue 0x09 (24 + 8 * (units.length + 1)) [n, k, col, units.length] [.slice n v] (.sliceDurable n) s

/-- Row and parity column of a unit in a stripe (02 Table 02-4). -/
def unitColumn (s : State) (k u : Nat) : Nat × Nat :=
  match (getStripe s k).zone with
  | some _ => let off := unitLba u % zoneLbas; (off / rowLbas, off / 50)
  | none =>
    let n := (getStripe s k).members.length - 2
    match (mapGet [] s.units u).head?.bind (fun v => v.place) with
    | some p => if p.2.1 = 256 then (256, ((getStripe s k).filling.findIdx? (· == u)).getD 0 / n) else (p.2.1, p.2.2 / n)
    | none => (256, 0)

/-- Committed, non-durable units of a stripe that no slice holds, with their row and column. -/
def unstaged (s : State) (k : Nat) : List (Nat × Nat × Nat) :=
  let mine (e : Nat × List UnitV) : Bool :=
    match e.2.head? with
    | none => false
    | some v => !v.durable && v.slice.isNone && v.kind != 256 && (match (getStripe s k).zone with
      | some zk => unitNs e.1 == zoneNs zk && unitLba e.1 / zoneLbas == zoneNum zk && v.zgen == (getZone s zk).zgen
      | none => (match v.place with
        | some p => p.1 == k
        | none => false))
  (s.units.filter mine).map (fun e => (e.1, unitColumn s k e.1))

/-- Stage some units of a stripe in slices, column by column (R397); with fewer than two lanes staging waits. -/
def stageUnits (k : Nat) (us : List (Nat × Nat × Nat)) (s : State) : State :=
  let n := (lanes s).length
  if n < 2 then s
  else
    let cols := (us.map Prod.snd).eraseDups
    cols.foldl (fun s rc =>
      let here := (us.filter (fun u => u.2 == rc)).map Prod.fst
      (chunks (min 50 (n - 1)) here here.length).foldl (fun s c => writeSlice k rc.1 rc.2 false c s) s) s

/-- Stage every committed, non-durable unit of a stripe (R399). -/
def stageStripe (k : Nat) (s : State) : State := stageUnits k (unstaged s k) s

/-- Stage the current row of a zone that leaves the open states through Close (R379), and release its set-aside. -/
def stageCurrent (k : Nat) (s : State) : State :=
  let r := currentRow s k
  stageUnits k ((unstaged s k).filter (fun u => u.2.1 == r)) s

/-- FULL sets when no lane can take another block (R401); source 609 fires. -/
def coolerSettle (s : State) : State :=
  let full := areaRoom s == false && ((areaTaken s).all (fun r => (getBlock s r).st != .bound || decide (stageCap ≤ (getBlock s r).wl)))
  if full = s.wpe.full then s
  else
    let s := updWpe (fun w => { w with full := full }) s
    if full then fire 609 (coolerUsed s) s else s

/-- A Closed zone's current row whose committed units are all durable releases the Vat buffers that feed only it (R379). -/
def closeSettle (k : Nat) (s : State) : State :=
  let r := currentRow s k
  match (getStripe s k).zone with
  | some zk =>
    if (getZone s zk).st = .closed ∧ (unstaged s k).all (fun u => u.2.1 != r)
        ∧ (rowUnits s k r).all (fun u => ((mapGet [] s.units u).head?.map (·.durable)).getD true) then
      markRow k r (fun v => { v with vat := false }) (dropVat (rowKey k r) s)
    else s
  | none => s

/-- A zone is Closed: its current row goes to the Cooler (R379). -/
def stageClosed (zk : Nat) (s : State) : State :=
  match writeStripe (getZone s zk) with
  | some k => if (getZone s zk).st = .closed then closeSettle k (coolerSettle (stageCurrent k s)) else s
  | none => s

/-- The SLICE record is accepted: its units are durable (R398). -/
def sliceDurable (n : Nat) (s : State) : State :=
  let x := mapGet slice0 s.tabs.slices n
  closeSettle x.stripe (x.units.foldl (fun s u =>
    updUnit u (fun l => l.map (fun v => if v.slice = some n then { v with durable := true } else v)) s) s)

/-- Pail of an unverified row to the Cooler (R393, 01 R34). -/
def stagePail (k r : Nat) (s : State) : State :=
  if (lanes s).length < 2 ∨ (slicesOf s k r).any (fun n => (mapGet slice0 s.tabs.slices n).pailOnly) then s
  else writeSlice k r 0 true [] s

/-! ## The Vat -/

/-- The Vat limit in bytes. -/
def vatLimit (s : State) : Nat := getF s F.WPE_VAT_CFG_LIMIT_GIB * 2 ^ 30

end Sys2Proof.Machine
end

