-- ==== Sys2Proof/Machine/ReadOps.lean ====
section
/-! DEFINITION. What a read of a unit finds (05 R175, R176, 06 R195 to R197) and where it starts: from the Vat, from a
stripe through the ladder, or from a Cooler slice. -/

namespace Sys2Proof.Machine

/-- The version of a unit that a read with stamp `st` sees (R176); versions are listed newest first. -/
def versionAt (s : State) (key st : Nat) : Option UnitV := (mapGet [] s.units key).find? (fun v => decide (v.stamp < st))

/-- The version of a discarded range: no data from its stamp on (12 R459, R467). -/
def UnitV.gone (v : UnitV) : Bool := v.kind == 256

/-- The mark of a deallocation. -/
def goneUnit (stamp : Nat) : UnitV := ⟨0, stamp, 256, 0, 0, 0, 0, 0, false, false, none, none⟩

/-- 4,096 zero bytes. -/
def zeroUnit : List Nat := List.replicate 4096 0

/-- A unit of a Read or Verify has passed with its bytes, or fails with a status. -/
def unitPassed (slot i : Nat) (bytes : List Nat) (s : State) : State :=
  updTask slot (fun t => { t with passed := mapPut t.passed i (some bytes) }) s
def unitFailed (slot i sct sc : Nat) (s : State) : State :=
  updTask slot (fun t => { t with failed := t.failed ++ [(i, sct, sc)] }) s

/-- The stripe that holds a row of a zone for reads: the target above its watermark or the source (12 R472, 11 R432). -/
def readStripe (s : State) (z : Zone) (r : Nat) : Option Nat :=
  match z.rebase, z.target with
  | true, some k => if firstRow s k ≤ r ∨ (getStripe s k).skimmed.contains r then some k else z.stripe
  | _, _ => z.stripe

/-- A codeword of a unit in a stripe. -/
def stripeCw (s : State) (k : Nat) (spot : Spot) : Cw :=
  { cw0 with
    ref := (getStripe s k).members.getD spot.member 0, wl := spot.row, inStripe := true, stripe := k, member := spot.member
    row := spot.row, pos := spot.k, mode := if isLog k then 1 else 0 }

/-- Place of a log-row position in its stripe of `n` data members, filled column by column (06 R225). -/
def logSpot (n r pos : Nat) : Spot := ⟨pos % n, r, pos / n⟩

/-- The codeword a unit is read from; none: it is nowhere on flash. -/
def unitCw (s : State) (key : Nat) (v : UnitV) : Option Cw :=
  let ns := unitNs key
  let onSlice : Option Cw := v.slice.map (fun n => sliceCw s cw0 n (((mapGet slice0 s.tabs.slices n).units.findIdx? (· == key)).getD 0))
  let inStripe : Option Cw :=
    if (getNs s ns).conv then
      match v.place with
      | some (k, r, pos) => if r < 256 ∧ (getStripe s k).issued.contains r then
          some (stripeCw s k (logSpot ((getStripe s k).members.length - 2) r pos)) else none
      | none => none
    else
      let spot := zoneSpot (unitLba key % zoneLbas)
      match readStripe s (getZone s (zoneOfLba ns (unitLba key))) spot.row with
      | some k => if (getStripe s k).issued.contains spot.row then some (stripeCw s k spot) else none
      | none => none
  match inStripe with
  | some c => if (getStripe s c.stripe).prog.contains c.row ∨ onSlice.isNone then some c else onSlice
  | none => onSlice

/-- Start the read of one unit (R176, 13 R507): zeroes where nothing is stored, the Vat's copy, or the ladder. -/
def startUnit (slot st : Nat) (level : Bool) (s : State) (i : Nat) : State :=
  let t := getTask s slot
  let lba := t.slba + i
  let key := unitKey t.ns lba
  let n := getNs s t.ns
  let z := getZone s (zoneOfLba t.ns lba)
  if s.tabs.lostUnits.contains key then unitFailed slot i 2 0x81 s
  else if n.conv = false ∧ (z.wp ≤ lba % zoneLbas ∨ z.st = .empty) then unitPassed slot i zeroUnit s
  else
    match versionAt s key st with
    | none => unitPassed slot i zeroUnit s
    | some v =>
      if v.gone then unitPassed slot i zeroUnit s
      else if v.vat then unitPassed slot i (leBytes 4096 v.data) s
      else
        match unitCw s key v with
        | some c => startCw { c with slot := some slot, index := i, key := key, zgen := z.zgen, cls := 1, level := level && c.mode == 0 } s
        | none => unitFailed slot i 2 0x81 s

/-- Whether a host read continues the previous one of its zone (08 R293 rule 3), and the table of ends after it: one entry
a zone, most recent first, 4,096 at most. -/
def seqMatch (s : State) (zk slba : Nat) : Bool :=
  flagF s F.CLC_MODE_CFG_SEQ_EN && s.clc.seq.any (fun e => e.1 == zk && e.2 + 1 == slba)
def seqNote (zk last : Nat) (s : State) : State :=
  updClc (fun c => { c with seq := ((zk, last) :: c.seq.filter (fun e => e.1 != zk)).take 4096 }) s

/-- Ends of a range in each zone it touches. -/
def seqNoteAll (ns slba nlb : Nat) (s : State) : State :=
  let first := slba / zoneLbas
  let last := (slba + nlb - 1) / zoneLbas
  (List.range (last + 1 - first)).foldl (fun s j =>
    seqNote (zoneKey ns (first + j)) (min (slba + nlb - 1) ((first + j + 1) * zoneLbas - 1)) s) s

/-- A namespace's next stamp is drawn (05 R175). -/
def drawStamp (ns : Nat) (s : State) : Nat × State :=
  ((getNs s ns).stamp, updNs ns (fun n => { n with stamp := n.stamp + 1 }) s)

/-- Writes of a namespace stamped below a bound that are not durable (05 R179, 12 R467). -/
def undurable (s : State) (ns bound : Nat) : List Commit := s.jnl.commits.filter (fun c => c.ns == ns && decide (c.stamp < bound))

/-- A Read or Verify enters Reading (05 Table 05-8): it draws its stamp and its units start. -/
def readStart (slot : Nat) (s : State) : State :=
  let t := getTask s slot
  let (st, s) := drawStamp t.ns s
  let s := updTask slot (fun t => { t with st := .reading, stamp := st, waitDurable := [] }) s
  let zoned := !(getNs s t.ns).conv
  let level := zoned && seqMatch s (zoneOfLba t.ns t.slba) t.slba
  let s := if zoned then seqNoteAll t.ns t.slba t.nlb s else s
  (List.range t.nlb).foldl (startUnit slot st level) s

/-- Writes below a bound that overlap a range (05 R179). -/
def overlapping (s : State) (ns bound slba nlb : Nat) : List Commit :=
  (undurable s ns bound).filter (fun c => decide (c.slba < slba + nlb) && decide (slba < c.slba + c.nlb))

/-- Stop every media read of a slot (05 R180, R183). -/
def abandonReads (slot : Nat) (s : State) : State :=
  let mine := mapKeysWhere (fun _ c => c.slot == some slot) s.clc.cws
  let s := updClc (fun c => { c with cws := c.cws.filter (fun e => e.2.slot != some slot) }) s
  let clean (o : DieOp) : DieOp := { o with cws := o.cws.filter (fun i => !(mine.contains i)) }
  updFlc (fun f => { f with dies := mapMapVals die0 (fun _ x =>
    { x with waiting := (x.waiting.map clean).filter (fun o => !o.isRead || o.cws != [] || o.probe != 0) }) f.dies }) s

end Sys2Proof.Machine
end

