-- ==== Sys2Proof/Machine/JournalOps.lean ====
section
/-! DEFINITION. The journal (12): pages, pairs, acceptance and what follows it, the durable prefix, checkpoints, anchors,
and the state that replay rebuilds. -/

namespace Sys2Proof.Machine

/-! ## Pairs (R461, R465) -/

/-- The JBLOCK records of a pair are accepted (Table 12-4). -/
def pairNamed (s : State) (p : Nat × Nat) : Bool :=
  let named (r : Nat) := let b := mapGet block0 s.dur.blocks r; b.st == .bound && b.mode == 2
  named p.1 && named p.2

/-- Links for a new pair: in distinct link groups, off some links, each with an SLC block to give. -/
def pairLinks (s : State) (avoid : List Nat) : Option (Nat × Nat) :=
  let ls := (laneLinks s).filter (fun k => !(avoid.contains k) && (usableSlc s k).isSome)
  ls.findSome? (fun a => (ls.find? (fun b => b / 8 != a / 8)).map (fun b => (a, b)))

/-- Open a pair with its JBLOCK records: `num` as PAIR of Table 12-2, `cls` 0 journal, 1 emergency. -/
def openPair (avoid : List Nat) (num cls : Nat) (s : State) : Option ((Nat × Nat) × State) :=
  match pairLinks s avoid with
  | none => none
  | some (a, b) =>
    match usableSlc s a, usableSlc s b with
    | some x, some y =>
      let s := takeSlc y (takeSlc x s)
      let s := issue 0x14 16 [num, 0, cls, x] [.block x (getBlock s x)] .nothing s
      some ((x, y), issue 0x14 16 [num, 1, cls, y] [.block y (getBlock s y)] .nothing s)
    | _, _ => none

/-- A block leaves the journal: kept until the anchor of the image after the next is written (R478). -/
def journalOld (r : Nat) (s : State) : State := updJnl (fun j => { j with old := j.old ++ [(r, j.imageSeq)] }) s

/-- Pairs are opened up to the configured number (R461), and 32 emergency pairs (R465). -/
def refillPairs (s : State) : Nat → State
  | 0 => s
  | fuel + 1 =>
    if pairsUp s < s.jnl.pairsN then
      match openPair [] s.jnl.pairs.length 0 s with
      | none => s
      | some (p, s) => refillPairs (updJnl (fun j => { j with pairs := j.pairs ++ [p] }) s) fuel
    else s
def refillEmergency (s : State) : Nat → State
  | 0 => s
  | fuel + 1 =>
    if s.jnl.emergency.length < 32 then
      match openPair [] (0x80 + s.jnl.emergency.length) 1 s with
      | none => s
      | some (p, s) => refillEmergency (updJnl (fun j => { j with emergency := j.emergency ++ [p] }) s) fuel
    else s

/-- Pairs whose link is out of service or whose blocks are full leave (R461). -/
def retirePairs (s : State) : State :=
  let full (p : Nat × Nat) : Bool := decide (256 ≤ (getBlock s p.1).wl) || decide (256 ≤ (getBlock s p.2).wl)
  let busy (p : Nat × Nat) : Bool := s.jnl.pages.any (fun g => !g.ok && (s.jnl.pairs.getD g.pair (0, 0)) == p)
  let go := s.jnl.pairs.filter (fun p => (full p || !pairUp s p) && !busy p)
  if go = [] ∨ s.jnl.pages.any (fun g => !g.ok) then s
  else go.foldl (fun s p => journalOld p.2 (journalOld p.1 s)) (updJnl (fun j => { j with pairs := j.pairs.filter (fun p => !(go.contains p)) }) s)

/-- The pairs after a change: replaced, refilled, and source 674 when PAIR_LOW sets; `old` is the state before. -/
def jnlSettle (old s : State) : State :=
  let s := if s.top.readsOk then refillEmergency (refillPairs (retirePairs s) 8) 32 else s
  if pairLow s ∧ pairLow old = false then fire 674 (pairsUp s) s else s

/-! ## Pages -/

/-- Records that fit a page: 16 units of 4,096 bytes less the header; the rest is PAD. -/
def takeRecs (room : Nat) : List Rec → List Rec
  | [] => []
  | r :: rest =>
    let n := r.words.headD 8
    if n ≤ room then r :: takeRecs (room - n) rest else []

/-- The blocks of a page's pair: 0x80 and above are emergency pairs. -/
def pagePair (s : State) (n : Nat) : Nat × Nat :=
  if n < 0x80 then s.jnl.pairs.getD n (0, 0) else s.jnl.emergency.getD (n - 0x80) (0, 0)

/-- The die operation that writes a copy of a page: an SLC program of the first class (07 R263), marked by its column. -/
def journalOp (seq ref wl : Nat) : DieOp :=
  { dieOp0 with kind := .one, block := refBlock ref, wl := wl, mode := 2, planes := 15, cls := 1, col := 1, count := seq }
def isJournalOp (seq : Nat) (o : DieOp) : Bool := o.kind == .one && o.mode == 2 && o.cls == 1 && o.col == 1 && o.count == seq

/-- Send both copies of a page to a pair. -/
def sendPage (seq pair : Nat) (s : State) : State :=
  let (a, b) := pagePair s pair
  [a, b].foldl (fun s r =>
    let w := (getBlock s r).wl
    enqueue (refDie r) (journalOp seq r w) (updBlock r (fun b => { b with wl := b.wl + 1 }) s)) s

/-- Pairs that a page may go to: in service, not busy with another page, not full, named in accepted JBLOCK records (while
none is: any). -/
def freePairs (s : State) : List Nat :=
  let ps := (s.jnl.pairs.zip (List.range s.jnl.pairs.length)).filter (fun p => pairUp s p.1
    && decide ((getBlock s p.1.1).wl < 256) && decide ((getBlock s p.1.2).wl < 256))
  let named := ps.filter (fun p => pairNamed s p.1)
  let use := if named = [] then ps else named
  (use.map Prod.snd).filter (fun i => !(s.jnl.pages.any (fun g => g.pair == i && !g.ok)))

/-- Seal the oldest records of the buffer into a page on a pair (R461). -/
def sealOn (pair : Nat) (s : State) : State :=
  let rs := takeRecs 65472 s.jnl.buffer
  if rs = [] then s
  else
    let seq := s.jnl.nextSeq
    let first := s.jnl.nextJsn - s.jnl.buffer.length
    sendPage seq pair (updJnl (fun j => { j with
      buffer := j.buffer.drop rs.length
      nextSeq := seq + 1
      pages := j.pages ++ [⟨seq, first, rs, pair, false⟩] }) s)

/-- Seal one page onto the first pair that is free; none in emergency mode (R465). -/
def sealPage (s : State) : State :=
  if s.jnl.emergencyMode then s
  else match freePairs s with
    | [] => s
    | p :: _ => sealOn p s

/-- Seal the whole buffer over journal and emergency pairs (R465). -/
def sealAll (ps : List Nat) (s : State) : Nat → State
  | 0 => s
  | fuel + 1 =>
    match ps with
    | [] => s
    | p :: rest => if s.jnl.buffer = [] then s else sealAll (rest ++ [p]) (sealOn p s) fuel

/-- A TIME record (01 R41, Table 12-3): the Time Unit and the tower temperatures. -/
def issueTime (s : State) : State :=
  let temps : List (Option Int) := (List.range 128).map (fun (k : Nat) =>
    if (getLink s k).st = 3 ∧ (List.range 32).any (fun d => (getDie s (k * 32 + d)).temp.isSome) then some (toSigned 10 (getLink s k).tempMax) else none)
  issue 0x11 280 [tuSec s.tu.t, tuNs s.tu.t] [] (.timeMark (tuSec s.tu.t) (tuNs s.tu.t) temps) s

/-! ## Acceptance (R462) -/

/-- The progress of a Sanitize or Format, and what the tenant's Sanitize Status log keeps of it. -/
def setSan (v : San) (t : Tables) : Tables :=
  { t with san := v, sanLog := if v.ns.isNone then mapSet san0 t.sanLog v.tenant { v with work := [], slot := none } else t.sanLog }

/-- The hint word of a range of zones (06 R216). -/
def setHints (ns first count hint : Nat) (m : SMap Zone) : SMap Zone :=
  (List.range count).foldl (fun m i => mapUpd zone0 m (zoneKey ns (first + i)) (fun z => { z with hint := hint })) m

/-- What a record changes in the durable layer. Read-disturb counts are checkpoint only: a block entry keeps the durable
one unless it is cleared (R458). -/
def applyPatch (t : Tables) (p : Patch) : Tables :=
  match p with
  | .ns k v => { t with nss := mapSet ns0 t.nss k v }
  | .zone k v => { t with zones := mapSet zone0 t.zones k v }
  | .bind k st tg rb => { t with zones := mapUpd zone0 t.zones k (fun z => { z with stripe := st, target := tg, rebase := rb }) }
  | .stripe k v => { t with stripes := mapSet stripe0 t.stripes k v }
  | .block k v => { t with blocks := mapUpd block0 t.blocks k (fun b => { v with senses := if v.senses = 0 then 0 else b.senses }) }
  | .slice k v => { t with slices := mapSet slice0 t.slices k v }
  | .dropSlice k => { t with slices := mapDel t.slices k }
  | .home k v => { t with homes := mapSet 0 t.homes k v }
  | .hints n f c h => { t with zones := setHints n f c h t.zones }
  | .skip k v => { t with skips := mapSet [] t.skips k v }
  | .grown k v => { t with grown := mapSet [] t.grown k v }
  | .dieLost k => { t with lostDies := if t.lostDies.contains k then t.lostDies else t.lostDies ++ [k] }
  | .lostUnit k gone => { t with lostUnits :=
      if gone then t.lostUnits.filter (· != k) else if t.lostUnits.contains k then t.lostUnits else t.lostUnits ++ [k] }
  | .san v => setSan v t

/-- Keys of a range that hold versions. -/
def rangeKeys (s : State) (ns lo n : Nat) : List Nat :=
  (s.units.filter (fun e => unitNs e.1 == ns && decide (lo ≤ unitLba e.1) && decide (unitLba e.1 < lo + n))).map Prod.fst

/-- Remove lost-unit entries of a range (05 R171). -/
def clearLost (ns lo n : Nat) (s : State) : State :=
  let inRange (k : Nat) := unitNs k == ns && decide (lo ≤ unitLba k) && decide (unitLba k < lo + n)
  let s := updTabs (fun t => { t with lostUnits := t.lostUnits.filter (fun k => !inRange k) }) s
  { s with dur := { s.dur with lostUnits := s.dur.lostUnits.filter (fun k => !inRange k) } }

/-- A discarding record of stamp `st` is accepted: every version below it goes (R203, R467). -/
def dropUnits (ns lo n st : Nat) (s : State) : State :=
  clearLost ns lo n ((rangeKeys s ns lo n).foldl (fun s k => updUnit k (fun l => l.filter (fun v => decide (st ≤ v.stamp))) s) s)

/-- A deallocation of stamp `st` is durable: older durable versions go (R459). -/
def dropDealloc (ns lo n st : Nat) (s : State) : State :=
  clearLost ns lo n ((rangeKeys s ns lo n).foldl (fun s k => updUnit k (fun l =>
    (l.map (fun v => if v.stamp = st then { v with durable := true } else v)).filter
      (fun v => decide (st ≤ v.stamp) || !v.durable)) s) s)

/-- CKPT-BEGIN is accepted: the image is captured and CKPT-END issued (R474, R475). -/
def ckptCaptured (s : State) : State :=
  let s := updRcu (fun r => { r with imgMarks := r.lastMark.toList }) s
  issue 0x13 16 [s.jnl.imageSeq] [] .ckptEnded s

/-- The source of an accepted zone REMAP is released when nothing binds it (Table 12-4, 11 R428). -/
def releaseSource (k : Nat) (s : State) : State :=
  let x := getStripe s k
  match x.zone with
  | some zk =>
    if x.live ∧ (getZone s zk).stripe ≠ some k ∧ (getZone s zk).target ≠ some k then zmSettle s (releaseStripe k s) else s
  | none => s

/-- What follows the acceptance of a record (Table 12-4). -/
def runAfter (a : After) (s : State) : State :=
  match a with
  | .nothing => s
  | .sendErase r =>
    if (getBlock s r).st = .erasing then
      enqueue (refDie r) { dieOp0 with kind := .erase, block := refBlock r, mode := (getBlock s r).mode, planes := 15 }
        (updBlock r (fun b => { b with stage := 2 }) s)
    else s
  | .startRow k r => startRow k r s
  | .rowDurable k r => rowDurable k r s
  | .rowVerified k r => rowVerified k r s
  | .sliceDurable n => sliceDurable n s
  | .dropUnits ns lo n st => dropUnits ns lo n st s
  | .dealloc ns st rs => rs.foldl (fun s r => dropDealloc ns r.1 r.2 st s) s
  | .timeMark sec ns temps =>
    let m : Mark := ⟨sec, ns, temps⟩
    { updRcu (fun r => { r with lastMark := some m, marks := r.marks ++ [m], imgMarks := r.imgMarks ++ [m] }) s with
      top := { s.top with markAccepted := true } }
  | .releaseSource k => releaseSource k s
  | .wipe w => updJnl (fun j => { j with wipes := j.wipes ++ [w] }) s
  | .clean => { s with top := { s.top with cleanAccepted := true } }
  | .ckptBegun => ckptCaptured s
  | .ckptEnded => updJnl (fun j => { j with endAccepted := true }) s

/-- One record is accepted. -/
def acceptRec (r : Rec) (s : State) : State :=
  let s := { s with dur := r.patches.foldl applyPatch s.dur }
  let s := if r.typ = 0x11 ∨ r.typ = 0 then s else updJnl (fun j => { j with lastType := r.typ }) s
  runAfter r.after s

/-- Accept pages in PAGE_SEQ order while both copies of each have returned. -/
def acceptPages (s : State) : Nat → State
  | 0 => s
  | fuel + 1 =>
    match s.jnl.pages with
    | [] => s
    | p :: rest =>
      if p.ok then
        let s := updJnl (fun j => { j with pages := rest, accSeq := p.seq, accJsn := p.first + p.recs.length }) s
        acceptPages (p.recs.foldl (fun s r => acceptRec r s) s) fuel
      else s

/-! ## The durable prefix (R467) -/

/-- A write with an accepted COMMIT is wholly durable: every unit it still has is. -/
def commitDone (s : State) (c : Commit) : Bool :=
  decide (c.jsn < s.jnl.accJsn) && (List.range c.nlb).all (fun i =>
    match (mapGet [] s.units (unitKey c.ns (c.slba + i))).find? (fun v => v.stamp == c.stamp) with
    | none => true
    | some v => v.durable)

/-- The cut of a namespace: no write stamped at or above it survives a power loss; none: every write does. -/
def cutOf (s : State) (ns : Nat) : Option Nat :=
  (s.jnl.commits.filter (fun c => c.ns == ns)).foldl (fun m c => match m with
    | none => some c.stamp
    | some x => some (min x c.stamp)) none

/-- A stamp lies below the cut. -/
def belowCut (s : State) (ns st : Nat) : Bool :=
  match cutOf s ns with
  | none => true
  | some c => decide (st < c)

/-- A version survives a power loss. -/
def survives (s : State) (ns : Nat) (v : UnitV) : Bool := v.durable && belowCut s ns v.stamp

/-- Versions behind one that survives are forgotten. -/
def keepNeeded (s : State) (ns : Nat) : List UnitV → List UnitV
  | [] => []
  | v :: rest => if survives s ns v then [v] else v :: keepNeeded s ns rest

/-- Commits that have become wholly durable leave the list. -/
def settleCommits (s : State) : State :=
  let (done, keep) := s.jnl.commits.partition (commitDone s)
  if done = [] then s
  else
    let s := updJnl (fun j => { j with commits := keep }) s
    done.foldl (fun s c => (List.range c.nlb).foldl (fun s i => updUnit (unitKey c.ns (c.slba + i)) (keepNeeded s c.ns) s) s) s

/-! ## Commands that wait for records (05 Table 05-8, R179) -/

/-- A Read or Verify. -/
def Task.reads (t : Task) : Bool := !t.admin && (t.cap.opc == 0x02 || t.cap.opc == 0x0C)

/-- Everything a slot waits for is there. -/
def taskReady (s : State) (t : Task) : Bool :=
  (match t.waitJsn with
    | some j => decide (j < s.jnl.accJsn)
    | none => true)
  && t.waitDurable.all (fun w => if t.reads then (overlapping s w.1 w.2 t.slba t.nlb).isEmpty else (undurable s w.1 w.2).isEmpty)

/-- A waiting slot goes on: a Read starts; anything else completes with the status it holds. -/
def taskGoes (k : Nat) (s : State) : State :=
  let t := getTask s k
  if (t.waitJsn = none ∧ t.waitDurable = []) ∨ taskReady s t = false then s
  else if t.reads then readStart k s
  else if t.st = .committed then
    let s := updJnl (fun j => { j with commits := j.commits.map (fun c =>
      if c.ns = t.ns ∧ c.stamp = t.stamp then { c with postTick := some s.tu.ticks } else c) }) s
    finish k t.sct t.sc t.dnr t.dw0 t.dw1 s
  else if t.st = .executing then finish k t.sct t.sc t.dnr t.dw0 t.dw1 s
  else s

/-- Slots whose waiting has ended. -/
def settleTasks (s : State) : State := (s.qe.tasks.map Prod.fst).foldl (fun s k => taskGoes k s) s

/-- After records have been accepted. -/
def settle (s : State) : State := settleTasks (settleCommits s)

/-! ## Checkpoints (R474 to R478) -/

/-- Start a checkpoint, or hold the trigger while one runs (R476). -/
def startCkpt (s : State) : State :=
  if s.jnl.ckptActive then updJnl (fun j => { j with ckptHeld := true }) s
  else
    let s := issueTime s
    let from_ := s.jnl.commits.foldl (fun m c => min m c.vol) s.jnl.volume
    let s := updJnl (fun j => { j with
      ckptActive := true
      endAccepted := false
      imageSeq := j.imageSeq + 1
      ckptJsn := j.nextJsn
      ckptFrom := from_
      lastStart := s.tu.ticks }) s
    let s := updRcu (fun r => { r with
      imgAges := r.dies.map (fun e => (e.1, e.2.age))
      imgRefreshed := (r.dies.filter (fun e => e.2.refreshed != 0)).map (fun e => (e.1, e.2.refreshed))
      imgLearned := (r.dies.filter (fun e => e.2.learned.isSome)).map (fun e => (e.1, e.2.learned)) }) s
    let s := updMme (fun m => { m with imgCursor := m.cursor }) s
    issue 0x12 16 [s.jnl.imageSeq] [] .ckptBegun s

/-- A checkpoint is abandoned (R487). -/
def abandonCkpt (s : State) : State :=
  updJnl (fun j => { j with ckptActive := false, ckptHeld := false, ckptForQuiesce := false, endAccepted := false }) s

/-- Towers for an anchor (R477): four in distinct awake groups, round robin from the last one used. -/
def anchorTowers (s : State) : List Nat :=
  let ls := (laneLinks s).filter (fun k => !dieIsLost s (k * 32))
  let turn := ls.filter (fun k => decide (s.jnl.anchorTower ≤ k)) ++ ls.filter (fun k => decide (k < s.jnl.anchorTower))
  (turn.foldl (fun acc k => if acc.length < 4 ∧ ¬ (acc.any (fun j => j / 8 == k / 8)) then acc ++ [k] else acc) [])

/-- Write an anchor codeword on a tower: the next wordline of its open anchor block, or the other block when it is full. -/
def writeAnchor (k : Nat) (s : State) : State :=
  let a := refOf (k * 32) 0
  let b := refOf (k * 32) 1
  let r := if (getBlock s a).wl < 256 then a else if (getBlock s b).wl < 256 then b else a
  if 256 ≤ (getBlock s r).wl then
    updBlock (if r = a then b else a) (fun x => { x with wl := 0 }) (updBlock r (fun x => { x with wl := 1, mode := 2 }) s)
  else updBlock r (fun x => { x with wl := x.wl + 1, mode := 2 }) s

/-- Journal blocks that no kept image needs are released (R478). -/
def releaseOld (s : State) : State :=
  let (go, keep) := s.jnl.old.partition (fun p => decide (p.2 + 2 ≤ s.jnl.lastSeq))
  go.foldl (fun s p => issueRelease p.1 s) (updJnl (fun j => { j with old := keep }) s)

/-- The running image becomes the newest complete one. -/
def completeCkpt (s : State) : State :=
  let forQ := s.jnl.ckptForQuiesce
  let ts := anchorTowers s
  let s := ts.foldl (fun s k => writeAnchor k s) s
  let next := match ts.getLast? with
    | some k => k + 1
    | none => s.jnl.anchorTower
  let s := updJnl (fun j => { j with
    ckptActive := false
    ckptForQuiesce := false
    endAccepted := false
    anchors := ts
    anchorTower := next
    lastSeq := j.imageSeq
    fromVol := j.ckptFrom }) s
  let s := updRcu (fun r => { r with
    ckptAges := r.imgAges
    ckptRefreshed := r.imgRefreshed
    ckptLearned := r.imgLearned
    marks := r.imgMarks }) s
  let s := updMme (fun m => { m with ckptCursor := m.imgCursor }) s
  -- the durable layer's checkpoint-only counters
  let s := { s with dur := { s.dur with blocks := s.dur.blocks.map (fun e => (e.1, { e.2 with senses := (getBlock s e.1).senses })) } }
  let s := releaseOld (fire 676 (s.jnl.lastSeq % 2 ^ 32) s)
  let s := if forQ then { s with top := { s.top with ckptAccepted := true } } else s
  if s.jnl.ckptHeld then startCkpt (updJnl (fun j => { j with ckptHeld := false }) s) else s

/-! ## Failures of a copy (R462) -/

/-- Write a page again on another pair, off a block and a link; a new pair is opened when no open one qualifies. -/
def rewritePage (seq badRef : Nat) (s : State) : State :=
  let fits (i : Nat) : Bool :=
    let p := pagePair s i
    p.1 != badRef && p.2 != badRef && refLink p.1 != refLink badRef && refLink p.2 != refLink badRef
  let place (i : Nat) (s : State) : State :=
    sendPage seq i (updJnl (fun j => { j with pages := j.pages.map (fun g => if g.seq = seq then { g with pair := i } else g) }) s)
  let clear := updFlc (fun f => { f with dies := mapMapVals die0 (fun _ x => { x with waiting := x.waiting.filter (fun o => !isJournalOp seq o) }) f.dies }) s
  match (freePairs s).find? fits with
  | some i => place i clear
  | none =>
    match openPair [refLink badRef] s.jnl.pairs.length 0 clear with
    | some (p, s) =>
      let i := s.jnl.pairs.length
      place i (updJnl (fun j => { j with pairs := j.pairs ++ [p] }) s)
    | none => clear

/-- A copy of a page has failed: `status` 0 its link was lost, otherwise a program failure of that block, which is
retired. -/
def copyFailed (seq copy status : Nat) (s : State) : State :=
  match s.jnl.pages.find? (fun g => g.seq == seq && !g.ok) with
  | none => s
  | some g =>
    let p := pagePair s g.pair
    let bad := if copy = 0 then p.1 else p.2
    let s := if status = 0 then s else retireBlock bad 0 s
    rewritePage seq bad s

/-- A link is lost: pages in flight on it are written again (R487). -/
def journalLinkLost (k : Nat) (s : State) : State :=
  (s.jnl.pages.filter (fun g => !g.ok)).foldl (fun s g =>
    let p := pagePair s g.pair
    if refLink p.1 = k then copyFailed g.seq 0 0 s else if refLink p.2 = k then copyFailed g.seq 1 0 s else s) s

/-! ## Replay (R467 to R473, R479) -/

/-- Units after a power loss: only durable versions below the cut; the Vat is gone. -/
def survivingUnits (s : State) : SMap (List UnitV) :=
  s.units.filterMap (fun e =>
    let l := (e.2.filter (survives s (unitNs e.1))).map (fun v => { v with vat := false })
    if l = [] then none else some (e.1, l.take 1))

/-- End offset of a zone's surviving data. -/
def zoneEnd (us : SMap (List UnitV)) (zk : Nat) : Nat :=
  (us.filter (fun e => unitNs e.1 == zoneNs zk && unitLba e.1 / zoneLbas == zoneNum zk)).foldl
    (fun m e => max m (unitLba e.1 % zoneLbas + 1)) 0

/-- A zone descriptor as replay leaves it (R468, R469). -/
def resolveZone (us : SMap (List UnitV)) (zk : Nat) (z : Zone) : Zone :=
  let wp := zoneEnd us zk
  { z with wp := wp, adm := wp, dataEnd := min z.dataEnd wp, shrinking := false }

/-- Stripes that something still binds. -/
def stripeKept (t : Tables) (k : Nat) (x : Stripe) : Bool :=
  x.live && (match x.zone with
    | some zk => let z := mapGet zone0 t.zones zk; z.stripe == some k || z.target == some k
    | none => x.members.any (fun r => (mapGet block0 t.blocks r).st == .bound))

/-- A die-block as replay leaves it (R479 step 6, 11 R424): Released and orphaned blocks need an erase, Reserved and Ready
ones are Free again, an erase without its header is unconfirmed. `bump`: what a sudden power loss adds to a sense count by
mode (11 R431). -/
def resolveBlock (keep : List Nat) (slc : List Nat) (bump : Nat → Nat) (r : Nat) (b : Block) : Block :=
  let b := { b with senses := b.senses + bump b.mode }
  match b.st with
  | .released => { b with st := .needsErase, stripe := none, stage := 0 }
  | .erasing => { b with st := .needsErase, unconf := true, recovery := true, stage := 0 }
  | .ready => { b with st := .free }
  | .bound =>
    match b.stripe with
    | some k => if keep.contains k then b else { b with st := .needsErase, stripe := none, stage := 0 }
    | none => if slc.contains r then b else { b with st := .needsErase, stage := 0 }
  | _ => b

/-- A torn or untouched row set after a power loss: rows with ROW-PROG stay. -/
def resolveStripe (x : Stripe) : Stripe := { x with filling := [] }

/-- The tables that replay rebuilds from the durable layer. -/
def resolveTables (s : State) (us : SMap (List UnitV)) (sudden : Bool) : Tables :=
  let t := s.dur
  let bump (mode : Nat) : Nat :=
    if sudden = false then 0
    else if mode = 0 then 125 * getF s F.MME_DISTURB_CFG_PLC_LIMIT
    else if mode = 1 then 125 * getF s F.MME_DISTURB_CFG_TLC_LIMIT else 0
  let slc := s.jnl.pairs.flatMap (fun p => [p.1, p.2]) ++ s.jnl.emergency.flatMap (fun p => [p.1, p.2])
    ++ s.jnl.old.map Prod.fst ++ s.wpe.areaBlocks ++ s.tabs.slices.flatMap (fun e => e.2.refs)
  let zones := mapMapVals zone0 (fun zk z => resolveZone us zk z) t.zones
  let t := { t with zones := zones }
  let stripes := t.stripes.filter (fun e => stripeKept t e.1 e.2)
  let keep := stripes.map Prod.fst
  let held := zones.flatMap (fun e => e.2.reserve)
  { t with
    stripes := mapMapVals stripe0 (fun _ x => resolveStripe x) stripes
    blocks := mapMapVals block0 (fun r b =>
      let b := resolveBlock keep slc bump r b
      if b.st = .reserved ∧ held.contains r = false then { b with st := .free } else b) t.blocks
    slices := t.slices.filter (fun e => keep.contains e.2.stripe)
    san := { t.san with slot := none } }

/-- Phase 1 of replay: the journal's unaccepted records are gone, D cuts the writes, and both layers hold what survives. -/
def replayTables (s : State) : State :=
  let sudden := decide (s.jnl.lastType ≠ 0x1E)
  let us := survivingUnits s
  let t := resolveTables s us sudden
  let nextJ := s.jnl.accJsn
  updJnl (fun j => { j with buffer := [], pages := [], commits := [], nextJsn := nextJ, nextSeq := j.accSeq + (if nextJ = 0 then 0 else 1) })
    { s with tabs := t, dur := t, units := us }

end Sys2Proof.Machine
end

