-- ==== Sys2Proof/Machine/LinkOps.lean ====
section
/-! DEFINITION. Links, towers and dies coming and going (07 R236 to R253, R267 to R270). -/

namespace Sys2Proof.Machine

/-! ## Settling after a change of the links in service -/

/-- After a change of the links in service: lanes, journal pairs, the flags of ZM_STATUS, and source 7 with NVM Subsystem
Reliability when fewer than 53 links are left. `old` is the state before. -/
def linkSettle (old s : State) : State :=
  let s := jnlSettle old (coolerSettle s)
  let s := zmSettle old s
  if linksFew s ∧ linksFew old = false then raiseAenAll 1 0 (fire 7 (trainedLinks s) s) else s

/-! ## Withdrawing what runs on a die -/

/-- The codewords a die's operations serve. -/
def dieCws (x : Die) : List Nat := (x.waiting ++ x.reading).flatMap (·.cws)

/-- Whether an operation is a copy of a journal page, and which. -/
def journalSeq (s : State) (o : DieOp) : Option Nat :=
  (s.jnl.pages.find? (fun g => isJournalOp g.seq o)).map (fun g => g.seq)

/-- A program, erase or verify ends without its result (R253): a program is a failure of its member, an erase leaves the
die-block in Needs-erase unconfirmed, a journal copy is written again. -/
def opAbandoned (d : Nat) (o : DieOp) (s : State) : State :=
  let ref := refOf d o.block
  match o.kind with
  | .erase | .verify =>
    updBlock ref (fun b => if b.st = .erasing then { b with st := .needsErase, unconf := true, recovery := true, stage := 0 } else b) s
  | .foggy | .fine | .one =>
    match journalSeq s o with
    | some q =>
      match s.jnl.pages.find? (fun g => g.seq == q) with
      | some g => copyFailed q (if (pagePair s g.pair).1 = ref then 0 else 1) 6 s
      | none => s
    | none =>
      match memberOf s ref with
      | some (k, m) => progFail k m s
      | none => s
  | _ => s

/-- Commands outstanding on a die are withdrawn (R251): its reads go to L5, its operation is abandoned. Programs not yet
sent stay for a link that returns, unless the die is gone. -/
def withdrawDie (d : Nat) (gone : Bool) (s : State) : State :=
  let x := getDie s d
  if x = die0 then s
  else
    let keep := if gone then [] else x.waiting.filter (fun o => !o.isRead)
    let s := updDie d (fun x => { x with
      op := none, reading := [], waiting := keep, suspSent := false, resumeSent := false, resetSent := false
      held := if gone then [] else x.held }) s
    let s := (dieCws x).foldl (fun s i =>
      let c := getCw s i
      if c.st = 0 ∨ c.st = 1 then (if c.cls = 0 then dropCw i s else toL5 i s) else s) s
    let s := match x.op with
      | some o => opAbandoned d o s
      | none => s
    abandonProbe d s

/-! ## Losing die-blocks -/

/-- Ready-list entries that name a die-block on a link or die are dissolved. -/
def dropReadyOn (p : Nat → Bool) (s : State) : State :=
  let bad := (s.mme.ready ++ s.mme.homeReady.flatMap (fun e => e.2)).filter (fun l => l.any p)
  let s := bad.foldl (fun s l => dropEntry l s) s
  bad.flatten.foldl (fun s r => updBlock r (fun b => if b.st = .ready then { b with st := .free } else b) s) s

/-- Void the reservations on a link or die (06 R208). -/
def voidReserves (p : Nat → Bool) (s : State) : State :=
  (s.tabs.zones.flatMap (fun e => (e.2.reserve.filter p).map (fun r => (e.1, r)))).foldl (fun s x => voidReserve x.1 x.2 s) s

/-- Members of live stripes on a link or die, as stripe and member. -/
def membersOn (s : State) (p : Nat → Bool) (q : Nat → Stripe → Bool) : List (Nat × Nat) :=
  s.tabs.stripes.flatMap (fun e =>
    if e.2.live ∧ q e.1 e.2 = true then
      ((List.range e.2.members.length).filter (fun m => p (e.2.members.getD m 0) && !(e.2.lost.contains m))).map (fun m => (e.1, m))
    else [])

/-- The stripe of an active zone, or an open log stripe (R251). -/
def openStripe (s : State) (x : Stripe) : Bool :=
  match x.zone with
  | some zk => (getZone s zk).isActive
  | none => !x.sealed

/-- Die-blocks on a link or die are lost: members leave their stripes, reservations are void, and the block table marks
them. -/
def loseBlocks (p : Nat → Bool) (s : State) : State :=
  let s := dropReadyOn p (voidReserves p s)
  let s := (membersOn s p (fun _ _ => true)).foldl (fun s x => memberGone x.1 x.2 s) s
  updTabs (fun t => { t with blocks := mapMapVals block0 (fun r b =>
    if p r ∧ b.st ≠ .retired then { b with st := .lost } else b) t.blocks }) s

/-- The patches that make losses durable. -/
def lostPatches (s : State) (p : Nat → Bool) : List Patch :=
  (s.tabs.blocks.filter (fun e => p e.1 && e.2.st == .lost)).map (fun e => .block e.1 e.2)

/-- Die `d` is declared lost (R252): permanent, journaled, source 257 + 2k of the link. -/
def loseDie (d : Nat) (s : State) : State :=
  if dieIsLost s d then s
  else
    let s := updTabs (fun t => { t with lostDies := t.lostDies ++ [d] }) s
    let s := fire (257 + 2 * (d / 32)) (d % 32) s
    let s := withdrawDie d true s
    if s.top.readsOk then
      let p (r : Nat) : Bool := refDie r == d
      let s := loseBlocks p s
      issue 0x1C 16 [d / 32, d % 32] (.dieLost d :: lostPatches s p) .nothing s
    else s

/-- The die-blocks of a link are declared lost (R251, R240); DIE-LOST with die 0xFF names them all. -/
def loseLink (k : Nat) (s : State) : State :=
  let p (r : Nat) : Bool := refLink r == k
  let s := updLink k (fun l => { l with lost := true }) s
  let s := ((List.range 32).map (fun i => k * 32 + i)).foldl (fun s d => withdrawDie d true s) s
  let s := loseBlocks p s
  issue 0x1C 16 [k, 0xFF] (lostPatches s p) .nothing s

/-! ## Failed links -/

/-- What the declaration of a failed link does to the tables (R251). -/
def linkFailActions (k : Nat) (s : State) : State :=
  let p (r : Nat) : Bool := refLink r == k
  let s := ((List.range 32).map (fun i => k * 32 + i)).foldl (fun s d => withdrawDie d false s) s
  let s := journalLinkLost k s
  let s := dropReadyOn p (voidReserves p s)
  let s := (membersOn s p (fun _ x => openStripe s x)).foldl (fun s x => memberGone x.1 x.2 s) s
  if getF s F.FLC_LINK_CFG_GRACE_S = 0 then loseLink k s else s

/-- A link is declared failed (R251): `st` is the state it takes. Before the reads-served point the tables do not exist
yet. -/
def failLink (k st cause : Nat) (s : State) : State :=
  let s0 := s
  let was := (getLink s k).failed
  let s := updLink k (fun l => { l with
    st := st, cause := cause, lock := false, failed := true, cands := []
    failTick := if l.failed then l.failTick else s.tu.ticks }) s
  let s := if st = 5 then fire (256 + 2 * k) cause s else s
  if was ∨ s.top.readsOk = false then s else linkSettle s0 (linkFailActions k s)

/-- Retraining (R247): sequence state is kept. -/
def enterRetraining (k cause : Nat) (s : State) : State :=
  fire (256 + 2 * k) cause (updLink k (fun l => { l with st := 4, cause := cause, lock := false, misses := 0, cands := [] }) s)

/-! ## Towers -/

/-- What is known of a former tower's dies is forgotten. -/
def forgetTower (k : Nat) (s : State) : State :=
  let mine (d : Nat) : Bool := d / 32 == k
  let s := updTabs (fun t => { t with
    lostDies := t.lostDies.filter (fun d => !mine d)
    skips := t.skips.filter (fun e => !mine (e.1 / 4))
    grown := t.grown.filter (fun e => !mine (e.1 / 4))
    blocks := t.blocks.filter (fun e => refLink e.1 != k) }) s
  let s := { s with dur := { s.dur with lostDies := s.dur.lostDies.filter (fun d => !mine d), blocks := s.dur.blocks.filter (fun e => refLink e.1 != k) } }
  updRcu (fun r => { r with dies := r.dies.filter (fun e => !mine e.1) }) s

/-- The dies of a tower wait for its calibration page and defect lists (R237, R240). -/
def awaitDefects (k : Nat) (s : State) : State :=
  let s := updLink k (fun l => { l with awaitCal := true }) s
  ((List.range 32).map (fun i => k * 32 + i)).foldl (fun s d => updDie d (fun x => { x with usable := false, defectsLeft := 4 }) s) s

/-- A tower has answered IDENTIFY with a serial: unknown ones are calibrated; one other than the stored is a new tower, whose
link loses every die-block at once (R240). -/
def serialSeen (k serial : Nat) (s : State) : State :=
  let l := getLink s k
  if l.haveStored ∧ l.storedSerial = serial then updLink k (fun l => { l with serial := serial }) s
  else if l.serial = serial then s
  else
    let changed := l.haveStored || l.serial != 0
    let s := updLink k (fun l => { l with serial := serial, haveStored := false }) s
    let s := if changed then
        let s := fire (257 + 2 * k) 0xFF s
        forgetTower k (if s.top.readsOk then loseLink k s else updLink k (fun l => { l with lost := true }) s)
      else s
    awaitDefects k s

/-! ## Groups -/

/-- A waking group whose enabled links are all Up is Awake (R269). -/
def groupSettle (g : Nat) (s : State) : State :=
  if groupSt s g = .waking ∧ (groupLinks s g).all (fun k => (getLink s k).st == 3) then setGroup g .awake s else s

/-- The settings identity of a link's stored training results (18 R680). -/
def trainSetting (k : Nat) : Nat := 0x80000000 + k

/-- A link is Up (R238, R251): its results are stored, its die-blocks serve again, and die-blocks that were replaced in the
meantime are released. -/
def linkUp (k : Nat) (s : State) : State :=
  let s0 := s
  let l := getLink s k
  let first := !l.firstDone
  let fresh := l.st == 2
  let s := updLink k (fun l => { l with
    st := 3, lock := true, failed := false, faults := 0, misses := 0, cands := [], firstDone := true
    haveStored := true, storedSerial := l.serial
    txNext := if fresh then 0 else l.txNext
    unacked := if fresh then [] else l.unacked
    rxLast := if fresh then 4095 else l.rxLast
    lastNak := none, nakSent := false, resends := 0 }) s
  let s := saveSetting (trainSetting k) [(getLink s k).serial] s
  let s := if first then ((List.range 32).map (fun i => k * 32 + i)).foldl (fun s d => sendTower d "RESET_DIE" 0 s) s else s
  let orphan := (s.tabs.blocks.filter (fun e => refLink e.1 == k && e.2.st == .bound && (match e.2.stripe with
    | some q => !((getStripe s q).members.contains e.1)
    | none => false))).map Prod.fst
  let s := if s.top.readsOk then orphan.foldl (fun s r => issueRelease r s) s else s
  linkSettle s0 (groupSettle (k / 8) s)

/-! ## Sync and retry (R246 to R250) -/

/-- Discard a received frame (R249): the first discard since an accepted frame sends a NAK, and so does one that comes after
REPLAY × 100 ns. -/
def frameDiscard (k : Nat) (s : State) : State :=
  let l := getLink s k
  let wait := getF s F.FLC_LINK_CFG_REPLAY * 100 * 5 / 16
  if l.nakSent ∧ s.tu.ticks - l.nakTick < wait then s
  else emit (.tower k "NAK" 0 l.rxLast) (updLink k (fun l => { l with nakSent := true, nakTick := s.tu.ticks }) s)

/-- The other side has accepted frames up to `ack` (R248). -/
def takeAck (k ack : Nat) (s : State) : State :=
  updLink k (fun l =>
    match l.unacked.findIdx? (· == ack) with
    | some i => { l with unacked := l.unacked.drop (i + 1), resends := 0 }
    | none => l) s

/-- Resend every unacknowledged frame (R250); the sixteenth time without progress the link enters Retraining. -/
def resend (k : Nat) (s : State) : State :=
  let l := getLink s k
  if l.unacked = [] ∨ l.st ≠ 3 then s
  else
    let s := bumpF (F.FLC_LN_ERR_REPLAY k) 1 s
    let s := updLink k (fun l => { l with resends := l.resends + 1 }) s
    let s := emit (.tower k "REPLAY" 0 (l.unacked.headD 0)) s
    if 16 ≤ l.resends + 1 then updLink k (fun l => { l with resends := 0 }) (enterRetraining k 5 s) else s

/-- A NAK (R250): one whose ACK is older than one already seen is ignored. -/
def takeNak (k ack : Nat) (s : State) : State :=
  let l := getLink s k
  let older := match l.lastNak with
    | some a => decide (0 < (a + 4096 - ack) % 4096) && decide ((a + 4096 - ack) % 4096 < 2048)
    | none => false
  if older = true ∨ l.st ≠ 3 then s
  else resend k (takeAck k ack (updLink k (fun l => { l with lastNak := some ack }) s))

end Sys2Proof.Machine
end

