-- ==== Sys2Proof/Machine/DieOps.lean ====
section
/-! DEFINITION. What the answers of the dies do (07 Table 07-13a, R261; 08 R286 to R303, R431; 11 R422 to R425). -/

namespace Sys2Proof.Machine

/-! ## Erases (11 R416 to R424) -/

/-- Wear units of an erase by mode (11 R417). -/
def eraseCharge (mode : Nat) : Nat := if mode = 0 then 100 else if mode = 1 then 10 else 1

/-- Write ERASE-BEGIN of a die-block (11 R422): it is Erasing; a repeat charges no wear and is a recovery erase. -/
def issueErase (r mode : Nat) (repeats : Bool) (s : State) : State :=
  let s := updBlock r (fun b => { b with
    st := .erasing, mode := mode, stage := 1, unconf := true, recovery := repeats
    wear := if repeats then b.wear else min 65535 (b.wear + eraseCharge mode)
    senses := 0, stripe := none, wl := 0, snaps := [], stamps := [] }) s
  let b := getBlock s r
  issue 0x0E 16 [r, mode, bitOf repeats, b.wear] [.block r b] (.sendErase r) s

/-- The verify of an erase is queued (11 R423): its samples depend on the kind of erase. -/
def queueVerify (r : Nat) (s : State) : State :=
  let b := getBlock s r
  let n := if b.recovery then getF s F.MME_ERASE_CFG_REC_SAMPLES else getF s F.MME_ERASE_CFG_NORM_SAMPLES
  enqueue (refDie r) { dieOp0 with kind := .verify, block := refBlock r, planes := 15, count := n }
    (updBlock r (fun b => { b with stage := 3 }) s)

/-- The block header of a die-block that has passed its verify (11 R422). -/
def issueHeader (r unerased : Nat) (s : State) : State :=
  let s := updBlock r (fun b => { b with stage := 4 }) s
  let b := getBlock s r
  issue 0x0F 16 [r, b.mode, unerased] [.block r { b with st := .free, stage := 0, unconf := false, recovery := false, owner := 0xFFFF }] .nothing s

/-- An erase that must be repeated: back to Needs-erase, unconfirmed (11 R425). -/
def eraseAgain (r : Nat) (s : State) : State :=
  updBlock r (fun b => if b.st = .erasing then { b with st := .needsErase, unconf := true, recovery := true, stage := 0 } else b) s

/-! ## Taking an answer -/

/-- A die's operation ends. -/
def endOp (d : Nat) (s : State) : State := updDie d (fun x => { x with op := none }) s

/-- Put an operation back in its die's queue. -/
def requeue (d : Nat) (o : DieOp) (s : State) : State :=
  updDie d (fun x => { x with waiting := { o with suspended := false, free := false } :: x.waiting }) s

/-- The operation of a kind that runs on a die, not suspended. -/
def runningOp (s : State) (d : Nat) (k : OpKind) : Option DieOp :=
  match (getDie s d).op with
  | some o => if o.kind = k then some o else none
  | none => none

/-- The oldest read or SLC program of a kind sent to a die. -/
def sentRead (s : State) (d : Nat) (k : OpKind) : Option DieOp := (getDie s d).reading.find? (fun o => o.kind == k)

/-- A read or SLC program has been answered: it counts under a suspension (R261). -/
def endRead (d : Nat) (o : DieOp) (s : State) : State :=
  updDie d (fun x => { x with
    reading := x.reading.erase o
    op := x.op.map (fun p => if p.suspended ∧ o.isRead = true then { p with reads := p.reads + 1 } else p) }) s

/-- After an answer: RESUME where R261 says so, SUSPEND where R260 does. -/
def dieNext (d : Nat) (s : State) : State := trySuspend d (tryResume d s)

/-- Controller action on a program's status (Table 07-13a): 0 goes on with `ok`. -/
def programStatus (d status : Nat) (o : DieOp) (ok : State → State) (s : State) : State :=
  let ref := refOf d o.block
  if status = 0 then ok s
  else if status = 1 ∨ status = 6 ∨ status = 7 then opAbandoned d o s
  else if status = 4 ∨ 9 ≤ status then loseDie d s
  else if status = 5 then requeue d o s
  else if status = 2 ∨ status = 8 then retireBlock ref 0 (opAbandoned d o s)
  else s

/-! ## Samples -/

/-- Merge a second sense of a plane into the first (08 R286). -/
def mergeSense (y x : Sense) (plane : Nat) : Sense :=
  let codes := match sensePlane x plane with
    | some (a, _) => a
    | none => []
  { y with planes := y.planes.map (fun e => if e.1 = plane then (e.1, e.2.1, codes) else e) }

/-- A codeword receives a sense at its step (08 R292, R301, R303). -/
def giveSense (x : Sense) (s : State) (i : Nat) : State :=
  let c := getCw s i
  if c.st ≠ 0 then s
  else if c.step = 3 then
    let codes := match sensePlane x c.plane with
      | some (a, _) => a
      | none => []
    let ok := (sensePilots s (refDie c.ref) (c.wl + 1) x c.plane).2
    updCw i (fun c => { c with nbr := codes, nbrBad := !ok, st := 1 }) s
  else if c.step = 2 then
    match c.sense with
    | some y => updCw i (fun c => { c with sense := some (mergeSense y x c.plane), st := 1 }) s
    | none => updCw i (fun c => { c with sense := some x, st := 1 }) s
  else updCw i (fun c => { c with sense := some x, level := true, st := 1 }) s

/-- The Skim's pilot conditions for the member that a level read serves (10 R392). -/
def skimSense (x : Sense) (is : List Nat) (s : State) : State :=
  match is.head? with
  | none => s
  | some i =>
    let c := getCw s i
    if c.cls ≠ 4 ∨ c.step ≠ 0 then s
    else
      let per := (List.range 4).map (fun p => sensePilots s (refDie c.ref) c.wl x p)
      let bad := per.any (fun l => !l.2)
      let sigma := per.any (fun l => l.1.sigma.any (fun g => decide ((getF s F.WPE_SKIM_CFG_SIGMA_MAX : Int) < g)))
      skimPilots c.stripe c.row c.member bad sigma s

/-- Margins of a plane (11 R431), unsigned Q12.4. -/
def marginsOf (lv : Levels) : List Nat :=
  (List.range 31).map (fun i =>
    let d := lv.mu.getD (i + 1) 0 - lv.mu.getD i 0
    let w := lv.sigma.getD i 0 + lv.sigma.getD (i + 1) 0
    if d ≤ 0 ∨ w ≤ 0 then 0 else (d * 16 / w).toNat % 65536)

/-- A scan probe's result (11 R431): an age group that is due queues its stripe in class 3, lowest margin first. -/
def scanSense (ref wl : Nat) (x : Sense) (s : State) : State :=
  let per := x.planes.map (fun e => sensePilots s (refDie ref) wl x e.1)
  let least := ((per.filter Prod.snd).flatMap (fun l => marginsOf l.1)).foldl min 65535
  let due := per.any (fun l => !l.2) || decide (least < getF s F.MME_REFRESH_CFG_MARGIN)
  match (getBlock s ref).stripe with
  | some k =>
    if due then
      updMme (fun m => { m with passQueued := if m.passQueued.contains k then m.passQueued else m.passQueued ++ [k] })
        (queueRefresh 3 least k s)
    else s
  | none => s

/-- Page reads that wait for a wordline whose samples are held are served from them (08 R294, R316). -/
def serveHeld (d block wl : Nat) (x : Sense) (s : State) : State :=
  let mine (o : DieOp) : Bool := o.kind == .readPage && o.block == block && o.wl == wl && o.mode == 0 && o.probe == 0
    && !o.recovery && o.cws.all (fun i => (sensePlane x (getCw s i).plane).isSome)
  let os := (getDie s d).waiting.filter mine
  let s := updDie d (fun y => { y with waiting := y.waiting.filter (fun o => !mine o) }) s
  (os.flatMap (·.cws)).foldl (giveSense x) s

/-- The planes of a mask in ascending order. -/
def maskPlanes (m : Nat) : List Nat := (List.range 4).filter (fun p => natBits m p 1 = 1)

/-- A level read has returned its samples. -/
def levelSensed (d : Nat) (o : DieOp) (codes : List (List Nat)) (s : State) : State :=
  let ref := refOf d o.block
  let x : Sense := ⟨o.vbase, (maskPlanes o.planes).zip codes |>.map (fun e => (e.1, e.2, []))⟩
  let s := postReport ref o.wl x (o.probe == 1) s
  if o.probe = 1 then s
  else if o.probe = 2 then scanSense ref o.wl x s
  else
    let s := skimSense x o.cws s
    let first := o.cws.any (fun i => (getCw s i).step == 0)
    let s := o.cws.foldl (giveSense x) s
    if first then serveHeld d o.block o.wl x (holdSense ref o.wl x s) else s

/-- A page read has returned its bytes: each codeword takes its own (08 R287 to R291). -/
def pageRead (d : Nat) (o : DieOp) (data : List Nat) (s : State) : State :=
  let planes := maskPlanes o.planes
  let per := o.count * 32
  o.cws.foldl (fun s i =>
    let c := getCw s i
    if c.st ≠ 0 then s
    else
      let n := (planes.findIdx? (· == c.plane)).getD 0
      let bytes := cwExtract (skipOf s d c.plane) o.col c.num ((data.drop (n * per)).take per)
      updCw i (fun c => { c with hard := bytes, st := 1 }) s) s

/-- The codewords of a read whose command failed climb (08 R311). -/
def readFailed (o : DieOp) (s : State) : State :=
  o.cws.foldl (fun s i =>
    let c := getCw s i
    if c.st ≠ 0 then s
    else if c.cls = 0 then dropCw i s
    else if c.cls = 4 then skimClass c 2 (dropCw i s)
    else climb i s) s

/-- Controller action on a read's status (Table 07-13a): reads are sent again when requeued or reissued. -/
def readStatus (d status : Nat) (o : DieOp) (ok : State → State) (s : State) : State :=
  if status = 0 then ok s
  else if status = 4 ∨ 9 ≤ status then loseDie d (requeue d o s)
  else if status = 5 ∨ status = 6 then requeue d o s
  else
    let s := if o.probe = 1 then abandonProbe d s else s
    readFailed o s

end Sys2Proof.Machine
end

