-- ==== Sys2Proof/Machine/TagOps.lean ====
section
/-! DEFINITION. Integrity tags (13): messages, keys, contexts of the ITE, the checks of Table 13-4, and tagging again on
relocation. -/

namespace Sys2Proof.Machine

def updIte (f : Ite → Ite) (s : State) : State := { s with ite := f s.ite }

/-! ## Keys -/

def updKeys (t : Nat) (f : TenKeys → TenKeys) (s : State) : State := updIte (fun x => { x with keys := mapUpd keys0 x.keys t f }) s
/-- The LOADED slot of a tenant that holds a KEY_ID. -/
def slotWith (s : State) (t keyId : Nat) : Option KeySlot :=
  ((List.range 4).map (getSlot (getKeys s t))).find? (fun k => k.loaded && k.keyId == keyId)

/-- The LOADED slot that ACTIVE selects (R500). -/
def activeSlot (s : State) (t : Nat) : Option KeySlot :=
  match (getKeys s t).active with
  | some i => let k := getSlot (getKeys s t) i; if k.loaded then some k else none
  | none => none

/-- KCV of a key (R502): the first three bytes of the CMAC of one zero block, little-endian. -/
def kcvOf (key : List Nat) : Nat := leNat ((aesCmac key (List.replicate 16 0)).take 3)

/-! ## Tags -/

/-- The message header of Table 13-1. -/
def tagHeader (tenant ns lba zgen keyId : Nat) : List Nat :=
  leBytes 2 tenant ++ leBytes 2 ns ++ leBytes 8 lba ++ leBytes 4 zgen ++ leBytes 4 keyId ++ List.replicate 12 0

/-- The tag of a unit (R496), as the number its bytes spell from byte 32 of the metadata on. -/
def unitTag (key : List Nat) (tenant ns lba zgen keyId : Nat) (bytes : List Nat) : Nat :=
  leNat (aesCmac key (tagHeader tenant ns lba zgen keyId ++ bytes))

/-- The checks of R506 on a codeword's 4,160 bytes, with the metadata of 10 Table 10-1 and Table 13-2: 0 passes, 1 misdirected, 2 key not loaded, 3 mismatch. -/
def checkUnit (s : State) (ns lba zgen : Nat) (bytes : List Nat) : Nat :=
  let d := bytes.take 4096
  let m := bytes.drop 4096
  let f (lo n : Nat) : Nat := leNat ((m.drop lo).take n)
  let owner := (getNs s ns).tenant
  if f 10 1 ≠ 0 ∨ f 11 1 ≠ 0 ∨ f 20 12 ≠ 0 ∨ f 54 6 ≠ 0 ∨ f 8 2 ≠ ns ∨ f 0 8 ≠ lba ∨ f 12 4 ≠ zgen then 1
  else if f 52 2 ≠ owner then 2
  else
    match slotWith s owner (f 48 4) with
    | none => 2
    | some k => if unitTag k.key owner ns lba zgen (f 48 4) d = f 32 16 then 0 else 3

/-- A stored version relocated by the MME (R428, R505): RGEN counts; a unit that passes its check under a key other than the
active one is tagged again. -/
def relocate (s : State) (ns lba : Nat) (v : UnitV) : UnitV :=
  let v := { v with rgen := v.rgen + 1 }
  if flagF s F.ITE_CFG_RETAG = false ∨ v.kind ≠ 0 then v
  else
    let owner := (getNs s ns).tenant
    match slotWith s owner v.keyId, activeSlot s owner with
    | some k, some a =>
      let bytes := leBytes 4096 v.data
      if a.keyId ≠ v.keyId ∧ v.tenant = owner ∧ unitTag k.key owner ns lba v.zgen v.keyId bytes = v.tag then
        { v with keyId := a.keyId, tag := unitTag a.key owner ns lba v.zgen a.keyId bytes }
      else v
    | _, _ => v

/-- What ITE_ERR_CNT counts for a relocated unit that does not pass (R505, R510). -/
def relocateCount (ns lba : Nat) (v : UnitV) (s : State) : State :=
  let owner := (getNs s ns).tenant
  if flagF s F.ITE_CFG_RETAG = false ∨ v.kind ≠ 0 then s
  else
    match slotWith s owner v.keyId with
    | none => bumpF F.ITE_ERR_CNT2_NOKEY 1 s
    | some k =>
      if v.tenant = owner ∧ unitTag k.key owner ns lba v.zgen v.keyId (leBytes 4096 v.data) = v.tag then s
      else fire 704 ns (bumpF F.ITE_ERR_CNT_MISMATCH 1 s)

/-! ## Contexts (R511, R512) -/

/-- Blocks of a message in units of 0.2 ns: 258 blocks of 10 ns. -/
def msgLen : Nat := 258 * 50

/-- Messages that hold a context on a lane, all or of one class. -/
def laneBusy (s : State) (l : Nat) : Nat := (s.ite.msgs.filter (fun m => m.lane == l && !m.suspended)).length
def laneUrgent (s : State) (l : Nat) : Nat := (s.ite.msgs.filter (fun m => m.lane == l && !m.suspended && m.cls == 0)).length
def laneParked (s : State) (l : Nat) : Nat := (s.ite.msgs.filter (fun m => m.lane == l && m.suspended)).length

/-- The lane with the fewest messages among some, lowest number on a tie. -/
def leastLane (s : State) (ls : List Nat) : Option Nat :=
  ls.foldl (fun m l => match m with
    | none => some l
    | some x => if laneBusy s l < laneBusy s x then some l else some x) none

/-- The message R512 suspends on a lane: background before normal, most blocks remaining. -/
def victimOf (s : State) (l : Nat) : Option Nat :=
  let idx := (List.range s.ite.msgs.length).filter (fun i => match s.ite.msgs[i]? with
    | some m => m.lane == l && !m.suspended && m.cls != 0
    | none => false)
  idx.foldl (fun b i => match b with
    | none => some i
    | some j =>
      match s.ite.msgs[i]?, s.ite.msgs[j]? with
      | some x, some y => if y.cls < x.cls ∨ (x.cls = y.cls ∧ y.blocks < x.blocks) then some i else some j
      | _, _ => some j) none

/-- A message begins: it takes a context of the least-loaded lane that its class may use; an urgent one that finds every lane
full suspends another message (R512). -/
def iteBegin (cls : Nat) (s : State) : State :=
  let urg := getF s F.ITE_CFG_URG_MAX
  let room (l : Nat) : Bool := decide (laneBusy s l < 16) && (cls != 0 || decide (laneUrgent s l < urg))
  match leastLane s ((List.range 12).filter room) with
  | some l => updIte (fun x => { x with msgs := x.msgs ++ [⟨l, cls, msgLen, false⟩] }) s
  | none =>
    if cls ≠ 0 then s
    else
      match leastLane s ((List.range 12).filter (fun l => decide (laneUrgent s l < urg) && decide (laneParked s l < 16) && decide (laneBusy s l = 16))) with
      | none => s
      | some l =>
        match victimOf s l with
        | none => s
        | some i =>
          let msgs := s.ite.msgs.mapIdx (fun j m => if j = i then { m with suspended := true } else m)
          bumpF F.ITE_SUSP_CNT_COUNT 1 (updIte (fun x => { x with msgs := msgs ++ [⟨l, 0, msgLen, false⟩] }) s)

/-- Resume the oldest suspended message of every lane that has a context free. -/
def resumeLane (s : State) (l : Nat) : State :=
  if laneBusy s l < 16 then
    match s.ite.msgs.findIdx? (fun m => m.lane == l && m.suspended) with
    | some i => updIte (fun x => { x with msgs := x.msgs.mapIdx (fun j m => if j = i then { m with suspended := false } else m) }) s
    | none => s
  else s

/-- One TU tick of 3.2 ns in the ITE: running messages advance, finished ones free their contexts. -/
def iteTick (s : State) : State :=
  if s.ite.msgs = [] then s
  else
    let run := s.ite.msgs.map (fun m => if m.suspended then m else { m with blocks := m.blocks - 16 })
    (List.range 12).foldl resumeLane (updIte (fun x => { x with msgs := run.filter (fun m => m.suspended || decide (0 < m.blocks)) }) s)

end Sys2Proof.Machine
end

