-- ==== Sys2Proof/Machine/MediaFam.lean ====
section
/-! DEFINITION. Meanings of the Media Management Engine's commands (11). Copies are taken at the moment their target is
complete. -/

namespace Sys2Proof.Machine

/-! ## Churn (R426 to R429) -/

/-- Units a log stripe can still take. -/
def logRoom (s : State) (k : Nat) : Nat :=
  let x := getStripe s k
  (256 - x.issued.length) * ((x.members.length - 2) * 48) - x.filling.length

/-- The open log stripe of a tenant. -/
def openLogOf (s : State) (t : Nat) : Option Nat := if mapGet 0 s.wpe.openLog t = 0 then none else some (mapGet 0 s.wpe.openLog t - 1)

/-- A version lands in an open log stripe, behind what has landed before (06 R225). -/
def landLog (k key : Nat) (v : UnitV) (s : State) : State :=
  updUnit key (fun l => { v with place := some (k, 256, 0) } :: l) (updStripe k (fun x => { x with filling := x.filling ++ [key] }) s)

/-- The versions of a unit that a power loss may still need. -/
def liveVersions (s : State) (key : Nat) : List UnitV := keepNeeded s (unitNs key) (mapGet [] s.units key)

/-- Units of which a live version lies in a log stripe. -/
def validUnits (s : State) (k : Nat) : List Nat :=
  (s.units.map Prod.fst).filter (fun key => (liveVersions s key).any (fun v => match v.place with
    | some p => p.1 == k
    | none => false))

/-- A log stripe that Churn may take (R427): sealed, every row verified. -/
def victimOk (_s : State) (k : Nat) (x : Stripe) : Bool :=
  isLog k && x.live && x.sealed && x.issued.length == x.skimmed.length

/-- The victim of R427: one with a lost member, one queued for refresh, then the fewest valid units, the earliest sealed on a
tie. -/
def churnVictim (s : State) : Option Nat :=
  let c := (s.tabs.stripes.filter (fun e => victimOk s e.1 e.2)).map (fun e =>
    (e.1, (if e.2.lost ≠ [] then 0 else if s.mme.queue.any (fun q => q.stripe == e.1) then 1 else 2), (validUnits s e.1).length, e.2.sealedAt))
  (c.foldl (fun m x => match m with
    | none => some x
    | some y => if x.2.1 < y.2.1 ∨ (x.2.1 = y.2.1 ∧ (x.2.2.1 < y.2.2.1 ∨ (x.2.2.1 = y.2.2.1 ∧ x.2.2.2 < y.2.2.2))) then some x else some y) none).map Prod.fst

/-- A row of a stripe can be read or reconstructed: at most two of its members are gone (R441). -/
def rowReadable (s : State) (k : Nat) : Bool := decide ((getStripe s k).lost.length ≤ 2)

/-- A unit that cannot be reconstructed enters the lost-unit list (R441, 12 Table 12-3); source 644. -/
def loseUnit (k r key : Nat) (s : State) : State :=
  if s.tabs.lostUnits.contains key then s
  else
    let s := updTabs (fun t => { t with lostUnits := t.lostUnits ++ [key] }) s
    fire 644 (unitNs key) (issue 0x16 32 [unitNs key, 0, k, unitLba key, r] [.lostUnit key false] .nothing s)

/-- Copy one unit of the victim into the tenant's open log stripe (R428 step 1): RGEN one above its source. -/
def churnUnit (k : Nat) (s : State) (key : Nat) : State :=
  let l := mapGet [] s.units key
  match l.find? (fun v => match v.place with
    | some p => p.1 == k
    | none => false), openLogOf s (getStripe s k).tenant with
  | some v, some o =>
    if o = k ∨ logRoom s o = 0 ∨ l.any (fun w => w.stamp == v.stamp && v.rgen < w.rgen) then s
    else
      let spot := match v.place with
        | some p => logSpot ((getStripe s k).members.length - 2) p.2.1 p.2.2
        | none => ⟨0, 0, 0⟩
      if (getStripe s k).lost.contains spot.member ∧ rowReadable s k = false then loseUnit k spot.row key s
      else
        let s := relocateCount (unitNs key) (unitLba key) v s
        landLog o key { relocate s (unitNs key) (unitLba key) v with durable := false, vat := true, slice := none } s
  | _, _ => s

/-- Churn has a cause: the TLC pool below LOW, or a log stripe that is damaged or queued for refresh (R426, R432, R437). -/
def churnDue (s : State) : Bool :=
  decide (freeTlc s < getF s F.MME_CHURN_CFG_LOW)
    || s.tabs.stripes.any (fun e => victimOk s e.1 e.2 && (e.2.lost != [] || s.mme.queue.any (fun q => q.stripe == e.1)))

/-- CHURN_START (R426, R427): a victim is taken and its valid units are copied into the tenant's open log stripe, as many as it
has room for. -/
def execChurnStart (s : State) : Host.Outcome State Fault Refusal :=
  if s.top.readsOk = false ∨ natBits s.mme.above 0 1 = 1 ∨ bufFull s = true ∨ (s.mme.churning = false ∧ churnDue s = false) then .next s
  else
    match (match s.mme.victim with
      | some k => some k
      | none => churnVictim s) with
    | none => .next (updMme (fun m => { m with churning := true }) s)
    | some k =>
      let s := updMme (fun m => { m with churning := true, victim := some k }) s
      .next ((validUnits s k).foldl (churnUnit k) s)

/-- UNIT_REMAP (R428 step 2, R429): the copy in `target` is durable; a REMAP record makes it the unit's place, unless a host
write has superseded the unit, when the copy becomes an invalid unit. -/
def execUnitRemap (ns lba source target : Nat) (s : State) : Host.Outcome State Fault Refusal :=
  let key := unitKey ns lba
  let l := mapGet [] s.units key
  let inK (k : Nat) (v : UnitV) : Bool := match v.place with
    | some p => p.1 == k
    | none => false
  match l.find? (inK target), l.find? (inK source) with
  | some c, some v =>
    if c.durable = false ∨ c.stamp ≠ v.stamp ∨ c.rgen ≤ v.rgen ∨ bufFull s = true then .next s
    else if l.any (fun w => decide (c.stamp < w.stamp)) then
      .next (updUnit key (fun l => l.filter (fun w => !(inK target w && w.stamp == c.stamp))) s)
    else
      let s := updUnit key (fun l => l.filter (fun w => !(inK source w && w.stamp == v.stamp))) s
      .next (updMme (fun m => { m with remaps := m.remaps + 1 })
        (issue 0x0B 32 [0, ns, c.rgen, lba, source, target] [] .nothing s))
  | _, _ => .next s

/-- A log stripe whose every die-block has been released is forgotten, with the versions that lay in it. -/
def dropLogStripe (k : Nat) (s : State) : State :=
  if (getStripe s k).members.any (fun r => (getBlock s r).stripe == some k) then s
  else
    let us := mapMapVals [] (fun _ (l : List UnitV) => l.filter (fun v => match v.place with
      | some p => p.1 != k
      | none => true)) s.units
    let s := releaseStripe k { s with units := us }
    updMme (fun m => { m with victim := if m.victim = some k then none else m.victim }) s

/-- BLOCK_RELEASE (R428 step 3): a die-block of a log stripe that holds no live unit any more, or one that a replacement has
taken the place of, is released. -/
def execBlockRelease (block : Nat) (s : State) : Host.Outcome State Fault Refusal :=
  let b := getBlock s block
  match b.stripe with
  | none => .next s
  | some k =>
    if b.st ≠ .bound ∨ bufFull s = true then .next s
    else
      let x := getStripe s k
      match x.members.findIdx? (· == block) with
      | none => .next (issueRelease block s)
      | some m =>
        let n := x.members.length - 2
        let holds := (validUnits s k).any (fun key => (liveVersions s key).any (fun v => match v.place with
          | some p => p.1 == k && (logSpot n p.2.1 p.2.2).member == m
          | none => false))
        let waits := if n ≤ m then (validUnits s k) != [] else holds
        if isLog k = false ∨ victimOk s k x = false ∨ waits ∨ remapPending s k = true then .next s
        else .next (dropLogStripe k (issueRelease block s))

/-! ## Erases (R416 to R424) -/

/-- Die-blocks of a mode that serve or are on their way to serving. -/
def modeCount (s : State) (mode : Nat) : Nat :=
  mapCount (fun _ b => b.mode == mode && (b.st == .free || b.st == .bound || b.st == .erasing || b.st == .reserved)) s.tabs.blocks

/-- The SLC target: the staging area, the journal and emergency pairs and a mirror block (R416). -/
def slcTarget (s : State) : Nat := s.wpe.areaN + 2 * s.jnl.pairsN + 64 + 1

/-- The TLC target: the log stripes in use and HIGH (R416). -/
def tlcTarget (s : State) : Nat :=
  ((s.tabs.stripes.filter (fun e => isLog e.1 && e.2.live)).map (fun e => e.2.members.length)).sum + getF s F.MME_CHURN_CFG_HIGH

/-- The mode of the next erase (R416). -/
def eraseMode (s : State) : Nat :=
  if modeCount s 2 < slcTarget s then 2 else if modeCount s 1 < tlcTarget s then 1 else 0

/-- A die-block waits for its erase: Needs-erase, or Released with its record durable and no read outstanding. -/
def waitsErase (s : State) (r : Nat) : Bool :=
  let b := getBlock s r
  b.st == .needsErase || (b.st == .released && (mapGet block0 s.dur.blocks r).st == .released && !readsOn s r)

/-- ERASE_BEGIN (R418, R422, R424, R436): a die-block at its wear limit or on a draining die is retired instead. One that an
Overwrite still has to pass over waits for it (12 R484). -/
def execEraseBegin (block : Nat) (s : State) : Host.Outcome State Fault Refusal :=
  let d := refDie block
  if d ≥ linkCount s * 32 ∨ 3800 ≤ refBlock block ∨ isAnchor block ∨ s.top.readsOk = false ∨ waitsErase s block = false
      ∨ dieIsLost s d ∨ (getDie s d).usable = false ∨ bufFull s = true
      ∨ (s.tabs.san.active = true ∧ s.tabs.san.action = 3 ∧ s.tabs.san.work.contains block = true) then .next s
  else
    let b := getBlock s block
    let mode := if b.unconf then b.mode else eraseMode s
    if (getDie s d).draining then .next (zmSettle s (retireBlock block 3 s))
    else if b.unconf = false ∧ getF s F.MME_WEAR_CFG_LIMIT < b.wear + eraseCharge mode then .next (zmSettle s (retireBlock block 2 s))
    else .next (issueErase block mode b.unconf s)

/-- BLOCK_FREE (R422 step 3): the block header is durable; Churn stops when its pool holds HIGH. -/
def execBlockFree (block : Nat) (s : State) : Host.Outcome State Fault Refusal :=
  let b := getBlock s block
  if b.st = .erasing ∧ b.stage = 4 ∧ (mapGet block0 s.dur.blocks block).st = .free then
    let s' := updBlock block (fun b => { b with st := .free, stage := 0, unconf := false, recovery := false, owner := 0xFFFF }) s
    let s' := if getF s' F.MME_CHURN_CFG_HIGH ≤ freeTlc s' then updMme (fun m => { m with churning := false }) s' else s'
    .next (zmSettle s (coolerSettle s'))
  else .next s

/-! ## Refresh (R430 to R434) -/

/-- Position of an age group in the scan: links, dies, blocks, groups ascending. -/
def scanKey (ref g : Nat) : Nat := (refDie ref * 4096 + refBlock ref) * 8 + g

/-- What the scan visits: programmed PLC age groups, and TLC members of sealed log stripes. -/
def scanPoints (s : State) : List (Nat × Nat × Nat) :=
  s.tabs.blocks.flatMap (fun e =>
    if e.2.mode = 0 then e.2.snaps.map (fun p => (scanKey e.1 p.1, e.1, p.1))
    else if e.2.mode = 1 ∧ (match e.2.stripe with
        | some k => (getStripe s k).sealed
        | none => false) = true then [(scanKey e.1 0, e.1, 0)]
    else [])

/-- The next point at or after the cursor. -/
def nextScan (s : State) : Option (Nat × Nat × Nat) :=
  ((scanPoints s).filter (fun p => decide (s.mme.cursor ≤ p.1))).foldl (fun m p => match m with
    | none => some p
    | some q => if p.1 < q.1 then some p else some q) none

/-- Codewords of the scan's READ_PAGE of a TLC member: page 0 of its first wordline. -/
def addScanCws (ref : Nat) (s : State) : List Nat × State :=
  (List.range 16).foldl (fun acc p =>
    let (i, s) := addCw { cw0 with ref := ref, wl := 0, pos := p, mode := 1, cls := 0 } acc.2
    (acc.1 ++ [i], s)) ([], s)

/-- SCAN_PROBE (R431, R434): the next point of the scan is probed; its link group is woken. -/
def execScanProbe (s : State) : Host.Outcome State Fault Refusal :=
  if s.top.readsOk = false ∨ s.top.dev = .quiescing ∨ s.top.dev = .retained ∨ natBits s.mme.above 1 1 = 1 then .next s
  else
    let s := updMme (fun m => { m with passActive := true }) s
    match nextScan s with
    | none => .next s
    | some (key, ref, g) =>
      let d := refDie ref
      let s := updMme (fun m => { m with cursor := key + 1, scanned := m.scanned + 1 }) s
      if dieIsLost s d then .next s
      else
        let s := wakeGroup (d / 256) s
        if (getBlock s ref).mode = 0 then
          .next (enqueue d { dieOp0 with kind := .readLevel, block := refBlock ref, wl := g * 32, planes := 15, count := 608, probe := 2, work := 2 } s)
        else
          let (is, s) := addScanCws ref s
          .next (enqueue d { dieOp0 with
            kind := .readPage, block := refBlock ref, wl := 0, mode := 1, page := 0, planes := 15, count := 608
            cws := is, recovery := true, offs := List.replicate 31 0, work := 2 } s)

/-- A queued stripe whose zone may be refreshed now: not open, nothing in programming, no member lost or being rebuilt, no
target yet (R433, R444). -/
def refreshable (s : State) (k : Nat) : Bool :=
  let x := getStripe s k
  match x.zone with
  | none => false
  | some zk =>
    let z := getZone s zk
    x.live && z.stripe == some k && z.target.isNone && (z.st == .closed || z.st == .full || z.st == .readOnly)
      && rowsOf s k == [] && (x.rebuild == []) && (x.lost == [] || z.st == .readOnly)

/-- The queued stripe that is served next (R430). -/
def nextRefresh (s : State) : Option Nat :=
  ((s.mme.queue.filter (fun q => refreshable s q.stripe)).foldl (fun m q => match m with
    | none => some q
    | some p => if q.cls < p.cls ∨ (q.cls = p.cls ∧ q.order < p.order) then some q else some p) none).map (·.stripe)

/-- REFRESH_START (R432): a fresh stripe from the ready list is bound as the zone's target. -/
def execRefreshStart (s : State) : Host.Outcome State Fault Refusal :=
  if s.top.readsOk = false ∨ s.mme.current.isSome ∨ natBits s.mme.above 1 1 = 1 ∨ bufFull s = true then .next s
  else
    match nextRefresh s with
    | none => .next s
    | some k =>
      match (getStripe s k).zone with
      | none => .next s
      | some zk =>
        match readyEntry s zk with
        | none => .next s
        | some (e, _) =>
          let (g, s) := takeStripe zk e s
          let s := updMme (fun m => { m with current := some k, currentRows := 0 }) (updZone zk (fun z => { z with target := some g }) s)
          .next (issueBind g s)

/-- The die-blocks of a target hold the rows of its source: age groups snapshotted now (09 R331). -/
def fillTarget (g rows : Nat) (s : State) : State :=
  (getStripe s g).members.foldl (fun s r =>
    let groups := (List.range 8).filter (fun i => decide (i * 32 < rows))
    updBlock r (fun b => { b with
      wl := rows
      snaps := groups.map (fun i => (i, some (ageInt s (refDie r))))
      stamps := (groups.map (fun i => (i, writeStamp s))).filter (fun p => p.2 != 0) }) s) s

/-- REFRESH_REMAP (R428, R432): every row of the target has passed the Skim; the binding moves to it; the source's die-blocks
are released when the REMAP record is accepted (12 Table 12-4). -/
def execRefreshRemap (zone : Nat) (s : State) : Host.Outcome State Fault Refusal :=
  let z := getZone s zone
  match z.stripe, z.target with
  | some k, some g =>
    if z.rebase ∨ rowsOf s k ≠ [] ∨ bufFull s = true then .next s
    else
      let s0 := s
      let x := getStripe s k
      let keys := (s.units.filter (fun e => unitNs e.1 == zoneNs zone && unitLba e.1 / zoneLbas == zoneNum zone)).map Prod.fst
      let s := keys.foldl (fun s key =>
        let s := match (mapGet [] s.units key).head? with
          | some v => relocateCount (unitNs key) (unitLba key) v s
          | none => s
        updUnit key (fun l => l.map (fun v => relocate s (unitNs key) (unitLba key) v)) s) s
      let s := updStripe g (fun y => { y with issued := x.issued, prog := x.prog, skimmed := x.skimmed }) s
      let s := fillTarget g x.issued.length s
      let s := updZone zone (fun z => { z with stripe := some g, target := none }) s
      let y := getStripe s g
      let s := issue 0x0B 32 [1, zoneNs zone, zoneNum zone, k, g]
        (.zone zone (getZone s zone) :: .stripe g y :: y.members.map (fun r => .block r (getBlock s r))) (.releaseSource k) s
      let s := updMme (fun m => { m with
        current := none, remaps := m.remaps + 1, passQueued := m.passQueued.filter (· != k)
        queue := m.queue.filter (fun q => q.stripe != k)
        wlQueued := m.wlQueued && m.queue.any (fun q => q.cls == 5) }) s
      .next (zmSettle s0 (skimSettle s))
  | _, _ => .next s

/-- REFRESH_PASS_COMPLETE (R434, 09 R358): the cursor has passed the last point and every zone the pass queued is done: F of
every die is set, TOP_SKIM_AGE returns to 0 and the next pass starts. -/
def execRefreshPassComplete (s : State) : Host.Outcome State Fault Refusal :=
  let busy (k : Nat) : Bool := s.mme.queue.any (fun q => q.stripe == k) || s.mme.current == some k
  if s.top.readsOk = false ∨ s.mme.passActive = false ∨ (nextScan s).isSome ∨ s.mme.passQueued.any busy = true then .next s
  else
    let s := (allDies s).foldl (fun s d => updAge d (fun a => { a with refreshed := a.age / 2 ^ 32 }) s) s
    let s := updMme (fun m => { m with cursor := 0, scanned := 0, passQueued := [] }) s
    .next (skimSettle (fire 645 0 s))

/-! ## Wear levelling (R420) -/

/-- Wear counts of the PLC pool. -/
def poolWear (s : State) : List Nat :=
  (s.tabs.blocks.filter (fun e => e.2.mode == 0 && (e.2.st == .free || e.2.st == .ready))).map (fun e => e.2.wear)

/-- Stripes of Full zones. -/
def fullStripes (s : State) : List Nat :=
  mapKeysWhere (fun k x => x.live && (match x.zone with
    | some zk => (getZone s zk).st == .full && (getZone s zk).stripe == some k
    | none => false)) s.tabs.stripes

/-- Sum of the wear counts of a stripe's members. -/
def stripeWear (s : State) (k : Nat) : Nat := ((getStripe s k).members.map (fun r => (getBlock s r).wear)).sum

/-- WEAR_LEVEL_CHECK (R420): at most one zone at a time, in the lowest class. -/
def execWearLevelCheck (s : State) : Host.Outcome State Fault Refusal :=
  let full := fullStripes s
  let low := (full.flatMap (fun k => (getStripe s k).members.map (fun r => (getBlock s r).wear))).foldl min 65536
  let high := (poolWear s).foldl max 0
  if flagF s F.MME_WEAR_CFG_WL_EN = false ∨ s.mme.wlQueued ∨ full = [] ∨ high ≤ low + 100 * getF s F.MME_WEAR_CFG_WL_DELTA then .next s
  else
    match full.foldl (fun m k => match m with
      | none => some k
      | some j => if stripeWear s k < stripeWear s j then some k else some j) none with
    | none => .next s
    | some k => .next (updMme (fun m => { m with wlQueued := true }) (queueRefresh 5 0 k s))

/-! ## Rebuild (R437 to R441) -/

/-- Members of a row that can be read: present, written up to the row, and reachable. -/
def rowMembers (s : State) (k r m : Nat) : List Nat :=
  let x := getStripe s k
  (present s k).filter (fun j => j != m && !(x.rebuild.any (fun p => p.1 == j && decide (p.2 ≤ r))) && dieReach s (refDie (x.members.getD j 0)))

/-- Members of a row that are gone for good. -/
def rowGone (s : State) (k r m : Nat) : Nat :=
  let x := getStripe s k
  x.lost.length + (x.rebuild.filter (fun p => p.1 != m && decide (p.2 ≤ r))).length + 1

/-- Members a rebuild needs: n, one fewer while the row's Pail is held, none while its data is in the Vat (Table 10-3). -/
def rowNeeds (s : State) (k r : Nat) : Nat :=
  let y := getRow s k r
  let n := stripeData (getStripe s k)
  if y.vat then 0 else if y.pail then n - 1 else n

/-- Units of a row that a member holds. -/
def memberUnits (s : State) (k r m : Nat) : List Nat :=
  (rowUnits s k r).filter (fun key => (zoneSpot (unitLba key % zoneLbas)).member == m)

/-- One row of a replacement is written, Skimmed and covered by its watermark (R439, R440). -/
def rebuildStep (k m r : Nat) (s : State) : State :=
  let ref := (getStripe s k).members.getD m 0
  let s := updBlock ref (fun b => { b with
    wl := r + 1
    snaps := mapPut b.snaps (r / 32) (some (ageInt s (refDie ref)))
    stamps := mapPut b.stamps (r / 32) (writeStamp s) }) s
  let next := r + 1
  let done := decide ((getStripe s k).issued.length ≤ next)
  let s := updStripe k (fun x => { x with
    rebuild := if done then x.rebuild.filter (fun p => p.1 != m) else x.rebuild.map (fun p => if p.1 = m then (m, next) else p) }) s
  let s := updRow k r (fun y => if y.st = 0 then y else
    { y with fine := y.fine ++ [m], skim := mapSet skim0 y.skim m { skim0 with verdict := 1 } }) s
  let s := issue 0x15 16 [k, m, r] [.stripe k (getStripe s k), .block ref (getBlock s ref)] .nothing s
  rowSkimCheck k r (rowProgCheck k r (rowVatCheck k r s))

/-- The member and row that a stripe rebuilds next. -/
def nextRebuild (s : State) (k : Nat) : Option (Nat × Nat) :=
  (getStripe s k).rebuild.foldl (fun m p => match m with
    | none => some p
    | some q => if p.2 < q.2 ∨ (p.2 = q.2 ∧ p.1 < q.1) then some p else some q) none

/-- REBUILD_ROW (R437 to R441): the next row of a zone stripe's replacement. A unit with more than two members of its row gone is
lost, and the zone is queued in refresh class 2. With too few members reachable for now the row waits. -/
def execRebuildRow (stripe : Nat) (s : State) : Host.Outcome State Fault Refusal :=
  match nextRebuild s stripe with
  | none => .next s
  | some (m, r) =>
    let x := getStripe s stripe
    if isLog stripe ∨ x.live = false ∨ bufFull s = true ∨ natBits s.mme.above 2 1 = 1 then .next s
    else if x.issued.length ≤ r then
      .next (updStripe stripe (fun x => { x with rebuild := x.rebuild.filter (fun p => p.1 != m) }) s)
    else if rowNeeds s stripe r ≤ (rowMembers s stripe r m).length then .next (rebuildStep stripe m r s)
    else if 2 < rowGone s stripe r m then
      let s := (memberUnits s stripe r m).foldl (fun s key => loseUnit stripe r key s) s
      .next (rebuildStep stripe m r (queueRefresh 2 0 stripe s))
    else .next s

/-- REBUILD_REPLACEMENT_RETRY (R438): stripes with a lost member try again, two lost members first. -/
def execRebuildReplacementRetry (s : State) : Host.Outcome State Fault Refusal :=
  let hurt := s.tabs.stripes.filter (fun e => e.2.live && e.2.zone.isSome && e.2.lost != [])
  let order := hurt.filter (fun e => decide (2 ≤ e.2.lost.length)) ++ hurt.filter (fun e => decide (e.2.lost.length < 2))
  .next (zmSettle s (order.foldl (fun s e => e.2.lost.foldl (fun s m => replaceLost e.1 m s) s) s))

/-! ## Rates (R442, R443) -/

/-- MME_RATE_WINDOW (R442): bytes written by each class in the 100 ms window, against floors of 10 MB/s and ceilings of 0.1 GB/s;
while the junction throttles no class goes above its floor (20 R730). -/
def execMmeRateWindow (churn refresh rebuild : Nat) (s : State) : Host.Outcome State Fault Refusal :=
  let fl (f : Fld) (v : Nat) : Bool := decide (v < getF s f * 1000000)
  let ce (f fl : Fld) (v : Nat) : Bool := if s.pad.throttle then decide (getF s fl * 1000000 ≤ v) else decide (getF s f * 10000000 ≤ v)
  .next (updMme (fun m => { m with
    below := bitOf (fl F.MME_FLOOR_CFG_CHURN churn) + 2 * bitOf (fl F.MME_FLOOR_CFG_REFRESH refresh) + 4 * bitOf (fl F.MME_FLOOR_CFG_REBUILD rebuild)
    above := bitOf (ce F.MME_CEIL_CFG_CHURN F.MME_FLOOR_CFG_CHURN churn) + 2 * bitOf (ce F.MME_CEIL_CFG_REFRESH F.MME_FLOOR_CFG_REFRESH refresh)
      + 4 * bitOf (ce F.MME_CEIL_CFG_REBUILD F.MME_FLOOR_CFG_REBUILD rebuild) }) s)

/-- The floor test of R443. -/
def floorRefused (v : Nat) : Bool := decide (93139 < 102 * (natBits v 0 10 + natBits v 10 10) + 2550 * natBits v 20 10)

/-- A write of MME_FLOOR_CFG (R443, R452). -/
def floorWrite (v : Nat) (s : State) : State := if floorRefused v then s else plainWrite 0xB00001C v s

/-- MME_FLOOR_WRITE (R443): only the operator. -/
def execMmeFloorWrite (w : Writer) (value : Word) (s : State) : Host.Outcome State Fault Refusal :=
  match w with
  | .operator => .next (floorWrite value.toNat s)
  | .firmware => .next s

end Sys2Proof.Machine
end

