-- ==== Sys2Proof/Machine/ZoneFam.lean ====
section
/-! DEFINITION. Meanings of the zone commands (06). -/

namespace Sys2Proof.Machine

/-- SHRINK_FINISH (06 R209). -/
def execShrinkFinish (zone : Nat) (s : State) : Host.Outcome State Fault Refusal := .next (zmSettle s (shrinkDone zone s))

/-- MEMBER_LOSS (06 R207, R209, R210). -/
def execMemberLoss (stripe member : Nat) (s : State) : Host.Outcome State Fault Refusal :=
  .next (zmSettle s (loseMember stripe member s))

/-- SPARE_REPLENISH (06 R212): one Empty zone of the chosen namespace goes Offline while S is below LOW_MARK. -/
def execSpareReplenish (s : State) : Host.Outcome State Fault Refusal := .next (zmSettle s (replenish s))

/-- Whether 52 die-blocks make a ready-list entry (02 R56, 06 R196): Free PLC die-blocks on distinct trained links. -/
def entryOk (s : State) (blocks : List Nat) : Bool :=
  decide (blocks.length = 52) && decide ((blocks.map refLink).Nodup)
    && blocks.all (fun r => (getBlock s r).st == .free && (getBlock s r).mode == 0 && linkTrained s (refLink r))

/-- READY_LIST_REFILL (02 R56, 06 R219): firmware adds an entry, general (`home` 0) or of a recall group's home, of which
it keeps at most PER_HOME. -/
def execReadyListRefill (home : Nat) (blocks : List Nat) (s : State) : Host.Outcome State Fault Refusal :=
  if entryOk s blocks = false then .next s
  else
    let s' := blocks.foldl (fun s r => updBlock r (fun b => { b with st := .ready }) s) s
    if home = 0 then .next (updMme (fun m => { m with ready := m.ready ++ [blocks] }) s')
    else if (mapGet [] s.mme.homeReady home).length < getF s F.ZM_HINT_CFG_PER_HOME
        ∧ blocks.all (fun r => natBits (mapGet 0 s.tabs.homes home / 2) (refLink r / 8) 1 = 1) then
      .next (updMme (fun m => { m with homeReady := mapUpd [] m.homeReady home (· ++ [blocks]) }) s')
    else .next s

/-- RESERVATION_REPLACE (06 R208): a void reserved die-block is replaced from the free pool when S allows. -/
def execReservationReplace (zone block : Nat) (s : State) : Host.Outcome State Fault Refusal :=
  if (getZone s zone).reserve.contains block = false ∨ (getZone s zone).isActive = false then .next s
  else
    let s0 := s
    let s := voidReserve zone block s
    if 1 ≤ spare s then
      match takeReserve zone (getNs s (zoneNs zone)).tenant s 1 with
      | some s => .next (zmSettle s0 s)
      | none => .next s
    else .next s

/-- Free die-blocks of a link group at the tenant's positions. -/
def groupFree (s : State) (t g : Nat) : Nat := ((candidates s 0 [] (posOwn s t)).filter (fun r => refLink r / 8 == g)).length

/-- Trained links of the groups of a mask. -/
def maskLinks (s : State) (m : Nat) : Nat :=
  ((List.range (linkCount s)).filter (fun k => linkTrained s k && natBits m (k / 8) 1 == 1)).length

/-- The group with the most free die-blocks outside a mask, the lower number on a tie. -/
def nextGroup (s : State) (t allowed m : Nat) : Option Nat :=
  ((List.range 16).filter (fun g => natBits allowed g 1 == 1 && natBits m g 1 == 0)).foldl
    (fun b g => match b with
      | none => some g
      | some x => if groupFree s t x < groupFree s t g then some g else some x) none

/-- Grow a home (06 R218): 7 groups, then more until they hold 53 trained links. -/
def growHome (s : State) (t allowed m : Nat) : Nat → Nat
  | 0 => m
  | fuel + 1 =>
    let n := ((List.range 16).filter (fun g => natBits m g 1 == 1)).length
    if 7 ≤ n ∧ 53 ≤ maskLinks s m then m
    else
      match nextGroup s t allowed m with
      | some g => growHome s t allowed (m + 2 ^ g) fuel
      | none => m

/-- LG_MASK of a hint word: 0 allows every group. -/
def hintAllowed (s : State) (h : Nat) : Nat :=
  let all := 2 ^ groupCount s - 1
  if natBits h 16 16 = 0 then all else natBits h 16 16 &&& all

/-- Choose a home for a recall group from a hint word and journal it in a HINT record (06 R218, R220). -/
def chooseHome (group hint t : Nat) (s : State) : State :=
  let m := growHome s t (hintAllowed s hint) 0 16
  let v := m * 2 + natBits hint 14 1
  let s := updTabs (fun x => { x with homes := mapSet 0 x.homes group v }) s
  issue 0x1A 24 [group, m] [.home group v] .nothing s

/-- Links of a home with a free die-block at the tenant's positions (06 R220). -/
def homeLinks (s : State) (t m : Nat) : Nat :=
  ((List.range (linkCount s)).filter (fun k => natBits m (k / 8) 1 == 1
    && (candidates s 0 [] (posOwn s t)).any (fun r => refLink r == k))).length

/-- REHOME (06 R220, R221): a home with fewer than 52 links that hold a free die-block is chosen anew, unless it is pinned
or AUTO_REHOME is 0. -/
def execRehome (group : Nat) (s : State) : Host.Outcome State Fault Refusal :=
  let v := mapGet 0 s.tabs.homes group
  match s.tabs.zones.find? (fun e => natBits e.2.hint 0 12 == group && natBits e.2.hint 12 2 == 1) with
  | none => .next s
  | some (zk, z) =>
    let t := (getNs s (zoneNs zk)).tenant
    if v = 0 ∨ v % 2 = 1 ∨ flagF s F.ZM_HINT_CFG_AUTO_REHOME = false ∨ 52 ≤ homeLinks s t (v / 2) then .next s
    else .next (updMme (fun m => { m with homeReady := mapDel m.homeReady group }) (chooseHome group z.hint t s))

/-- Width of the next log stripe: n data members (06 R225). -/
def logWidth (s : State) : Nat := min 50 (trainedLinks s - 3)

end Sys2Proof.Machine
end

