-- ==== Sys2Proof/Machine/IoOps.lean ====
section
/-! DEFINITION. Operations of the I/O commands: admission (05 R165 to R172, 01 R32, R34), the Vat's set-asides (10 R377, R378),
withdrawn writes (05 R177), Flush (10 R400), and lost connections (05 R183, R184). -/

namespace Sys2Proof.Machine

/-! ## Names -/

def getTenant (s : State) (t : Nat) : Tenant := mapGet tenant0 s.qe.tenants t
def updTenant (t : Nat) (f : Tenant → Tenant) (s : State) : State :=
  { s with qe := { s.qe with tenants := mapUpd tenant0 s.qe.tenants t f } }
def getConn (s : State) (c : Nat) : Conn := mapGet conn0 s.hfe.conns c
def updConn (c : Nat) (f : Conn → Conn) (s : State) : State :=
  { s with hfe := { s.hfe with conns := mapUpd conn0 s.hfe.conns c f } }

/-- SLBA and NLB of a command (NVM Command Set layout). -/
def Capsule.slba (c : Capsule) : Nat := c.cdw10 + c.cdw11 * 2 ^ 32
def Capsule.nlb (c : Capsule) : Nat := c.cdw12 % 65536 + 1
def Capsule.fua (c : Capsule) : Bool := decide (natBits c.cdw12 30 1 = 1)
/-- Send action, Select All, receive action and reporting option of the zone management commands. -/
def Capsule.zsa (c : Capsule) : Nat := c.cdw13 % 256
def Capsule.zall (c : Capsule) : Bool := decide (natBits c.cdw13 8 1 = 1)

/-- The namespace a command names, when it is valid for the tenant and attached to the controller (05 R166). -/
def nsOf (s : State) (t : Task) : Option Nat :=
  (s.tabs.nss.find? (fun e => e.2.valid && e.2.tenant == t.tenant && e.2.nsid == t.cap.nsid && e.2.attached.contains t.cntlid)).map Prod.fst

/-- LBAs of a namespace (06 R193). -/
def nsLbas (n : Ns) : Nat := if n.conv then n.size else n.size * zoneLbas

/-- Zones of a range. -/
def zonesOfRange (ns slba nlb : Nat) : List Nat :=
  (List.range ((slba + nlb - 1) / zoneLbas + 1 - slba / zoneLbas)).map (fun i => zoneKey ns (slba / zoneLbas + i))

/-! ## Admission -/

/-- A command just fetched on an I/O queue with an opcode, none of whose checks has run. -/
def freshIo (s : State) (slot opc : Nat) : Bool :=
  let t := getTask s slot
  t.st == .admitted && !t.admin && !t.internal && t.cap.opc == opc && t.nlb == 0 && t.order == 0

/-- Why a command fails at admission. -/
abbrev IoErr := Nat × Nat × Bool

/-- Device state: before the reads-served point and from the start of a quiesce nothing is served; until Serving nothing that
changes stored data (01 R32, R34). -/
def stateErr (s : State) (changes : Bool) : Option IoErr :=
  if s.top.readsOk = false ∨ s.top.dev = .quiescing ∨ s.top.dev = .retained ∨ (changes = true ∧ s.top.dev ≠ .serving) then some (0, 0x82, false)
  else none

/-- A Sanitize runs on a tenant's subsystem (05 R182), a Format on a namespace (12 R486). -/
def sanitizing (s : State) (t : Nat) : Bool := s.tabs.san.active && s.tabs.san.ns.isNone && s.tabs.san.tenant == t

/-- Checks before the range: device state, namespace, Sanitize, Format and the namespace type (05 R165, R166, R182). -/
def nsErr (s : State) (t : Task) (changes conv zoned : Bool) : IoErr ⊕ Nat :=
  match stateErr s changes with
  | some e => .inl e
  | none =>
    match nsOf s t with
    | none => .inl (0, 0x0B, true)
    | some n =>
      let x := getNs s n
      if sanitizing s t.tenant then .inl (0, 0x1D, true)
      else if x.formatting then .inl (0, 0x82, false)
      else if (x.conv ∧ conv = false) ∨ (x.conv = false ∧ zoned = false) then .inl (0, 0x01, true)
      else .inr n

/-- Length and range (05 R166): `sgl`: the data length that the SGL must describe. -/
def rangeErr (s : State) (t : Task) (n : Nat) (sgl : Option Nat) : Option IoErr :=
  if 512 < t.cap.nlb ∨ (sgl.isSome ∧ sgl ≠ some t.cap.sglLen) ∨ t.cap.inCapsule ≠ [] then some (0, 0x0F, true)
  else if nsLbas (getNs s n) < t.cap.slba + t.cap.nlb then some (0, 0x80, true)
  else none

/-- A tenant has an active key for new writes (13 R500): a clear of it that waits shuts them out (Table 13-3). -/
def keyActive (s : State) (t : Nat) : Bool :=
  (activeSlot s t).isSome && (match s.ite.clearing, (getKeys s t).active with
    | some c, some a => c != (t, a)
    | _, _ => true)

/-- A Zone Management Send that names a zone waits or executes (06 R203). -/
def zoneHeld (s : State) (zk : Nat) : Bool :=
  s.qe.tasks.any (fun e => !e.2.admin && e.2.cap.opc == 0x79 && (e.2.st == .admitted || e.2.st == .executing) && e.2.zones.contains zk)

/-- A slot is admitted to the ordering of writes: the next admission order. -/
def nextOrder (s : State) : Nat × State := (s.qe.order + 1, { s with qe := { s.qe with order := s.qe.order + 1 } })

/-- WCE = 0 makes every write of the controller behave as FUA (05 R169, R179). -/
def wceOff (s : State) (t : Task) : Bool := !(mapGet ctl0 s.qe.ctls (ctlKey t.tenant t.cntlid)).wce

/-- Finish with a failed check. -/
def failIo (slot : Nat) (e : IoErr) (s : State) : State := finish slot e.1 e.2.1 e.2.2 0 0 s

/-! ## The Vat (10 R377) -/

/-- Units of a row of a log stripe. -/
def logRowUnits (s : State) (k : Nat) : Nat := ((getStripe s k).members.length - 2) * 48

/-- Units of conventional writes of a tenant whose data phase has started and that have not landed. -/
def convInFlight (s : State) (t : Nat) : Nat :=
  ((s.qe.tasks.filter (fun e => !e.2.admin && e.2.st == .receiving && e.2.tenant == t && (getNs s e.2.ns).conv && e.2.cap.opc == 0x01)).map
    (fun e => e.2.nlb)).sum

/-- Rows that a range of a zone touches, with the bytes that fall into each. -/
def zoneRows (k off nlb : Nat) : List (Nat × Nat × Nat) :=
  (List.range ((off + nlb - 1) / rowLbas + 1 - off / rowLbas)).map (fun (i : Nat) =>
    let r := off / rowLbas + i
    (k, r, 4096 * (min (off + nlb) ((r + 1) * rowLbas) - max off (r * rowLbas))))

/-- Rows of a log stripe that units from landing position `pos` on fill; positions beyond its last row are not its own. -/
def logRows (s : State) (k pos nlb : Nat) : List (Nat × Nat × Nat) :=
  let u := logRowUnits s k
  let base := (getStripe s k).issued.length
  if u = 0 then []
  else
    ((List.range ((pos + nlb - 1) / u + 1 - pos / u)).map (fun (i : Nat) =>
      let j := pos / u + i
      (k, base + j, 4096 * (min (pos + nlb) ((j + 1) * u) - max pos (j * u))))).filter (fun e => decide (e.2.1 < 256))

/-- Rows a write fills, with bytes; none: nothing can take it now. -/
def rowsNeeded (s : State) (t : Task) : Option (List (Nat × Nat × Nat)) :=
  if (getNs s t.ns).conv then
    match openLogOf s t.tenant with
    | none => none
    | some k =>
      let l := logRows s k ((getStripe s k).filling.length + convInFlight s t.tenant) t.nlb
      if l = [] then none else some l
  else
    match writeStripe (getZone s (zoneOfLba t.ns t.slba)) with
    | none => none
    | some k => some (zoneRows k (t.slba % zoneLbas) t.nlb)

/-- Bytes move out of the set-asides of some rows into buffers, or back. -/
def fillAside (l : List (Nat × Nat × Nat)) (s : State) : State :=
  updWpe (fun w => { w with setAside := l.foldl (fun m e => mapUpd 0 m (rowKey e.1 e.2.1) (fun n => n - e.2.2)) w.setAside }) s
def unfillAside (l : List (Nat × Nat × Nat)) (s : State) : State :=
  updWpe (fun w => { w with setAside := l.foldl (fun m e => mapUpd 0 m (rowKey e.1 e.2.1) (fun n => n + e.2.2)) w.setAside }) s

/-- Rows among some that have no set-aside yet. -/
def newAsides (s : State) (l : List (Nat × Nat × Nat)) : List (Nat × Nat) :=
  ((l.map (fun e => (e.1, e.2.1))).filter (fun e => mapGet 0 s.wpe.setAside (rowKey e.1 e.2) == 0)).eraseDups

/-- Set-asides are made in full. -/
def makeAsides (l : List (Nat × Nat)) (s : State) : State :=
  updWpe (fun w => { w with setAside := l.foldl (fun m e => mapPut m (rowKey e.1 e.2) (rowBytes s e.1)) w.setAside }) s

/-- Vat buffers for a number of bytes: 1 MiB each, then the smallest that fits. -/
def vatAlloc (tenant bytes : Nat) (s : State) : Nat → Option (List Nat × State)
  | 0 => if bytes = 0 then some ([], s) else none
  | fuel + 1 =>
    if bytes = 0 then some ([], s)
    else
      match takeBuffer 2 tenant (min bytes 1048576) s with
      | (some h, s) =>
        match vatAlloc tenant (bytes - min bytes 1048576) s fuel with
        | some (hs, s) => some (h :: hs, s)
        | none => none
      | (none, _) => none

/-- Units of a reopened zone's row that stand in the Cooler only. -/
def stagedOnly (s : State) (k r : Nat) : List Nat :=
  (rowUnits s k r).filter (fun u => match (mapGet [] s.units u).head? with
    | some v => !v.vat && v.slice.isSome
    | none => false)

/-- The staged units of a row are read back into its new set-aside and refolded (R379). -/
def readBack (k r : Nat) (s : State) : State :=
  let us := if isLog k ∨ (getStripe s k).issued.contains r then [] else stagedOnly s k r
  if us = [] then s
  else
    let bytes := 4096 * us.length
    match vatAlloc (getStripe s k).tenant bytes s 16 with
    | none => s
    | some (hs, s) =>
      let s := fillAside [(k, r, bytes)] s
      let s := updWpe (fun w => { w with rowBufs := mapUpd [] w.rowBufs (rowKey k r) (· ++ hs) }) s
      us.foldl (fun s u => updUnit u (fun l => match l with
        | v :: rest => { v with vat := true } :: rest
        | [] => []) s) s

/-- Free TLC die-blocks allow conventional data phases (11 R426). -/
def tlcRoom (s : State) : Bool := decide (logWidth s + 2 ≤ freeTlc s)

/-- Earlier-admitted writes of the same zone have all started (R378). -/
def turnCome (s : State) (t : Task) : Bool :=
  (getNs s t.ns).conv || (zonePending s (zoneOfLba t.ns t.slba)).all (fun k =>
    let o := getTask s k
    decide (t.order ≤ o.order) || o.st != .admitted)

/-- The record that opened or bound the zone of a write is accepted (12 Table 12-4). -/
def bindAccepted (s : State) (t : Task) : Bool :=
  (getNs s t.ns).conv || (match writeStripe (getZone s (zoneOfLba t.ns t.slba)) with
    | some k => (mapGet stripe0 s.dur.stripes k).live
    | none => false)

/-- Start a write's data phase under R377: set-asides, buffers; none: it stays held. -/
def startReceive (slot : Nat) (s : State) : Option State :=
  let t := getTask s slot
  match rowsNeeded s t with
  | none => none
  | some rows =>
    let fresh := newAsides s rows
    let add := (fresh.map (fun e => rowBytes s e.1)).sum
    if s.wpe.full ∨ (fresh ≠ [] ∧ vatLimit s < vatUsed s + add) ∨ ((getNs s t.ns).conv = true ∧ tlcRoom s = false) then none
    else
      let s := fresh.foldl (fun s e => readBack e.1 e.2 s) (makeAsides fresh s)
      match vatAlloc t.tenant (t.nlb * 4096) s 4 with
      | none => none
      | some (hs, s) =>
        some (updTask slot (fun t => { t with bufs := hs, held := false }) (fillAside rows s))

/-! ## Withdrawn writes (05 R177) -/

/-- Sort by a number, lowest first. -/
def insertBy {α : Type} (f : α → Nat) (x : α) : List α → List α
  | [] => [x]
  | y :: ys => if f x < f y then x :: y :: ys else y :: insertBy f x ys
def sortBy {α : Type} (f : α → Nat) (l : List α) : List α := l.foldr (insertBy f) []

/-- Rows whose set-asides a started write of a zone has filled. -/
def zoneFilled (s : State) (t : Task) : List (Nat × Nat × Nat) :=
  match writeStripe (getZone s (zoneOfLba t.ns t.slba)) with
  | some k => if t.bufs = [] then [] else zoneRows k (t.slba % zoneLbas) t.nlb
  | none => []

/-- The bytes of a conventional write that is withdrawn go back to the set-aside of the last row that has room. -/
def unfillLog (s0 : State) (t : Task) (s : State) : State :=
  if t.bufs = [] then s
  else
    match openLogOf s0 t.tenant with
    | none => s
    | some k =>
      match (s.wpe.setAside.filter (fun e => e.1 / 256 == k)).getLast? with
      | some e => updWpe (fun w => { w with setAside := mapPut w.setAside e.1 (min (rowBytes s k) (e.2 + 4096 * t.nlb)) }) s
      | none => s

/-- An uncommitted write is withdrawn: its buffers return, its own completion is posted by `done`, and the zone is handled
under R177: later Writes and Write Zeroes complete with Zone Invalid Write, later Appends move down and are tagged again. -/
def dropWrite (slot : Nat) (done : State → State) (s : State) : State :=
  let t := getTask s slot
  if (getNs s t.ns).conv ∨ t.order = 0 then done (unfillLog s t (freeVat slot s))
  else
    let zk := zoneOfLba t.ns t.slba
    let later := sortBy (fun k => (getTask s k).order) ((zonePending s zk).filter (fun k => decide (t.order < (getTask s k).order)))
    let gone := later.filter (fun k => (getTask s k).cap.opc != 0x7D)
    let stay := later.filter (fun k => (getTask s k).cap.opc == 0x7D)
    let lost := (t.order, t.nlb) :: gone.map (fun k => ((getTask s k).order, (getTask s k).nlb))
    let total := (lost.map Prod.snd).sum
    let drop (k : Nat) (s : State) : State := freeVat k (unfillAside (zoneFilled s (getTask s k)) s)
    let s := done (drop slot s)
    let s := gone.foldl (fun s k => finishErr k 1 0xBC (drop k s)) s
    let s := stay.foldl (fun s k =>
      let o := getTask s k
      let down := ((lost.filter (fun e => decide (e.1 < o.order))).map Prod.snd).sum
      let s := unfillAside (zoneFilled s o) s
      let s := updTask k (fun o => { o with
        slba := o.slba - down, units := o.units.map (fun e => (e.1, { e.2 with tag := none })) }) s
      fillAside (zoneFilled s (getTask s k)) s) s
    updZone zk (fun z => { z with adm := z.adm - total }) s

/-! ## Flush (10 R400) -/

/-- Rows of a stripe that programs alone make durable: complete rows whose foggies have all been issued. -/
def rowOnItsWay (s : State) (k r : Nat) : Bool :=
  let x := getRow s k r
  (getStripe s k).issued.contains r && x.st != 0 && (survivors s k).all (fun m =>
    x.sent.contains m || x.foggy.contains m || x.fineSent.contains m || x.fine.contains m)

/-- Stripes that hold undurable units of a namespace. -/
def flushStripes (s : State) (ns : Nat) : List Nat :=
  (s.tabs.stripes.filter (fun e => e.2.live && (unstaged s e.1).any (fun u => unitNs u.1 == ns))).map Prod.fst

/-- Serve a Flush or an FUA write of a namespace (R400): closing fines for held wordlines, waiting for rows on their way,
staging for anything else; the journal's buffer is sealed. -/
def serveFlush (ns : Nat) (s : State) : State :=
  let s := (flushStripes s ns).foldl (fun s k =>
    stageUnits k ((unstaged s k).filter (fun u => unitNs u.1 == ns && !rowOnItsWay s k u.2.1)) (closeHeld k s)) s
  sealPage (coolerSettle s)

/-! ## Lost connections (05 R183, R184) -/

/-- A write that has been admitted and not committed. -/
def Task.uncommitted (t : Task) : Bool :=
  !t.admin && t.nlb != 0 && (t.cap.opc == 0x01 || t.cap.opc == 0x08 || t.cap.opc == 0x7D)
    && (t.st == .admitted || t.st == .receiving || (t.st == .executing && t.waitJsn.isNone))

/-- What becomes of one slot when its connection is lost (R183). -/
def loseTask (slot : Nat) (s : State) : State :=
  let t := getTask s slot
  if t.st = .free then s
  else if t.uncommitted then dropWrite slot (freeSlot slot) s
  else if t.admin then
    if t.cap.opc = 0x0C then freeSlot slot s else updTask slot (fun t => { t with lost := true }) s
  else if t.st = .committed then updTask slot (fun t => { t with lost := true }) s
  else if t.st = .executing ∧ (t.cap.opc = 0x79 ∨ t.cap.opc = 0x09) then updTask slot (fun t => { t with lost := true }) s
  else freeSlot slot (abandonReads slot s)

/-- One connection goes, with its commands and what waited in its ring. -/
def dropConn (c : Nat) (s : State) : State :=
  let mine := mapKeysWhere (fun _ t => t.conn == c && t.st != .free) s.qe.tasks
  let s := mine.foldl (fun s k => loseTask k s) s
  { s with hfe := { s.hfe with conns := mapDel s.hfe.conns c } }

/-- Connections of a controller. -/
def ctlConns (s : State) (t c : Nat) : List Nat :=
  mapKeysWhere (fun _ x => x.tenant == t && x.cntlid == c && x.role != .unassigned) s.hfe.conns

/-- The kept Sirsis reply and the open assembly of a path go (17 R652). -/
def forgetReply (path : Nat) (s : State) : State :=
  { s with mgc := { s.mgc with
      paths := mapUpd path0 s.mgc.paths path (fun x => { x with kept := none, fragOpcode := 0, fragSeq := 0, fragData := [], fragCount := 0 }) } }

/-- A controller is torn down (R184): its connections are closed and its CNTLID becomes free. -/
def tearCtl (t c : Nat) (s : State) : State :=
  let s := (ctlConns s t c).foldl (fun s k => dropConn k s) s
  let s := if t = 0 then forgetReply (c + 1) s else s
  { s with qe := { s.qe with ctls := mapDel s.qe.ctls (ctlKey t c) } }

/-- A connection is lost: that of an admin queue takes its controller with it (R184). -/
def loseConn (c : Nat) (s : State) : State :=
  let x := getConn s c
  if x.port = 8 then s
  else if x.role = .admin ∨ x.role = .discovery then tearCtl x.tenant x.cntlid s
  else dropConn c s

end Sys2Proof.Machine
end

