-- ==== Sys2Proof/Machine/IoFam.lean ====
section
/-! DEFINITION. Meanings of the I/O commands and of the events of a command's life (05, 06, 10 R377, 13 R508). -/

namespace Sys2Proof.Machine

/-! ## Writes: admission -/

/-- An open that closed another zone implicitly stages that zone's current row (06 R205, 10 R379). -/
def stageNewlyClosed (old s : State) : State :=
  (mapKeysWhere (fun k z => z.st == .closed && (getZone old k).isOpen) s.tabs.zones).foldl (fun s zk => stageClosed zk s) s

/-- A zoned Write, Write Zeroes or Zone Append at its admission (06 R200, R203, 05 R177). An Append that does not name ZSLBA
fails as an invalid write. -/
def admitZonedWrite (slot n : Nat) (s : State) : State :=
  let t := getTask s slot
  let zk := zoneOfLba n t.cap.slba
  let z := getZone s zk
  let off := t.cap.slba % zoneLbas
  let append := t.cap.opc == 0x7D
  let pos : Option Nat := if append then (if off = 0 then none else some (z.adm + 1)) else some off
  if zoneHeld s zk ∨ bufFull s then s
  else
    match admitZoned zk pos t.cap.nlb s with
    | .inl e => failIo slot e s
    | .inr s' =>
      let (o, s') := nextOrder s'
      let lba := zslba zk + z.adm
      let s' := updZone zk (fun z => { z with adm := z.adm + t.cap.nlb, lastOrder := o }) s'
      let s' := updTask slot (fun t => { t with
        ns := n, slba := lba, nlb := t.cap.nlb, order := o, append := append, zeroes := t.cap.opc == 0x08
        fua := t.cap.fua || wceOff s t }) s'
      zmSettle s (stageNewlyClosed s s')

/-- A conventional Write or Write Zeroes at its admission. Write Zeroes has no data: it goes to Executing (05 Table 05-8). -/
def admitConvWrite (slot n : Nat) (s : State) : State :=
  let t := getTask s slot
  if s.mme.convWp then failIo slot (0, 0x20, true) s
  else
    let (o, s) := nextOrder s
    let zeroes := t.cap.opc == 0x08
    updTask slot (fun t => { t with
      st := if zeroes then .executing else .admitted
      ns := n, slba := t.cap.slba, nlb := t.cap.nlb, order := o, zeroes := zeroes, fua := t.cap.fua || wceOff s t }) s

/-- Admission of a write of either type (05 R165, R166, R171, 13 R500). -/
def admitWrite (slot opc : Nat) (conv : Bool) (s : State) : State :=
  if freshIo s slot opc = false then s
  else
    let t := getTask s slot
    match nsErr s t true conv true with
    | .inl e => failIo slot e s
    | .inr n =>
      match rangeErr s t n (if opc = 0x08 then none else some (t.cap.nlb * 4096)) with
      | some e => failIo slot e s
      | none =>
        if keyActive s (getNs s n).tenant = false then failIo slot (1, 0xC1, true) s
        else if (getNs s n).conv then admitConvWrite slot n s
        else admitZonedWrite slot n s

/-- WRITE (05 R165, R176, R177). -/
def execWrite (slot : Nat) (s : State) : Host.Outcome State Fault Refusal := .next (admitWrite slot 0x01 true s)

/-- WRITE_ZEROES (05 R165). -/
def execWriteZeroes (slot : Nat) (s : State) : Host.Outcome State Fault Refusal := .next (admitWrite slot 0x08 true s)

/-- ZONE_APPEND (05 R165, R177): zoned namespaces only. -/
def execZoneAppend (slot : Nat) (s : State) : Host.Outcome State Fault Refusal := .next (admitWrite slot 0x7D false s)

/-! ## Writes: data and commit -/

/-- Start the next data phase of a write in Receiving (03 R96, 04 R137): at most 131,072 bytes, while the tenant's byte bucket is
above 0 and the transport allows another outstanding request. -/
def nextFetch (slot : Nat) (s : State) : State :=
  let t := getTask s slot
  let total := t.nlb * 4096
  let landed := (t.units.map (fun e => e.2.bytes)).sum
  let c := getConn s t.conn
  let limit := if c.tcp then min 16 c.maxR2t else 16
  if total ≤ t.moved ∨ (getTenant s t.tenant).bytes ≤ 0 ∨ limit * 131072 ≤ t.moved - landed then s
  else
    let n := min 131072 (total - t.moved)
    let s := updTenant t.tenant (fun x => { x with bytes := x.bytes - n }) s
    let s := updTask slot (fun t => { t with moved := t.moved + n }) s
    emit (.frame t.conn (if c.tcp then "R2T" else "RDMA READ") t.moved) (transmit t.conn s)

/-- DATA_PHASE_START (10 R377, R378): the first one takes the write into Receiving, or a zoned Write Zeroes, whose units are
zero, into Executing; later ones fetch the next range. -/
def execDataPhaseStart (slot : Nat) (s : State) : Host.Outcome State Fault Refusal :=
  let t := getTask s slot
  if t.admin ∨ t.order = 0 ∨ t.nlb = 0 ∨ ¬ (t.cap.opc = 0x01 ∨ t.cap.opc = 0x08 ∨ t.cap.opc = 0x7D) then .next s
  else if t.st = .receiving then .next (nextFetch slot s)
  else if t.st ≠ .admitted ∨ turnCome s t = false ∨ bindAccepted s t = false then .next s
  else
    match startReceive slot s with
    | none => .next (updTask slot (fun t => { t with held := true }) s)
    | some s =>
      if t.zeroes then
        let us := (List.range t.nlb).map (fun (i : Nat) => (i, (⟨0, 4096, 0, none, false⟩ : TUnit)))
        .next (updTask slot (fun t => { t with st := .executing, moved := t.nlb * 4096, units := us }) s)
      else .next (nextFetch slot (updTask slot (fun t => { t with st := .receiving }) s))

/-- Bytes of a write land (02 Table 02-4 steps 3 to 5): at the offset given, in ascending order; a unit fetched again keeps its
tag and awaits the comparison of 13 R501. -/
def landUnit (slot i lo : Nat) (bytes : List Nat) (s : State) : State :=
  updTask slot (fun t =>
    let u := mapGet tunit0 t.units i
    if u.bytes ≠ lo ∨ 4096 < lo + bytes.length then t
    else { t with units := mapPut t.units i { u with data := u.data % 2 ^ (8 * lo) + leNat bytes * 2 ^ (8 * lo), bytes := lo + bytes.length } }) s

/-- Bytes of a write land from an offset of the command on. -/
def landBytes (slot off : Nat) (bytes : List Nat) (s : State) : Nat → State
  | 0 => s
  | fuel + 1 =>
    if bytes = [] then s
    else
      let n := min bytes.length (4096 - off % 4096)
      landBytes slot (off + n) (bytes.drop n) (landUnit slot (off / 4096) (off % 4096) (bytes.take n) s) fuel

/-- Data of a command arrives: of a write in Receiving, the range list of a Dataset Management, or the data of an admin command. -/
def landData (slot off : Nat) (bytes : List Nat) (s : State) : State :=
  let t := getTask s slot
  if t.st = .receiving then
    if off + bytes.length ≤ t.moved then landBytes slot off bytes s (bytes.length / 4096 + 2) else s
  else if t.st = .admitted ∧ off + bytes.length ≤ t.moved then landBytes slot off bytes s (bytes.length / 4096 + 2)
  else s

/-- Every unit of a write is in the Vat with its tag. -/
def unitsReady (t : Task) : Bool :=
  t.units.length == t.nlb && t.units.all (fun e => e.2.bytes == 4096 && e.2.tag.isSome && !e.2.recheck)

/-- The version of a unit that a commit creates. -/
def newVersion (s : State) (t : Task) (stamp : Nat) (zgen : Nat) (u : TUnit) : UnitV :=
  { data := u.data, stamp := stamp, kind := 0, zgen := zgen, rgen := 0, tenant := (getNs s t.ns).tenant, keyId := u.keyId
    tag := u.tag.getD 0, durable := false, vat := true, slice := none, place := none }

/-- Where the buffers of units that wait for the tenant's next log stripe are kept. -/
def waitKey (tenant : Nat) : Nat := rowKey (2 ^ 30 + tenant) 0

/-- The row that landing position `pos` of a log stripe will have; beyond its last row the unit waits. -/
def landRow (s : State) (k tenant pos : Nat) : Nat :=
  let r := (getStripe s k).issued.length + pos / logRowUnits s k
  if logRowUnits s k = 0 ∨ 256 ≤ r then waitKey tenant else rowKey k r

/-- Rows take references to a command's buffers (10 R380): buffer `j` holds units 256 j on; the command's own reference passes to
the first row. -/
def refBufs (bufs : List Nat) (rowOf : Nat → Nat) (nlb : Nat) (s : State) : State :=
  (bufs.zip (List.range bufs.length)).foldl (fun s p =>
    let rs := (((List.range 256).filter (fun i => decide (p.2 * 256 + i < nlb))).map (fun i => rowOf (p.2 * 256 + i))).eraseDups
    let s := (rs.drop 1).foldl (fun s _ => bpmReference 2 3 p.1 s) s
    updWpe (fun w => { w with rowBufs := rs.foldl (fun m r => mapUpd [] m r (· ++ [p.1])) w.rowBufs }) s) s

/-- A COMMIT record (12 Table 12-3): KIND 0 Write, 1 Write Zeroes, 2 Zone Append; it carries the namespace's next stamp. -/
def issueCommit (t : Task) (stamp kind runs : Nat) (after : After) (s : State) : State :=
  let vol := s.jnl.volume
  let jsn := s.jnl.nextJsn
  let held := journalHeld s
  let s := issue 0x01 (32 + 8 * runs) [t.ns, kind, t.nlb, stamp, t.slba] [.ns t.ns (getNs s t.ns)] after s
  let s := updJnl (fun j => { j with commits := j.commits ++ [⟨t.ns, stamp, jsn, t.slba, t.nlb, none, false, vol⟩] }) s
  if journalHeld s ∧ held = false then fire 677 0 s else s

/-- The units of a zoned write enter the zone. -/
def commitZoned (slot stamp : Nat) (s : State) : State :=
  let t := getTask s slot
  let zk := zoneOfLba t.ns t.slba
  let z := getZone s zk
  let off := t.slba % zoneLbas
  let s := match writeStripe z with
    | some k => refBufs t.bufs (fun i => rowKey k ((off + i) / rowLbas)) t.nlb s
    | none => s
  let s := (List.range t.nlb).foldl (fun s i =>
    updUnit (unitKey t.ns (t.slba + i)) (fun l => newVersion s t stamp z.zgen (mapGet tunit0 t.units i) :: l) s) s
  let s := updZone zk (fun z => { z with wp := z.wp + t.nlb }) s
  let s := issueCommit t stamp (if t.append then 2 else if t.zeroes then 1 else 0) 0 .nothing s
  if (getZone s zk).wp = (getZone s zk).zcap ∧ (getZone s zk).isActive = true ∧ (getZone s zk).shrinking = false then
    issueZone zk 0 stamp .nothing (sealZone zk .full false s)
  else s

/-- The units of a conventional write land in the tenant's log stripe in order; those beyond its room wait in the Vat for the
next one (06 R225). -/
def commitConv (slot stamp : Nat) (s : State) : State :=
  let t := getTask s slot
  match openLogOf s t.tenant with
  | none =>
    let s := refBufs t.bufs (fun _ => waitKey t.tenant) t.nlb s
    let s := (List.range t.nlb).foldl (fun s i =>
      updUnit (unitKey t.ns (t.slba + i)) (fun l => newVersion s t stamp 0 (mapGet tunit0 t.units i) :: l) s) s
    issueCommit t stamp 0 1 .nothing s
  | some k =>
    let pos := (getStripe s k).filling.length
    let s := refBufs t.bufs (fun i => landRow s k t.tenant (pos + i)) t.nlb s
    let s := (List.range t.nlb).foldl (fun s i =>
      let key := unitKey t.ns (t.slba + i)
      let v := newVersion s t stamp 0 (mapGet tunit0 t.units i)
      if logRoom s k = 0 then updUnit key (fun l => v :: l) s else landLog k key v s) s
    issueCommit t stamp 0 1 .nothing s

/-- A conventional Write Zeroes deallocates its range (13 R498, 12 R467). -/
def commitGone (slot stamp : Nat) (s : State) : State :=
  let t := getTask s slot
  let s := (rangeKeys s t.ns t.slba t.nlb).foldl (fun s k => updUnit k (fun l => goneUnit stamp :: l) s) s
  issueCommit t stamp 1 0 (.dealloc t.ns stamp [(t.slba, t.nlb)]) s

/-- WRITE_COMMIT (05 R175, R177, 02 Table 02-4 step 7): all data in the Vat and tagged, the zone's predecessors committed; held
while the journal is full (12 R460, R476). The stamp is drawn, the data becomes visible and COMMIT is issued. -/
def execWriteCommit (slot : Nat) (s : State) : Host.Outcome State Fault Refusal :=
  let t := getTask s slot
  let conv := (getNs s t.ns).conv
  let ready := t.uncommitted && (t.st == .receiving || t.st == .executing) && ((conv && t.zeroes) || unitsReady t)
    && (conv || (zonePending s (zoneOfLba t.ns t.slba)).all (fun k => decide (t.order ≤ (getTask s k).order)))
  if ready = false ∨ bufFull s = true ∨ journalHeld s = true then .next s
  else
    let old := s
    let (st, s) := drawStamp t.ns s
    let s := if conv then (if t.zeroes then commitGone slot st s else commitConv slot st s) else commitZoned slot st s
    let s := updTenant t.tenant (fun x => { x with writeCmds := x.writeCmds + 1, writeLbas := x.writeLbas + t.nlb }) s
    let jsn := (s.jnl.commits.find? (fun c => c.ns == t.ns && c.stamp == st)).map (·.jsn)
    let s := updTask slot (fun t => { t with
      st := .committed, stamp := st, bufs := [], units := [], waitJsn := jsn
      waitDurable := if t.fua then [(t.ns, st + 1)] else []
      dw0 := if t.append then t.slba % 2 ^ 32 else 0
      dw1 := if t.append then t.slba / 2 ^ 32 else 0 }) s
    .next (zmSettle old (if t.fua then serveFlush t.ns s else s))

/-- LOG_STRIPE_ASSEMBLE (06 R225, R226): n data and 2 Rind TLC die-blocks on distinct trained links, the tenant's own
positions; only when n is at least 4, and one open log stripe a tenant. Units that waited for it land first. -/
def execLogStripeAssemble (tenant : Nat) (blocks : List Nat) (s : State) : Host.Outcome State Fault Refusal :=
  let n := logWidth s
  if mapGet 0 s.wpe.openLog tenant ≠ 0 ∨ n < 4 ∨ blocks.length ≠ n + 2 ∨ ¬ (blocks.map refLink).Nodup
      ∨ blocks.any (fun r => !((candidates s 1 [] (posOwn s tenant)).contains r)) = true then .next s
  else
    let k := freeStripe s 262144 8192
    let s := updStripe k (fun _ => { stripe0 with live := true, tenant := tenant, members := blocks }) s
    let s := blocks.foldl (fun s r => updBlock r (fun b => { b with st := .bound, owner := tenant, stripe := some k }) s) s
    let s := issueBind k (updWpe (fun w => { w with openLog := mapSet 0 w.openLog tenant (k + 1) }) s)
    -- committed conventional units of the tenant without a place
    let waits (e : Nat × List UnitV) : Bool := (getNs s (unitNs e.1)).conv && (getNs s (unitNs e.1)).tenant == tenant
      && (match e.2.head? with
        | some v => v.place.isNone && v.kind != 256 && v.vat
        | none => false)
    let us := sortBy (fun (e : Nat × List UnitV) => (e.2.head?.map (·.stamp)).getD 0) (s.units.filter waits)
    let s := us.foldl (fun s e => updUnit e.1 (fun l => match l with
      | v :: rest => { v with place := some (k, 256, 0) } :: rest
      | [] => []) (updStripe k (fun x => { x with filling := x.filling ++ [e.1] }) s)) s
    let hs := mapGet [] s.wpe.rowBufs (waitKey tenant)
    let rows := ((List.range us.length).map (fun i => landRow s k tenant i)).eraseDups
    let s := (rows.drop 1).foldl (fun s _ => hs.foldl (fun s h => bpmReference 2 3 h s) s) s
    let s := updWpe (fun w => { w with rowBufs := (rows.foldl (fun m r => mapUpd [] m r (· ++ hs)) (mapDel w.rowBufs (waitKey tenant))) }) s
    .next s

/-- DATA_PHASE_TIMEOUT (05 R186): the write is discarded and completes with Transient Transport Error, DNR = 0. -/
def execDataPhaseTimeout (slot : Nat) (s : State) : Host.Outcome State Fault Refusal :=
  let t := getTask s slot
  if t.st = .receiving ∧ t.admin = false then .next (dropWrite slot (finishRetry slot 0 0x22) s) else .next s

/-! ## Reads -/

/-- Admission of a Read or Verify (05 R165, R166, R179, 06 R197). -/
def admitRead (slot opc : Nat) (s : State) : State :=
  if freshIo s slot opc = false then s
  else
    let t := getTask s slot
    match nsErr s t false true true with
    | .inl e => failIo slot e s
    | .inr n =>
      match rangeErr s t n (if opc = 0x02 then some (t.cap.nlb * 4096) else none) with
      | some e => failIo slot e s
      | none =>
        if (getNs s n).conv = false ∧ (zonesOfRange n t.cap.slba t.cap.nlb).any (fun zk => (getZone s zk).st == .offline) = true then
          failIo slot (1, 0xBB, true) s
        else
          let fua := opc == 0x02 && t.cap.fua
          let s := updTask slot (fun t => { t with
            ns := n, slba := t.cap.slba, nlb := t.cap.nlb, fua := fua
            waitDurable := if fua then [(n, 2 ^ 64)] else [] }) s
          if fua ∧ overlapping s n (2 ^ 64) t.cap.slba t.cap.nlb ≠ [] then serveFlush n s else readStart slot s

/-- READ (05 R165, R176, R179). -/
def execRead (slot : Nat) (s : State) : Host.Outcome State Fault Refusal := .next (admitRead slot 0x02 s)

/-- VERIFY (05 R165): the read ladder without a data phase. -/
def execVerify (slot : Nat) (s : State) : Host.Outcome State Fault Refusal := .next (admitRead slot 0x0C s)

/-- An Error Information log entry (05 R170, 13 R508), as the number its 64 bytes spell: count, SQID, CID, status, parameter
location, LBA and NSID. -/
def errorEntry (count sqid cid status lba nsid : Nat) : Nat :=
  leNat (leBytes 8 count ++ leBytes 2 sqid ++ leBytes 2 cid ++ leBytes 2 status ++ leBytes 2 0xFFFF ++ leBytes 8 lba ++ leBytes 4 nsid)

/-- Enter an entry in the controller's log of 64. -/
def logError (t : Task) (sct sc lba : Nat) (s : State) : State :=
  updCtl (ctlKey t.tenant t.cntlid) (fun c =>
    let n := (c.errors.head?.map (· % 2 ^ 64)).getD 0 + 1
    if c.live then { c with errors := (errorEntry n t.sqid t.cap.cid ((sct * 256 + sc) * 2) lba t.cap.nsid :: c.errors).take 64 } else c) s

/-- The lowest failing unit of a read (13 R508). -/
def lowestFail (l : List (Nat × Nat × Nat)) : Option (Nat × Nat × Nat) :=
  l.foldl (fun m x => match m with
    | none => some x
    | some y => if x.1 < y.1 then some x else some y) none

/-- A read completes with the status of its lowest failing LBA; no data is sent. -/
def readFails (slot : Nat) (f : Nat × Nat × Nat) (s : State) : State :=
  let t := getTask s slot
  let s := logError t f.2.1 f.2.2 (t.slba + f.1) s
  let s := updTenant t.tenant (fun x => { x with mediaErrors := x.mediaErrors + 1 }) s
  let s := if f.2.1 = 2 ∧ f.2.2 = 0x81 then fire 547 t.ns s else s
  finishErr slot f.2.1 f.2.2 s

/-- A read or Verify counts in the SMART log. -/
def countRead (t : Task) (s : State) : State :=
  updTenant t.tenant (fun x => { x with readCmds := x.readCmds + 1, readLbas := x.readLbas + t.nlb }) s

/-- Bytes `lo` to `lo + n − 1` of a read's data. -/
def readBytes (t : Task) (lo n : Nat) : List Nat :=
  let units := (List.range t.nlb).filter (fun i => decide (i * 4096 < lo + n) && decide (lo < (i + 1) * 4096))
  let first := lo / 4096
  (((units.map (fun i => (mapGet none t.passed i).getD zeroUnit)).flatten).drop (lo - first * 4096)).take n

/-- Start the next data phase of a read (03 R96, 04 R137). -/
def nextSend (slot : Nat) (s : State) : State :=
  let t := getTask s slot
  let total := t.nlb * 4096
  if total ≤ t.moved ∨ (getTenant s t.tenant).bytes ≤ 0 then s
  else
    let n := min 131072 (total - t.moved)
    let s := updTenant t.tenant (fun x => { x with bytes := x.bytes - n }) s
    let s := updTask slot (fun t => { t with st := .transferring, moved := t.moved + n }) s
    emit (.data t.conn t.cap.cid (readBytes t t.moved n)) (transmit t.conn s)

/-- READ_TRANSFER_START (13 R508, 05 Table 05-8): once every unit has passed or failed. -/
def execReadTransferStart (slot : Nat) (s : State) : Host.Outcome State Fault Refusal :=
  let t := getTask s slot
  if t.reads = false then .next s
  else if t.st = .transferring then .next (nextSend slot s)
  else if t.st ≠ .reading ∨ t.passed.length + t.failed.length < t.nlb then .next s
  else
    match lowestFail t.failed with
    | some f => .next (readFails slot f s)
    | none => if t.cap.opc = 0x0C then .next (finishOk slot (countRead t s)) else .next (nextSend slot s)

/-- READ_TRANSFER_DONE (05 R174): the last byte has left. -/
def execReadTransferDone (slot : Nat) (s : State) : Host.Outcome State Fault Refusal :=
  let t := getTask s slot
  if t.st = .transferring ∧ t.nlb * 4096 ≤ t.moved then .next (finishOk slot (countRead t s)) else .next s

/-! ## Flush and Dataset Management -/

/-- FLUSH (05 R179): of one namespace, or of every namespace of the tenant attached to the controller. -/
def execFlush (slot : Nat) (s : State) : Host.Outcome State Fault Refusal :=
  if freshIo s slot 0x00 = false then .next s
  else
    let t := getTask s slot
    let run (ns : List Nat) (s : State) : State :=
      let (w, s) := ns.foldl (fun acc n => let (st, s) := drawStamp n acc.2; (acc.1 ++ [(n, st)], s)) (([] : List (Nat × Nat)), s)
      let s := updTask slot (fun t => { t with st := .executing, waitDurable := w }) s
      settleTasks ((w.filter (fun e => undurable s e.1 e.2 != [])).foldl (fun s e => serveFlush e.1 s)
        (if w = [] then finishOk slot s else s))
    if t.cap.nsid = 0xFFFFFFFF then
      match stateErr s false with
      | some e => .next (failIo slot e s)
      | none =>
        if sanitizing s t.tenant then .next (failIo slot (0, 0x1D, true) s)
        else .next (run (mapKeysWhere (fun _ n => n.valid && n.tenant == t.tenant && n.attached.contains t.cntlid) s.tabs.nss) s)
    else
      match nsErr s t false true true with
      | .inl e => .next (failIo slot e s)
      | .inr n => .next (run [n] s)

/-- Ranges of a Dataset Management: 16 bytes each, context attributes, length and SLBA. -/
def dsmRanges (n data : Nat) : List (Nat × Nat) :=
  (List.range n).map (fun (i : Nat) => (data / 2 ^ (128 * i + 64) % 2 ^ 64, data / 2 ^ (128 * i + 32) % 2 ^ 32))

/-- DATASET_MANAGEMENT (05 R165, R178, 12 Table 12-3 DEALLOC): the first call fetches the range list; with the list there, the
Deallocate attribute discards each range, and other attributes do nothing. -/
def execDatasetManagement (slot : Nat) (s : State) : Host.Outcome State Fault Refusal :=
  let t := getTask s slot
  if t.st ≠ .admitted ∨ t.admin = true ∨ t.cap.opc ≠ 0x09 then .next s
  else
    match nsErr s t true true false with
    | .inl e => .next (failIo slot e s)
    | .inr n =>
      let count := t.cap.cdw10 % 256 + 1
      if t.cap.inCapsule ≠ [] ∨ t.cap.sglLen ≠ 16 * count then .next (failIo slot (0, 0x0F, true) s)
      else if s.mme.convWp then .next (failIo slot (0, 0x20, true) s)
      else if t.moved = 0 then
        let s := updTask slot (fun t => { t with ns := n, moved := 16 * count }) s
        .next (emit (.frame t.conn (if (getConn s t.conn).tcp then "R2T" else "RDMA READ") 0) (transmit t.conn s))
      else if (mapGet tunit0 t.units 0).bytes ≠ 16 * count ∨ bufFull s = true then .next s
      else
        let rs := dsmRanges count (mapGet tunit0 t.units 0).data
        if rs.any (fun r => decide (nsLbas (getNs s n) < r.1 + r.2)) then .next (failIo slot (0, 0x80, true) s)
        else if natBits t.cap.cdw11 2 1 = 0 then .next (finishOk slot s)
        else
          let (st, s) := drawStamp n s
          let s := rs.foldl (fun s r => (rangeKeys s n r.1 r.2).foldl (fun s k => updUnit k (fun l => goneUnit st :: l) s) s) s
          let jsn := s.jnl.nextJsn
          let s := issue 0x02 (24 + 16 * count) [n, count, st] [.ns n (getNs s n)] (.dealloc n st rs) s
          .next (updTask slot (fun t => { t with st := .executing, stamp := st, waitJsn := some jsn, units := [] }) s)

/-! ## Zone Management -/

/-- Zones that Select All names for an action (06 R201, R203). -/
def selectsAll (act : Nat) (z : ZoneSt) : Bool :=
  match act with
  | 1 => z == .implicit || z == .explicit
  | 2 => z == .implicit || z == .explicit || z == .closed
  | 3 => z == .closed
  | 4 => z == .implicit || z == .explicit || z == .closed || z == .full
  | _ => z == .readOnly

/-- A Reset makes the slices of the zone's stripes stale (10 R401). -/
def resetAll (zk stamp : Nat) (s : State) : State :=
  let ks := boundStripes s zk
  let stale := mapKeysWhere (fun _ x => ks.contains x.stripe) s.tabs.slices
  resetZone zk stamp (staleSlices stale s)

/-- One action on one zone (06 Table 06-5): the status it fails with, or the next state. -/
def zoneAction (act zk stamp : Nat) (s : State) : IoErr ⊕ State :=
  let z := getZone s zk
  let invalid : IoErr ⊕ State := .inl (1, 0xBF, true)
  match act, z.st with
  | 1, .implicit | 1, .explicit => .inr (stageClosed zk (closeZone zk stamp s))
  | 1, .closed => .inr s
  | 2, .empty | 2, .implicit | 2, .explicit | 2, .closed => .inr (finishZone zk stamp s)
  | 2, .full => .inr s
  | 3, .explicit => .inr s
  | 3, .empty | 3, .implicit | 3, .closed =>
    match openZone zk true s with
    | .inl e => .inl e
    | .inr s' => .inr (issueZone zk 0 stamp .nothing (stageNewlyClosed s s'))
  | 4, .empty => .inr s
  | 4, .implicit | 4, .explicit | 4, .closed | 4, .full => .inr (resetAll zk stamp s)
  | 5, .readOnly => .inr (clearZone zk 0 stamp .nothing { z with st := .offline } s)
  | 5, .offline => .inr s
  | _, _ => invalid

/-- An action on a list of zones: the first that fails stops it; zones already changed stay changed (06 R201). -/
def zoneActions (act stamp : Nat) (s : State) : List Nat → State × Option IoErr
  | [] => (s, none)
  | zk :: rest =>
    match zoneAction act zk stamp s with
    | .inl e => (s, some e)
    | .inr s => zoneActions act stamp s rest

/-- Zone Management Send (06 R201 to R203): the zones are fixed at admission; it runs when every write admitted to them before has
committed or failed, and completes when its records are accepted. -/
def zoneSend (slot act : Nat) (s : State) : State :=
  let t := getTask s slot
  if t.st ≠ .admitted ∨ t.admin = true ∨ t.cap.opc ≠ 0x79 ∨ t.cap.zsa ≠ act then s
  else
    match nsErr s t true false true with
    | .inl e => failIo slot e s
    | .inr n =>
      if t.cap.zall = false ∧ nsLbas (getNs s n) ≤ t.cap.slba then failIo slot (0, 0x80, true) s
      else
        let s := if t.order ≠ 0 then s
          else
            let zs := if t.cap.zall then
                mapKeysWhere (fun k z => zoneNs k == n && selectsAll act z.st) s.tabs.zones
              else [zoneOfLba n t.cap.slba]
            let (o, s) := nextOrder s
            updTask slot (fun t => { t with ns := n, order := o, zones := zs }) s
        let t := getTask s slot
        let waits := t.zones.any (fun zk => (zonePending s zk).any (fun k => decide ((getTask s k).order < t.order)))
        if waits ∨ bufFull s then s
        else
          let old := s
          let before := s.jnl.nextJsn
          let (st, s) := drawStamp n s
          let (s, e) := zoneActions act st s t.zones
          let s := zmSettle old s
          match e with
          | some e => failIo slot e s
          | none =>
            if s.jnl.nextJsn = before then finishOk slot s
            else updTask slot (fun t => { t with st := .executing, stamp := st, waitJsn := some (lastJsn s), zones := [] }) s

/-- ZONE_OPEN (06 R201, R204). -/
def execZoneOpen (slot : Nat) (s : State) : Host.Outcome State Fault Refusal := .next (zoneSend slot 0x03 s)

/-- ZONE_CLOSE (06 R201, 10 R379). -/
def execZoneClose (slot : Nat) (s : State) : Host.Outcome State Fault Refusal := .next (zoneSend slot 0x01 s)

/-- ZONE_FINISH (06 R201). -/
def execZoneFinish (slot : Nat) (s : State) : Host.Outcome State Fault Refusal := .next (zoneSend slot 0x02 s)

/-- ZONE_RESET (06 R201, R203). -/
def execZoneReset (slot : Nat) (s : State) : Host.Outcome State Fault Refusal := .next (zoneSend slot 0x04 s)

/-- ZONE_OFFLINE (06 R201). -/
def execZoneOffline (slot : Nat) (s : State) : Host.Outcome State Fault Refusal := .next (zoneSend slot 0x05 s)

/-- ZONE_SEND_INVALID_ACTION (05 Table 05-3): action 0x10 and reserved actions. -/
def execZoneSendInvalidAction (slot : Nat) (s : State) : Host.Outcome State Fault Refusal :=
  if freshIo s slot 0x79 = false ∨ (1 ≤ (getTask s slot).cap.zsa ∧ (getTask s slot).cap.zsa ≤ 5) then .next s
  else
    match nsErr s (getTask s slot) true false true with
    | .inl e => .next (failIo slot e s)
    | .inr _ => .next (failIo slot (0, 0x02, true) s)

/-- The zone as Report Zones shows it: a transition of the controller's own appears once its record is accepted (12 Table 12-4). -/
def reportedZone (s : State) (zk : Nat) : Zone :=
  if (pendingRecs s).any (fun r => r.typ == 0x03 && r.words.getD 3 0 == 1 && r.words.getD 1 0 == zoneNs zk && r.words.getD 4 0 == zoneNum zk) then
    mapGet zone0 s.dur.zones zk
  else getZone s zk

/-- A zone descriptor of Report Zones (ZNS Command Set layout; 06 Table 06-2). -/
def zoneDescriptor (s : State) (zk : Nat) : List Nat :=
  let z := reportedZone s zk
  let wp := if z.st = .readOnly ∨ z.st = .full ∨ z.st = .offline then 2 ^ 64 - 1 else zslba zk + z.wp
  [2, zoneCode z.st * 16, bitOf z.zfc, 0, 0, 0, 0, 0] ++ leBytes 8 z.zcap ++ leBytes 8 (zslba zk) ++ leBytes 8 wp ++ List.replicate 32 0

/-- Whether a reporting option lists a zone state. -/
def reportOption (opt : Nat) (z : ZoneSt) : Bool :=
  match opt with
  | 0 => true
  | 1 => z == .empty
  | 2 => z == .implicit
  | 3 => z == .explicit
  | 4 => z == .closed
  | 5 => z == .full
  | 6 => z == .readOnly
  | _ => z == .offline

/-- REPORT_ZONES (05 R165, 06 Table 06-2): action 0x00 with every reporting option and Partial Report; action 0x01 and reserved
ones are invalid fields. -/
def execReportZones (slot : Nat) (s : State) : Host.Outcome State Fault Refusal :=
  if freshIo s slot 0x7A = false then .next s
  else
    let t := getTask s slot
    match nsErr s t false false true with
    | .inl e => .next (failIo slot e s)
    | .inr n =>
      let len := (t.cap.cdw12 + 1) * 4
      let opt := t.cap.cdw13 / 256 % 256
      if t.cap.zsa ≠ 0 ∨ 7 < opt then .next (failIo slot (0, 0x02, true) s)
      else if t.cap.inCapsule ≠ [] ∨ t.cap.sglLen ≠ len then .next (failIo slot (0, 0x0F, true) s)
      else if nsLbas (getNs s n) ≤ t.cap.slba then .next (failIo slot (0, 0x80, true) s)
      else
        let first := t.cap.slba / zoneLbas
        let all := ((List.range ((getNs s n).size - first)).map (fun i => zoneKey n (first + i))).filter (fun zk => reportOption opt (reportedZone s zk).st)
        let some_ := all.take ((len - 64) / 64)
        let nz := if natBits t.cap.cdw13 16 1 = 1 then some_.length else all.length
        let bytes := leBytes 8 nz ++ List.replicate 56 0 ++ (some_.map (zoneDescriptor s)).flatten
        .next (finishOk slot (emit (.data t.conn t.cap.cid (bytes.take len)) s))

/-! ## Others -/

/-- I/O opcodes of Table 05-3. -/
def ioSupported (opc : Nat) : Bool :=
  opc == 0x00 || opc == 0x01 || opc == 0x02 || opc == 0x08 || opc == 0x09 || opc == 0x0C || opc == 0x79 || opc == 0x7A || opc == 0x7D

/-- INVALID_IO_OPCODE (05 R165): an opcode the table does not list, or one not for the namespace's type. -/
def execInvalidIoOpcode (slot : Nat) (s : State) : Host.Outcome State Fault Refusal :=
  let t := getTask s slot
  if freshIo s slot t.cap.opc = false then .next s
  else if ioSupported t.cap.opc = false then
    match stateErr s false with
    | some e => .next (failIo slot e s)
    | none => .next (failIo slot (0, 0x01, true) s)
  else
    match nsErr s t (t.cap.opc == 0x09 || t.cap.opc == 0x79 || t.cap.opc == 0x7D) (!(t.cap.opc == 0x79 || t.cap.opc == 0x7A || t.cap.opc == 0x7D)) (t.cap.opc != 0x09) with
    | .inl e => if e = (0, 0x01, true) then .next (failIo slot e s) else .next s
    | .inr _ => .next s

/-- CONNECTION_LOSS (05 R183, R184). -/
def execConnectionLoss (conn : Nat) (s : State) : Host.Outcome State Fault Refusal := .next (loseConn conn s)

end Sys2Proof.Machine
end

