-- ==== Sys2Proof/Machine/Row.lean ====
section
/-! DEFINITION. Meanings of the write-path commands (10 R386 to R401). -/

namespace Sys2Proof.Machine

/-- ROW_COMPLETE (R386, R387): the current row of a stripe is complete, and its ROW-ISSUE is issued; a full journal buffer
holds it (12 R460). -/
def execRowComplete (stripe : Nat) (s : State) : Host.Outcome State Fault Refusal :=
  let r := currentRow s stripe
  if (getStripe s stripe).live ∧ r < 256 ∧ rowIsComplete s stripe r ∧ bufFull s = false then .next (issueRow stripe r s)
  else .next s

/-- PARK_TIMEOUT (R388): PARK_MS after its foggy, a held wordline gets its closing fine. -/
def execParkTimeout (die : Nat) (s : State) : Host.Outcome State Fault Refusal :=
  .next ((getDie s die).held.foldl (fun s h => queueFine die h s) s)

/-- STAGE_HORIZON (R399): every committed, non-durable unit of the zone or log stripe is staged. -/
def execStageHorizon (stripe : Nat) (s : State) : Host.Outcome State Fault Refusal :=
  if (getStripe s stripe).live ∧ bufFull s = false then .next (coolerSettle (stageStripe stripe s)) else .next s

/-- HORIZON_MISS (R399): the oldest write of the namespace whose completion was posted 2,000 ms ago is not durable: counted
once, source 608. -/
def execHorizonMiss (ns : Nat) (s : State) : Host.Outcome State Fault Refusal :=
  match s.jnl.commits.find? (fun c => c.ns == ns && c.postTick.isSome && !c.missed) with
  | none => .next s
  | some c =>
    let s := updJnl (fun j => { j with commits := j.commits.map (fun x => if x = c then { x with missed := true } else x) }) s
    .next (fire 608 ns (bumpF F.WPE_HORIZON_STATUS_MISS 1 s))

/-- Write the content of a slice again on other lanes; the old slice is stale afterwards (R401). -/
def restage (s : State) (n : Nat) : State :=
  let v := mapGet slice0 s.tabs.slices n
  let next := s.wpe.nextSlice
  let col := match v.units.head? with
    | some u => (unitColumn s v.stripe u).2
    | none => 0
  let s := writeSlice v.stripe v.row col v.pailOnly v.units s
  if s.wpe.nextSlice = next then s else staleSlices [n] s

/-- COOLER_BLOCK_RECLAIM (R401): live slices of a full staging block are restaged; with none left the block is released for
its erase. -/
def execCoolerBlockReclaim (block : Nat) (s : State) : Host.Outcome State Fault Refusal :=
  if s.wpe.areaBlocks.contains block = false ∨ (getBlock s block).st ≠ .bound ∨ bufFull s = true then .next s
  else
    let live (s : State) := mapKeysWhere (fun _ x => x.refs.contains block) s.tabs.slices
    -- the block takes no more slices
    let s := updBlock block (fun b => { b with wl := max b.wl stageCap }) s
    let s := (live s).foldl restage s
    let s := if live s = [] then issueRelease block s else s
    .next (coolerSettle s)

/-- PROGRAM_FAILURE (R394, R395). -/
def execProgramFailure (stripe member : Nat) (s : State) : Host.Outcome State Fault Refusal :=
  .next (zmSettle s (progFail stripe member s))

end Sys2Proof.Machine
end

