-- ==== Sys2Proof/Machine/WipeOps.lean ====
section
/-! DEFINITION. What an accepted FMT, SAN or NSCFG record does to a tenant's namespaces (12 R483, R484, R486, 17 R649). -/

namespace Sys2Proof.Machine

/-- Uncommitted writes of some namespaces, the latest admission first. -/
def uncommittedOf (s : State) (nss : List Nat) : List Nat :=
  (sortBy (fun k => (getTask s k).order) (mapKeysWhere (fun _ t => t.uncommitted && nss.contains t.ns) s.qe.tasks)).reverse

/-- One zone (06 Table 06-3): reset, or from Read Only to Offline; Empty and Offline zones stay. -/
def wipeZone (s : State) (zk : Nat) : State :=
  let z := getZone s zk
  if z.isActive ∨ z.st = .full then
    updZone zk (fun _ => { zone0 with zgen := z.zgen + 1, hint := z.hint, lastOrder := z.lastOrder }) (dropReserve zk s)
  else if z.st = .readOnly then
    updZone zk (fun z => { z with st := .offline, stripe := none, target := none, rebase := false, reserve := [] }) (dropReserve zk s)
  else s

/-- Stripes of some namespaces: those of their zones, and the tenant's log stripes that hold valid units of no other namespace
(of a Sanitize: empty ones too). -/
def nsStripes (s : State) (w : Wipe) : List Nat :=
  (s.tabs.stripes.filter (fun e => e.2.live && (match e.2.zone with
    | some zk => w.nss.contains (zoneNs zk)
    | none =>
      let us := validUnits s e.1 ++ e.2.filling
      e.2.tenant == w.tenant && ((w.kind == 2 || us != []) && us.all (fun u => w.nss.contains (unitNs u)))))).map Prod.fst

/-- A die-block is Released with no record of its own; a Retired or Lost one stays. -/
def freeMember (s : State) (r : Nat) : State :=
  let s := dropPrograms r s
  if (getBlock s r).st = .retired ∨ (getBlock s r).st = .lost then s
  else updBlock r (fun b => { b with st := .released, stripe := none }) s

/-- A stripe goes with its die-blocks, its slices and its place as the open log stripe. -/
def dropStripe (s : State) (k : Nat) : State :=
  let s := forgetStripe k ((heldMembers s k).foldl freeMember s)
  let s := updTabs (fun t => { t with slices := t.slices.filter (fun e => e.2.stripe != k) }) s
  let s := updMme (fun m => { m with victim := if m.victim = some k then none else m.victim }) s
  updWpe (fun x => { x with openLog := x.openLog.filter (fun e => e.2 != k + 1) }) s

/-- Staging blocks that hold a slice of some stripes. -/
def stagedBlocks (s : State) (ks : List Nat) : List Nat :=
  s.wpe.areaBlocks.filter (fun r => s.tabs.slices.any (fun e => ks.contains e.2.stripe && e.2.refs.contains r))

/-- A shared staging block: the other tenants' live slices are restaged and the block is released (10 R401). -/
def vacate (s : State) (r : Nat) : State :=
  let live (s : State) := mapKeysWhere (fun _ x => x.refs.contains r) s.tabs.slices
  let s := updBlock r (fun b => { b with wl := max b.wl stageCap }) s
  let s := (live s).foldl restage s
  if live s = [] then issueRelease r s else s

/-- Buffers that wait for the tenant's next log stripe go when none of its units waits any more. -/
def dropWaiting (tenant : Nat) (s : State) : State :=
  if s.units.any (fun e => (getNs s (unitNs e.1)).conv && (getNs s (unitNs e.1)).tenant == tenant && e.2.any (fun v => v.place.isNone && v.vat)) then s
  else dropVat (waitKey tenant) s

/-- The work list (R483 step 4), in ascending die-block order. -/
def workList (s : State) (tenant : Nat) (staged : List Nat) : List Nat :=
  let mine := mapKeysWhere (fun _ b => b.owner == tenant && (b.st == .released || b.st == .needsErase || b.st == .erasing || b.st == .retired)) s.tabs.blocks
  (sortBy id (mine ++ staged)).eraseDups

/-- Homes that no hint names any more (06 R218). -/
def idleHomes (s : State) : List Nat :=
  (s.tabs.homes.map Prod.fst).filter (fun g => !(s.tabs.zones.any (fun e => natBits e.2.hint 0 12 == g)))

/-- A home is forgotten, with its ready entries. -/
def forgetHome (s : State) (g : Nat) : State :=
  updMme (fun m => { m with homeReady := mapDel m.homeReady g }) (updTabs (fun t => { t with homes := mapDel t.homes g }) s)

/-- The durable layer takes what the record says. -/
def wipeDurable (w : Wipe) (ks zks refs : List Nat) (s : State) : State :=
  let d := s.dur
  let inNs (k : Nat) : Bool := w.nss.contains (unitNs k)
  let d := { d with
    zones := zks.foldl (fun m zk => mapSet zone0 m zk (getZone s zk)) d.zones
    stripes := d.stripes.filter (fun e => !(ks.contains e.1))
    blocks := refs.foldl (fun m r => mapSet block0 m r (getBlock s r)) d.blocks
    slices := d.slices.filter (fun e => !(ks.contains e.2.stripe))
    nss := w.nss.foldl (fun m n => mapSet ns0 m n (getNs s n)) d.nss
    lostUnits := d.lostUnits.filter (fun k => !inNs k)
    homes := if w.kind = 3 then s.tabs.homes else d.homes }
  { s with dur := d }

/-- Run one wipe. Writes not yet committed complete with the status that I/O commands get from then on (05 R182, 12 R486). -/
def runWipe (s : State) (w : Wipe) : State :=
  let s0 := s
  let fail (k : Nat) (s : State) : State := if w.kind = 2 then finishErr k 0 0x1D s else finishRetry k 0 0x82 s
  let s := (uncommittedOf s w.nss).foldl (fun s k => if (getTask s k).uncommitted then dropWrite k (fail k) s else s) s
  let zks := mapKeysWhere (fun zk _ => w.nss.contains (zoneNs zk)) s.tabs.zones ++ mapKeysWhere (fun zk _ => w.nss.contains (zoneNs zk)) s.dur.zones
  let ks := nsStripes s w
  let refs := ks.flatMap (fun k => (getStripe s k).members)
  let staged := stagedBlocks s ks
  let s := ks.foldl dropStripe (zks.foldl wipeZone s)
  let s := { s with units := s.units.filter (fun e => !(w.nss.contains (unitNs e.1))) }
  let s := updTabs (fun t => { t with lostUnits := t.lostUnits.filter (fun k => !(w.nss.contains (unitNs k))) }) s
  let s := dropWaiting w.tenant s
  let s := if w.kind = 1 then w.nss.foldl (fun s n => updNs n (fun x => { x with formatting := true }) s) s
    else if w.kind = 3 then
      let s := updTabs (fun t => { t with zones := t.zones.filter (fun e => !(w.nss.contains (zoneNs e.1))) }) s
      (idleHomes s).foldl forgetHome (w.nss.foldl (fun s n => updNs n (fun _ => ns0) s) s)
    else s
  let s := wipeDurable w ks zks refs s
  let s := if w.kind = 1 ∨ w.kind = 2 then
      let s := staged.foldl vacate s
      let work := workList s w.tenant staged
      let v := { w.san with work := work, total := work.length }
      { s with tabs := setSan v s.tabs, dur := setSan v s.dur }
    else s
  zmSettle s0 (coolerSettle s)

/-- Run the wipes whose records have been accepted. -/
def runWipes (s : State) : State :=
  let ws := s.jnl.wipes
  ws.foldl runWipe (updJnl (fun j => { j with wipes := [] }) s)

end Sys2Proof.Machine
end

