-- ==== Sys2Proof/Machine/JournalFam.lean ====
section
/-! DEFINITION. Meanings of the journal commands (12 R461, R462, R472, R475, R476, R489). -/

namespace Sys2Proof.Machine

/-- JOURNAL_PAGE_SEAL (R461): the oldest records become a page, written to both blocks of the first pair that is free. -/
def execJournalPageSeal (s : State) : Host.Outcome State Fault Refusal := .next (sealPage s)

/-- The programs of a page's copies that a die has not yet answered are forgotten. -/
def dropJournalOpsOf (seq : Nat) (x : Die) : Die :=
  let keep (o : DieOp) : Bool := !isJournalOp seq o
  { x with waiting := x.waiting.filter keep, reading := x.reading.filter keep, op := x.op.filter keep }
def dropJournalOps (seq : Nat) (s : State) : State :=
  updFlc (fun f => { f with dies := mapMapVals die0 (fun _ x => dropJournalOpsOf seq x) f.dies }) s

/-- Both copies of a page have returned status 0x00: the page is accepted once every lower PAGE_SEQ is, and what waited for
its records goes on. -/
def pageReturned (seq : Nat) (s : State) : State :=
  if s.jnl.pages.any (fun g => g.seq == seq && !g.ok) then
    let s0 := s
    let s := dropJournalOps seq s
    let s := updJnl (fun j => { j with pages := j.pages.map (fun g => if g.seq = seq then { g with ok := true } else g) }) s
    jnlSettle s0 (settle (runWipes (acceptPages s s.jnl.pages.length)))
  else s

/-- JOURNAL_PAGE_ACCEPT (R462, R466). -/
def execJournalPageAccept (seq : Nat) (s : State) : Host.Outcome State Fault Refusal := .next (pageReturned seq s)

/-- JOURNAL_COPY_FAIL (R462). -/
def execJournalCopyFail (seq copy status : Nat) (s : State) : Host.Outcome State Fault Refusal :=
  .next (jnlSettle s (copyFailed seq copy status (dropJournalOps seq s)))

/-- CHECKPOINT_START (R474, R476): a trigger holds while a checkpoint runs; checkpoints run in Serving and in a quiesce. -/
def execCheckpointStart (s : State) : Host.Outcome State Fault Refusal :=
  if s.top.dev = .serving ∨ s.top.dev = .quiescing then .next (startCkpt s) else .next s

/-- A write of JNL_CKPT_CFG (R489): the operator's fields, and START. -/
def ckptCfgWrite (w : Writer) (v : Nat) (s : State) : State :=
  let s := match w with
    | .operator => plainWrite 0xC000004 v s
    | .firmware => s
  if natBits v 12 1 = 1 ∧ (s.top.dev = .serving ∨ s.top.dev = .quiescing) then startCkpt s else s

/-- CHECKPOINT_START_WRITE (R489): START is written with the other fields as they stand. -/
def execCheckpointStartWrite (s : State) : Host.Outcome State Fault Refusal :=
  .next (ckptCfgWrite .firmware (2 ^ 12) s)

/-- CHECKPOINT_COMPLETE (R475, R477, R478). -/
def execCheckpointComplete (s : State) : Host.Outcome State Fault Refusal :=
  if s.jnl.ckptActive ∧ s.jnl.endAccepted then .next (completeCkpt s) else .next s

/-! ## Re-basing (R472) -/

/-- The next row of a re-based zone to copy. -/
def rebaseNext (s : State) (tgt : Nat) : Option Nat :=
  (List.range (firstRow s tgt)).find? (fun r => !((getStripe s tgt).skimmed.contains r))

/-- A copied row: programmed and Skimmed in the target, with a WATERMARK record. -/
def rebaseCopied (tgt r : Nat) (s : State) : State :=
  let add (l : List Nat) := if l.contains r then l else l ++ [r]
  let s := updStripe tgt (fun x => { x with issued := add x.issued, prog := add x.prog, skimmed := add x.skimmed }) s
  let g := r / 32
  let s := (getStripe s tgt).members.foldl (fun s m => updBlock m (fun b => { b with
    wl := max b.wl (r + 1)
    snaps := mapSet none b.snaps g (some (ageInt s (refDie m)))
    stamps := mapSet 0 b.stamps g (writeStamp s) }) s) s
  let y := getStripe s tgt
  issue 0x15 16 [tgt, 0xFF, r] (.stripe tgt y :: y.members.map (fun m => .block m (getBlock s m))) .nothing s

/-- The zone REMAP that ends a re-base. -/
def rebaseDone (zk src tgt : Nat) (s : State) : State :=
  let s := updZone zk (fun z => { z with stripe := some tgt, target := none, rebase := false }) s
  issue 0x0B 32 [1, zoneNs zk, zoneNum zk, src, tgt] [.zone zk (getZone s zk), .stripe tgt (getStripe s tgt)] (.releaseSource src) s

/-- REBASE_COPY_ROW (R472 steps 4 and 5): the next row is copied; past the last, the binding moves to the target. A class at its
ceiling waits (11 R442). -/
def execRebaseCopyRow (zone : Nat) (s : State) : Host.Outcome State Fault Refusal :=
  let z := getZone s zone
  match z.rebase, z.stripe, z.target with
  | true, some src, some tgt =>
    if natBits s.mme.above 2 1 = 1 ∨ bufFull s = true ∨ s.top.dev = .quiescing ∨ s.top.dev = .retained then .next s
    else
      let s := match rebaseNext s tgt with
        | some r => rebaseCopied tgt r s
        | none => s
      if (rebaseNext s tgt).isNone then .next (rebaseDone zone src tgt s) else .next s
  | _, _, _ => .next s

end Sys2Proof.Machine
end

