-- ==== Sys2Proof/Machine/Clock.lean ====
section
/-! DEFINITION. Clocks and network time (16): monitors, fail-over, the glitch-free switch, PLL relocks, and the Time
Unit with its servo. -/

namespace Sys2Proof.Machine

/-- Change the CRU. -/
def updCru (f : Cru → Cru) (s : State) : State := { s with cru := f s.cru }

/-- Change the Time Unit. -/
def updTu (f : Tu → Tu) (s : State) : State := { s with tu := f s.tu }

/-! ## Time Unit states -/

/-- Enter a TU state; sources 98, 99 and 100 (bank 3, bits 2 to 4) carry the previous state (19 Table 19-1). -/
def tuEnter (st : Nat) (s : State) : State :=
  let old := s.tu.st
  if old = st then s
  else
    let s := updTu (fun t => { t with st := st, lockRun := 0, unlockRun := 0 }) s
    if st = 3 then fire 98 old s else if st = 4 then fire 99 old s else if st = 1 then fire 100 old s else s

/-- Write ADDEND (16 R623). -/
def setAddend (v : Int) (s : State) : State :=
  let n := ofSigned 64 v
  setF F.TU_ADDEND_LO_VALUE (n % 2 ^ 32) (setF F.TU_ADDEND_HI_VALUE (n / 2 ^ 32) s)

/-- Entry into Holdover from Locked (16 R604, R608): ADDEND keeps only the integral term. -/
def tuHoldover (s : State) : State :=
  if s.tu.st = 3 then
    let s := tuEnter 4 s
    let s := updTu (fun t => { t with holdTick := t.ticks }) s
    setAddend (2 ^ 42 - s.tu.integ) s
  else s

/-- A step of `d` ns takes effect with INC in the same tick (16 R603); a negative result refuses it. Source 96 or 97
carries the step in ms. -/
def tuApplyStep (d : Int) (s : State) : Bool × State :=
  let t' : Int := (s.tu.t : Int) + d * 2 ^ 48
  let ms := sat32 (d.tdiv 1000000)
  if t' < 0 then (false, fire 97 ms (updTu (fun t => { t with stepRefused := true }) s))
  else
    let inc := tuInc s
    let s := updTu (fun t => { t with
        t := t'.toNat + inc
        ticks := (t.ticks + 1) % 2 ^ 64
        stepRefused := false
        stepTick := t.ticks + 1 }) s
    (true, fire 96 ms (bumpF F.TU_STATUS_STEPS 1 s))

/-- TU_STEP (16 R603, R624): an operator step moves Unset to Carried and Locked or Holdover to Acquiring. -/
def execTuStep (sec : Word) (s : State) : Host.Outcome State Fault Refusal :=
  let d := toSigned 32 sec.toNat * 1000000000 + toSigned 32 (getF s F.TU_STEP_NS_NS)
  match tuApplyStep d s with
  | (false, s) => .next s
  | (true, s) =>
    if s.tu.st = 0 then .next (tuEnter 1 s)
    else if s.tu.st = 3 ∨ s.tu.st = 4 then .next (tuEnter 2 s)
    else .next s

/-- A read of TU_NOW_NS returns NS and arms the two SEC shadows with the same moment (16 R602). -/
def tuReadNow (s : State) : Nat × State :=
  (tuNs s.tu.t, updTu (fun t => { t with
    shadowLo := some (viewTu s 0x14)
    shadowHi := some (viewTu s 0x18) }) s)

/-- TU_NOW_READ (16 R602). -/
def execTuNowRead (s : State) : Host.Outcome State Fault Refusal :=
  match tuReadNow s with
  | (v, s) => .next (emit (.value 0x2000010 (BitVec.ofNat 32 v)) s)

/-- The servo limit 0x8312_6E98 (16 R606). -/
def servoLimit : Int := 0x83126E98

/-- PTP_SERVO_UPDATE (16 R606 to R608): a usable Sync with offset `e`, Sync interval `dtNs` and, where one was made, a
delay measurement. An offset above 1 ms steps; otherwise ADDEND is set, and Acquiring and Locked are entered or left. -/
def servoUpdate (e : Int) (dtNs : Nat) (delay : Option Int) (s : State) : State :=
  let s := updTu (fun t => { t with
      offset := e
      delays := match delay with
        | some d => (d :: t.delays).take 16
        | none => t.delays }) s
  if 1000000 < e.natAbs then
    match tuApplyStep (-e) s with
    | (false, s) => s
    | (true, s) => updTu (fun t => { t with integ := 0 }) (tuEnter 2 s)
  else
    let s := if s.tu.st = 0 ∨ s.tu.st = 1 ∨ s.tu.st = 4 then tuEnter 2 s else s
    let r := roundDiv (e * 2 ^ 42) dtNs
    let ki := getF s F.TU_SERVO_CFG_KI_SH
    let kp := getF s F.TU_SERVO_CFG_KP_SH
    let integ := clampInt (-servoLimit) servoLimit (s.tu.integ + r >>> ki)
    let f := clampInt (-servoLimit) servoLimit (integ + r >>> kp)
    let s := setAddend (2 ^ 42 - f) (updTu (fun t => { t with integ := integ }) s)
    let lockNs := getF s F.TU_SERVO_CFG_LOCK_NS * 10
    if s.tu.st = 2 then
      let run := if e.natAbs < lockNs then s.tu.lockRun + 1 else 0
      let s := updTu (fun t => { t with lockRun := run }) s
      if getF s F.TU_SERVO_CFG_LOCK_N ≤ run then tuEnter 3 s else s
    else if s.tu.st = 3 then
      let run := if 10 * lockNs < e.natAbs then s.tu.unlockRun + 1 else 0
      let s := updTu (fun t => { t with unlockRun := run }) s
      if 4 ≤ run then tuEnter 2 s else s
    else s

/-- PTP_SYNC_TIMEOUT (16 R604): Locked becomes Holdover. -/
def execPtpSyncTimeout (s : State) : Host.Outcome State Fault Refusal := .next (tuHoldover s)

/-- HOLDOVER_EXPIRE (16 R608): a Holdover of HOLD_MAX_H hours becomes Carried. -/
def execHoldoverExpire (s : State) : Host.Outcome State Fault Refusal :=
  if s.tu.st = 4 then .next (tuEnter 1 s) else .next s

/-! ## The root switch -/

/-- The ready flag of a switch target (16 R589): CORE_GOOD or RC_READY. -/
def switchReady (s : State) (target : Nat) : Bool := if target = 1 then s.cru.rcReady else s.cru.coreGood

/-- Request a switch of the root reference. A request during a switch is held; one whose target is not ready is refused
and counted, and repeats each RC cycle when it belongs to a fail-over (16 R586, R589), whose first refusal fires
source 70. -/
def requestSwitch (target : Nat) (repeats : Bool) (s : State) : State :=
  if s.cru.switching.isSome then updCru (fun c => { c with heldReq := some target }) s
  else if switchReady s target then
    updCru (fun c => { c with switching := some target, retrying := none }) s
  else
    let s := bumpF F.CRU_SWITCH_STATUS_REFUSED 1 s
    if repeats then
      let first := !s.cru.refusalFired
      let s := updCru (fun c => { c with retrying := some target, refusalFired := true }) s
      if first then fire 70 0 s else s
    else s

/-- The root enters Coast and the switch to the backup RC is requested (16 R586); the accurate PLLs freeze (R587). -/
def enterCoast (s : State) : State :=
  let s := updCru (fun c => { c with
      rootMode := 1, progHold := true, accFrozen := true, relocking := false, refusalFired := false }) s
  requestSwitch 1 true s

/-- All host ports go down (16 R590, R591). -/
def hfePortsDown (s : State) : State :=
  let up := mapKeysWhere (fun _ p => p.st != 0) s.hfe.ports
  let s := { s with hfe := { s.hfe with
      ports := mapMapVals port0 (fun _ p => { p with st := 0, mask := 0, trying := 0, narrowing := false }) s.hfe.ports
      lanes := mapMapVals lane0 (fun _ l => { l with locked := false, active := false }) s.hfe.lanes } }
  up.foldl (fun s p => fire (131 + 4 * p) 0 s) s

/-- Both references are bad (16 R591): DOUBLE_FAULT, its event, and the host ports go down. -/
def doubleFault (s : State) : State :=
  if s.cru.coreGood = false ∧ s.cru.netGood = false ∧ s.cru.doubleFault = false then
    fire 69 0 (hfePortsDown (updCru (fun c => { c with doubleFault := true }) s))
  else s

/-- REFCLK_CORE becomes bad (16 R583, R586). -/
def coreBecomesBad (count : Nat) (s : State) : State :=
  if s.cru.coreGood then
    let s := updCru (fun c => { c with coreGood := false }) s
    let s := fire 64 count (bumpF F.CRU_FAULT_CNT_CORE 1 s)
    let s := if s.cru.rootMode = 0 then enterCoast s else s
    doubleFault s
  else s

/-- REFCLK_NET becomes bad (16 R583, R590): in Normal its PLLs move to root /48 and host lanes retrain; otherwise they
stay frozen and the ports go down. The TU enters Holdover. -/
def netBecomesBad (count : Nat) (s : State) : State :=
  if s.cru.netGood then
    let s := updCru (fun c => { c with netGood := false }) s
    let s := fire 65 count (bumpF F.CRU_FAULT_CNT_NET 1 s)
    let s :=
      if s.cru.rootMode = 0 then
        let s := updCru (fun c => { c with netOnRoot := true, netFrozen := false }) s
        let s := updTu (fun t => { t with srcRoot := true }) s
        { s with hfe := { s.hfe with lanes := mapMapVals lane0 (fun _ l => { l with locked := false }) s.hfe.lanes } }
      else hfePortsDown (updCru (fun c => { c with netFrozen := true }) s)
    doubleFault (tuHoldover s)
  else s

/-- A window is bad when its count is off by more than TOL (16 R583). -/
def windowBad (s : State) (count expected : Nat) : Bool :=
  decide (getF s F.CRU_MON_CFG_TOL < ((count : Int) - expected).natAbs)

/-- MONITOR_WINDOW (16 R583, R585): counts are shown; unless the RC itself is bad, each reference is judged and becomes
bad after BAD_N bad windows. -/
def execMonitorWindow (coreCount netCount : Nat) (s : State) : Host.Outcome State Fault Refusal :=
  let s := updCru (fun c => { c with coreCount := coreCount, netCount := netCount }) s
  if s.cru.rcGood then
    let n := getF s F.CRU_MON_CFG_BAD_N
    let s := updCru (fun c => { c with
        coreBadRun := if windowBad s coreCount 1024 then c.coreBadRun + 1 else 0
        netBadRun := if windowBad s netCount 1600 then c.netBadRun + 1 else 0 }) s
    let s := if n ≤ s.cru.coreBadRun then coreBecomesBad coreCount s else s
    let s := if n ≤ s.cru.netBadRun then netBecomesBad netCount s else s
    .next s
  else .next s

/-- Steps common to a reference becoming good again: a double fault ends its waiting (16 R591). -/
def leaveDoubleFault (s : State) : State :=
  if s.cru.doubleFault then flcRetrainAll (dmcLeaveSelfRefresh s) else s

/-- The return of the root to REFCLK_CORE (16 R592): a pending switch to the RC is withdrawn; a root that never left
REFCLK_CORE closes its loop again. -/
def returnToCore (s : State) : State :=
  let s := updCru (fun c => { c with retrying := none }) s
  if s.cru.current = 0 ∧ s.cru.switching = none then updCru (fun c => { c with relocking := true }) s
  else requestSwitch 0 false s

/-- REFERENCE_GOOD (16 R583, R590 to R592): GOOD_MS without a bad window. -/
def execReferenceGood (net : Bool) (s : State) : Host.Outcome State Fault Refusal :=
  if s.cru.rcGood = false then .next s
  else if net then
    if s.cru.netGood ∨ s.cru.netBadRun ≠ 0 then .next s
    else
      let s := updCru (fun c => { c with netGood := true, netStopped := false, netOnRoot := false, netFrozen := false }) s
      .next (leaveDoubleFault (updTu (fun t => { t with srcRoot := false }) s))
  else if s.cru.coreGood ∨ s.cru.coreBadRun ≠ 0 then .next s
  else
    let s := updCru (fun c => { c with coreGood := true, coreStopped := false }) s
    let s := leaveDoubleFault s
    if s.cru.rootMode ≠ 0 ∧ flagF s F.CRU_SWITCH_CTL_AUTO_RETURN then .next (returnToCore s) else .next s

/-- A PLL number for source 67 (19 Table 19-1). -/
def pllNumber (u : ClockUnit) : Nat :=
  match u with
  | .core => 0 | .net => 0 | .rootPll => 0 | .tuPll => 1 | .fwsPll => 2
  | .flashTx n => 3 + n | .hostTx n => 35 + n | .dram n => 37 + n

/-- A PLL has lost lock (16 R584): the root PLL in Normal counts as REFCLK_CORE becoming bad; flash and DRAM PLLs freeze
and relock under R587, host and TU PLLs move under R590, the firmware-store PLL follows the root. -/
def pllUnlock (u : ClockUnit) (s : State) : State :=
  let s := fire 67 (pllNumber u) (bumpF F.CRU_FAULT_CNT_UNLOCK 1 s)
  match u with
  | .rootPll => if s.cru.rootMode = 0 then coreBecomesBad s.cru.coreCount s else s
  | .flashTx _ => updCru (fun c => { c with accFrozen := true }) s
  | .dram _ => updCru (fun c => { c with accFrozen := true }) s
  | .hostTx _ | .tuPll =>
    if s.cru.rootMode = 0 then
      tuHoldover (updTu (fun t => { t with srcRoot := true }) (updCru (fun c => { c with netOnRoot := true }) s))
    else tuHoldover (updCru (fun c => { c with netFrozen := true }) s)
  | .fwsPll | .core | .net => s

/-- PLL_LOCK_LOSS (16 R584). -/
def execPllLockLoss (unit : ClockUnit) (s : State) : Host.Outcome State Fault Refusal :=
  match unit with
  | .core => .next s
  | .net => .next s
  | u => .next (pllUnlock u s)

/-- STOPPED_CLOCK_TRIP (16 R584): a reference becomes bad at once; a PLL output that stops is a loss of lock. -/
def execStoppedClockTrip (unit : ClockUnit) (s : State) : Host.Outcome State Fault Refusal :=
  match unit with
  | .core => .next (coreBecomesBad 0 (updCru (fun c => { c with coreStopped := true }) s))
  | .net => .next (netBecomesBad 0 (updCru (fun c => { c with netStopped := true }) s))
  | u => .next (pllUnlock u s)

/-- The RC restarts (16 R578): not usable as a reference until RC_READY. -/
def restartRc (s : State) : State := updCru (fun c => { c with rcReady := false }) s

/-- RC_CHECK_WINDOW (16 R585, R610): the RC is checked against REFCLK_CORE, or REFCLK_NET when that is bad; after BAD_N
bad windows it is bad, is restarted, and a root in Backup returns to Coast. A good window of a ready RC makes it good. -/
def execRcCheckWindow (count : Nat) (s : State) : Host.Outcome State Fault Refusal :=
  let s := updCru (fun c => { c with rcCount := count, vsNet := !c.coreGood }) s
  if windowBad s count 1024 then
    let s := updCru (fun c => { c with rcBadRun := c.rcBadRun + 1 }) s
    if getF s F.CRU_MON_CFG_BAD_N ≤ s.cru.rcBadRun ∧ s.cru.rcGood then
      let s := updCru (fun c => { c with rcGood := false, rcBadRun := 0 }) s
      let s := restartRc (fire 66 count (bumpF F.CRU_FAULT_CNT_RC 1 s))
      let s :=
        if s.cru.rootMode = 2 then
          let s := updCru (fun c => { c with rootMode := 1 }) s
          if s.cru.coreGood then returnToCore s else s
        else s
      .next (doubleFault s)
    else .next s
  else
    .next (updCru (fun c => { c with rcBadRun := 0, rcGood := c.rcGood || c.rcReady }) s)

/-- RC_READY (16 R578): the RC has run 200 µs after power-good or a restart. -/
def execRcReady (s : State) : Host.Outcome State Fault Refusal :=
  if s.pad.railsGood ∨ s.top.dev ≠ .off then
    .next (updCru (fun c => { c with rcReady := true, rcGood := if c.rcReady then c.rcGood else true }) s)
  else .next s

/-- RC_TRIM_WRITE (16 R617): only the operator; the trim is stored and the RC restarts. -/
def execRcTrimWrite (w : Writer) (value : Word) (s : State) : Host.Outcome State Fault Refusal :=
  match w with
  | .operator => .next (restartRc (setF F.CRU_RC_TRIM_TRIM (natBits value.toNat 0 7) s))
  | .firmware => .next s

/-- SWITCH_RETRY (16 R586): a refused fail-over switch is requested again. -/
def execSwitchRetry (s : State) : Host.Outcome State Fault Refusal :=
  match s.cru.retrying with
  | none => .next s
  | some t =>
    if s.cru.switching.isSome then .next s
    else if switchReady s t then .next (updCru (fun c => { c with switching := some t, retrying := none }) s)
    else .next (bumpF F.CRU_SWITCH_STATUS_REFUSED 1 s)

/-- CLOCK_SWITCH_DONE (16 R586, R589): the target is selected, a forced switch is counted and raises source 68, the
root's loop closes on its new reference, and a held request is taken up. -/
def execClockSwitchDone (forced : Bool) (s : State) : Host.Outcome State Fault Refusal :=
  match s.cru.switching with
  | none => .next s
  | some t =>
    let held := s.cru.heldReq
    let s := updCru (fun c => { c with
        current := t, switching := none, heldReq := none, lastForced := forced, relocking := true }) s
    let s := bumpF F.CRU_SWITCH_STATUS_SWITCHES 1 s
    let s := if forced then fire 68 0 (bumpF F.CRU_SWITCH_STATUS_FORCED 1 s) else s
    match held with
    | some t' => if t' = t then .next s else .next (requestSwitch t' false s)
    | none => .next s

/-- ROOT_PLL_LOCK (16 R586, R588, R592): locked to the RC the root is in Backup; locked to REFCLK_CORE and slewed it is
in Normal, PROG_HOLD clears, source 71 fires and the accurate PLLs begin to move back. -/
def execRootPllLock (s : State) : Host.Outcome State Fault Refusal :=
  if s.cru.relocking = false ∨ s.cru.switching.isSome then .next s
  else if s.cru.current = 1 then
    .next (updCru (fun c => { c with rootMode := 2, relocking := false }) s)
  else
    let s := updCru (fun c => { c with
        rootMode := 0, relocking := false, progHold := false, accFrozen := true, refusalFired := false
        netOnRoot := c.netOnRoot || (c.netFrozen && !c.netGood), netFrozen := false }) s
    .next (fire 71 0 s)

/-- ACC_PLL_RELOCK (16 R587): the frozen accurate PLLs lock to REFCLK_NET, or back to root /48 in Normal; the DMC then
tracks drift on every channel. With neither available they stay frozen. -/
def execAccPllRelock (s : State) : Host.Outcome State Fault Refusal :=
  if s.cru.accFrozen = false then .next s
  else if s.cru.rootMode = 0 then
    .next (dmcDriftTrackAll (updCru (fun c => { c with accFrozen := false, accOnNet := false }) s))
  else if s.cru.netGood then
    .next (dmcDriftTrackAll (updCru (fun c => { c with accFrozen := false, accOnNet := true }) s))
  else .next s

/-- DOUBLE_FAULT_SELF_REFRESH (16 R591): 1 ms into a double fault every rank enters self-refresh. -/
def execDoubleFaultSelfRefresh (s : State) : Host.Outcome State Fault Refusal :=
  if s.cru.doubleFault then .next (dmcEnterSelfRefresh s) else .next s

/-- CLOCK_SWITCH_REQUEST (16 R592, R612, R610): the operator switches the root to TARGET. To the RC it takes the steps of
R586, refused when the RC is not ready; to REFCLK_CORE it is refused unless CORE_GOOD. A reserved TARGET keeps the
field's value (00 R15). A fail-over in progress goes first. -/
def execClockSwitchRequest (w : Writer) (target : Nat) (autoReturn : Bool) (s : State) :
    Host.Outcome State Fault Refusal :=
  match w with
  | .firmware => .next s
  | .operator =>
    let s := if target ≤ 1 then setF F.CRU_SWITCH_CTL_TARGET target s else s
    let s := setF F.CRU_SWITCH_CTL_AUTO_RETURN (bitOf autoReturn) s
    let t := getF s F.CRU_SWITCH_CTL_TARGET
    if s.cru.switching.isSome then .next (updCru (fun c => { c with heldReq := some t }) s)
    else if switchReady s t = false then .next (bumpF F.CRU_SWITCH_STATUS_REFUSED 1 s)
    else if t = 1 then
      if s.cru.rootMode = 0 then .next (enterCoast s)
      else if s.cru.current = 1 then .next s
      else .next (requestSwitch 1 false s)
    else if s.cru.rootMode = 0 then .next s
    else .next (returnToCore s)

end Sys2Proof.Machine
end

