-- ==== Sys2Proof/Machine/TagFam.lean ====
section
/-! DEFINITION. Meanings of the Integrity Tag Engine's commands (13). -/

namespace Sys2Proof.Machine

/-! ## Ingress -/

/-- TAG_COMPUTE (R499, R501, R511): the message of a landed unit begins: the active key's, or, for a unit tagged before, the key of
the same KEY_ID. A unit fetched again is compared with its tag; a difference discards the write. -/
def execTagCompute (slot unit : Nat) (s : State) : Host.Outcome State Fault Refusal :=
  let t := getTask s slot
  let u := mapGet tunit0 t.units unit
  if t.uncommitted = false ∨ (t.st ≠ .receiving ∧ t.st ≠ .executing) ∨ u.bytes ≠ 4096 ∨ (u.tag.isSome ∧ u.recheck = false) then .next s
  else
    let owner := (getNs s t.ns).tenant
    let zgen := if (getNs s t.ns).conv then 0 else (getZone s (zoneOfLba t.ns t.slba)).zgen
    match (if u.keyId = 0 then activeSlot s owner else slotWith s owner u.keyId) with
    | none => .next s
    | some k =>
      let tag := unitTag k.key owner t.ns (t.slba + unit) zgen k.keyId (leBytes 4096 u.data)
      let s := iteBegin 1 s
      match u.tag with
      | some old =>
        if tag = old then .next (updTask slot (fun t => { t with units := mapPut t.units unit { u with recheck := false } }) s)
        else .next (dropWrite slot (finishRetry slot 0 0x22) s)
      | none => .next (updTask slot (fun t => { t with units := mapPut t.units unit { u with keyId := k.keyId, tag := some tag, recheck := false } }) s)

/-! ## Checks on reads -/

/-- Count a first failure and fire its source (R506, R510, 19 Table 19-1). -/
def countFirst (cls ns : Nat) (s : State) : State :=
  if cls = 1 then fire 705 ns (bumpF F.ITE_ERR_CNT_MISDIRECT 1 s) else fire 704 ns (bumpF F.ITE_ERR_CNT_MISMATCH 1 s)

/-- REPORT serves a unit that would fail (R509). -/
def waive (slot i ns : Nat) (data : List Nat) (s : State) : State :=
  unitPassed slot i data (fire 706 ns (bumpF F.ITE_ERR_CNT2_WAIVED 1 s))

/-- TAG_CHECK (R506, R507, R509): a unit of a host read that a ladder step has passed, or that no step could recover. -/
def execTagCheck (cw : Nat) (s : State) : Host.Outcome State Fault Refusal :=
  let c := getCw s cw
  match c.slot with
  | none => .next s
  | some slot =>
    if c.parent.isSome then .next s
    else if c.st = 4 then .next (unitFailed slot c.index 2 0x81 (dropCw cw s))
    else if c.st ≠ 2 then .next s
    else
      let ns := unitNs c.key
      let owner := (getNs s ns).tenant
      let data := c.bytes.take 4096
      let s := iteBegin 0 s
      match checkUnit s ns (unitLba c.key) c.zgen c.bytes with
      | 0 => .next (unitPassed slot c.index data (dropCw cw s))
      | 2 =>
        let s := dropCw cw (bumpF F.ITE_ERR_CNT2_NOKEY 1 s)
        if (getKeys s owner).report then .next (waive slot c.index ns data s) else .next (unitFailed slot c.index 2 0xC1 s)
      | n =>
        if c.firstFail = 0 then
          .next (toL5 cw (updCw cw (fun c => { c with firstFail := n }) (countFirst n ns s)))
        else
          let s := dropCw cw s
          if n = 1 then .next (unitFailed slot c.index 2 0x81 s)
          else if (getKeys s owner).report then .next (waive slot c.index ns data s)
          else .next (unitFailed slot c.index 2 0xC0 s)

/-! ## Keys -/

/-- What the configuration region holds of a tenant's keys (R504): generation number, ACTIVE, REPORT, and for each slot whether it
is LOADED, its KEY_ID and its key. -/
def keyVals (k : TenKeys) : List Nat :=
  [k.gen, match k.active with | some i => i + 1 | none => 0, bitOf k.report]
    ++ (List.range 4).flatMap (fun i => let x := getSlot k i; [bitOf x.loaded, x.keyId, leNat x.key])

/-- A tenant's keys as the configuration region restores them. -/
def keysOfVals (l : List Nat) : TenKeys :=
  let g (i : Nat) := l.getD i 0
  { gen := g 0, active := if g 1 = 0 then none else some (g 1 - 1), report := g 2 == 1
    slots := (List.range 4).foldl (fun m i =>
      if g (3 + 3 * i) = 1 then mapPut m i { slot0 with loaded := true, keyId := g (4 + 3 * i), key := leBytes 32 (g (5 + 3 * i)) } else m) [] }

/-- Identity of a tenant's keys in the configuration region. -/
def keySetting (t : Nat) : Nat := 0x90000000 + t

/-- The new state of a tenant's keys goes to the configuration region (R503). -/
def saveKeys (t : Nat) (s : State) : State := saveSetting (keySetting t) (keyVals (getKeys s t)) s

/-- A refused action: its CODE shows at once and nothing else changes (Table 13-3). -/
def keyRefuse (code tenant : Nat) (s : State) : State := fire 707 (tenant * 2 ^ 16 + code) (updIte (fun x => { x with code := code }) s)

/-- An accepted action takes effect; its result shows when the slot state is programmed. -/
def keyAccept (tenant kcv : Nat) (s : State) : State :=
  saveKeys tenant (updIte (fun x => { x with busy := true, nextTenant := tenant, nextKcv := kcv }) s)

def updSlot (t i : Nat) (f : KeySlot → KeySlot) (s : State) : State :=
  updKeys t (fun k => { k with slots := mapUpd slot0 k.slots i f }) s

/-- The tenant's state, Table 04-1. -/
def tenantState (s : State) (t : Nat) : Nat := getF s (F.TIU_TEN_CTL_STATE t)

/-- Checks common to the actions: busy, a TENANT above 512 (R503, R515). -/
def keyBlocked (s : State) (t : Nat) : Option Nat := if s.ite.busy then some 1 else if 512 < t then some 6 else none

/-- Stage a key word (R502). -/
def keyWord (t i w : Nat) (v : Word) (s : State) : State :=
  if 512 < t ∨ 4 ≤ i ∨ 8 ≤ w ∨ (getSlot (getKeys s t) i).loaded then s
  else updSlot t i (fun x => { x with staged := mapPut x.staged w v.toNat, marks := if x.marks.contains w then x.marks else x.marks ++ [w] }) s

/-- KEY_WORD_WRITE (R502). -/
def execKeyWordWrite (tenant slot word : Nat) (value : Word) (s : State) : Host.Outcome State Fault Refusal :=
  .next (keyWord tenant slot word value s)

/-- The key that eight staged words spell: word w holds key bytes 4w to 4w + 3, little-endian. -/
def stagedKey (x : KeySlot) : List Nat := (List.range 8).flatMap (fun w => leBytes 4 (mapGet 0 x.staged w))

/-- Commit (Table 13-3). -/
def keyCommit (t i : Nat) (s : State) : State :=
  match keyBlocked s t with
  | some c => keyRefuse c t s
  | none =>
    let k := getKeys s t
    let x := getSlot k i
    let id := getF s F.ITE_KEY_ID_ID
    if tenantState s t = 0 then keyRefuse 8 t s
    else if x.loaded then keyRefuse 3 t s
    else if x.marks.length < 8 then keyRefuse 2 t s
    else if id ≠ 0 ∧ (slotWith s t id).isSome = true then keyRefuse 7 t s
    else
      let kid := if id = 0 then k.gen else id
      let key := stagedKey x
      let s := updSlot t i (fun _ => { slot0 with key := key, keyId := kid, loaded := true }) s
      let s := updKeys t (fun k => { k with gen := max k.gen kid + 1 }) s
      keyAccept t (kcvOf key) (iteBegin 0 s)

/-- KEY_COMMIT (R503). -/
def execKeyCommit (tenant slot : Nat) (s : State) : Host.Outcome State Fault Refusal := .next (keyCommit tenant slot s)

/-- Activate (Table 13-3). -/
def keyActivate (t i : Nat) (s : State) : State :=
  match keyBlocked s t with
  | some c => keyRefuse c t s
  | none =>
    if (getSlot (getKeys s t) i).loaded = false then keyRefuse 4 t s
    else keyAccept t 0 (updKeys t (fun k => { k with active := some i }) s)

/-- KEY_ACTIVATE (R503). -/
def execKeyActivate (tenant slot : Nat) (s : State) : Host.Outcome State Fault Refusal := .next (keyActivate tenant slot s)

/-- Writes that a clear of a slot waits for (Table 13-3, Table 13-6): those admitted while it is ACTIVE, and those with units
tagged under it. -/
def clearWaits (s : State) (t i : Nat) : Bool :=
  let k := getKeys s t
  let id := (getSlot k i).keyId
  s.qe.tasks.any (fun e => e.2.uncommitted && (getNs s e.2.ns).tenant == t
    && (k.active == some i || (id != 0 && e.2.units.any (fun u => u.2.keyId == id))))

/-- The clear takes effect: the slot is zeroed; an ACTIVE slot leaves the tenant without an active key. -/
def clearNow (t i : Nat) (s : State) : State :=
  let s := updKeys t (fun k => { k with slots := mapDel k.slots i, active := if k.active = some i then none else k.active }) s
  saveKeys t (updIte (fun x => { x with clearing := none }) s)

/-- Clear (Table 13-3). -/
def keyClear (t i : Nat) (s : State) : State :=
  match keyBlocked s t with
  | some c => keyRefuse c t s
  | none =>
    let k := getKeys s t
    if k.active = some i ∧ k.slots.any (fun e => e.1 != i && e.2.loaded) = true then keyRefuse 5 t s
    else
      let s := updIte (fun x => { x with busy := true, nextTenant := t, nextKcv := 0, clearing := some (t, i) }) s
      if clearWaits s t i then s else clearNow t i s

/-- KEY_CLEAR (R503). -/
def execKeyClear (tenant slot : Nat) (s : State) : Host.Outcome State Fault Refusal := .next (keyClear tenant slot s)

/-- KEY_ACTION_RESULT (R503, R517): a clear that waited takes effect once its writes are gone; when the slot state is in the
configuration region the outcome shows and source 707 fires. -/
def execKeyActionResult (s : State) : Host.Outcome State Fault Refusal :=
  if s.ite.busy = false then .next s
  else
    match s.ite.clearing with
    | some (t, i) => if clearWaits s t i then .next s else .next (clearNow t i s)
    | none =>
      let t := s.ite.nextTenant
      if (s.fws.dirty.any (fun e => e.1 == keySetting t)) = true then .next s
      else .next (fire 707 (t * 2 ^ 16) (updIte (fun x => { x with busy := false, code := 0, kcv := x.nextKcv }) s))

/-- A write of ITE_KEY_CTL (R503, R515). -/
def keyCtlWrite (v : Nat) (s : State) : State :=
  let t := natBits v 0 10
  let i := natBits v 10 2
  match natBits v 12 3 with
  | 0 => if 512 < t then keyRefuse 6 t s else s
  | 1 => keyCommit t i s
  | 2 => keyActivate t i s
  | 3 => keyClear t i s
  | _ => keyRefuse (if s.ite.busy then 1 else 6) t s

end Sys2Proof.Machine
end

