-- ==== Sys2Proof/Machine/TenantFam.lean ====
section
/-! DEFINITION. Meanings of the tenant commands (04): writes of a tenant's page, fair shares, the connection bucket and power
tokens. -/

namespace Sys2Proof.Machine

/-! ## Writes of a tenant page -/

/-- TIU_CFG_RESULT (R147). -/
def tiuResult (t code : Nat) (s : State) : State := { s with qe := { s.qe with cfgCode := code, cfgTenant := t } }

/-- The word a page register would hold after a write, and whether the write carries a reserved value (00 R15). -/
def tiuMerged (s : State) (addr v : Nat) : Nat × Bool :=
  match regFind addr with
  | none => (0, false)
  | some d => (mergeWrite false (getReg s addr) v d.fields, writesReserved v d.fields)

/-- A page register without further rules. -/
def tiuPlain (t addr v : Nat) (s : State) : State :=
  let (w, bad) := tiuMerged s addr v
  tiuResult t (if bad then 6 else 0) (setRegSaved addr w s)

/-- Address of a register in a tenant's page. -/
def tiuAddr (t off : Nat) : Nat := 0x5100000 + t * 0x1000 + off

/-- Identity of a tenant's access list in the configuration region. -/
def aclSetting (t : Nat) : Nat := 0xA0000000 + t
def setAcl (t : Nat) (l : List Nat) (s : State) : State :=
  if (getTenant s t).acl = l then s else discChanged (saveSetting (aclSetting t) l (updTenant t (fun x => { x with acl := l }) s))

/-- A tenant's fabric connections are closed (R129). -/
def closeTenant (t : Nat) (s : State) : State :=
  (mapKeysWhere (fun _ c => c.tenant == t && c.role != .discovery) s.hfe.conns).foldl (fun s c => loseConn c s) s

/-- The quota and share registers of a page (Table 04-4). -/
def tiuQuotas : List Nat := [0x10, 0x18, 0x1C, 0x24, 0x2C, 0x30, 0x34, 0x40]

/-- An accepted delete (R130): keys, access list and die positions cleared, quotas and shares at their defaults; the key
generation number stays. -/
def deletePage (t : Nat) (s : State) : State :=
  let s := closeTenant t s
  let s := saveKeys t (updKeys t (fun k => { keys0 with gen := k.gen }) s)
  let s := setAcl t [] s
  let s := tiuQuotas.foldl (fun s o => setRegSaved (tiuAddr t o) (regReset (tiuAddr t o)) s) s
  updTenant t (fun x => { x with tokens := none, milli := 0, spill := false }) s

/-- A write of TIU_TEN_CTL (R128 to R130). -/
def tenantCtl (t v : Nat) (s : State) : State :=
  if 512 < t then s
  else
    let st := natBits v 0 2
    let old := tenantState s t
    let any (s : State) : State :=
      if getF s (F.TIU_TEN_CTL_ANY_HOST t) = natBits v 2 1 then s
      else discChanged (setRegSaved (tiuAddr t 0) (natSetBits (getReg s (tiuAddr t 0)) 2 1 (natBits v 2 1)) s)
    let put (s : State) : State :=
      let s := setRegSaved (tiuAddr t 0) (natSetBits (getReg s (tiuAddr t 0)) 0 2 st) s
      tiuResult t 0 (if st = old then s else fire 194 (t * 2 ^ 16 + st) s)
    if st = 3 then tiuResult t 1 (any s)
    else if t = 0 then tiuResult t 0 (any s)
    else if st = 0 then
      if nssOf s t ≠ 0 then tiuResult t 2 (any s) else put (any (deletePage t s))
    else if st = 1 then
      put (any (if old = 0 then updTenant t (fun x => { x with tokens := none, milli := 0, spill := false }) s else s))
    else put (any (closeTenant t s))

/-- TENANT_CTL_WRITE (R128). -/
def execTenantCtlWrite (tenant : Nat) (value : Word) (s : State) : Host.Outcome State Fault Refusal := .next (tenantCtl tenant value.toNat s)

/-- A write of TIU_TEN_TASK_MIN or TIU_TEN_TASK_MAX (R133, R153). -/
def taskQuota (t : Nat) (isMax : Bool) (v : Nat) (s : State) : State :=
  let addr := tiuAddr t (if isMax then 0x1C else 0x18)
  if 512 < t then s
  else if t = 0 then tiuResult t 0 s
  else
    let (w, bad) := tiuMerged s addr v
    if bad then tiuResult t 6 s
    else if isMax then
      if w < getF s (F.TIU_TEN_TASK_MIN_MIN t) then tiuResult t 4 s else tiuResult t 0 (setRegSaved addr w s)
    else if 258048 < minSum s - getF s (F.TIU_TEN_TASK_MIN_MIN t) + w then tiuResult t 3 s
    else if getF s (F.TIU_TEN_TASK_MAX_MAX t) < w then tiuResult t 4 s
    else tiuResult t 0 (setRegSaved addr w s)

/-- TASK_QUOTA_WRITE (R133). -/
def execTaskQuotaWrite (tenant : Nat) (isMax : Bool) (value : Word) (s : State) : Host.Outcome State Fault Refusal :=
  .next (taskQuota tenant isMax value.toNat s)

/-- A write of TIU_TEN_ZONES (R154). -/
def zoneQuota (t v : Nat) (s : State) : State :=
  if 512 < t then s
  else
    let (w, bad) := tiuMerged s (tiuAddr t 0x24) v
    if natBits w 12 15 < natBits w 0 12 then tiuResult t 4 s
    else tiuResult t (if bad then 6 else 0) (setRegSaved (tiuAddr t 0x24) w s)

/-- ZONE_QUOTA_WRITE (R154). -/
def execZoneQuotaWrite (tenant : Nat) (value : Word) (s : State) : Host.Outcome State Fault Refusal := .next (zoneQuota tenant value.toNat s)

/-- Tokens in a tenant's connection bucket (R135). -/
def connTokens (s : State) (t : Nat) : Nat := (getTenant s t).tokens.getD (getF s (F.TIU_TEN_CONN_BURST t))

/-- Hold a number of tokens; a full bucket accrues nothing. -/
def setConnTokens (t n : Nat) (s : State) : State :=
  if getF s (F.TIU_TEN_CONN_BURST t) ≤ n then updTenant t (fun x => { x with tokens := none, milli := 0 }) s
  else updTenant t (fun x => { x with tokens := some n }) s

/-- A write of TIU_TEN_CONN (R135, R156): a lower BURST cuts the tokens held. -/
def connQuota (t v : Nat) (s : State) : State :=
  if 512 < t then s else let n := connTokens s t; setConnTokens t n (tiuPlain t (tiuAddr t 0x34) v s)

/-- CONN_QUOTA_WRITE (R135). -/
def execConnQuotaWrite (tenant : Nat) (value : Word) (s : State) : Host.Outcome State Fault Refusal := .next (connQuota tenant value.toNat s)

/-- A die position holds a die-block of a zone of tenant `u` that is not Empty or Offline, or of a conventional namespace. -/
def posHolds (s : State) (p u : Nat) : Bool :=
  s.tabs.blocks.any (fun e => (e.2.st == .bound || e.2.st == .reserved) && e.2.mode != 2 && e.2.owner == u && refDie e.1 % 32 == p)

/-- A mask write conflicts (R143). -/
def dieSetConflict (s : State) (t v : Nat) : Bool :=
  let old := getF s (F.TIU_TEN_DIESET_MASK t)
  let others := (List.range 513).filter (· != t)
  (List.range 32).any (fun p =>
    let was := natBits old p 1 == 1
    let is := natBits v p 1 == 1
    (is && !was && others.any (fun u => natBits (getF s (F.TIU_TEN_DIESET_MASK u)) p 1 == 1 || posHolds s p u))
    || (was && !is && posHolds s p t))

/-- A write of TIU_TEN_DIESET.MASK (R143). -/
def dieSet (t v : Nat) (s : State) : State :=
  if 512 < t then s
  else if dieSetConflict s t v then tiuResult t 5 s
  else spillSettle (tiuResult t 0 (setRegSaved (tiuAddr t 0x40) v s))

/-- DIESET_WRITE (R143). -/
def execDiesetWrite (tenant : Nat) (value : Word) (s : State) : Host.Outcome State Fault Refusal := .next (dieSet tenant value.toNat s)

/-! ## Shares -/

/-- CONN_BUCKET_REFILL (R135): one step of 1 ms of every bucket that is not full. -/
def execConnBucketRefill (s : State) : Host.Outcome State Fault Refusal :=
  .next ((mapKeysWhere (fun _ x => x.tokens.isSome) s.qe.tenants).foldl (fun s t =>
    let m := (getTenant s t).milli + getF s (F.TIU_TEN_CONN_RATE t)
    let n := connTokens s t + m / 1000
    setConnTokens t n (updTenant t (fun x => { x with milli := m % 1000 }) s)) s)

/-- The division of R136 over a list of tenants: what each gets, and the carry. -/
def divide (weight cap : Nat → Nat) (b : List Nat) (left : Nat) : Nat → List (Nat × Nat) × Nat
  | 0 => ([], left)
  | fuel + 1 =>
    let wsum := (b.map weight).sum
    let full := b.filter (fun t => decide (cap t ≠ 0) && decide (cap t ≤ left * weight t / wsum))
    let capped := full.map (fun t => (t, cap t))
    let left' := left - (full.map cap).sum
    let rest := b.filter (fun t => !(full.contains t))
    if rest = [] then (capped, min left' 131072)
    else if full = [] then
      let add := rest.map (fun t => (t, left' * weight t / wsum))
      (add, left' - (add.map Prod.snd).sum)
    else
      let (l, c) := divide weight cap rest left' fuel
      (capped ++ l, c)

/-- Bytes of one 8 µs interval that the ports carry in both directions, at 12 GB/s a lane and direction (R136, 03 R76). -/
def portsPool (s : State) : Nat :=
  ((s.hfe.ports.filter (fun e => decide (2 ≤ e.2.st))).map (fun e => laneCount e.2.mask * 192000)).sum

/-- BW_INTERVAL (R136, R137): the pool of 8 µs is divided among the tenants with a data phase waiting; a junction throttle halves
the combined ceiling (20 R730). -/
def execBwInterval (backlogged : List Nat) (s : State) : Host.Outcome State Fault Refusal :=
  let b := ((List.range 513).filter (fun t => backlogged.contains t))
  let q := min (if s.pad.throttle then 480000 else 960000) (portsPool s) + s.hfe.carry
  let (adds, carry) := if b = [] then ([], min q 131072)
    else divide (fun t => getF s (F.TIU_TEN_BW_WEIGHT t)) (fun t => getF s (F.TIU_TEN_BW_CAP t) * 800) b q 514
  let s := { s with hfe := { s.hfe with carry := carry } }
  let s := adds.foldl (fun s e => updTenant e.1 (fun x => { x with bytes := min (x.bytes + e.2) (e.2 + 262144) }) s) s
  .next { s with qe := { s.qe with
    tenants := mapMapVals tenant0 (fun t x => if b.contains t then x else { x with bytes := min x.bytes 0 }) s.qe.tenants } }

/-- Tenants with a die operation waiting. -/
def powerBacklog (s : State) : List Nat :=
  (List.range 513).filter (fun t => s.flc.dies.any (fun e => e.2.waiting.any (fun o => o.tenant == some t)))

/-- POWER_ENTITLEMENT_RECOMPUTE (R140): what the budget leaves after idle draw and internal operations is divided. -/
def execPowerEntitlementRecompute (s : State) : Host.Outcome State Fault Refusal :=
  let avail := budgetMw s - 512 * (awakeGroups s).length - chargedMw s none
  let b := powerBacklog s
  let adds := if b = [] then [] else
    (divide (fun t => getF s (F.TIU_TEN_PWR_WEIGHT t)) (fun t => getF s (F.TIU_TEN_PWR_CAP t) * 100) b avail 514).1
  let s := { s with qe := { s.qe with tenants := mapMapVals tenant0 (fun _ x => { x with entitled := 0 }) s.qe.tenants } }
  .next (adds.foldl (fun s e => updTenant e.1 (fun x => { x with entitled := e.2 }) s) s)

/-- POWER_TOKEN_GRANT (07 R263, R141): the operation the die would be sent next gets its token and is sent. -/
def execPowerTokenGrant (die : Nat) (s : State) : Host.Outcome State Fault Refusal :=
  match grantable s die with
  | none => .next s
  | some o => .next (fineIssued die o (sendOp die o s))

end Sys2Proof.Machine
end

