-- ==== Sys2Proof/Machine/HostOps.lean ====
section
/-! DEFINITION. Operations of the Host Fabric Engine (03): ports, lanes and their training, priority flow control, connections,
PTP timestamps. -/

namespace Sys2Proof.Machine

def updHfe (f : Hfe → Hfe) (s : State) : State := { s with hfe := f s.hfe }
def getPort (s : State) (p : Nat) : Port := mapGet port0 s.hfe.ports p
def updPort (p : Nat) (f : Port → Port) (s : State) : State := updHfe (fun h => { h with ports := mapUpd port0 h.ports p f }) s
def getLane (s : State) (l : Nat) : Lane := mapGet lane0 s.hfe.lanes l
def updLane (l : Nat) (f : Lane → Lane) (s : State) : State := updHfe (fun h => { h with lanes := mapUpd lane0 h.lanes l f }) s

/-! ## Ports and lanes (R68, R69, R74 to R78) -/

/-- Lanes of a port in a mode (Table 03-1). -/
def portLanes (mode p : Nat) : List Nat :=
  match mode with
  | 0 => if p < 8 then [p] else []
  | 1 => if p < 4 then [2 * p, 2 * p + 1] else []
  | _ => if p < 2 then [4 * p, 4 * p + 1, 4 * p + 2, 4 * p + 3] else []

/-- A mask of lanes. -/
def laneMask (l : List Nat) : Nat := (l.map (fun i => 2 ^ i)).sum
def maskLanes (m : Nat) : List Nat := (List.range 8).filter (fun i => natBits m i 1 = 1)

/-- The port of a lane in the active mode. -/
def portOfLane (s : State) (l : Nat) : Nat := l / (portLanes s.hfe.mode 0).length

/-- The active mode defines the port. -/
def portDefined (s : State) (p : Nat) : Bool := portLanes s.hfe.mode p != []

/-- The host lanes may train: out of reset (16 Table 16-7), not in Retained (R73), the network PLLs running. -/
def lanesRun (s : State) : Bool := s.cru.stage != .held && s.cru.stage != .early && s.top.dev != .retained && !s.cru.doubleFault

/-- Every event that takes the PTP port down puts a locked TU into Holdover (16 Table 16-8). -/
def ptpPortDown (p : Nat) (s : State) : State :=
  if getF s F.HFE_PTP_CFG_PORT = p ∧ flagF s F.HFE_PTP_CFG_ENABLE = true then tuHoldover s else s

/-- A port leaves service: its lanes carry nothing. -/
def portOff (p : Nat) (s : State) : State :=
  let up := decide (2 ≤ (getPort s p).st)
  let s := (portLanes s.hfe.mode p).foldl (fun s l => updLane l (fun x => { x with active := false }) s) s
  let s := updPort p (fun x => { x with st := 0, mask := 0, trying := 0, narrowing := false }) s
  if up then ptpPortDown p s else s

/-- TRAINING clears when no port of an apply trains any more (R104). -/
def trainSettle (s : State) : State :=
  if s.hfe.ports.any (fun e => e.2.st == 1) then s else updHfe (fun h => { h with training := false }) s

/-- A port goes down (R74, R75); source 131 + 4p fires. -/
def portDown (p : Nat) (s : State) : State := trainSettle (fire (131 + 4 * p) 0 (portOff p s))

/-- A port trains on some lanes. -/
def portTrain (p : Nat) (lanes : List Nat) (narrowing : Bool) (s : State) : State :=
  updPort p (fun x => { x with st := 1, trying := laneMask lanes, narrowing := narrowing }) (portOff p s)

/-- A port trains at full width. -/
def portTrainFull (p : Nat) (s : State) : State :=
  if portDefined s p ∧ flagF s (F.HFE_PORT_CTL_ENABLE p) = true ∧ lanesRun s = true then portTrain p (portLanes s.hfe.mode p) false s else s

/-- Narrowing candidates of a port in the order of R75. -/
def narrowList (s : State) (p : Nat) : List (List Nat) :=
  match portLanes s.hfe.mode p with
  | [a, b, c, d] => [[a, b], [c, d], [a], [b], [c], [d]]
  | [a, b] => [[a], [b]]
  | _ => []

/-- The next candidate after the lanes tried last (0: from the start) whose lanes are all free of failure. -/
def nextNarrow (s : State) (p : Nat) (after : Nat) : Option (List Nat) :=
  let l := narrowList s p
  let rest := match l.findIdx? (fun c => laneMask c == after) with
    | some i => l.drop (i + 1)
    | none => l
  rest.find? (fun c => c.all (fun i => !(getLane s i).failed))

/-- R75: the first candidate left, or the port is down. -/
def narrow (p after : Nat) (s : State) : State :=
  match nextNarrow s p after with
  | some c => portTrain p c true s
  | none => portDown p s

/-- A lane is declared failed (R74); source 128 + 4p fires. -/
def failLane (l : Nat) (s : State) : State :=
  if (getLane s l).failed then s
  else fire (128 + 4 * portOfLane s l) l (updLane l (fun x => { x with failed := true, locked := false }) s)

/-- A lane that carries a port is lost: a port of one lane retrains, a wider one narrows (R74, R75). -/
def lanesLost (p : Nat) (l : Nat) (s : State) : State :=
  if (portLanes s.hfe.mode p).length = 1 then portDown p s else narrow p 0 (failLane l s)

/-- The ANA state of a port changes (R78). -/
def setNonOpt (p : Nat) (v : Bool) (s : State) : State :=
  if (getPort s p).nonOpt = v then s
  else
    let s := updPort p (fun x => { x with nonOpt := v }) s
    let cs := mapMapVals ctl0 (fun k c => if c.port = p ∧ k < 0x40000 then { c with anaCount := c.anaCount + 1 } else c) s.qe.ctls
    let s := { s with qe := { s.qe with ctls := cs } }
    raiseAenWhere (fun k c => c.port == p && decide (k < 0x40000)) 2 3 s

/-- Port speed in 10 Mbit/s by its lanes (R86). -/
def portRate (s : State) (p : Nat) : Nat := 10000 * laneCount (getPort s p).mask

/-- A port comes up on the lanes it tried (R75 to R78): their FAILED clears; rates are cut to the port's speed. -/
def portUp (p : Nat) (s : State) : State :=
  let x := getPort s p
  let lanes := maskLanes x.trying
  let full := decide (lanes.length = (portLanes s.hfe.mode p).length)
  let was := x.nonOpt
  let s := lanes.foldl (fun s l => updLane l (fun y => { y with active := true, locked := true, failed := false }) s) s
  let s := updPort p (fun x => { x with st := if full then 2 else 3, mask := x.trying, trying := 0, narrowing := false, widenTimer := !full }) s
  let s := if full = false ∨ was = true then fire (129 + 4 * p) (laneMask lanes) s else s
  let r := portRate s p
  let s := updHfe (fun h => { h with conns := mapMapVals conn0 (fun _ c => if c.port = p ∧ c.tcp = false then { c with rate := min c.rate r } else c) h.conns }) s
  trainSettle (setNonOpt p (!full) s)

/-- Connections of a port are closed. -/
def closePort (p : Nat) (s : State) : State := (mapKeysWhere (fun _ c => c.port == p) s.hfe.conns).foldl (fun s c => loseConn c s) s

/-- APPLY (R69): every port down, every connection closed, all lanes trained in MODE. -/
def modeApply (saved : Bool) (s : State) : State :=
  if s.hfe.training then s
  else
    let s := (s.hfe.conns.map Prod.fst).foldl (fun s c => loseConn c s) s
    let s := (List.range 8).foldl (fun s p => portOff p s) s
    let m := getF s F.HFE_MODE_CTL_MODE
    let s := updHfe (fun h => { h with ports := [], mode := m, training := true, savedMode := saved }) s
    let s := (List.range 8).foldl (fun s p => portTrainFull p s) s
    discChanged (fire 162 m (trainSettle s))

/-- Identity of the saved port mode in the configuration region: 0 none, mode + 1. -/
def modeSetting : Nat := 0xB0000000
def modeSave (s : State) : State := saveSetting modeSetting [getF s F.HFE_MODE_CTL_MODE + 1] s
def modeForget (s : State) : State := saveSetting modeSetting [0] s

/-- A write of HFE_MODE_CTL (R103). -/
def modeCtl (v : Nat) (s : State) : State :=
  let save := natBits v 3 1 = 1
  let forget := natBits v 4 1 = 1
  if save ∧ forget then s
  else
    let s := plainWrite 0x3000000 v s
    let s := if save then modeSave s else if forget then modeForget s else s
    if natBits v 2 1 = 1 then modeApply false s else s

/-- WIDEN (R77, R116). -/
def portWiden (p : Nat) (s : State) : State :=
  if portDefined s p = false ∨ (getPort s p).st = 1 then s
  else updPort p (fun x => { x with widenTimer := true }) (portTrainFull p s)

/-- A write of HFE_PORT_CTL (R116): ENABLE = 0 holds the port down and closes its connections. -/
def portCtl (p v : Nat) (s : State) : State :=
  if portDefined s p = false then s
  else
    let was := flagF s (F.HFE_PORT_CTL_ENABLE p)
    let s := plainWrite (0x3001000 + p * 0x100) v s
    let now := flagF s (F.HFE_PORT_CTL_ENABLE p)
    let s := if was = true ∧ now = false then (if (getPort s p).st = 0 then closePort p s else portDown p (closePort p s))
      else if was = false ∧ now = true then portTrainFull p s else s
    if natBits v 2 1 = 1 then portWiden p s else s

/-! ## Priority flow control (R81 to R84) -/

/-- One of the two priorities of a port. -/
def getPrio (s : State) (p : Nat) (b : Bool) : Prio := if b then (getPort s p).prioB else (getPort s p).prioA
def updPrio (p : Nat) (b : Bool) (f : Prio → Prio) (s : State) : State :=
  updPort p (fun x => if b then { x with prioB := f x.prioB } else { x with prioA := f x.prioA }) s

/-- Enabled, and its number. -/
def prioOn (s : State) (p : Nat) (b : Bool) : Bool := flagF s (if b then F.HFE_PORT_PFC_CFG_EN_B p else F.HFE_PORT_PFC_CFG_EN_A p)
def prioNum (s : State) (p : Nat) (b : Bool) : Nat := getF s (if b then F.HFE_PORT_PFC_CFG_PRIO_B p else F.HFE_PORT_PFC_CFG_PRIO_A p)

/-- A priority number is one of the enabled lossless ones. -/
def prioIs (s : State) (p n : Nat) : Option Bool :=
  if prioOn s p false ∧ prioNum s p false = n then some false
  else if prioOn s p true ∧ prioNum s p true = n then some true else none

/-- The region of an enabled priority in bytes (R82). -/
def prioRegion (s : State) (p : Nat) : Nat :=
  let all := laneCount (getPort s p).mask * 1024 * 1024
  if prioOn s p false ∧ prioOn s p true then all / 2 else all

/-- Thresholds in force in bytes (R82). -/
def xoffBytes (s : State) (p : Nat) : Nat := min (getF s (F.HFE_PORT_PFC_THR_XOFF_KIB p) * 1024) (prioRegion s p * 3 / 4)
def xonBytes (s : State) (p : Nat) : Nat := min (getF s (F.HFE_PORT_PFC_THR_XON_KIB p) * 1024) (prioRegion s p / 2)

/-- Send a PFC frame for a priority (R83). -/
def sendPfc (p : Nat) (b : Bool) (quanta : Nat) (s : State) : State :=
  emit (.pfc p (prioNum s p b) quanta) (portCount p (if b then 9 else 7) 1 s)

/-- Bytes enter the buffer of a lossless priority (R83). -/
def prioFill (p : Nat) (b : Bool) (n : Nat) (s : State) : State :=
  let s := updPrio p b (fun x => { x with fill := x.fill + n }) s
  if (getPrio s p b).xoff = false ∧ xoffBytes s p ≤ (getPrio s p b).fill then
    sendPfc p b 0xFFFF (updPrio p b (fun x => { x with xoff := true }) s)
  else s

/-- A paused priority may send again: its queued frames go out. -/
def prioResume (p : Nat) (b : Bool) (s : State) : State :=
  let n := (getPrio s p b).queued
  portCount p 1 n (updPrio p b (fun x => { x with paused := false, queued := 0 }) s)

/-! ## Connections -/

/-- Connections whose establishment waits for firmware: no Connect has been executed on them (17 Table 17-1). -/
def connsWaiting (s : State) : Nat := mapCount (fun _ c => c.role == .unassigned) s.hfe.conns
def connsRole (s : State) (r : Role) : Nat := mapCount (fun _ c => c.role == r) s.hfe.conns
def connsTcp (s : State) : Nat := mapCount (fun _ c => c.tcp) s.hfe.conns

/-- The pseudo-tenant of the Discovery subsystem. -/
def discTenant : Nat := 0x400

/-- A connection request takes a token of its tenant (R131, 04 R135); none left: refused, and source 193 fires. The Discovery
controller belongs to no tenant. -/
def takeToken (t : Nat) (s : State) : Bool × State :=
  if 512 < t then (true, s)
  else if connTokens s t = 0 then (false, fire 193 t s)
  else (true, setConnTokens t (connTokens s t - 1) s)

/-- Capsule as the queue holds it. -/
def capOf (c : CapsuleIn) : Capsule :=
  ⟨c.opc, c.fctype, c.cid, c.nsid, c.cdw10, c.cdw11, c.cdw12, c.cdw13, c.cdw14, c.cdw15, c.sglLen, c.inCapsule⟩

/-- A new connection: its transmissions wait for its next hop (R72). -/
def newConn (tcp : Bool) (port entry tenant hop : Nat) (s : State) : State :=
  let k := s.hfe.nextConn
  let c : Conn := { conn0 with
    tcp := tcp, port := port, entry := entry, tenant := if 512 < tenant then discTenant else tenant
    waitHop := if s.hfe.neigh.contains hop then none else some hop
    rate := portRate s port, cfg := getReg s (if tcp then 0x3000028 else 0x300002C) }
  updHfe (fun h => { h with nextConn := k + 1, conns := mapSet conn0 h.conns k c }) s

/-- A frame about a connection that is not opened. -/
def rejectConn (kind : String) (reason : Nat) (s : State) : State := emit (.frame 0 kind reason) s

/-- The largest capsule of a connection's queue (R89). -/
def capsuleMax (c : Conn) : Nat := if c.role = .io then 64 else 64 + 8192

/-- The oldest slot of a connection with a CID that expects data. -/
def dataSlot (s : State) (c cid : Nat) : Option Nat :=
  (s.qe.tasks.find? (fun e => e.2.conn == c && e.2.cap.cid == cid
    && (e.2.st == .receiving || (e.2.st == .admitted && decide (0 < e.2.moved))))).map Prod.fst

/-- Bytes of a command that have landed. -/
def landedBytes (t : Task) : Nat := (t.units.map (fun e => e.2.bytes)).sum

/-- Put a capsule in its queue's receive ring. -/
def pushCapsule (c : Nat) (x : Capsule) (s : State) : State := updConn c (fun y => { y with ring := y.ring ++ [x] }) s

/-- Packets sent again by go-back-N (R92). -/
def resendConn (c : Nat) (s : State) : State :=
  let x := getConn s c
  portCount x.port 0x0E x.unacked.length s

/-- A CNP for a marked packet (R85): at most one per interval and queue pair. -/
def markCe (c : Nat) (s : State) : State :=
  let x := getConn s c
  let s := portCount x.port 0x0A 1 s
  let due := match x.lastCnp with
    | none => true
    | some t => decide (getF s F.HFE_CC_NP_CNP_INTERVAL_US * 1000 ≤ nowNs s - t)
  if flagF s F.HFE_CC_NP_NP_EN ∧ due = true then
    emit (.frame c "CNP" 0x81) (portCount x.port 0x0B 1 (updConn c (fun y => { y with lastCnp := some (nowNs s) }) s))
  else s

/-! ## PTP (R99 to R102) -/

/-- PTP runs on a port (R101). -/
def ptpRuns (s : State) (p : Nat) : Bool :=
  flagF s F.HFE_PTP_CFG_ENABLE && getF s F.HFE_PTP_CFG_PORT == p && decide (2 ≤ (getPort s p).st)

/-- A timestamp enters the FIFO (R102): discarded and counted when 64 wait. -/
def ptpPush (t : PtpTs) (s : State) : State :=
  if s.hfe.fifo.length < 64 then updHfe (fun h => { h with fifo := h.fifo ++ [t] }) s
  else
    let s := bumpF F.HFE_PTP_TS_STATUS_OVERFLOW 1 s
    fire 160 (getF s F.HFE_PTP_TS_STATUS_OVERFLOW) s

/-- HFE_PTP_TS0 (R114). -/
def ptpWord (t : PtpTs) : Nat := t.seqId + t.msgType * 2 ^ 16 + bitAt t.tx 20 + t.port * 2 ^ 21 + 2 ^ 24

/-- A read of HFE_PTP_TS0 (R102): the head leaves and fills the shadows; an empty FIFO answers VALID = 0. -/
def ptpPop (s : State) : Nat × State :=
  match s.hfe.fifo with
  | [] => (0, s)
  | t :: rest => (ptpWord t, updHfe (fun h => { h with fifo := rest, lastTs := t }) s)

/-- The chosen master: lowest priority, then identity. -/
def bestMaster (l : List Master) : Option Master :=
  l.foldl (fun m x => match m with
    | none => some x
    | some y => if x.priority < y.priority ∨ (x.priority = y.priority ∧ x.ident < y.ident) then some x else some y) none

/-- The UTC offset in use follows the chosen master (16 R609); source 101 fires when it changes. -/
def utcSettle (s : State) : State :=
  let u := (bestMaster s.hfe.masters).bind (·.utc)
  if u = s.tu.utcPtp then s
  else
    let s := { s with tu := { s.tu with utcPtp := u } }
    fire 101 (match u with | some v => ofSigned 32 v | none => getReg s 0x2000048 % 2 ^ 16) s

/-- An Announce (R99): the foreign-master table holds 8 entries. -/
def announce (ident prio : Nat) (utc : Option Int) (s : State) : State :=
  let m : Master := ⟨ident, prio, utc⟩
  let l := s.hfe.masters
  let l := if l.any (fun x => x.ident == ident) then l.map (fun x => if x.ident = ident then m else x)
    else if l.length < 8 then l ++ [m] else l
  utcSettle (updHfe (fun h => { h with masters := l }) s)

end Sys2Proof.Machine
end

