-- ==== Sys2Proof/Machine/ResetOps.lean ====
section
/-! DEFINITION. Resets (16 R594 to R598, 20 R720 to R725): what a reset keeps and clears, the boot that follows it, and the
settings that boot firmware restores (18 R680). -/

namespace Sys2Proof.Machine

def updTop (f : Top → Top) (s : State) : State := { s with top := f s.top }
def updFws (f : Fws → Fws) (s : State) : State := { s with fws := f s.fws }
def updEvc (f : Evc → Evc) (s : State) : State := { s with evc := f s.evc }
def updPad (f : Pad → Pad) (s : State) : State := { s with pad := f s.pad }
def updMgc (f : Mgc → Mgc) (s : State) : State := { s with mgc := f s.mgc }
def updQe (f : Qe → Qe) (s : State) : State := { s with qe := f s.qe }

/-- A change of state breaks every open fragment assembly: its next fragment replies SEQUENCE (17 R658). -/
def breakFragments (s : State) : State :=
  updMgc (fun m => { m with paths := mapMapVals path0 (fun _ x => if x.fragCount = 0 then x else { x with fragCount := 17, fragData := [] }) m.paths }) s

/-- The controller enters a device state; source 0 carries the state and the cause (01 Table 01-2, 19 Table 19-1). -/
def enterDev (d : Dev) (cause : Nat) (s : State) : State :=
  let s := breakFragments s
  let s := updTop (fun t => { t with dev := d, lastCause := cause }) s
  fire 0 (devCode d + cause * 16) s

/-! ## What outlives a reset -/

/-- TOP keeps its counters (00 R24, 01 R29, R30). -/
def keepTop (t : Top) : Top :=
  { top0 with powerCycles := t.powerCycles, poweredSec := t.poweredSec, unsafeCount := t.unsafeCount }

/-- The firmware store keeps its array (18 R664). -/
def keepFws (f : Fws) : Fws :=
  { fws0 with
    sectors := f.sectors, pages := f.pages, rowLevel := f.rowLevel, erasePending := f.erasePending, record := f.record
    saved := f.saved, settingsSeq := f.settingsSeq, settingsSector := f.settingsSector }

/-- The Herdbook keeps its sectors and the mirror; the next SEQ lies above every record in the region (19 R695, R699). -/
def keepEvc (e : Evc) : Evc :=
  { evc0 with
    ring := e.ring, badSectors := e.badSectors, curSector := e.curSector, mirror := e.mirror, mirrorSeq := e.mirrorSeq
    nextSeq := (e.ring.map (fun c => c.body.seq)).foldl max 0 + 1 }

/-- Tenants keep the counters of their SMART log. -/
def keepTenant (t : Tenant) : Tenant :=
  { tenant0 with
    readCmds := t.readCmds, writeCmds := t.writeCmds, readLbas := t.readLbas, writeLbas := t.writeLbas
    mediaErrors := t.mediaErrors }

/-- A die's calibration page, loaded model and checkpointed learning stay (09 R351, R357). -/
def keepAges (r : Rcu) : SMap DieAge :=
  let m := mapMapVals dieAge0 (fun _ a => { dieAge0 with cal := a.cal, loaded := a.loaded }) r.dies
  r.ckptLearned.foldl (fun m e => mapUpd dieAge0 m e.1 (fun a => { a with learned := e.2 })) m

/-- The RCU keeps what checkpoints and time marks hold (09 R330, 01 R41). -/
def keepRcu (r : Rcu) : Rcu :=
  { rcu0 with
    dies := keepAges r, lastMark := r.lastMark, marks := r.marks, ckptAges := r.ckptAges
    ckptRefreshed := r.ckptRefreshed, ckptLearned := r.ckptLearned }

/-- The journal keeps its accepted pages, its blocks, its anchors and the newest complete image (12 R461 to R478). -/
def keepJnl (j : Jnl) : Jnl :=
  { jnl0 with
    accJsn := j.accJsn, accSeq := j.accSeq, nextJsn := j.accJsn, lastType := j.lastType, commits := j.commits
    pairs := j.pairs, emergency := j.emergency, imageSeq := j.lastSeq, lastSeq := j.lastSeq, volume := j.volume
    fromVol := j.fromVol, anchors := j.anchors, old := j.old, anchorTower := j.anchorTower }

/-- Every register and every piece of working state of RD_DEV at its reset value; flash, the store and the counters stay
(16 Table 16-5, 01 R40). -/
def resetDev (s : State) : State :=
  let aon (a : Nat) : Bool := match regFind a with | some d => d.aon | none => false
  let s := resetDevRegs s
  { s with
    shadows := s.shadows.filter (fun e => aon e.1), heldHigh := s.heldHigh.filter (fun e => aon e.1)
    top := keepTop s.top, fws := keepFws s.fws, evc := keepEvc s.evc, hfe := hfe0
    qe := { qe0 with tenants := mapMapVals tenant0 (fun _ t => keepTenant t) s.qe.tenants }
    mgc := mgc0, tabs := s.dur, flc := flc0, clc := clc0, rcu := keepRcu s.rcu
    wpe := { wpe0 with areaBlocks := s.wpe.areaBlocks, nextSlice := s.wpe.nextSlice, areaN := s.wpe.areaN }
    mme := { mme0 with ckptCursor := s.mme.ckptCursor, cursor := s.mme.ckptCursor }
    jnl := keepJnl s.jnl, ite := ite0, bpm := bpm0, dmc := dmc0 }

/-- The inputs after PORST_N: filtered levels high, counts 0; the balls keep their levels (20 R716). -/
def resetPins (m : SMap Pin) : SMap Pin := mapMapVals pin0 (fun _ p => { pin0 with raw := p.raw }) m

/-- Off (01 R27, 16 Table 16-6): every domain is reset. `rails`: the rails stay good. -/
def powerOff (rails porst : Bool) (s : State) : State :=
  let s := resetDev s
  { s with
    regs := [], shadows := [], heldHigh := []
    top := { s.top with dev := .off }
    cru := { cru0 with stage := .held }, tu := tu0
    pad := { pad0 with railsGood := rails, porstLow := porst, pins := resetPins s.pad.pins, vidValid := rails } }

/-! ## Boot -/

/-- The host port mode that the straps select (03 R68). -/
def strapMode (p : Pad) : Nat := if p.hmode = 3 then 0 else p.hmode

/-- RD_DEV leaves reset and Boot is entered (16 Table 16-7): the mode strap stands in HFE_MODE_CTL (03 R68). After a
supervisor-watchdog reset source 76 fires. -/
def beginBoot (s : State) : State :=
  let m := strapMode s.pad
  let s := setF F.HFE_MODE_CTL_MODE m s
  let s := { s with hfe := { s.hfe with mode := m, strapBad := s.pad.hmode == 3 }, cru := { s.cru with stage := .early } }
  let s := enterDev .boot 0 s
  if s.cru.cause = 2 then fire 76 s.cru.devResets s else s

/-- Device reset (16 R596, R597): through Off to Boot with the straps and the Time Unit kept. -/
def deviceReset (cause : Nat) (s : State) : State :=
  let s := resetDev s
  beginBoot { s with cru := { s.cru with cause := cause, devResets := min 0xFF (s.cru.devResets + 1) } }

/-- Identity of an address entry in the configuration region. -/
def addrSetting (p e : Nat) : Nat := 0xC0000000 + p * 8 + e

/-- One setting of the configuration region is restored (18 R680). -/
def restoreOne (s : State) (e : Nat × List Nat) : State :=
  let id := e.1
  let v (i : Nat) := e.2.getD i 0
  if id < 0x80000000 then setReg id (v 0) s
  else if id < 0x90000000 then
    updLink (id - 0x80000000) (fun l => { l with haveStored := true, storedSerial := v 0 }) s
  else if id < 0xA0000000 then updKeys (id - 0x90000000) (fun _ => keysOfVals e.2) s
  else if id < 0xB0000000 then updTenant (id - 0xA0000000) (fun t => { t with acl := e.2 }) s
  else if id < 0xC0000000 then
    if v 0 = 0 then s
    else updHfe (fun h => { h with mode := v 0 - 1, savedMode := true }) (setF F.HFE_MODE_CTL_MODE (v 0 - 1) s)
  else
    let a : AddrEntry := ⟨v 0 == 1, v 1 == 1, v 2, v 3, v 4⟩
    updHfe (fun h => { h with addrs := mapSet addr0 h.addrs (id - 0xC0000000) a }) s

/-- Boot firmware restores the configuration region. -/
def restoreSettings (s : State) : State :=
  let s := s.fws.saved.foldl restoreOne s
  let s := updEvc (fun e => { e with bootBurst := getF s F.EVC_CFG_BURST }) s
  updRcu (fun r => { r with b := rcuB s }) s

/-- The boot is counted, and the next SEQ follows the count (01 R29, 19 R695). -/
def countBoot (s : State) : State :=
  let s := updTop (fun t => { t with powerCycles := satAdd (2 ^ 32 - 1) t.powerCycles 1 }) s
  updEvc (fun e => { e with nextSeq := max e.nextSeq (min s.top.powerCycles (2 ^ 20 - 1) * 2 ^ 44) }) s

end Sys2Proof.Machine
end

