-- ==== Sys2Proof/Machine/BootFam.lean ====
section
/-! DEFINITION. Power-up, resets and the start-up sequence (01 Table 01-4, R28 to R33; 12 R479, R480; 16 R594 to R598; 20 R720 to
R725). -/

namespace Sys2Proof.Machine

/-! ## Power and resets -/

/-- PORST_N_ASSERT (20 R720, 16 Table 16-6). -/
def execPorstNAssert (powerRemoved : Bool) (s : State) : Host.Outcome State Fault Refusal :=
  .next (powerOff (!powerRemoved && s.pad.railsGood) true s)

/-- RAIL_FAIL (20 R722): Off, exactly as an assertion of PORST_N. -/
def execRailFail (_rail : Nat) (s : State) : Host.Outcome State Fault Refusal :=
  .next (powerOff false s.pad.porstLow s)

/-- RAILS_GOOD (20 R723, R725, 16 R578): in Off; CORE_VID is valid and drives code 10, and the backup RC starts. -/
def execRailsGood (s : State) : Host.Outcome State Fault Refusal :=
  if s.top.dev = .off then
    .next (updCru (fun c => { c with rcReady := false }) (updPad (fun p => { p with railsGood := true, vidValid := true, vidCode := 10 }) s))
  else .next s

/-- PORST_N_RELEASE (20 R714, R715, R720, R725, 16 R593, R598): from Off, with rails good and the RC ready, the straps are
sampled, fuses are sensed, the references are judged and Boot is entered. -/
def execPorstNRelease (hmode : Nat) (i3c : Bool) (addr : Nat) (testmode : Bool) (coreRuns netRuns : Bool) (s : State) :
    Host.Outcome State Fault Refusal :=
  if s.top.dev ≠ .off ∨ s.pad.railsGood = false ∨ s.cru.rcReady = false ∨ s.pad.thermtrip then .next s
  else
    let bad := hmode % 4 == 3
    let s := updPad (fun p => { p with
        porstLow := false, hmode := hmode % 4, mgmtI3c := i3c, mgmtAddr := addr % 8, testmode := testmode
        bad := bitOf bad, fusesSensed := true, vidCode := s.fuse.vid, drive := .functional }) s
    let s := setF F.CRU_RC_TRIM_TRIM s.fuse.rcTrim s
    let s := updCru (fun c => { c with coreGood := coreRuns, netGood := netRuns }) s
    let s := beginBoot s
    let s := if bad then fire 51 0 s else s
    let s := if coreRuns then s else enterCoast s
    .next (doubleFault s)

/-- DEVICE_RESET (16 R596, R619): only the operator, with KEY 0x5A. -/
def execDeviceReset (w : Writer) (key : Nat) (s : State) : Host.Outcome State Fault Refusal :=
  match w with
  | .operator => if key = 0x5A ∧ s.top.dev ≠ .off then .next (deviceReset 1 s) else .next s
  | .firmware => .next s

/-- SC_WATCHDOG_EXPIRE (16 R597). -/
def execScWatchdogExpire (s : State) : Host.Outcome State Fault Refusal :=
  if s.top.dev = .off then .next s else .next (deviceReset 2 s)

/-- CC_WATCHDOG_EXPIRE (16 R597, 17 R633): the core alone is reset and reloaded; its CC_MASK bit sets and source 72 + core fires.
Work that changed nothing restarts. -/
def execCcWatchdogExpire (core : Nat) (s : State) : Host.Outcome State Fault Refusal :=
  if 4 ≤ core ∨ s.top.dev = .off then .next s
  else
    let m := getF s F.CRU_RESET_CAUSE_CC_MASK
    .next (fire (72 + core) core (setF F.CRU_RESET_CAUSE_CC_MASK (m ||| 2 ^ core) s))

/-- TRST_ASSERT (16 Table 16-5, 20 R732): RD_TEST is reset and IDCODE is loaded. -/
def execTrstAssert (s : State) : Host.Outcome State Fault Refusal :=
  .next (updPad (fun p => { p with tapIr := 1, bsr := 0, drive := .functional }) s)

/-! ## Start-up -/

/-- SIGNATURE_CHECK_DONE (16 Table 16-7, 01 Table 01-4): a slot has been selected; DRAM, host lanes and every enabled link start
training. -/
def execSignatureCheckDone (s : State) : Host.Outcome State Fault Refusal :=
  if s.cru.stage ≠ .early ∨ s.top.dev ≠ .boot ∨ s.fws.bootSlot = 0 then .next s
  else
    let s := updCru (fun c => { c with stage := .trainers }) s
    let s := ((List.range (linkCount s)).filter (fun k => flagF s (F.FLC_LN_CTL_ENABLE k))).foldl (fun s k => startTraining k s) s
    .next ((List.range 8).foldl (fun s p => portTrainFull p s) s)

/-- Whether FORCE_COLD waits in the configuration region (15 R576). -/
def forceCold (s : State) : Bool := (s.fws.saved.find? (fun e => e.1 == 0xF000050)).any (fun e => e.2 == [1])

/-- DRAM_TRAINING_DONE (15 R560, R562, R576; 14 R538): a failing channel halts the boot; otherwise the BPM is released and
initialised, and boot firmware sets the locks. -/
def execDramTrainingDone (storedOk : Bool) (failMask : Nat) (cap : Nat) (ranks2 metaCopy : Bool) (retain : Nat) (s : State) :
    Host.Outcome State Fault Refusal :=
  if s.cru.stage ≠ .trainers ∨ s.dmc.halted = true then .next s
  else
    let force := forceCold s
    let s := updDmc (fun d => { d with
        cap := cap % 4, ranks2 := ranks2, metaCopy := metaCopy, retainSeg := retain % 256
        storedBad := !storedOk, cold := !storedOk || force, failMask := failMask % 2 ^ 24 }) s
    let s := if force then saveSetting 0xF000050 [0] s else s
    if failMask % 2 ^ 24 ≠ 0 then .next (fire 772 (failMask % 2 ^ 24) (updDmc (fun d => { d with halted := true }) s))
    else
      let s := updDmc (fun d => { d with trained := true }) s
      let s := setF F.BPM_LOCK_LOCK 1 (setF F.DMC_LOCK_LOCK 1 s)
      .next (bpmInit (updCru (fun c => { c with stage := .bpm }) s))

/-- ADMIN_SERVED_POINT (01 R28, Table 01-4): Replay is entered and every block is released; phase 1 starts. -/
def execAdminServedPoint (s : State) : Host.Outcome State Fault Refusal :=
  if s.top.dev ≠ .boot ∨ s.cru.stage ≠ .bpm then .next s
  else
    let s := updCru (fun c => { c with stage := .all }) s
    let s := updJnl (fun j => { j with phase := 1, phase1Tick := s.tu.ticks }) s
    .next (enterDev .replay 1 (updTop (fun t => { t with adminOk := true }) s))

/-! ## The reads-served point (12 R479, 16 R605, 09 R344, R345) -/

/-- The shutdown was unsafe when the last record, TIME and PAD left out, is not CLEAN (01 R30). -/
def markUnsafe (s : State) : State :=
  if s.jnl.lastType = 0x1E then s
  else
    let s := updJnl (fun j => { j with unsafeLast := true }) s
    fire 1 0 (updTop (fun t => { t with unsafeLast := true, unsafeCount := t.unsafeCount + 1 }) s)

/-- Fewer than two of the towers that hold the anchor are trained (12 R490). -/
def anchorsFew (s : State) : Bool :=
  decide (0 < s.jnl.lastSeq) && decide ((s.jnl.anchors.filter (fun k => (getLink s k).st == 3)).length < 2)

/-- The open log stripe of each tenant is the unsealed one (06 R225). -/
def restoreLogs (s : State) : State :=
  let open_ := s.tabs.stripes.filter (fun e => isLog e.1 && e.2.live && !e.2.sealed)
  updWpe (fun w => { w with openLog := open_.foldl (fun m e => mapSet 0 m e.2.tenant (e.1 + 1)) [] }) s

/-- A tenant that owns a restored namespace and whose page is Unprovisioned comes up Suspended (18 R683). -/
def suspendOwners (s : State) : State :=
  let owners := ((s.tabs.nss.filter (fun e => e.2.valid && e.2.tenant != 0)).map (fun e => e.2.tenant)).eraseDups
  owners.foldl (fun s t => if getF s (F.TIU_TEN_CTL_STATE t) = 0 then
    setRegSaved (tiuAddr t 0) (natSetBits (getReg s (tiuAddr t 0)) 0 2 2) s else s) s

/-- An Unset Time Unit takes the time of the latest mark (16 R605). -/
def carryTime (s : State) : State :=
  match s.rcu.lastMark with
  | some m =>
    if s.tu.st = 0 then tuEnter 1 (updTu (fun t => { t with t := (m.sec * 1000000000 + m.ns) * 2 ^ 48 }) s) else s
  | none => s

/-- The age groups of a die's PLC blocks with their snapshots. -/
def dieGroups (s : State) (d : Nat) : List (Nat × Nat × Nat) :=
  (s.tabs.blocks.filter (fun e => refDie e.1 == d && e.2.st == .bound && e.2.mode == 0)).flatMap (fun e =>
    e.2.snaps.filterMap (fun p => p.2.map (fun x => (e.1, p.1, x))))

/-- The probe of a die (09 R345): the old group with the largest snapshot, at its last fine-programmed wordline. -/
def issueProbe (s : State) (d : Nat) : State :=
  let old := (dieGroups s d).filter (fun g => decide (g.2.2 ≤ (getAge s d).base / 2 ^ 32))
  match old.foldl (fun m g => match m with
      | none => some g
      | some x => if x.2.2 < g.2.2 then some g else some x) none with
  | none => s
  | some (r, g, _) =>
    let wl := min (getBlock s r).wl ((g + 1) * 32) - 1
    let s := updAge d (fun a => { a with probing := true }) s
    if dieIsLost s d ∨ (getLink s (d / 32)).failed then abandonProbe d s
    else enqueue d { dieOp0 with kind := .readLevel, block := refBlock r, wl := wl, planes := 15, count := 608, cls := 3, probe := 1 } s

/-- What was declared lost in Boot or Replay is now acted on (07 R251). -/
def lateLosses (s : State) : State :=
  let links := (List.range (linkCount s)).filter (fun k => (getLink s k).failed)
  let s := links.foldl (fun s k => if (getLink s k).lost then loseLink k s else linkFailActions k s) s
  let dies := s.tabs.lostDies.filter (fun d => !(s.dur.lostDies.contains d))
  dies.foldl (fun s d =>
    let p (r : Nat) : Bool := refDie r == d
    let s := loseBlocks p s
    issue 0x1C 16 [d / 32, d % 32] (.dieLost d :: lostPatches s p) .nothing s) s

/-- Rows with an accepted ROW-PROG and no accepted SKIM are Skimmed (12 R480). -/
def skimUnverified (s : State) : State :=
  s.tabs.stripes.foldl (fun s e =>
    (e.2.prog.filter (fun r => !(e.2.skimmed.contains r))).foldl (fun s r =>
      let s := updRow e.1 r (fun _ => { row0 with st := 3 }) s
      (survivors s e.1).foldl (startSkim e.1 r) s) s) s

/-- The Herdbook's next SEQ also lies above the mirror's, and the mirror is written from here on (19 R695, R701). -/
def mirrorStart (s : State) : State :=
  updEvc (fun e => { e with mirrorOn := true, nextSeq := max e.nextSeq (e.mirrorSeq + 1) }) s

/-- Read-disturb counts of a die that was lost before its tables existed keep. -/
def keepLost (old s : State) : State :=
  updTabs (fun t => { t with lostDies := t.lostDies ++ old.tabs.lostDies.filter (fun d => !(t.lostDies.contains d)) }) s

/-- The staging area takes the size that WPE_COOLER_CFG names, unless that would take the spare reserve below LOW_MARK (10 R412). -/
def areaSettle (s : State) : State :=
  let n := getF s F.WPE_COOLER_CFG_BLOCKS
  if s.wpe.areaN < n ∧ spare s - ((n - s.wpe.areaN : Nat) : Int) < (getF s F.ZM_RSV_CFG_LOW_MARK : Int) then fire 610 n s
  else updWpe (fun w => { w with areaN := n }) s

/-- The journal read finds a gap when both copies of a pair in service are out of reach (12 R479 step 3, DEDUCED). -/
def journalGap (s : State) : Bool :=
  s.jnl.pairs.any (fun p => !(dieReach s (refDie p.1)) && !(dieReach s (refDie p.2)))

/-- JNL_STATUS.GAP is set, with NVM Subsystem Reliability. -/
def markGap (s : State) : State :=
  if journalGap s then raiseAenAll 1 0 (updJnl (fun j => { j with gap := true }) s) else s

/-- READS_SERVED_POINT (12 R479): phase 1 ends and phase 2 starts. -/
def execReadsServedPoint (s : State) : Host.Outcome State Fault Refusal :=
  if s.top.dev ≠ .replay ∨ s.top.readsOk then .next s
  else
    let s0 := s
    let s := keepLost s (replayTables (markGap s))
    let s := markUnsafe s
    let s := updJnl (fun j => { j with
        phase := 5, anchorFew := anchorsFew s, pairsN := getF s F.JNL_CFG_PAIRS
        phase1Ms := (s.tu.ticks - j.phase1Tick) / 312500, phase1Tick := s.tu.ticks }) s
    let s := suspendOwners (restoreLogs s)
    let s := carryTime s
    let s := updTop (fun t => { t with readsOk := true }) s
    let s := areaSettle s
    let s := ageRestore s
    let s := mirrorStart s
    let s := lateLosses s
    let s := skimUnverified s
    let s := probesSettle ((allDies s).foldl issueProbe s)
    .next (jnlSettle s0 (zmSettle s0 (skimSettle s)))

/-! ## Open-row replay (12 R472, R473, R480) -/

/-- A row whose Skim has members left that can be read. -/
def skimsLeft (s : State) : Bool :=
  s.wpe.rows.any (fun e => e.2.st == 3 && e.2.skim.any (fun m =>
    m.2.verdict == 0 && dieReach s (refDie ((getStripe s (e.1 / 256)).members.getD m.1 0))))

/-- The current row of an active zone after replay: ⌊(WP − ZSLBA) / 4,000⌋ (R472). -/
def replayRow (z : Zone) : Nat := z.wp / rowLbas

/-- A zone that R472 re-bases: ZSIO, ZSEO or Closed, with a ROW-ISSUE at or above its current row. -/
def needsRebase (s : State) (z : Zone) : Bool :=
  z.isActive && (match writeStripe z with
    | some k => (getStripe s k).issued.any (fun r => decide (replayRow z ≤ r))
    | none => false)

/-- A re-base that a power loss interrupted is brought to its end: the copies left are made and the binding moves. -/
def finishRebase (zk : Nat) (s : State) : State :=
  let z := getZone s zk
  match z.rebase, z.stripe, z.target with
  | true, some src, some tgt =>
    let left := (List.range (firstRow s tgt)).filter (fun r => !((getStripe s tgt).skimmed.contains r))
    rebaseDone zk src tgt (left.foldl (fun s r => rebaseCopied tgt r s) s)
  | _, _, _ => s

/-- The surviving units of a row are loaded into the set-aside of the target's row (R472 step 2). -/
def loadRow (k r : Nat) (s : State) : State :=
  let us := rowUnits s k r
  let bytes := 4096 * us.length
  if us = [] then s
  else
    match vatAlloc (getStripe s k).tenant bytes s 16 with
    | none => s
    | some (hs, s) =>
      let s := fillAside [(k, r, bytes)] s
      let s := updWpe (fun w => { w with rowBufs := mapUpd [] w.rowBufs (rowKey k r) (· ++ hs) }) s
      us.foldl (fun s u => updUnit u (fun l => match l with
        | v :: rest => { v with vat := true } :: rest
        | [] => []) s) s

/-- Re-base a zone onto a ready-list entry (R472); none when no entry is ready. With no spare the zone is finished by the
controller with ZFC = 1. -/
def rebaseZone (zk : Nat) (s : State) : Option State :=
  let s := finishRebase zk s
  let z := getZone s zk
  let r := replayRow z
  if spare s ≤ 0 then
    let s := updZone zk (fun z => { z with zcap := z.wp }) s
    some (zoneChanged zk (issueZone zk 1 0 .nothing (sealZone zk .full true s)))
  else
    match z.stripe, readyEntry s zk with
    | some src, some (e, _) =>
      let s := updJnl (fun j => { j with rebased := j.rebased + 1 }) s
      let (tgt, s) := takeStripe zk e s
      let below (l : List Nat) := l.filter (fun q => decide (q < r))
      let s := updStripe src (fun x => { x with issued := below x.issued, prog := below x.prog, skimmed := below x.skimmed }) s
      let s := updZone zk (fun z => { z with target := some tgt, rebase := true }) s
      let x := getStripe s tgt
      let s := issue 0x04 248 [tgt, zk, x.members.length, 1]
        (.bind zk (some src) (some tgt) true :: .stripe src (getStripe s src) :: .stripe tgt x :: x.members.map (fun m => .block m (getBlock s m)))
        .nothing s
      let s := loadRow tgt r s
      some (if r = 0 then rebaseDone zk src tgt s else s)
    | _, _ => none

/-- Re-base every zone that needs it; none while a ready-list entry is missing. -/
def rebaseAll (s : State) : List Nat → Option State
  | [] => some s
  | zk :: rest =>
    match rebaseZone zk s with
    | none => none
    | some s => rebaseAll s rest

/-- Surviving units of a log stripe that lie in no row of it with an accepted ROW-PROG. -/
def looseUnits (s : State) (k : Nat) : List Nat :=
  let loose (v : UnitV) : Bool := match v.place with
    | some p => p.1 == k && !((getStripe s k).prog.contains p.2.1)
    | none => false
  let us := s.units.filter (fun e => (e.2.head?.map loose).getD false)
  (sortBy (fun (e : Nat × List UnitV) => (e.2.head?.map (·.stamp)).getD 0) us).map Prod.fst

/-- Units are loaded into the Vat to be written to a log stripe again. -/
def reloadUnits (tenant key : Nat) (us : List Nat) (place : Option (Nat × Nat × Nat)) (s : State) : State :=
  match vatAlloc tenant (4096 * us.length) s 16 with
  | none => s
  | some (hs, s) =>
    let s := updWpe (fun w => { w with rowBufs := mapUpd [] w.rowBufs key (· ++ hs) }) s
    us.foldl (fun s u => updUnit u (fun l => match l with
      | v :: rest => { v with vat := true, place := place } :: rest
      | [] => []) s) s

/-- A log stripe after replay (R473): one whose open row is torn is sealed below it; its units go to a new log stripe. The
units of an untouched open row land in it again. -/
def replayLog (k : Nat) (s : State) : State :=
  let x := getStripe s k
  let us := looseUnits s k
  if x.issued.any (fun r => !(x.prog.contains r)) then
    let s := updStripe k (fun x => { x with
        issued := x.prog, sealed := true, sealedAt := s.jnl.nextJsn, filling := [] }) s
    let s := updWpe (fun w => { w with openLog := mapDel w.openLog x.tenant }) s
    let s := updJnl (fun j => { j with sealedLog := min 8191 (j.sealedLog + 1) }) s
    let s := issueBind k s
    if us = [] then s else reloadUnits x.tenant (waitKey x.tenant) us none s
  else if us = [] then s
  else
    let s := reloadUnits x.tenant (rowKey k x.issued.length) us (some (k, 256, 0)) s
    updStripe k (fun x => { x with filling := us }) s

/-- Zones that are open again load the surviving staged units of their current row (R379, R480). -/
def loadOpenRows (s : State) : State :=
  (s.tabs.zones.filter (fun e => e.2.isOpen && !e.2.rebase)).foldl (fun s e => match e.2.stripe with
    | some k => readBack k (replayRow e.2) s
    | none => s) s

/-- OPEN_ROW_REPLAY_DONE (12 R480, 01 R28, R746, 09 R349): phase 2 ends and Serving is entered with a checkpoint. It waits while
PWRWARN_N is accepted, while a Skim that can be made is not complete, and while a zone to re-base has no ready-list entry. -/
def execOpenRowReplayDone (s : State) : Host.Outcome State Fault Refusal :=
  if s.top.dev ≠ .replay ∨ s.top.readsOk = false ∨ s.top.pwrActive = true ∨ skimsLeft s = true then .next s
  else
    let zs := mapKeysWhere (fun _ z => needsRebase s z) s.tabs.zones
    match rebaseAll s zs with
    | none => .next s
    | some s1 =>
      let logs := mapKeysWhere (fun k x => isLog k && x.live && !x.sealed) s1.tabs.stripes
      let s1 := loadOpenRows (logs.foldl (fun s k => replayLog k s) s1)
      let s1 := sealDark (tuLocked s1) s1
      let s1 := updJnl (fun j => { j with phase := 0, phase2Ms := (s1.tu.ticks - j.phase1Tick) / 312500 }) s1
      .next (zmSettle s (startCkpt (enterDev .serving 1 s1)))

end Sys2Proof.Machine
end

