-- ==== Sys2Proof/Machine/Buffer.lean ====
section
/-! DEFINITION. Meanings of the BPM requests (14). Requests arrive one at a time, in the order R527 grants them. -/

namespace Sys2Proof.Machine

/-- BUFFER_ALLOCATE (14 R526 to R530). `linkBad`: the free-list check of R536 fails on the popped buffer, which is
granted and the list rebuilt. -/
def execBufferAllocate (port owner tenant size : Nat) (opportunistic linkBad : Bool) (s : State) :
    Host.Outcome State Fault Refusal :=
  let s := bpmAllocate port owner tenant size opportunistic s
  if linkBad ∧ s.bpm.status = 0 then .next (startRebuild (handlePool s.bpm.handle) s) else .next s

/-- BUFFER_RELEASE (14 R531, R532). -/
def execBufferRelease (port owner handle : Nat) (s : State) : Host.Outcome State Fault Refusal :=
  .next (bpmRelease port owner handle s)

/-- BUFFER_HAND_OVER (14 R531). -/
def execBufferHandOver (port owner handle newOwner : Nat) (s : State) : Host.Outcome State Fault Refusal :=
  .next (bpmHandOver port owner handle newOwner s)

/-- BUFFER_REFERENCE (14 R532). -/
def execBufferReference (port owner handle : Nat) (s : State) : Host.Outcome State Fault Refusal :=
  .next (bpmReference port owner handle s)

/-- BUFFER_CANCEL (14 R529): an owner its port may not present is refused with RANGE. -/
def execBufferCancel (port owner : Nat) (s : State) : Host.Outcome State Fault Refusal :=
  if ownerOk port owner then .next (bpmCancel owner s) else .next (bpmRefuse 0 0 7 owner port 4 s)

/-- FREE_LIST_REBUILD_DONE (14 R536): REBUILD clears and the pool's source fires. -/
def execFreeListRebuildDone (pool : Nat) (s : State) : Host.Outcome State Fault Refusal :=
  if (mapGet pool0 s.bpm.pools pool).rebuilding then
    .next (fire (740 + pool % 4) 0 (updPool pool (fun x => { x with rebuilding := false }) s))
  else .next s

/-- BPM_CNT_CLEAR (14 R543): the counter that the written SEL and POOL name is cleared; a reserved SEL keeps the field. -/
def execBpmCntClear (pool sel : Nat) (s : State) : Host.Outcome State Fault Refusal :=
  let s := setF F.BPM_CNT_SEL_POOL (pool % 4) s
  let s := if sel ≤ 11 then setF F.BPM_CNT_SEL_SEL sel s else s
  let k := getF s F.BPM_CNT_SEL_POOL * 16 + getF s F.BPM_CNT_SEL_SEL
  .next (updBpm (fun b => { b with counters := mapDel b.counters k }) s)

end Sys2Proof.Machine
end

