-- ==== Sys2Proof/Machine/Die.lean ====
section
/-! DEFINITION. Meanings of the answers of dies and towers, of link-group gating and of the power budget (07 R252 to R275). An
answer that no outstanding command of the die can have changes nothing. -/

namespace Sys2Proof.Machine

/-- DIE_LOSS (R252). -/
def execDieLoss (die : Nat) (s : State) : Host.Outcome State Fault Refusal :=
  if die < linkCount s * 32 then .next (zmSettle s (loseDie die s)) else .next s

/-- DIE_OP_TIMEOUT (R252): RESET_DIE is sent; the third timeout within 60 s loses the die. -/
def execDieOpTimeout (die : Nat) (s : State) : Host.Outcome State Fault Refusal :=
  let x := getDie s die
  if (x.op = none ∧ x.reading = []) ∨ x.resetSent then .next s
  else
    let ts := (x.timeouts.filter (fun t => decide (s.tu.ticks - t ≤ usTicks 60000000))) ++ [s.tu.ticks]
    let s0 := s
    let s := updDie die (fun x => { x with timeouts := ts, resetSent := true }) s
    let s := sendTower die "RESET_DIE" 0 s
    if 3 ≤ ts.length then .next (zmSettle s0 (loseDie die s)) else .next s

/-- READ_PAGE_DONE (R258). -/
def execReadPageDone (die status : Nat) (data : List Nat) (s : State) : Host.Outcome State Fault Refusal :=
  match sentRead s die .readPage with
  | none => .next s
  | some o => .next (dieNext die (readStatus die status o (pageRead die o data) (endRead die o s)))

/-- READ_LEVEL_DONE (R258). -/
def execReadLevelDone (die status : Nat) (codes : List (List Nat)) (s : State) : Host.Outcome State Fault Refusal :=
  match sentRead s die .readLevel with
  | none => .next s
  | some o => .next (dieNext die (readStatus die status o (levelSensed die o codes) (endRead die o s)))

/-- PROGRAM_FOGGY_DONE (10 R388): the wordline is held by the bridge and its fine pass follows. -/
def execProgramFoggyDone (die status _detail : Nat) (s : State) : Host.Outcome State Fault Refusal :=
  match runningOp s die .foggy with
  | none => .next s
  | some o => .next (dieNext die (programStatus die status o (foggyDone die o.block o.wl) (endOp die s)))

/-- PROGRAM_FINE_DONE (10 R388): the wordline is programmed. -/
def execProgramFineDone (die status _detail : Nat) (s : State) : Host.Outcome State Fault Refusal :=
  match runningOp s die .fine with
  | none => .next s
  | some o =>
    let s := updDie die (fun x => { x with held := x.held.filter (· != (o.block, o.wl)) }) (endOp die s)
    .next (dieNext die (programStatus die status o (wordlineDone (refOf die o.block) o.wl) s))

/-- PROGRAM_ONE_DONE: a TLC wordline of a log row, or an SLC page. An SLC program sent under a suspension answers first
(R261). A journal page's copy that fails is written again (12 R462). -/
def execProgramOneDone (die status _detail : Nat) (s : State) : Host.Outcome State Fault Refusal :=
  match sentRead s die .one with
  | some o => .next (dieNext die (programStatus die status o id (endRead die o s)))
  | none =>
    match runningOp s die .one with
    | none => .next s
    | some o =>
      let done (s : State) : State := if o.mode = 1 then wordlineDone (refOf die o.block) o.wl s else s
      .next (dieNext die (programStatus die status o done (endOp die s)))

/-- ERASE_DONE (11 R423, R425): success is verified; a failed erase retires the die-block. -/
def execEraseDone (die status : Nat) (s : State) : Host.Outcome State Fault Refusal :=
  match runningOp s die .erase with
  | none => .next s
  | some o =>
    let r := refOf die o.block
    let s0 := s
    let s := endOp die s
    let s :=
      if status = 0 then queueVerify r s
      else if status = 2 ∨ status = 8 then retireBlock r 1 s
      else if status = 4 ∨ 9 ≤ status then loseDie die s
      else if status = 5 then requeue die o s
      else eraseAgain r s
    .next (zmSettle s0 (dieNext die s))

/-- ERASE_VERIFY_DONE (11 R423, R424): within MAX_UNERASED the block header is written; otherwise the erase is repeated as a
recovery erase, and a second failure retires the die-block. -/
def execEraseVerifyDone (die status unerased : Nat) (s : State) : Host.Outcome State Fault Refusal :=
  match runningOp s die .verify with
  | none => .next s
  | some o =>
    let r := refOf die o.block
    let s0 := s
    let s := endOp die s
    let s :=
      if status = 0 then
        if unerased ≤ getF s F.MME_ERASE_CFG_MAX_UNERASED then issueHeader r unerased s
        else if (getBlock s r).recovery then retireBlock r 1 s
        else issueErase r (getBlock s r).mode true s
      else if status = 4 ∨ 9 ≤ status then loseDie die s
      else if status = 5 then requeue die o s
      else eraseAgain r s
    .next (zmSettle s0 (dieNext die s))

/-- SUSPEND_DONE (R260, R262): the operation is suspended, or it had ended first and nothing changes. -/
def execSuspendDone (die : Nat) (notSuspended : Bool) (s : State) : Host.Outcome State Fault Refusal :=
  if (getDie s die).suspSent = false then .next s
  else
    let s := updDie die (fun x => { x with
      suspSent := false
      op := if notSuspended then x.op else x.op.map (fun o => { o with suspended := true, suspensions := o.suspensions + 1, reads := 0 }) }) s
    .next (dieNext die s)

/-- RESUME_DONE (R261). -/
def execResumeDone (die status : Nat) (s : State) : Host.Outcome State Fault Refusal :=
  if (getDie s die).resumeSent = false then .next s
  else
    let s := updDie die (fun x => { x with
      resumeSent := false
      op := if status = 0 then x.op.map (fun o => { o with suspended := false, resumeTick := s.tu.ticks }) else x.op }) s
    if status = 4 ∨ 9 ≤ status then .next (zmSettle s (loseDie die s)) else .next (dieNext die s)

/-- IDENTIFY_DONE (R237, R240, Table 07-10): a wrong part or geometry fails the training; a clear GOOD_DIES bit is a lost
die. -/
def execIdentifyDone (link : Nat) (partOk geometryOk : Bool) (serial goodDies : Nat) (s : State) :
    Host.Outcome State Fault Refusal :=
  let l := getLink s link
  if link ≥ linkCount s ∨ (l.st ≠ 2 ∧ l.st ≠ 4) then .next s
  else if partOk = false ∨ geometryOk = false then .next (failLink link 5 3 s)
  else
    let s0 := s
    let s := serialSeen link serial s
    .next (zmSettle s0 ((List.range 32).foldl (fun s d => if natBits goodDies d 1 = 0 then loseDie (link * 32 + d) s else s) s))

/-- A die is usable once the calibration page and its four defect lists have been read (R240). -/
def usableSettle (d : Nat) (s : State) : State :=
  if (getLink s (d / 32)).awaitCal = false ∧ (getDie s d).defectsLeft = 0 then updDie d (fun x => { x with usable := true }) s else s

/-- READ_CAL_DONE (R257): valid records feed the model; a page or record that is not used raises source 512. -/
def execReadCalDone (link : Nat) (crcOk : Bool) (records : List (Nat × List Int × Nat × Nat)) (s : State) :
    Host.Outcome State Fault Refusal :=
  if link ≥ linkCount s then .next s
  else
    let use := if crcOk then records.filter (fun r => decide (r.1 < 32)) else []
    let s := use.foldl (fun s r => updAge (link * 32 + r.1) (fun a => { a with cal := some ⟨r.2.1, r.2.2.1, r.2.2.2⟩ }) s) s
    let s := if (List.range 32).all (fun d => use.any (fun r => r.1 == d)) then s else fire 512 link s
    let s := updLink link (fun l => { l with awaitCal := false }) s
    .next ((List.range 32).foldl (fun s d => usableSettle (link * 32 + d) s) s)

/-- READ_DEFECTS_DONE (08 R288): the skip list of a plane, with a DEFECT record a group. Before the reads-served point no
record is issued, and the list stands as if it had been. -/
def execReadDefectsDone (die plane : Nat) (groups : List Nat) (s : State) : Host.Outcome State Fault Refusal :=
  if die ≥ linkCount s * 32 ∨ 4 ≤ plane ∨ 32 < groups.length then .next s
  else
    let key := die * 4 + plane
    let s := updTabs (fun t => { t with skips := mapSet [] t.skips key groups }) s
    let s := if s.top.readsOk then
        groups.foldl (fun s g => issue 0x1B 16 [die, plane, 0, g] [.skip key groups] .nothing s) s
      else { s with dur := { s.dur with skips := mapSet [] s.dur.skips key groups } }
    .next (usableSettle die (updDie die (fun x => { x with defectsLeft := x.defectsLeft - 1 }) s))

/-- DIE_STATUS_DONE (Table 07-9): a die that the tower holds failed is lost. -/
def execDieStatusDone (die : Nat) (_busy _suspended failed : Bool) (s : State) : Host.Outcome State Fault Refusal :=
  if failed ∧ die < linkCount s * 32 then .next (zmSettle s (loseDie die s)) else .next s

/-- A die operation waits in a group. -/
def groupWaiting (s : State) (g : Nat) : Bool := s.flc.dies.any (fun e => e.1 / 256 == g && e.2.waiting != [])

/-- STANDBY_DONE (R268): with every tower of the group in standby the links power down and the group is Gated; an operation
that waits wakes it again. -/
def execStandbyDone (link : Nat) (s : State) : Host.Outcome State Fault Refusal :=
  let g := link / 8
  if groupSt s g ≠ .draining ∨ s.flc.standbySent.contains g = false then .next s
  else
    let s0 := s
    let s := updLink link (fun l => { l with standby := true }) s
    let ups := (groupLinks s g).filter (fun k => (getLink s k).st == 3 || (getLink s k).st == 4)
    if ups.all (fun k => (getLink s k).standby) then
      let s := setGroup g .gated (updFlc (fun f => { f with standbySent := f.standbySent.filter (· != g) }) s)
      let s := ups.foldl (fun s k => updLink k (fun l => { l with st := 1, lock := false }) s) s
      let s := linkSettle s0 s
      .next (if groupWaiting s g ∧ s.top.dev ≠ .retained then wakeGroup g s else s)
    else .next s

/-- RESET_DIE_DONE (R253, R259, R262): the operation ends with status 0x06, reads are reissued, and the bridge's foggy data is
gone. -/
def execResetDieDone (die : Nat) (s : State) : Host.Outcome State Fault Refusal :=
  let x := getDie s die
  if x.resetSent = false then .next s
  else
    let s0 := s
    let reads := x.reading.map (fun o => { o with free := false })
    let s := updDie die (fun x => { x with
      resetSent := false, suspSent := false, resumeSent := false, op := none, reading := [], held := []
      waiting := reads.filter DieOp.isRead ++ x.waiting }) s
    let s := (reads.filter (fun o => !o.isRead)).foldl (fun s o => opAbandoned die o s) s
    let s := match x.op with
      | some o => opAbandoned die o s
      | none => s
    let s := x.held.foldl (fun s h => match memberOf s (refOf die h.1) with
      | some (k, m) => progFail k m s
      | none => s) s
    .next (zmSettle s0 (dieNext die s))

/-- ECHO_DONE (Table 07-9): the answer carries nothing the controller keeps. -/
def execEchoDone (_link _value : Nat) (s : State) : Host.Outcome State Fault Refusal := .next s

/-- SUSPEND_DEFERRED (R260): MIN_RUN_US has passed since the last RESUME. -/
def execSuspendDeferred (die : Nat) (s : State) : Host.Outcome State Fault Refusal := .next (trySuspend die s)

/-! ## Link groups -/

/-- A row that is open, awaits its fine pass or is not verified has a member in a group (R267). -/
def groupRows (s : State) (g : Nat) : Bool :=
  s.tabs.stripes.any (fun e => e.2.live && e.2.members.any (fun r => refLink r / 8 == g)
    && (e.2.issued.length != e.2.skimmed.length || e.2.filling != []
      || (match e.2.zone with
        | some zk => let z := getZone s zk; z.isActive && decide (z.wp % rowLbas ≠ 0 ∨ z.adm ≠ z.wp)
        | none => false)))

/-- GROUP_DRAIN_START (R267, R268): IDLE_S has passed; a group that meets every other condition becomes Draining and STANDBY is
sent to its towers. -/
def execGroupDrainStart (group : Nat) (s : State) : Host.Outcome State Fault Refusal :=
  let busy := s.flc.dies.any (fun e => e.1 / 256 == group && (e.2.waiting != [] || e.2.reading != [] || e.2.op.isSome))
  if group < groupCount s ∧ s.top.readsOk ∧ groupSt s group = .awake ∧ flagF s F.FLC_GATE_CFG_GATE_EN
      ∧ natBits (getF s F.FLC_GATE_CTL_KEEP) group 1 = 0 ∧ busy = false ∧ groupRows s group = false
      ∧ min (getF s F.FLC_GATE_CFG_MIN_AWAKE) (groupCount s) ≤ (awakeGroups s).length - 1 then
    let s0 := s
    let s := setGroup group .draining (updFlc (fun f => { f with standbySent := f.standbySent ++ [group] }) s)
    let ups := (groupLinks s group).filter (fun k => (getLink s k).st == 3)
    let s := ups.foldl (fun s k => sendTower (k * 32) "STANDBY" 0 s) s
    .next (linkSettle s0 s)
  else .next s

/-- GROUP_WAKE (R269). -/
def execGroupWake (group : Nat) (s : State) : Host.Outcome State Fault Refusal :=
  if group < groupCount s ∧ s.top.dev ≠ .retained then .next (groupSettle group (wakeGroup group s)) else .next s

/-- A write of FLC_GATE_CTL (R275): KEEP is stored, WAKE wakes Gated groups; bits of fused-off groups are ignored. -/
def gateCtlWrite (value : Nat) (s : State) : State :=
  let s := setF F.FLC_GATE_CTL_KEEP (natBits value 0 (groupCount s)) s
  if s.top.dev = .retained then s
  else (List.range (groupCount s)).foldl (fun s g => if natBits value (16 + g) 1 = 1 then groupSettle g (wakeGroup g s) else s) s

/-- GROUP_WAKE_WRITE (R275). -/
def execGroupWakeWrite (value : Word) (s : State) : Host.Outcome State Fault Refusal := .next (gateCtlWrite value.toNat s)

/-- GROUP_WAKE_TIMEOUT (R269): 100 ms after a wake began the group is Awake; links not Up are failed until they are, and
source 514 fires. -/
def execGroupWakeTimeout (group : Nat) (s : State) : Host.Outcome State Fault Refusal :=
  if group < groupCount s ∧ groupSt s group = .waking then
    let s := fire 514 group (setGroup group .awake s)
    .next (((groupLinks s group).filter (fun k => (getLink s k).st == 2 || (getLink s k).st == 4)).foldl
      (fun s k => failLink k (getLink s k).st (getLink s k).cause s) s)
  else .next s

/-- The flash budget in force changes (R264): source 515 carries it in W. -/
def budgetChanged (old s : State) : State :=
  if budgetMw s = budgetMw old then s else fire 515 (budgetMw s / 1000) s

/-- A write of FLC_PWR_BUDGET (R264, R271): a reserved value keeps the field; the value is kept in the configuration region. -/
def budgetWrite (v : Nat) (s : State) : State := budgetChanged s (plainWrite 0x7000000 v s)

/-- POWER_BUDGET_WRITE (R264): only the operator. -/
def execPowerBudgetWrite (w : Writer) (value : Word) (s : State) : Host.Outcome State Fault Refusal :=
  match w with
  | .operator => .next (budgetWrite value.toNat s)
  | .firmware => .next s

end Sys2Proof.Machine
end

