-- ==== Sys2Proof/Machine/HostFam.lean ====
section
/-! DEFINITION. Meanings of the host-fabric commands (03): port modes, lanes, ports, flow control, RoCEv2, NVMe/TCP and PTP. -/

namespace Sys2Proof.Machine

/-! ## Modes, lanes and ports -/

/-- MODE_APPLY (R69, R103). -/
def execModeApply (s : State) : Host.Outcome State Fault Refusal := .next (modeApply false s)

/-- MODE_SAVE (R103): SAVE together with FORGET is ignored as a whole. -/
def execModeSave (forget : Bool) (s : State) : Host.Outcome State Fault Refusal :=
  if forget then .next s else .next (modeSave s)

/-- MODE_FORGET (R103). -/
def execModeForget (save : Bool) (s : State) : Host.Outcome State Fault Refusal :=
  if save then .next s else .next (modeForget s)

/-- A lane carries an up port of the active mode. -/
def laneCarries (s : State) (l : Nat) : Bool :=
  decide (l < 8) && natBits (getPort s (portOfLane s l)).mask l 1 == 1 && decide (2 ≤ (getPort s (portOfLane s l)).st)

/-- LANE_LOSS_OF_LOCK_TIMEOUT (R74): `allTogether`: every lane of the port lost lock within 1 ms of each other. -/
def execLaneLossOfLockTimeout (lane : Nat) (allTogether : Bool) (s : State) : Host.Outcome State Fault Refusal :=
  if laneCarries s lane = false then .next s
  else
    let p := portOfLane s lane
    let s := updLane lane (fun x => { x with locked := false }) s
    if allTogether then
      .next (portDown p ((portLanes s.hfe.mode p).foldl (fun s l => updLane l (fun x => { x with locked := false }) s) s))
    else .next (lanesLost p lane s)

/-- LANE_UNCORR_INTERVAL (R74, Table 03-7). -/
def execLaneUncorrInterval (lane uncorr : Nat) (s : State) : Host.Outcome State Fault Refusal :=
  if 8 ≤ lane then .next s
  else
    let p := portOfLane s lane
    let lost := laneCarries s lane && getF s F.HFE_LANE_FAIL_CFG_UNCORR_MAX != 0 && decide (getF s F.HFE_LANE_FAIL_CFG_UNCORR_MAX < uncorr)
    let s := portCount p 5 uncorr (updLane lane (fun x => { x with degraded := decide (0 < uncorr), uncorr := uncorr }) s)
    if lost then .next (lanesLost p lane s) else .next s

/-- PORT_TRAINING_DONE (R74 to R78): success, or the lanes of the attempt that failed training. -/
def execPortTrainingDone (port : Nat) (ok : Bool) (failedLanes : Nat) (s : State) : Host.Outcome State Fault Refusal :=
  let x := getPort s port
  if x.st ≠ 1 then .next s
  else if ok then .next (portUp port s)
  else if (portLanes s.hfe.mode port).length ≤ 1 then .next (portDown port s)
  else
    let s := (maskLanes (x.trying &&& failedLanes)).foldl (fun s l => failLane l s) s
    .next (narrow port (if x.narrowing then x.trying else 0) s)

/-- NARROW_CANDIDATE_TIMEOUT (R75). -/
def execNarrowCandidateTimeout (port : Nat) (s : State) : Host.Outcome State Fault Refusal :=
  let x := getPort s port
  if x.st = 1 ∧ x.narrowing = true then .next (narrow port x.trying s) else .next s

/-- PORT_RETRAIN_TIMER (R74, R75). -/
def execPortRetrainTimer (port : Nat) (s : State) : Host.Outcome State Fault Refusal :=
  if (getPort s port).st = 0 then .next (portTrainFull port s) else .next s

/-- PORT_WIDEN (R77, R116). -/
def execPortWiden (port : Nat) (s : State) : Host.Outcome State Fault Refusal := .next (portWiden port s)

/-- AUTO_WIDEN_TIMER (R77). -/
def execAutoWidenTimer (port : Nat) (s : State) : Host.Outcome State Fault Refusal :=
  if flagF s (F.HFE_PORT_CTL_AUTO_WIDEN port) ∧ (getPort s port).st = 3 then .next (portWiden port s) else .next s

/-! ## Next hops -/

/-- Connections that wait for a next hop. -/
def hopWaiters (s : State) (hop : Nat) : List Nat := mapKeysWhere (fun _ c => c.waitHop == some hop) s.hfe.conns

/-- The acceptance of a connection goes out. -/
def acceptConn (c : Nat) (s : State) : State :=
  if (getConn s c).waitHop.isSome then s else emit (.frame c (if (getConn s c).tcp then "SYN-ACK" else "CM REP") 0) s

/-- NEXT_HOP_RESOLVED (R72): the neighbour cache holds 4,096 next hops; the connections that wait for this one transmit. -/
def execNextHopResolved (hop : Nat) (s : State) : Host.Outcome State Fault Refusal :=
  let s := if s.hfe.neigh.contains hop then s else updHfe (fun h => { h with neigh := (hop :: h.neigh).take 4096 }) s
  .next ((hopWaiters s hop).foldl (fun s c => acceptConn c (updConn c (fun x => { x with waitHop := none }) s)) s)

/-- NEXT_HOP_TIMEOUT (R72): its connections fail with a fatal transport error; source 161 fires with the port. -/
def execNextHopTimeout (hop : Nat) (s : State) : Host.Outcome State Fault Refusal :=
  .next ((hopWaiters s hop).foldl (fun s c => loseConn c (fire 161 (getConn s c).port s)) s)

/-! ## Frames and flow control -/

/-- A VLAN ID is configured on a port (R71). -/
def vlanKnown (s : State) (p : Nat) (v : Nat) : Bool :=
  (List.range 8).any (fun i => let a := mapGet addr0 s.hfe.addrs (p * 8 + i); a.valid && a.tagged && a.vlan == v)

/-- FRAME_RECEIVE (R71, R81, R83). -/
def execFrameReceive (port len : Nat) (fcsOk : Bool) (dscp vlan : Option Nat) (pcp : Nat) (s : State) :
    Host.Outcome State Fault Refusal :=
  if (getPort s port).st < 2 ∨ 8 ≤ port then .next s
  else if fcsOk = false then .next (portCount port 2 1 s)
  else if 9216 < len then .next (portCount port 3 1 s)
  else if vlan.any (fun v => !vlanKnown s port v) = true then .next (portCount port 0x13 1 s)
  else
    let prio :=
      if flagF s (F.HFE_PORT_PFC_CFG_TRUST_DSCP port) = true ∧ dscp.isSome = true then dscp.getD 0 / 8 % 8
      else if flagF s (F.HFE_PORT_PFC_CFG_TRUST_DSCP port) = true then 0
      else if vlan.isSome then pcp % 8 else 0
    let s := portCount port 0 1 s
    match prioIs s port prio with
    | some b => .next (prioFill port b len s)
    | none => .next s

/-- PFC_XOFF_REPEAT (R83). -/
def execPfcXoffRepeat (port : Nat) (b : Bool) (s : State) : Host.Outcome State Fault Refusal :=
  if (getPrio s port b).xoff ∧ prioOn s port b = true then .next (sendPfc port b 0xFFFF s) else .next s

/-- PFC_XON (R83): bytes leave the buffer; at XON the frame with 0 quanta is sent. -/
def execPfcXon (port : Nat) (b : Bool) (drained : Nat) (s : State) : Host.Outcome State Fault Refusal :=
  let s := updPrio port b (fun x => { x with fill := x.fill - drained }) s
  if (getPrio s port b).xoff ∧ (getPrio s port b).fill ≤ xonBytes s port then
    .next (sendPfc port b 0 (updPrio port b (fun x => { x with xoff := false }) s))
  else .next s

/-- PFC_FRAME_RECEIVE (R83, R84): ignored for a priority that is not enabled, and during a storm. -/
def execPfcFrameReceive (port prio quanta : Nat) (s : State) : Host.Outcome State Fault Refusal :=
  match prioIs s port prio with
  | none => .next s
  | some b =>
    let s := portCount port (if b then 8 else 6) 1 s
    if (getPrio s port b).storm then .next s
    else if quanta = 0 then .next (prioResume port b s)
    else .next (updPrio port b (fun x => { x with paused := true }) s)

/-- PFC_PAUSE_EXPIRE (R83). -/
def execPfcPauseExpire (port : Nat) (b : Bool) (s : State) : Host.Outcome State Fault Refusal :=
  if (getPrio s port b).paused then .next (prioResume port b s) else .next s

/-- PFC_STORM_DETECT (R84): the queued frames are discarded; source 130 + 4p fires with the priority. -/
def execPfcStormDetect (port : Nat) (b : Bool) (s : State) : Host.Outcome State Fault Refusal :=
  if (getPrio s port b).paused = false ∨ getF s (F.HFE_PORT_PFC_CFG_STORM_MS port) = 0 then .next s
  else
    let s := updPrio port b (fun x => { x with storm := true, paused := false, queued := 0 }) s
    .next (fire (130 + 4 * port) (prioNum s port b) (portCount port 0x12 1 s))

/-- PFC_STORM_END (R84). -/
def execPfcStormEnd (port : Nat) (b : Bool) (s : State) : Host.Outcome State Fault Refusal :=
  .next (updPrio port b (fun x => { x with storm := false }) s)

/-! ## RoCEv2 -/

/-- `a` is at or before `b` in the 24-bit PSN order. -/
def psnLe (a b : Nat) : Bool := decide ((b + 2 ^ 24 - a % 2 ^ 24) % 2 ^ 24 < 2 ^ 23)

/-- Packets up to a PSN are acknowledged. -/
def ackTo (c psn : Nat) (s : State) : State :=
  updConn c (fun x => { x with unacked := x.unacked.filter (fun q => !psnLe q psn), retries := 0, rnrRetries := 0 }) s

/-- A NAK and the error state: the connection fails (R89, R90). -/
def nakConn (c : Nat) (kind : String) (s : State) : State := loseConn c (emit (.frame c kind (getConn s c).psn) s)

/-- Go-back-N after a timeout or a NAK: retries exhausted fails the queue pair (R92). -/
def goBack (c : Nat) (s : State) : State :=
  let x := getConn s c
  if natBits x.cfg 5 3 < x.retries + 1 then loseConn c s
  else resendConn c (updConn c (fun x => { x with retries := x.retries + 1 }) s)

/-- Data of an RDMA READ response lands at the next offset of its command. -/
def landResponse (c : Nat) (cap : CapsuleIn) (s : State) : State :=
  match dataSlot s c cap.cid with
  | some slot => landData slot (landedBytes (getTask s slot)) cap.inCapsule s
  | none => s

/-- What a request or response does once ICRC has passed. -/
def roceOp (c psn : Nat) (op : RoceOp) (len : Nat) (cap : CapsuleIn) (s : State) : State :=
  let x := getConn s c
  let request := op = .send ∨ op = .rdmaRead ∨ op = .rdmaWrite ∨ op = .atomic
  if request ∧ psn ≠ x.psn then
    -- a packet already received is acknowledged again; one ahead of the expected PSN is answered with a sequence NAK
    if psnLe psn x.psn then emit (.frame c "ACK" psn) s else emit (.frame c "NAK" x.psn) s
  else
    match op with
    | .send =>
      if capsuleMax x < len then nakConn c "NAK" s
      else emit (.frame c "ACK" psn) (pushCapsule c (capOf cap) (updConn c (fun x => { x with psn := (x.psn + 1) % 2 ^ 24 }) s))
    | .readResponse => landResponse c cap (ackTo c psn s)
    | .ack => ackTo c psn s
    | .nak => goBack c (portCount x.port 0x0F 1 s)
    | .rnrNak => updConn c (fun x => { x with rnrWaiting := true }) (portCount x.port 0x0F 1 s)
    | .rdmaRead => nakConn c "NAK remote access" s
    | .rdmaWrite => nakConn c "NAK remote access" s
    | .atomic => nakConn c "NAK remote access" s

/-- ROCE_PACKET_RECEIVE (R85, R88 to R92). -/
def execRocePacketReceive (conn psn : Nat) (op : RoceOp) (icrcOk ce : Bool) (len : Nat) (cap : CapsuleIn) (s : State) :
    Host.Outcome State Fault Refusal :=
  let x := getConn s conn
  if x.port = 8 ∨ x.tcp = true then .next s
  else if icrcOk = false then .next (portCount x.port 0x0D 1 s)
  else .next (roceOp conn psn op len cap (if ce then markCe conn s else s))

/-- Rate reaction to a CNP (R86). -/
def cutRate (c : Nat) (s : State) : State :=
  let x := getConn s c
  let now := nowNs s
  let due := match x.tCut with
    | none => true
    | some t => decide (50000 ≤ now - t)
  if flagF s F.HFE_CC_RP_RP_EN = false then updConn c (fun x => { x with rate := portRate s x.port }) s
  else if due then
    let r := max (getF s F.HFE_CC_RP_MIN_RATE * 10) (x.rate - x.rate * getF s F.HFE_CC_RP_CUT / 256)
    updConn c (fun x => { x with rate := r, tCut := some now, tStep := now }) s
  else s

/-- CNP_RECEIVE (R86). -/
def execCnpReceive (conn : Nat) (s : State) : Host.Outcome State Fault Refusal :=
  let x := getConn s conn
  if x.port = 8 ∨ x.tcp = true then .next s else .next (cutRate conn (portCount x.port 0x0C 1 s))

/-- RATE_RECOVER_TIMER (R86). -/
def execRateRecoverTimer (conn : Nat) (s : State) : Host.Outcome State Fault Refusal :=
  let x := getConn s conn
  if x.port = 8 ∨ x.tcp = true then .next s
  else
    let l := portRate s x.port
    let r := if flagF s F.HFE_CC_RP_RP_EN then min l (x.rate + max 10 ((l - x.rate) / 8)) else l
    .next (updConn conn (fun x => { x with rate := r, tStep := nowNs s }) s)

/-- RDMA_ACK_TIMEOUT (R92). -/
def execRdmaAckTimeout (conn : Nat) (s : State) : Host.Outcome State Fault Refusal :=
  let x := getConn s conn
  if x.port = 8 ∨ x.tcp = true ∨ x.unacked = [] then .next s else .next (goBack conn s)

/-- RNR_RETRY_TIMER (R110): RNR_RETRY 7 retries without limit. -/
def execRnrRetryTimer (conn : Nat) (s : State) : Host.Outcome State Fault Refusal :=
  let x := getConn s conn
  if x.port = 8 ∨ x.rnrWaiting = false then .next s
  else if natBits x.cfg 8 3 ≠ 7 ∧ natBits x.cfg 8 3 < x.rnrRetries + 1 then .next (loseConn conn s)
  else .next (resendConn conn (updConn conn (fun x => { x with rnrWaiting := false, rnrRetries := x.rnrRetries + 1 }) s))

/-! ## Connection establishment -/

/-- Fabric connections are served (R73): ADMIN_OK, and the host side is not in Retained. -/
def fabricOpen (s : State) : Bool := s.top.adminOk && s.top.dev != .retained

/-- A request can reach the port: it is up and its address entry configured. -/
def portReached (s : State) (port entry : Nat) : Bool :=
  decide (2 ≤ (getPort s port).st) && decide (entry < 8) && (mapGet addr0 s.hfe.addrs (port * 8 + entry)).valid

/-- A connection enters the queue of requests that firmware establishes. -/
def openConn (tcp : Bool) (port entry tenant hop : Nat) (s : State) : State :=
  let c := s.hfe.nextConn
  acceptConn c (newConn tcp port entry tenant hop s)

/-- RDMA_CONNECT_REQUEST (R73, R91, 17 Table 17-1): reject reasons: 1 "No QP available", 2 "No resources". -/
def execRdmaConnectRequest (port entry tenant hop : Nat) (io : Bool) (s : State) : Host.Outcome State Fault Refusal :=
  if portReached s port entry = false then .next s
  else if fabricOpen s = false ∨ 4096 ≤ connsWaiting s then .next (rejectConn "CM REJ no resources" 2 s)
  else if io = true ∧ 1048576 ≤ connsRole s .io then .next (rejectConn "CM REJ no QP" 1 s)
  else
    match takeToken tenant s with
    | (true, s) => .next (openConn false port entry tenant hop s)
    | (false, s) => .next (rejectConn "CM REJ no resources" 2 s)

/-- TCP_SYN (R73, R94): ports 4420 and 8009; anything refused is answered with RST. -/
def execTcpSyn (port entry dport tenant hop : Nat) (s : State) : Host.Outcome State Fault Refusal :=
  if portReached s port entry = false then .next s
  else if fabricOpen s = false ∨ ¬ (dport = 4420 ∨ dport = 8009) ∨ 99392 ≤ connsTcp s ∨ 4096 ≤ connsWaiting s then
    .next (rejectConn "RST" dport s)
  else
    match takeToken (if dport = 8009 then 0x400 else tenant) s with
    | (true, s) => .next (openConn true port entry (if dport = 8009 then 0x400 else tenant) hop s)
    | (false, s) => .next (rejectConn "RST" dport s)

/-! ## NVMe/TCP -/

/-- A PDU of the host acknowledges the segments sent before it (R94; the table has no acknowledgement of its own). -/
def tcpAck (c : Nat) (s : State) : State := updConn c (fun x => { x with unacked := [] }) s

/-- TCP_ICREQ (R95): PFV 0, CPDA 0, MAXH2CDATA 131,072, digests as requested; a TLS handshake closes the connection. -/
def execTcpIcreq (conn : Nat) (hdgst ddgst : Bool) (maxR2t : Nat) (tls : Bool) (s : State) : Host.Outcome State Fault Refusal :=
  let x := getConn s conn
  if x.port = 8 ∨ x.tcp = false ∨ x.icDone = true then .next s
  else if tls then .next (loseConn conn s)
  else
    let s := updConn conn (fun x => { x with icDone := true, hdgst := hdgst, ddgst := ddgst, maxR2t := maxR2t }) s
    .next (emit (.frame conn "ICResp" 131072) s)

/-- H2C_DATA_PDU (R96, R97). -/
def execH2cDataPdu (conn cid offset len : Nat) (digestOk : Bool) (data : List Nat) (s : State) : Host.Outcome State Fault Refusal :=
  let x := getConn s conn
  if x.port = 8 ∨ x.tcp = false then .next s
  else
    let s := tcpAck conn s
    match dataSlot s conn cid with
    | none => .next s
    | some slot =>
      if digestOk = false ∧ x.ddgst = true then .next (dropWrite slot (finishRetry slot 0 0x22) (portCount x.port 0x11 1 s))
      else .next (landData slot offset (data.take len) s)

/-- TCP_CAPSULE_CMD (R97): in-capsule data on an I/O queue completes with Data SGL Length Invalid; the connection stays up. -/
def execTcpCapsuleCmd (conn : Nat) (cap : CapsuleIn) (s : State) : Host.Outcome State Fault Refusal :=
  let x := getConn s conn
  if x.port = 8 ∨ x.tcp = false ∨ x.icDone = false then .next s
  else if x.role = .io ∧ cap.inCapsule ≠ [] then .next (emit (.completion conn cap.cid 0 0x0F true 0 0 0) (transmit conn (tcpAck conn s)))
  else .next (pushCapsule conn (capOf cap) (tcpAck conn s))

/-- TCP_FATAL_PDU (R97): C2HTermReq with the fatal error status, and the connection closes; a header digest error is counted. -/
def execTcpFatalPdu (conn : Nat) (digest : Bool) (field : Nat) (s : State) : Host.Outcome State Fault Refusal :=
  let x := getConn s conn
  if x.port = 8 ∨ x.tcp = false ∨ (digest = true ∧ x.hdgst = false) then .next s
  else .next (loseConn conn (emit (.frame conn "C2HTermReq" (if digest then 3 else field)) (if digest then portCount x.port 0x11 1 s else s)))

/-- TCP_RETRANSMIT_TIMEOUT (R94). -/
def execTcpRetransmitTimeout (conn : Nat) (s : State) : Host.Outcome State Fault Refusal :=
  let x := getConn s conn
  if x.port = 8 ∨ x.tcp = false then .next s else .next (portCount x.port 0x10 x.unacked.length s)

/-! ## PTP -/

/-- messageType of an event message (Table 03-16). -/
def eventType : PtpMsg → Option Nat
  | .sync => some 0
  | .delayReq => some 1
  | .pdelayReq => some 2
  | .pdelayResp => some 3
  | .followUp => none
  | .delayResp => none
  | .announce => none
  | .management => none
  | .signalling => none

/-- PTP_MESSAGE_RECEIVE (R99 to R102): on the PTP port, over an enabled transport (0 Ethernet, 1 UDP/IPv4, 2 UDP/IPv6) and for
the configured domain. In peer-delay mode a Pdelay_Req is answered in two steps. -/
def execPtpMessageReceive (port : Nat) (msg : PtpMsg) (transport domain seqId sec ns frac master prio : Nat) (utc : Option Int)
    (s : State) : Host.Outcome State Fault Refusal :=
  if ptpRuns s port = false ∨ 3 ≤ transport ∨ natBits (getF s F.HFE_PTP_CFG_TRANSPORT) transport 1 = 0
      ∨ domain ≠ getF s F.HFE_PTP_CFG_DOMAIN ∨ msg = .management ∨ msg = .signalling then .next s
  else
    let s := match eventType msg with
      | some k => ptpPush ⟨seqId % 2 ^ 16, k, false, port, sec % 2 ^ 48, ns % 1000000000, frac % 2 ^ 16⟩ s
      | none => s
    match msg with
    | .announce => .next (announce master prio utc s)
    | .pdelayReq =>
      if flagF s F.HFE_PTP_CFG_DELAY_MECH then
        let s := ptpPush ⟨seqId % 2 ^ 16, 3, true, port, tuSec s.tu.t, tuNs s.tu.t, tuFrac s.tu.t⟩ s
        .next (emit (.ptp "Pdelay_Resp_Follow_Up" seqId) (emit (.ptp "Pdelay_Resp" seqId) s))
      else .next s
    | .sync => .next s
    | .delayReq => .next s
    | .pdelayResp => .next s
    | .followUp => .next s
    | .delayResp => .next s
    | .management => .next s
    | .signalling => .next s

/-- PTP_DELAY_REQ_SEND (R99, R100): with its timestamp on transmit. -/
def execPtpDelayReqSend (seqId sec ns frac : Nat) (s : State) : Host.Outcome State Fault Refusal :=
  let p := getF s F.HFE_PTP_CFG_PORT
  if ptpRuns s p = false then .next s
  else
    let peer := flagF s F.HFE_PTP_CFG_DELAY_MECH
    let s := ptpPush ⟨seqId % 2 ^ 16, if peer then 2 else 1, true, p, sec % 2 ^ 48, ns % 1000000000, frac % 2 ^ 16⟩ s
    .next (emit (.ptp (if peer then "Pdelay_Req" else "Delay_Req") seqId) s)

/-- PTP_TS_READ (R102). -/
def execPtpTsRead (s : State) : Host.Outcome State Fault Refusal :=
  let (v, s) := ptpPop s
  .next (emit (.value 0x3000050 (BitVec.ofNat 32 v)) s)

/-- PORT_CNT_CLEAR (R120). -/
def execPortCntClear (port sel : Nat) (s : State) : Host.Outcome State Fault Refusal :=
  if portDefined s port = false then .next s
  else .next (updHfe (fun h => { h with counters := mapDel h.counters (port * 32 + sel % 32) }) s)

end Sys2Proof.Machine
end

