-- ==== Sys2Proof/Machine/Ladder.lean ====
section
/-! DEFINITION. Meanings of the read-ladder commands (08 R294, R299 to R312, R322). -/

namespace Sys2Proof.Machine

/-- A codeword of the scan's READ_PAGE of a TLC member (11 R434): one that exits above L0 queues its stripe in class 3. -/
def scanDecoded (c : Cw) (r : Decoded) (s : State) : State :=
  if r.pass then s
  else match (getBlock s c.ref).stripe with
    | some k => queueRefresh 3 0 k s
    | none => s

/-- CODEWORD_DECODE_DONE: the decoder finishes a codeword that has what its step needs (R299 to R309, R311, R315). -/
def execCodewordDecodeDone (cw : Nat) (s : State) : Host.Outcome State Fault Refusal :=
  let c := getCw s cw
  if c.st ≠ 1 then .next s
  else
    let r := decodeCw s c
    if c.cls = 4 ∧ c.parent = none then .next (skimDecoded cw r s)
    else if c.cls = 0 then .next (scanDecoded c r (dropCw cw s))
    else .next (endDecode cw r s)

/-- The 4,160 bytes that an L5 rebuilds: from n members of the row, or as the sum of a slice's other codewords. -/
def rebuiltBytes (s : State) (c : Cw) : List Nat :=
  if c.inSlice then
    symsToBytes ((List.range 4156).map (fun i => c.parts.foldl (fun a p => a ^^^ p.2.getD i 0) 0))
  else symsToBytes (rsRebuild (needParts s c) c.member c.parts)

/-- L5_RECONSTRUCT (R312): with enough members passed, the remaining reads are abandoned; a result that fails its CRC cannot
be recovered. -/
def execL5Reconstruct (cw : Nat) (s : State) : Host.Outcome State Fault Refusal :=
  let c := getCw s cw
  if c.st ≠ 3 ∨ c.parts.length < needParts s c ∨ c.parts = [] then .next s
  else
    let bytes := rebuiltBytes s c
    let s := dropParts cw s
    if cwCrcOk bytes then .next (cwPassed cw bytes (exitCount 5 s))
    else .next (updCw cw (fun c => { c with st := 4 }) (exitCount 6 s))

/-- SAMPLE_HOLD_EXPIRE (R294): the samples are dropped and their buffer freed. -/
def execSampleHoldExpire (key : Nat) (s : State) : Host.Outcome State Fault Refusal := .next (dropHeld key s)

/-- CLC_EXIT_SEL.CLEAR (R322): the counter that the written SEL names is cleared. -/
def exitClear (sel : Nat) (s : State) : State :=
  let s := setF F.CLC_EXIT_SEL_SEL sel s
  updClc (fun c => { c with exits := mapDel c.exits (getF s F.CLC_EXIT_SEL_SEL) }) s

/-- EXIT_CNT_CLEAR (R322). -/
def execExitCntClear (sel : Nat) (s : State) : Host.Outcome State Fault Refusal := .next (exitClear sel s)

end Sys2Proof.Machine
end

