-- ==== Sys2Proof/Machine/Link.lean ====
section
/-! DEFINITION. Meanings of the flash-link commands (07 R236 to R251, R279). A command for a link that is fused off or not
in the state it needs changes nothing. -/

namespace Sys2Proof.Machine

/-- A link of the grade (00 R2). -/
def linkExists (s : State) (k : Nat) : Bool := decide (k < linkCount s)

/-- A stored-result training falls back to full training (R238): in a waking group the link then counts as failed until it
is Up (R269). -/
def trainFallback (k : Nat) (s : State) : State :=
  let s := updLink k (fun l => { l with stored := false, haveStored := false }) s
  if groupSt s (k / 8) = .waking then failLink k 2 (getLink s k).cause s else s

/-- LINK_TRAINING_DONE (R237, R238, R240). -/
def execLinkTrainingDone (link : Nat) (ok : Bool) (cause serial : Nat) (s : State) : Host.Outcome State Fault Refusal :=
  let l := getLink s link
  if linkExists s link = false ∨ (l.st ≠ 2 ∧ l.st ≠ 4) then .next s
  else if ok then .next (linkUp link (serialSeen link serial s))
  else if l.st = 2 ∧ l.stored ∧ cause ≠ 3 then .next (trainFallback link s)
  else .next (failLink link 5 (if 1 ≤ cause ∧ cause ≤ 4 then cause else 1) s)

/-- STORED_TRAINING_FALLBACK (R238): no frame lock 60 ms into a stored-result training. -/
def execStoredTrainingFallback (link : Nat) (s : State) : Host.Outcome State Fault Refusal :=
  let l := getLink s link
  if linkExists s link ∧ l.st = 2 ∧ l.stored then .next (trainFallback link s) else .next s

/-- LOCK_LOSS_TIMEOUT (R247): lock lost for 1 ms. -/
def execLockLossTimeout (link : Nat) (s : State) : Host.Outcome State Fault Refusal :=
  let l := getLink s link
  if linkExists s link ∧ l.st = 3 ∧ l.lock = false then .next (enterRetraining link 6 s) else .next s

/-- RETRAIN_TIMEOUT (R247): Retraining has not reached Up within 1 s. -/
def execRetrainTimeout (link : Nat) (s : State) : Host.Outcome State Fault Refusal :=
  if linkExists s link ∧ (getLink s link).st = 4 then .next (failLink link 5 (getLink s link).cause s) else .next s

/-- LINK_RETRY_TIMER (R247): an enabled Failed link trains in full again. -/
def execLinkRetryTimer (link : Nat) (s : State) : Host.Outcome State Fault Refusal :=
  if linkExists s link ∧ (getLink s link).st = 5 ∧ flagF s (F.FLC_LN_CTL_ENABLE link) then
    .next (updLink link (fun l => { l with st := 2, stored := false, lock := false, misses := 0, cands := [] }) s)
  else .next s

/-- LINK_FAIL (R251): the link is declared failed. -/
def execLinkFail (link : Nat) (s : State) : Host.Outcome State Fault Refusal :=
  if linkExists s link = false ∨ (getLink s link).failed then .next s
  else .next (failLink link 5 (getLink s link).cause s)

/-- LINK_GRACE_EXPIRE (R251): still not Up after GRACE_S, its die-blocks are declared lost. -/
def execLinkGraceExpire (link : Nat) (s : State) : Host.Outcome State Fault Refusal :=
  let l := getLink s link
  if linkExists s link ∧ l.failed ∧ l.st ≠ 3 ∧ l.lost = false ∧ s.top.readsOk then .next (linkSettle s (loseLink link s))
  else .next s

/-- Clear ENABLE (R279): the link goes to Off and is handled as failed, CAUSE disabled. -/
def linkDisable (k : Nat) (s : State) : State :=
  let was := (getLink s k).st
  let s := setF (F.FLC_LN_CTL_ENABLE k) 0 s
  if was = 0 then s else failLink k 0 8 s

/-- LINK_DISABLE (R279). -/
def execLinkDisable (link : Nat) (s : State) : Host.Outcome State Fault Refusal :=
  if linkExists s link then .next (linkDisable link s) else .next s

/-- Set ENABLE (R279): training starts on a link that is Off; before training has begun at boot nothing more. -/
def linkEnable (k : Nat) (s : State) : State :=
  let s := setF (F.FLC_LN_CTL_ENABLE k) 1 s
  if (getLink s k).st = 0 ∧ s.cru.stage ≠ .early ∧ s.cru.stage ≠ .held then startTraining k s else s

/-- LINK_ENABLE (R279). -/
def execLinkEnable (link : Nat) (s : State) : Host.Outcome State Fault Refusal :=
  if linkExists s link then .next (linkEnable link s) else .next s

/-- FLC_LN_CTL.RETRAIN (R279): ignored unless Up. -/
def linkRetrain (k : Nat) (s : State) : State := if (getLink s k).st = 3 then enterRetraining k 0 s else s

/-- LINK_RETRAIN_REQUEST (R279). -/
def execLinkRetrainRequest (link : Nat) (s : State) : Host.Outcome State Fault Refusal :=
  if linkExists s link then .next (linkRetrain link s) else .next s

/-- FLC_LN_CTL.FULL (R279): the stored results are discarded and full training starts; ignored while Gated or Off. -/
def linkFullTrain (k : Nat) (s : State) : State :=
  let st := (getLink s k).st
  if st = 0 ∨ st = 1 then s
  else updLink k (fun l => { l with haveStored := false, stored := false, st := 2, lock := false, misses := 0, cands := [] }) s

/-- LINK_FULL_TRAIN_REQUEST (R279). -/
def execLinkFullTrainRequest (link : Nat) (s : State) : Host.Outcome State Fault Refusal :=
  if linkExists s link then .next (linkFullTrain link s) else .next s

/-- SYNC_CANDIDATE_OPEN (R246): in hunt an exact SYNC opens a candidate unless eight are open; in lock it is ignored. -/
def execSyncCandidateOpen (link bitpos : Nat) (s : State) : Host.Outcome State Fault Refusal :=
  let l := getLink s link
  if linkExists s link = false ∨ l.lock ∨ (l.st ≠ 2 ∧ l.st ≠ 3 ∧ l.st ≠ 4) ∨ 8 ≤ l.cands.length ∨ l.cands.contains bitpos then .next s
  else .next (updLink link (fun l => { l with cands := l.cands ++ [bitpos] }) s)

/-- A frame in hunt (R246 rules 1 and 2): it belongs to the oldest candidate, which is confirmed when the frame passes its CRC
and the next mark is exact, and dropped otherwise; the frame is not delivered. -/
def huntFrame (k syncDist : Nat) (crcOk : Bool) (s : State) : State :=
  updLink k (fun l =>
    if l.cands = [] then l
    else if crcOk ∧ syncDist = 0 then { l with lock := true, misses := 0, cands := [] }
    else { l with cands := l.cands.drop 1 }) s

/-- A frame whose mark is a miss (R246 rules 3 and 4). -/
def missedMark (k : Nat) (s : State) : State :=
  let s := bumpF (F.FLC_LN_SYNC_MISS k) 1 s
  let s := updLink k (fun l => { l with misses := l.misses + 1 }) s
  let s := frameDiscard k s
  if 3 ≤ (getLink s k).misses then
    bumpF (F.FLC_LN_SYNC_LOCK_LOSS k) 1 (updLink k (fun l => { l with misses := 0, lock := false, cands := [] }) s)
  else s

/-- FLASH_FRAME_RECEIVE (R243, R246, R249). -/
def execFlashFrameReceive (link syncDist : Nat) (crcOk : Bool) (kind seq ack : Nat) (s : State) :
    Host.Outcome State Fault Refusal :=
  let l := getLink s link
  if linkExists s link = false ∨ (l.st ≠ 2 ∧ l.st ≠ 3 ∧ l.st ≠ 4) then .next s
  else if l.lock = false then .next (huntFrame link syncDist crcOk s)
  else if 3 ≤ syncDist then .next (missedMark link s)
  else
    let s := updLink link (fun l => { l with misses := 0 }) s
    if crcOk = false then .next (frameDiscard link (bumpF (F.FLC_LN_ERR_CRC_ERR link) 1 s))
    else if 6 ≤ kind then .next (frameDiscard link s)
    else
      let s := if kind = 5 then takeNak link ack s else takeAck link ack s
      if kind = 1 ∨ kind = 2 ∨ kind = 3 then
        if seq = ((getLink s link).rxLast + 1) % 4096 then
          .next (updLink link (fun l => { l with rxLast := seq, nakSent := false }) s)
        else .next (frameDiscard link s)
      else .next s

/-- FLASH_NAK_RECEIVE (R250). -/
def execFlashNakReceive (link ack : Nat) (s : State) : Host.Outcome State Fault Refusal :=
  if linkExists s link then .next (takeNak link ack s) else .next s

/-- FLASH_REPLAY_TIMEOUT (R250): no ACK progress while frames are unacknowledged. -/
def execFlashReplayTimeout (link : Nat) (s : State) : Host.Outcome State Fault Refusal :=
  if linkExists s link then .next (resend link s) else .next s

/-- One die temperature of a MAINT frame (R245, R266, 09 R340): 0x8000 is none. -/
def takeTemp (d raw : Nat) (s : State) : State :=
  if raw = 0x8000 then updDie d (fun x => { x with temp := none }) s
  else
    let t := toSigned 16 raw
    let lim := toSigned 10 (getF s F.FLC_THERM_CFG_LIMIT)
    let was := (getDie s d).throttle
    let now := if lim ≤ t then true else if t ≤ lim - 20 then false else was
    let s := endDark d (updDie d (fun x => { x with temp := some t, throttle := now }) s)
    if now ∧ was = false then fire 513 d s else s

/-- FLC_LN_TEMP after a MAINT frame (R283): the highest temperature, the lowest die on a tie. -/
def tempMax (k : Nat) (s : State) : State :=
  let ts := (List.range 32).filterMap (fun i => ((getDie s (k * 32 + i)).temp).map (fun t => (i, t)))
  match ts with
  | [] => updLink k (fun l => { l with tempMax := 0, tempDie := 0 }) s
  | x :: rest =>
    let m := rest.foldl (fun m y => if m.2 < y.2 then y else m) x
    updLink k (fun l => { l with tempMax := ofSigned 10 m.2, tempDie := m.1 }) s

/-- MAINT_FRAME_RECEIVE (R244, R245, R251, R252): a CRC-valid frame of a link that is Up. Two TOWER_FAULTs in a row declare
the link failed. -/
def execMaintFrameReceive (link : Nat) (temps : List Nat) (failed _busy : Nat) (fault : Bool) (s : State) :
    Host.Outcome State Fault Refusal :=
  if linkExists s link = false ∨ (getLink s link).st ≠ 3 then .next s
  else
    let s0 := s
    let s := (List.range 32).foldl (fun s i => takeTemp (link * 32 + i) (temps.getD i 0x8000) s) s
    let s := tempMax link s
    let s := (List.range 32).foldl (fun s i => if natBits failed i 1 = 1 then loseDie (link * 32 + i) s else s) s
    let s := zmSettle s0 s
    let n := if fault then (getLink s link).faults + 1 else 0
    let s := updLink link (fun l => { l with faults := n }) s
    if 2 ≤ n then .next (failLink link 5 7 s) else .next s

/-- MAINT_FRAME_SEND (R244): the controller's MAINT frame carries the Time Unit's seconds and nanoseconds. -/
def execMaintFrameSend (link : Nat) (s : State) : Host.Outcome State Fault Refusal :=
  if linkExists s link ∧ (getLink s link).st = 3 then .next (emit (.tower link "MAINT" (tuNs s.tu.t) (tuSec s.tu.t)) s)
  else .next s

end Sys2Proof.Machine
end

