-- ==== Sys2Proof/Machine/Retention.lean ====
section
/-! DEFINITION. Meanings of the retention commands (09), and of the servo update whose lock they watch (16 R606). -/

namespace Sys2Proof.Machine

/-- AGE_TICK (09 R337, R338): every local second each ticking die's clock advances; the powered seconds of 00 R24 count,
and TOP_SKIM_AGE and its thresholds follow (01 R47). -/
def execAgeTick (s : State) : Host.Outcome State Fault Refusal :=
  let s := { s with top := { s.top with poweredSec := satAdd (2 ^ 40 - 1) s.top.poweredSec 1 } }
  .next (skimSettle ((allDies s).foldl tickDie s))

/-- ARRHENIUS_CONSTANT_WRITE (09 R334, R339, R360 to R362): only the operator; RCU_B follows EA and KB. -/
def execArrheniusConstantWrite (w : Writer) (reg : Nat) (value : Word) (s : State) : Host.Outcome State Fault Refusal :=
  match w with
  | .firmware => .next s
  | .operator =>
    if reg = 0 ∨ reg = 4 then
      let s := plainWrite (0x9000000 + reg) value.toNat s
      .next (updRcu (fun r => { r with b := rcuB s }) s)
    else if reg = 8 then .next (plainWrite 0x9000008 value.toNat s)
    else .next s

/-- A write of RCU_SHELF_TEMP (09 R338). -/
def shelfTempWrite (value : Nat) (s : State) : State :=
  if s.top.adminOk ∧ s.top.dev ≠ .retained then
    updRcu (fun r => { r with shelfValid := true }) (plainWrite 0x9000014 value s)
  else s

/-- SHELF_TEMP_WRITE (09 R338). -/
def execShelfTempWrite (value : Word) (s : State) : Host.Outcome State Fault Refusal := .next (shelfTempWrite value.toNat s)

/-- SHELF_TEMP_EXPIRE (09 R338). -/
def execShelfTempExpire (s : State) : Host.Outcome State Fault Refusal :=
  .next (updRcu (fun r => { r with shelfValid := false }) s)

/-- DARK_RECOMPUTE (09 R344). -/
def execDarkRecompute (s : State) : Host.Outcome State Fault Refusal := .next (darkRecompute s)

/-- The first report that satisfies a test, and the queue without it. -/
def popReport (p : Report → Bool) (s : State) : Option (Report × State) :=
  match s.clc.reports.findIdx? p with
  | none => none
  | some i => (s.clc.reports[i]?).map (fun r => (r, updClc (fun c => { c with reports := c.reports.eraseIdx i }) s))

/-- PROBE_RESULT (09 R345 to R348): the pilot age of the die's probe is kept and the die's dark increment recomputed; a
probe with no valid plane is abandoned. After the seal nothing moves. -/
def execProbeResult (die : Nat) (s : State) : Host.Outcome State Fault Refusal :=
  match popReport (fun r => r.probe && r.die == die) s with
  | none => .next s
  | some (r, s) =>
    let valid := (r.planes.filter (fun p => p.2.2)).map (fun p => p.2.1)
    match pilotAge (modelOf s die) (peOf s r.ref) valid, snapOf s r.ref (r.wl / 32) with
    | some ep, some snap =>
      if valid = [] ∨ s.rcu.sealed then .next (abandonProbe die s)
      else
        let s := updAge die (fun a => { a with probing := false, probe := some (ep, ageInt s die - snap, snap) }) s
        .next (probesSettle (skimSettle (darkDie (tuLocked s) s die)))
    | _, _ => .next (abandonProbe die s)

/-- PILOT_REPORT (09 R354 to R356): firmware takes the oldest report that is not a probe. -/
def execPilotReport (s : State) : Host.Outcome State Fault Refusal :=
  match popReport (fun r => !r.probe) s with
  | none => .next s
  | some (r, s) => .next (takeReport r s)

/-- LEARN_RESET_DIE (09 R357). -/
def execLearnResetDie (die : Nat) (s : State) : Host.Outcome State Fault Refusal :=
  .next (updAge die (fun a => { a with learned := none }) s)

/-- LEARN_RESET_ALL (09 R357). -/
def execLearnResetAll (s : State) : Host.Outcome State Fault Refusal :=
  .next (updRcu (fun r => { r with dies := mapMapVals dieAge0 (fun _ a => { a with learned := none }) r.dies }) s)

/-- A PTP lock gained after the seal of an unlocked accrual (09 R349). -/
def lockLateCheck (was : Nat) (s : State) : State :=
  if s.tu.st = 3 ∧ was ≠ 3 ∧ s.rcu.sealed ∧ s.rcu.lockedAtSeal = false ∧ s.rcu.lockLate = false then
    fire 578 0 (updRcu (fun r => { r with lockLate := true }) s)
  else s

/-- PTP_SERVO_UPDATE (16 R606, 09 R349). -/
def execPtpServoUpdate (e : Int) (dtNs : Nat) (delay : Option Int) (s : State) : Host.Outcome State Fault Refusal :=
  .next (lockLateCheck s.tu.st (servoUpdate e dtNs delay s))

end Sys2Proof.Machine
end

