-- ==== Sys2Proof/Machine/StoreOps.lean ====
section
/-! DEFINITION. Operations of the firmware store (18): pages, sectors and headers, programs and erases, images, boot records;
and the Herdbook's pages in it (19 R694, R698, R699). -/

namespace Sys2Proof.Machine

def getSector (s : State) (n : Nat) : Sector := mapGet sector0 s.fws.sectors n
def updSector (n : Nat) (f : Sector → Sector) (s : State) : State := updFws (fun w => { w with sectors := mapUpd sector0 w.sectors n f }) s

/-! ## Pages (R664, R665) -/

def pageKey (sector page : Nat) : Nat := sector * 512 + page
def getPage (s : State) (k : Nat) : List Word := mapGet [] s.fws.pages k
def putPage (k : Nat) (d : List Word) (s : State) : State := updFws (fun w => { w with pages := mapSet [] w.pages k d }) s

/-- A word of a page; an unlisted page is blank (R665). -/
def pageWord (p : List Word) (i : Nat) : Word := p.getD i 0xFFFFFFFF

/-- The bytes of a page. -/
def pageBytes (p : List Word) : List Nat := (List.range 128).flatMap (fun i => leBytes 4 (pageWord p i).toNat)

/-- 512 bytes as the words of a page. -/
def wordsOf (bytes : List Nat) : List Word :=
  (List.range 128).map (fun i => BitVec.ofNat 32 (leNat ((List.range 4).map (fun j => bytes.getD (4 * i + j) 0))))

/-- Free words: what a page holds whose program did not end (R668). -/
def drawWords (s : State) : Nat → List Word × State
  | 0 => ([], s)
  | n + 1 =>
    let (v, s) := drawFree 32 s
    let (l, s) := drawWords s n
    (BitVec.ofNat 32 v :: l, s)

/-- Starting an operation on a sector invalidates the line stores' entries of it (R669): a line is 32 bytes. -/
def dropLines (sector : Nat) (s : State) : State :=
  updFws (fun w => { w with
    prefetch := w.prefetch.filter (fun l => l / 8192 != sector), branch := w.branch.filter (fun l => l / 8192 != sector) }) s

/-- Pulse-and-verify is used in Boot before the admin-served point and in recovery (R668). -/
def pulseNow (s : State) : Bool := !s.top.adminOk || s.fws.recovery

/-! ## Programs and erases (R666, R668) -/

/-- ERASE_COUNT of the next header: one more than the valid one, else one more than the highest of the region (R666). -/
def nextCount (s : State) (sector : Nat) : Nat :=
  let x := getSector s sector
  if x.headerOk then x.eraseCount + 1
  else ((s.fws.sectors.filter (fun e => regionOf e.1 == regionOf sector && e.2.headerOk)).map (fun e => e.2.eraseCount)).foldl max 0 + 1

/-- The pages of a sector are gone and its header is invalid. -/
def wipeSector (sector : Nat) (s : State) : State :=
  let s := updSector sector (fun x => { x with headerOk := false, next := 0 }) s
  updFws (fun w => { w with pages := w.pages.filter (fun e => e.1 / 512 != sector) }) s

/-- Start a sector erase. -/
def beginErase (sector : Nat) (user : StoreUser) (s : State) : State :=
  let o : StoreOp :=
    { erase := true, sector := sector, page := 0, data := [], user := user, count := nextCount s sector, forPwr := false, runTick := 0
      pulseMode := pulseNow s || !(getSector s sector).headerOk }
  wipeSector sector (updFws (fun w => { w with op := some o, lastSector := sector }) (dropLines sector s))

/-- The header row of an erased sector (Table 18-2). -/
def headSector (sector count : Nat) (pulse : Bool) (pulses : Nat) (s : State) : State :=
  updSector sector (fun x => { x with
    headerOk := true, mode := bitOf pulse, pulses := if pulse then pulses else 0, eraseCount := count
    boot := s.top.powerCycles, bad := false, next := 0 }) s

/-- A sector may be programmed: valid header, not bad. -/
def sectorReady (s : State) (sector : Nat) : Bool := (getSector s sector).headerOk && !(getSector s sector).bad

/-- Start a page program: the page is used, and holds nothing known until the program ends. -/
def beginProgram (sector page : Nat) (data : List Word) (user : StoreUser) (s : State) : State :=
  let o : StoreOp :=
    { erase := false, sector := sector, page := page, data := data, user := user, count := 0, forPwr := false, runTick := 0
      pulseMode := pulseNow s }
  let (d, s) := drawWords s 128
  let s := updSector sector (fun x => { x with next := page + 1 }) (putPage (pageKey sector page) d s)
  updFws (fun w => { w with op := some o, lastSector := sector }) (dropLines sector s)

/-- A page is written at once: what one command stands for both the start and the end of a program. -/
def writePage (sector : Nat) (data : List Word) (s : State) : State :=
  let p := (getSector s sector).next
  dropLines sector (updSector sector (fun x => { x with next := p + 1 }) (putPage (pageKey sector p) data s))

/-- A sector is erased at once; the pulses that pulse-and-verify took are a free value (1 to 8). -/
def eraseNow (sector : Nat) (s : State) : State :=
  let n := nextCount s sector
  let pulse := pulseNow s || !(getSector s sector).headerOk
  let (p, s) := drawFree 3 s
  headSector sector n pulse (p + 1) (wipeSector sector (dropLines sector s))

/-! ## Boot records (R675) -/

/-- The bytes of a boot record (Table 18-4). -/
def recordBytes (r : BootRec) : List Nat :=
  let b := leBytes 4 0x42465342 ++ leBytes 4 r.seq
    ++ [r.active, r.previous, r.next, bitOf r.trial, r.attempts % 256, bitOf r.reverted] ++ List.replicate 494 0
  b ++ leBytes 4 (crc32c b)

/-- The record a page holds, when its MAGIC and CHECK pass. -/
def parseRecord (p : List Word) : Option BootRec :=
  let b := pageBytes p
  if leNat (b.take 4) = 0x42465342 ∧ leNat ((b.drop 508).take 4) = crc32c (b.take 508) then
    some ⟨leNat ((b.drop 4).take 4), b.getD 8 0, b.getD 9 0, b.getD 10 0, b.getD 11 0 == 1, b.getD 12 0, b.getD 13 0 == 1⟩
  else none

/-- Without a valid record: ACTIVE = PREVIOUS = 1 and every other field 0. -/
def defaultRecord : BootRec := ⟨0, 1, 1, 0, false, 0, false⟩

/-- The current record with its sector: the highest SEQ. -/
def currentRecord (s : State) : BootRec × Nat :=
  let all := (s.fws.pages.filter (fun e => decide (e.1 / 512 < 4) && (getSector s (e.1 / 512)).headerOk)).filterMap
    (fun e => (parseRecord e.2).map (fun r => (r, e.1 / 512)))
  all.foldl (fun m x => if m.1.seq < x.1.seq then x else m) (defaultRecord, 0)

/-- Append a record at the next-page pointer; a full sector makes way for the next one. -/
def appendRecord (r : BootRec) (s : State) : State :=
  let (cur, c) := currentRecord s
  let r := { r with seq := cur.seq + 1 }
  let (k, s) := if sectorReady s c ∧ (getSector s c).next < 512 then (c, s)
    else if cur.seq = 0 then (c, eraseNow c s) else ((c + 1) % 4, eraseNow ((c + 1) % 4) s)
  updFws (fun w => { w with record := r }) (writePage k (wordsOf (recordBytes r)) s)

/-! ## Images (R673, R674) -/

/-- The first sector of a slot (Table 18-1). -/
def slotBase (slot : Nat) : Nat := 4 + 96 * (slot - 1)

/-- `n` bytes of a slot from an offset, both multiples of 512. -/
def slotBytes (s : State) (slot off n : Nat) : List Nat :=
  (List.range (n / 512)).flatMap (fun i => pageBytes (getPage s (slotBase slot * 512 + off / 512 + i)))

/-- Fields of an image header (Table 18-4a). -/
structure ImageHead where
  revision : Nat
  len : Nat
  sram : Nat
  entry : Nat
  own : Nat
  lo : Nat
  hi : Nat
  key : Nat
  rest : Bool
deriving DecidableEq, Repr

/-- The fields of 512 bytes; `rest`: MAGIC, FORMAT and the zero bytes are right. -/
def parseHead (h : List Nat) : ImageHead :=
  let f (o n : Nat) := leNat ((h.drop o).take n)
  let zero (o n : Nat) : Bool := ((h.drop o).take n).all (· == 0)
  { revision := f 8 8, len := f 16 4, sram := f 20 4, entry := f 24 4, own := f 28 2, lo := f 30 2, hi := f 32 2, key := h.getD 34 0
    rest := f 0 4 == 0x46584D49 && f 4 2 == 1 && zero 6 2 && zero 35 93 && zero 320 192 }

/-- The fields lie within the ranges of Table 18-4a. -/
def headOk (h : ImageHead) : Bool :=
  h.rest && decide (4096 ≤ h.len) && decide (h.len ≤ 25165824) && decide (h.len % 512 = 0) && decide (h.sram % 4 = 0)
    && decide (h.sram ≤ 3932160) && decide (h.entry < h.sram) && decide (h.key ≤ 3)

/-- The class of an image (R674): 0 none, 1 unsigned, 2 valid. `body`: bytes 512 to IMAGE_LEN − 1. -/
def imageClass (s : State) (h body : List Nat) : Nat :=
  let x := parseHead h
  let pub := (h.drop 224).take 96
  if headOk x = false ∨ s.fuse.keyHash[x.key]? ≠ some (sha384 pub) ∨ s.fuse.revoked.contains x.key = true then 0
  else if ecdsaVerify (sha384 (h.take 128 ++ body)) (beNat ((h.drop 128).take 48)) (beNat ((h.drop 176).take 48))
      (beNat (pub.take 48)) (beNat (pub.drop 48)) then 2
  else 1

/-- The class of a slot: its sectors up to IMAGE_LEN must have valid header rows. -/
def slotClass (s : State) (slot : Nat) : Nat :=
  let h := slotBytes s slot 0 512
  let x := parseHead h
  if headOk x = false ∨ (List.range ((x.len + 262143) / 262144)).any (fun i => !(sectorReady s (slotBase slot + i))) = true then 0
  else imageClass s h (slotBytes s slot 512 (x.len - 512))

/-- A slot boots or may be committed: valid, or unsigned at PL0. -/
def classOk (s : State) (c : Nat) : Bool := c == 2 || (c == 1 && protLevel s == 0)

/-! ## Herdbook pages (19 R694, R698, R699) -/

/-- The 64 bytes of a record (19 Table 19-2). -/
def hbBytes (r : HbRec) : List Nat :=
  let b := leBytes 8 r.seq ++ leBytes 6 r.sec ++ leBytes 4 r.ns ++ [r.typ, r.sev] ++ leBytes 2 r.source ++ leBytes 2 r.tqual
    ++ leBytes 4 r.index ++ (List.range 7).flatMap (fun i => leBytes 4 (r.detail.getD i 0))
  b ++ leBytes 4 (crc32c b) ++ leBytes 4 0x4844424B

/-- A page of records; empty slots stay 0xFF. -/
def hbPage (rs : List HbRec) : List Word :=
  let b := (rs.take 8).flatMap hbBytes
  wordsOf (b ++ List.replicate (512 - b.length) 0xFF)

/-- The records of a sector leave the ring. -/
def dropRing (sector : Nat) (s : State) : State := updEvc (fun e => { e with ring := e.ring.filter (fun c => c.sector != sector) }) s

/-- Keep the sector ahead of the writer erased. -/
def hbEraseAhead (s : State) : State :=
  let ahead := nextHbSector s.evc.badSectors s.evc.curSector 32
  if hbDegraded s ∨ ahead = s.evc.curSector ∨ s.fws.op.isSome = true then s
  else if (getSector s ahead).headerOk = false ∨ (getSector s ahead).next ≠ 0 then beginErase ahead .herdbook (dropRing ahead s)
  else s

/-- A Herdbook page is in the ring; from a full sector the writer enters the erased one ahead, and the one after it is erased
(R698). -/
def hbPageDone (s : State) : State :=
  match s.evc.programming with
  | none => s
  | some rs =>
    let sect := s.evc.curSector
    let s := ringAdd sect rs (updEvc (fun e => { e with programming := none }) s)
    let s := if (getSector s sect).next < 512 then s
      else updEvc (fun e => { e with curSector := nextHbSector e.badSectors sect 32 }) s
    hbEraseAhead s

/-- A Herdbook sector becomes bad (R698): from the current one the writer moves to the erased sector ahead, whose first page
starts with the record of source 864 and then the records of the failed page; below 2 good sectors the Herdbook runs from SRAM
and source 865 fires (R699). -/
def hbSectorFail (sect result : Nat) (s : State) : State :=
  let bad := if sect ∈ s.evc.badSectors then s.evc.badSectors else sect :: s.evc.badSectors
  let failed := s.evc.programming.getD []
  let s := latchSource 864 s
  let occ := (mapGet evcSrc0 s.evc.src 864).occ
  let r := { occurrence s 1 864 2 sect [occ, result, 0, 0, 0, 0, 0] with seq := s.evc.nextSeq }
  let s := updSector sect (fun x => { x with bad := true }) s
  let s := updEvc (fun e => { e with
      badSectors := bad, programming := none, nextSeq := e.nextSeq + 1, filling := r :: (failed ++ e.filling), mirrorNow := true
      curSector := if sect = e.curSector then nextHbSector bad sect 32 else e.curSector }) s
  let s := if sect = s.evc.curSector then dropRing s.evc.curSector s else s
  if hbDegraded s then fire 865 (goodSectors s) s else hbEraseAhead s

/-- The filling page goes to the store as the next page of the current sector; below 2 good sectors to the SRAM ring (R699). An
unerased sector is erased first. -/
def hbProgram (s : State) : State :=
  if s.evc.filling = [] ∨ s.evc.programming.isSome = true then s
  else if hbDegraded s then sramAdd s.evc.filling (updEvc (fun e => { e with filling := [] }) s)
  else if s.fws.op.isSome ∨ s.fws.suspended.any (fun o => o.sector == s.evc.curSector) = true then s
  else
    let k := s.evc.curSector
    if sectorReady s k = false ∨ 512 ≤ (getSector s k).next then beginErase k .herdbook (dropRing k s)
    else
      let rs := s.evc.filling.take 8
      let s := updEvc (fun e => { e with programming := some rs, filling := e.filling.drop 8 }) s
      beginProgram k (getSector s k).next (hbPage rs) .herdbook s

/-! ## Commits (R678, R679, 17 R654) -/

/-- A Sirsis reply is posted (17 R639, R645, R652): on the management port it waits for its delivery; in band its phase 0 completes
and the reply is kept for the controller, unless that is gone. -/
def sirDeliver (path : Nat) (slot : Option Nat) (r : Reply) (s : State) : State :=
  let put (f : SirPath → SirPath) (s : State) : State := updMgc (fun m => { m with paths := mapUpd path0 m.paths path f }) s
  match slot with
  | none => put (fun x => { x with packet := none, ready := some r, kept := some r }) s
  | some k =>
    let lost := (mapGet task0 s.qe.tasks k).lost
    let s := put (fun x => { x with packet := none, kept := if lost then x.kept else some r }) s
    finish k 0 0 false (16 + r.params.length + r.status * 2 ^ 16) 0 s

/-- The packet of a path is answered with STATUS, DETAIL and parameters. -/
def sirAnswer (path status detail : Nat) (params : List Nat) (s : State) : State :=
  match (mapGet path0 s.mgc.paths path).packet with
  | none => s
  | some q => sirDeliver path q.slot ⟨q.opcode, status, q.seq, detail, params⟩ s

/-- Answer the task or the Sirsis path of a commit: `ok` success; otherwise Invalid Field, DETAIL `detail`. -/
def answerJob (j : FwJob) (sct sc status detail : Nat) (dnr : Bool) (s : State) : State :=
  let s := match j.task with
    | some t => if sc = 0x21 then finishBusy t s else finish t sct sc dnr 0 0 s
    | none => s
  match j.path with
  | none => s
  | some p => sirAnswer p status detail [] s

/-- Sirsis status codes used here (17 Table 17-8). -/
def stSuccess : Nat := 0
def stInvalidField : Nat := 2
def stBusy : Nat := 5

/-- A commit is refused; source 804 names the slot of a refused activation (19 Table 19-1). -/
def refuseJob (j : FwJob) (detail : Nat) (s : State) : State :=
  let s := if j.action = 3 then fire 804 j.slot s else s
  answerJob j 0 0x02 stInvalidField detail true (updFws (fun f => { f with job := none }) s)

/-- The last step of a commit: the slot is read back, the record is appended, or the activation is prepared. -/
def endJob (j : FwJob) (s : State) : State :=
  let c := slotClass s j.slot
  let x := parseHead (slotBytes s j.slot 0 512)
  if j.failed ∨ classOk s c = false then refuseJob j 16 s
  else if j.action = 3 then
    if c ≠ 2 ∨ s.mgc.hoOwn < x.lo ∨ x.hi < s.mgc.hoOwn then refuseJob j 16 s
    else
      let r := s.fws.record
      let s := appendRecord { r with active := j.slot, previous := r.active, trial := true, attempts := 0 } s
      let s := updMgc (fun m => { m with actPhase := 1, actFailed := false, actSlot := j.slot }) s
      let s := updFws (fun f => { f with job := some { j with done := 0 } }) s
      raiseAenOperator 2 1 (fire 802 j.slot s)
  else
    let s := if j.action = 0 then s else appendRecord { s.fws.record with next := j.slot } s
    answerJob j 0 0 stSuccess 0 true (updFws (fun f => { f with job := none }) s)

/-- The activation in preparation or in its pause is abandoned (17 R656, R658): the old firmware goes on, and the commit is
answered with Command Interrupted or BUSY. -/
def abandonActivation (hint us : Nat) (s : State) : State :=
  let s := updMgc (fun m => { m with actPhase := 0, actFailed := true, pauseUs := min us 600 }) s
  let s := fire 804 s.mgc.actSlot s
  match s.fws.job with
  | none => s
  | some j => answerJob j 0 0x21 stBusy hint false (updFws (fun f => { f with job := none }) s)

/-- Sectors and pages of a commit. -/
def jobSectors (j : FwJob) : Nat := (j.len + 262143) / 262144

/-- The next operation of the commit in progress, when the store is free. -/
def jobAdvance (s : State) : State :=
  match s.fws.job with
  | none => s
  | some j =>
    if s.fws.op.isSome ∨ s.fws.suspended.isSome ∨ s.mgc.actPhase = 1 then s
    else if j.failed then endJob j s
    else if j.done < jobSectors j then beginErase (slotBase j.slot + j.done) .commit s
    else
      let p := j.done - jobSectors j
      if p < j.len / 512 then
        let bytes := (List.range 512).map (fun i => (mapGet 0 s.fws.staging (p * 512 + i)).toNat)
        beginProgram (slotBase j.slot + p / 512) (p % 512) (wordsOf bytes) .commit s
      else endJob j s

/-- The slot that a commit names (R679): 0 is whichever of 2 and 3 is neither ACTIVE nor, in a trial, PREVIOUS. -/
def commitSlot (s : State) (slot : Nat) : Option Nat :=
  let r := s.fws.record
  let free (k : Nat) : Bool := r.active != k && !(r.trial && r.previous == k)
  if slot = 0 then (if free 2 then some 2 else if free 3 then some 3 else none)
  else if slot ≤ 3 then some slot else none

/-- Why a commit is refused at once: the DETAIL of FW_COMMIT, 16 SLOT or 17 ACTION; or the job. -/
def planCommit (s : State) (slot action : Nat) (task path : Option Nat) : Nat ⊕ FwJob :=
  if 3 < action then .inl 17
  else
    match commitSlot s slot with
    | none => .inl 16
    | some k =>
      let r := s.fws.record
      if action = 2 then
        if classOk s (slotClass s k) then .inr ⟨k, action, 0, 0, false, task, path⟩ else .inl 16
      else if k = 1 ∨ r.active = k ∨ (r.trial = true ∧ r.previous = k) then .inl 16
      else
        let b (lo n : Nat) : List Nat := (List.range n).map (fun i => (mapGet 0 s.fws.staging (lo + i)).toNat)
        let h := b 0 512
        let x := parseHead h
        if headOk x = false then .inl 16
        else if (List.range ((x.len + 4095) / 4096)).any (fun g => !(s.fws.granules.contains g)) then .inl 16
        else
          let c := imageClass s h (b 512 (x.len - 512))
          if classOk s c = false ∨ (action = 3 ∧ c ≠ 2) then .inl 16
          else .inr ⟨k, action, x.len, 0, false, task, path⟩

/-- A commit starts: its granules are used up. -/
def startJob (j : FwJob) (s : State) : State :=
  if j.action = 2 then endJob j (updFws (fun f => { f with job := some j }) s)
  else jobAdvance (updFws (fun f => { f with job := some j, granules := [] }) s)

/-- Download: bytes go to the staging buffer and their granules are noted (R678). -/
def stageBytes (off : Nat) (bytes : List Nat) (s : State) : State :=
  let gs := if bytes = [] then [] else (List.range ((off + bytes.length - 1) / 4096 + 1 - off / 4096)).map (fun (i : Nat) => off / 4096 + i)
  let m := (bytes.zip (List.range bytes.length)).foldl (fun m p => mapSet 0 m (off + p.2) (BitVec.ofNat 8 p.1)) s.fws.staging
  updFws (fun f => { f with staging := m, granules := (f.granules ++ gs).eraseDups }) s

end Sys2Proof.Machine
end

