-- ==== Sys2Proof/Machine/PowerOps.lean ====
section
/-! DEFINITION. The orderly quiesce, Retained and PWRWARN_N (01 R34 to R44, R745, R746). -/

namespace Sys2Proof.Machine

/-! ## The quiesce (R34) -/

/-- A CLEAN record (12 Table 12-3): cause 0 quiesce, 1 Retained. -/
def issueClean (cause : Nat) (s : State) : State :=
  sealPage (issue 0x1E 16 [cause] [] .clean (updTop (fun t => { t with cleanAccepted := false }) s))

/-- A CLEAN record is on its way or accepted. -/
def cleanIssued (s : State) : Bool := s.top.cleanAccepted || (pendingRecs s).any (fun r => r.typ == 0x1E)

/-- Writes that the drain of step 2 waits for. -/
def drainLeft (s : State) : List Nat := mapKeysWhere (fun _ t => t.uncommitted) s.qe.tasks

/-- Step 3 (R34): held wordlines get their closing fines, partial rows and the Pail of unverified rows go to the Cooler. -/
def quiesceStage (s : State) : State :=
  let ks := (s.tabs.stripes.filter (fun e => e.2.live)).map Prod.fst
  let s := ks.foldl (fun s k =>
    let s := closeHeld k s
    let s := stageUnits k ((unstaged s k).filter (fun u => !rowOnItsWay s k u.2.1)) s
    ((rowsOf s k).filter (fun r => (getRow s k r).pail)).foldl (fun s r => stagePail k r s) s) s
  sealPage (coolerSettle s)

/-- Step 5 (R34, 12 R487): the checkpoint, once everything committed is durable; a running one that began after the request
serves. -/
def quiesceCkpt (s : State) : State :=
  if s.jnl.commits ≠ [] ∨ s.jnl.ckptForQuiesce = true ∨ s.top.ckptAccepted = true then s
  else if s.jnl.ckptActive then
    if s.top.reqTick ≤ s.jnl.lastStart then updJnl (fun j => { j with ckptForQuiesce := true }) s else s
  else sealPage (updJnl (fun j => { j with ckptForQuiesce := true }) (startCkpt s))

/-- The time mark and the CLEAN record that follow the quiesce checkpoint. -/
def quiesceClean (s : State) : State :=
  if s.top.ckptAccepted = false ∨ cleanIssued s = true then s
  else issueClean 0 (issueTime (updTop (fun t => { t with markAccepted := false }) s))

/-- A quiesce in progress takes the steps that are due. -/
def quiesceAdvance (s : State) : State :=
  if s.top.dev ≠ .quiescing ∨ s.top.quiesceDone = true ∨ s.top.req = none ∨ s.top.pwrActive = true then s
  else if s.top.drained = false ∧ drainLeft s ≠ [] then s
  else
    let s := if s.top.drained then s else quiesceStage (updTop (fun t => { t with drained := true }) s)
    quiesceClean (quiesceCkpt s)

/-- A quiesce is accepted in Serving. -/
def beginQuiesce (r : Req) (cause : Nat) (s : State) : State :=
  let s := updTop (fun t => { t with
      req := some r, retainedAfter := r == .retained, reqTick := s.tu.ticks, drained := false, cleanAccepted := false
      ckptAccepted := false, markAccepted := false, quiesceDone := false }) s
  quiesceAdvance (enterDev .quiescing cause s)

/-! ## Retained (R38, R39) -/

/-- Every fabric connection goes, with the controllers they belong to. -/
def dropAllConns (s : State) : State :=
  let s := (s.hfe.conns.map Prod.fst).foldl (fun s c => dropConn c s) s
  updQe (fun q => { q with ctls := [] }) s

/-- The first actions of the Retained entry: queue pairs and connections go, the host lanes go down, and CLEAN with cause 1 is
issued. -/
def beginRetained (s : State) : State :=
  let s := hfePortsDown (dropAllConns s)
  issueClean 1 (tuHoldover s)

/-- A Retained request after QUIESCE_DONE (Table 01-3). -/
def requestRetained (s : State) : State :=
  beginRetained (updTop (fun t => { t with req := some .retained, result := 0 }) s)

/-- Every enabled link group is gated (R38): its links are in deep standby. -/
def gateAll (s : State) : State :=
  (List.range (groupCount s)).foldl (fun s g =>
    (groupLinks s g).foldl (fun s k =>
      if (getLink s k).st = 3 ∨ (getLink s k).st = 4 then updLink k (fun l => { l with st := 1, lock := false, standby := true }) s else s)
      (setGroup g .gated s)) s

/-- The dark interval of a stay in Retained ends at the resume request and is sealed at once (09 R340, R350). -/
def resumeDark (s : State) : State :=
  let s := (allDies s).foldl (fun s d =>
    let base := min ageTop (mapGet 0 s.rcu.ckptAges d + markAccrual s d)
    updAge d (fun a => { a with
      base := base, age := base, powered := 0, probe := none, probing := false, overridden := false, delta := 0
      ticking := true, endSec := some (tuSec s.tu.t), endTick := s.tu.ticks }) s) s
  let locked := tuLocked s || s.tu.st == 4
  sealDark locked (darkAll locked s)

/-- A resume request in Retained (R38, R73): groups wake from stored results and the host lanes begin to train. -/
def resumeRetained (s : State) : State :=
  let s := updTop (fun t => { t with req := some .resume, result := 0 }) s
  let s := updRcu (fun r => { r with shelfValid := false, sealed := false }) s
  let s := resumeDark s
  (List.range (groupCount s)).foldl (fun s g => wakeGroup g s) s

/-! ## Requests (Table 01-3, R745) -/

/-- A refused request. -/
def refuseReq (result : Nat) (s : State) : State := updTop (fun t => { t with result := result }) s

/-- A quiesce or Retained request during an activation is held until its pause ends (17 R658); one held already is pending. -/
def holdRequest (code : Nat) (s : State) : State :=
  if s.mgc.actHeld ≠ 0 then refuseReq 2 s else refuseReq 0 (updMgc (fun m => { m with actHeld := code }) s)

/-- TOP_STATE_CTL.REQ (R49): 1 quiesce, 2 Retained, 3 resume; 0 has no effect, other codes are refused. -/
def stateRequest (code : Nat) (s : State) : State :=
  let t := s.top
  let ok (s : State) : State := refuseReq 0 s
  if code = 0 then s
  else if 3 < code then refuseReq 3 s
  else if s.mgc.actPhase = 1 ∧ code ≠ 3 then holdRequest code s
  else if t.req.isSome then refuseReq 2 s
  else if t.dev = .quiescing ∧ t.quiesceDone = false then refuseReq 2 s
  else
    match t.dev, code with
    | .serving, 1 => beginQuiesce .quiesce 2 (ok s)
    | .serving, 2 => beginQuiesce .retained 3 (ok s)
    | .quiescing, 2 => requestRetained (ok s)
    | .quiescing, 3 => enterDev .serving 4 (updTop (fun t => { t with quiesceDone := false }) (ok s))
    | .retained, 3 => resumeRetained (ok s)
    | _, _ => refuseReq 1 s

/-- A request held during an activation is made when the pause has ended (17 R658). -/
def releaseHeld (s : State) : State :=
  if s.mgc.actHeld = 0 ∨ s.mgc.actPhase = 1 then s
  else stateRequest s.mgc.actHeld (updMgc (fun m => { m with actHeld := 0 }) s)

/-- One tick of the clocks the model keeps (16 R599, R600): the Time Unit, the ITE's contexts, and the steps of a quiesce that have
become due. -/
def blockTick (s : State) : State := quiesceAdvance (releaseHeld (iteTick (tuTick s)))

/-! ## PWRWARN_N (R42 to R44, R746, 18 R672) -/

/-- A store erase stands still while the warning is accepted (18 R672). -/
def suspendStore (s : State) : State :=
  match s.fws.op with
  | some o =>
    if o.erase then updFws (fun f => { f with op := none, suspended := some { o with forPwr := true } }) s else s
  | none => updFws (fun f => { f with suspended := f.suspended.map (fun o => { o with forPwr := true }) }) s

/-- The erase may resume. -/
def releaseStore (s : State) : State :=
  updFws (fun f => { f with suspended := f.suspended.map (fun o => { o with forPwr := false }) }) s

/-- SUSPEND to every die that runs a program or an erase, SLC programs included (07 Table 07-14). -/
def suspendDies (s : State) : State :=
  (s.flc.dies.map Prod.fst).foldl (fun s d =>
    match (getDie s d).op with
    | some o => if (o.progErase || o.isSlc) && !o.suspended && !(getDie s d).suspSent then sendSuspend d s else s
    | none => s) s

/-- RESUME to every operation that is suspended and has no read waiting (07 Table 07-14). -/
def resumeDies (s : State) : State := (s.flc.dies.map Prod.fst).foldl (fun s d => tryResume d s) s

/-- The emergency writes of the journal (12 R465): a TIME record and the whole buffer over journal and emergency pairs. -/
def emergencyWrites (s : State) : State :=
  let s := issueTime (abandonCkpt s)
  let ps := freePairs s ++ (List.range s.jnl.emergency.length).map (fun i => 0x80 + i)
  updJnl (fun j => { j with emergencyMode := true }) (sealAll ps s 512)

/-- Table 01-5: in Serving, or in Quiescing before QUIESCE_DONE, uncommitted writes abort, programs and erases suspend and the
emergency writes start; a quiesce is abandoned. -/
def powerFailing (s : State) : State :=
  let dev := devCode s.top.dev
  let s := updTop (fun t => { t with req := none, retainedAfter := false }) s
  let s := if s.top.dev = .serving then enterDev .quiescing 5 s else updTop (fun t => { t with lastCause := 5 }) s
  let s := (drainLeft s).foldl (fun s k => if (getTask s k).uncommitted then dropWrite k (finishRetry k 0 0x05) s else s) s
  fire 8 dev (emergencyWrites (suspendDies s))

/-- PWRWARN_N is accepted (Table 01-3); an activation in preparation is abandoned (17 R658). -/
def pwrwarnAccept (s : State) : State :=
  let t := s.top
  let s := fire 2 (devCode t.dev) (updTop (fun t => { t with pwrActive := true, pwrFrom := some ⟨t.dev, t.quiesceDone⟩ }) s)
  let s := if s.mgc.actPhase = 1 then abandonActivation (retryHint s) 0 s else s
  let s := suspendStore s
  if t.dev = .serving ∨ (t.dev = .quiescing ∧ t.quiesceDone = false) then powerFailing s
  else if t.dev = .replay then suspendDies s
  else s

/-- An accepted PWRWARN_N is released, or declared stuck (R43): `cause` 6 or 7. -/
def pwrwarnEnd (cause : Nat) (s : State) : State :=
  match s.top.pwrFrom with
  | none => s
  | some c =>
    let s := fire (cause - 3) (devCode s.top.dev) (updTop (fun t => { t with pwrActive := false, pwrFrom := none }) s)
    let s := releaseStore s
    if c.dev = .serving ∨ (c.dev = .quiescing ∧ c.done = false) then
      let s0 := s
      let s := updJnl (fun j => { j with emergencyMode := false }) s
      jnlSettle s0 (resumeDies (enterDev .serving cause s))
    else if c.dev = .replay then resumeDies s
    else s

end Sys2Proof.Machine
end

