-- ==== Sys2Proof/Machine/PinFam.lean ====
section
/-! DEFINITION. Meanings of the pins: discrete inputs, PWRWARN_N, the junction temperature and the TAP (20). -/

namespace Sys2Proof.Machine

def getPin (s : State) (i : Nat) : Pin := mapGet pin0 s.pad.pins i
def setPin (i : Nat) (f : Pin → Pin) (s : State) : State := updPad (fun p => { p with pins := mapUpd pin0 p.pins i f }) s

/-- An input is masked while its chatter mask or, for PWRWARN_N, the stuck mask is set (R719). -/
def pinMasked (s : State) (i : Nat) : Bool := (getPin s i).chatter || (i == 0 && s.pad.stuck)

/-- INPUT_TRANSITION (R717, R719): the transition that takes the count above CHATTER_MAX masks the input for chatter. Masking holds
PWRWARN_N high, which releases an accepted warning. -/
def execInputTransition (input : Nat) (level : Bool) (s : State) : Host.Outcome State Fault Refusal :=
  if 16 ≤ input ∨ (getPin s input).raw = level ∨ s.top.dev = .off then .next s
  else
    let s := setPin input (fun p => { p with raw := level, count := p.count + 1 }) s
    if getF s F.PAD_FILT_CFG_CHATTER_MAX < (getPin s input).count ∧ (getPin s input).chatter = false then
      let s := setPin input (fun p => { p with chatter := true, filt := p.filt || input == 0 }) s
      let s := fire (32 + input) input s
      if input = 0 ∧ s.top.pwrActive then .next (pwrwarnEnd 6 s) else .next s
    else .next s

/-- CHATTER_MASK_END (R717): a new window starts; the filtered level follows R716 again. -/
def execChatterMaskEnd (input : Nat) (s : State) : Host.Outcome State Fault Refusal :=
  if 16 ≤ input ∨ (getPin s input).chatter = false then .next s
  else .next (setPin input (fun p => { p with chatter := false, count := 0 }) s)

/-- CHATTER_WINDOW_END (R717): the next 1 s window starts at 0. -/
def execChatterWindowEnd (input : Nat) (s : State) : Host.Outcome State Fault Refusal :=
  if 16 ≤ input then .next s else .next (setPin input (fun p => { p with count := 0 }) s)

/-- INPUT_FILTER_CHANGE (R716): the raw level has been stable for STABLE_US and the filtered level follows it unless masked. A fall
of PWRWARN_N is its acceptance, a rise its release. -/
def execInputFilterChange (input : Nat) (s : State) : Host.Outcome State Fault Refusal :=
  let p := getPin s input
  if 16 ≤ input ∨ p.filt = p.raw ∨ pinMasked s input = true ∨ s.top.dev = .off then .next s
  else
    let s := setPin input (fun p => { p with filt := p.raw }) s
    if input = 0 then .next (if p.raw then pwrwarnEnd 6 s else pwrwarnAccept s) else .next s

/-- PWRWARN_STUCK (R718, R719, 01 R43): low for STUCK_MS with every rail good. -/
def execPwrwarnStuck (s : State) : Host.Outcome State Fault Refusal :=
  if s.top.pwrActive ∧ s.pad.railsGood ∧ (getPin s 0).filt = false then
    let s := setPin 0 (fun p => { p with filt := true }) (updPad (fun p => { p with stuck := true }) s)
    let s := fire 32 0 (updTop (fun t => { t with pwrStuck := true }) s)
    .next (pwrwarnEnd 7 s)
  else .next s

/-- PWRWARN_UNSTICK (R718). -/
def execPwrwarnUnstick (s : State) : Host.Outcome State Fault Refusal :=
  if s.pad.stuck ∧ (getPin s 0).raw = true then
    .next (updTop (fun t => { t with pwrStuck := false }) (updPad (fun p => { p with stuck := false }) s))
  else .next s

/-- The trip of R731: THERMTRIP_N goes low and the controller behaves as in Off. -/
def thermTrip (temp : Nat) (s : State) : State :=
  let s := powerOff s.pad.railsGood s.pad.porstLow s
  emit (.pin "THERMTRIP_N" 0) (updPad (fun p => { p with thermtrip := true, tj := temp, tjMax := temp }) s)

/-- Throttle is entered at 100 °C and left at 95 °C (R730). -/
def throttleSettle (temp : Nat) (s : State) : State :=
  if s.pad.throttle = false ∧ 400 ≤ temp then fire 48 temp (updPad (fun p => { p with throttle := true }) s)
  else if s.pad.throttle = true ∧ temp ≤ 380 then fire 49 temp (updPad (fun p => { p with throttle := false }) s)
  else s

/-- Hold is entered at 105 °C and left at 100 °C (R730). -/
def holdSettle (temp : Nat) (s : State) : State :=
  if s.pad.hold = false ∧ 420 ≤ temp then fire 50 temp (updPad (fun p => { p with hold := true }) s)
  else if s.pad.hold = true ∧ temp ≤ 400 then updPad (fun p => { p with hold := false }) s
  else s

/-- Temperature Threshold (05 Table 05-10): raised on each controller whose threshold the Composite Temperature crosses. -/
def thresholdSettle (old now : Nat) (s : State) : State :=
  raiseAenWhere (fun _ c => (decide (old < c.tempOver) && decide (c.tempOver ≤ now)) || (decide (c.tempUnder < old) && decide (now ≤ c.tempUnder))) 1 1 s

/-- THERMAL_SAMPLE (R730, R731): the hottest of the 24 sensors, in quarter degrees (00 R23). -/
def execThermalSample (temp : Nat) (s : State) : Host.Outcome State Fault Refusal :=
  if s.top.dev = .off then .next s
  else
    let t := temp % 1024
    if t < 512 ∧ 480 ≤ t then .next (thermTrip t s)
    else
      let hot := if t < 512 then t else 0
      let old := kelvin s.pad.tj
      let s := thresholdSettle old (kelvin t) (updPad (fun p => { p with tj := t, tjMax := max p.tjMax hot }) s)
      .next (holdSettle hot (throttleSettle hot s))

/-! ## The TAP (R732, R733) -/

/-- Load an instruction that drives the pins: only while PORST_N is low, otherwise as BYPASS. -/
def tapDrive (code : Nat) (d : PinDrive) (s : State) : State :=
  if s.pad.porstLow then updPad (fun p => { p with tapIr := code, drive := d }) s else updPad (fun p => { p with tapIr := 0xFF }) s

/-- EXTEST: the boundary cells drive the pins. -/
def execExtest (cells : Nat) (s : State) : Host.Outcome State Fault Refusal :=
  let s := if s.pad.porstLow then updPad (fun p => { p with bsr := cells }) s else s
  .next (tapDrive 0 .boundary s)

/-- IDCODE (R732): the identification register is shifted out. -/
def execIdcode (s : State) : Host.Outcome State Fault Refusal :=
  .next (emit (.pin "TDO" 0x4C720F1B) (updPad (fun p => { p with tapIr := 1, drive := .functional }) s))

/-- SAMPLE/PRELOAD: the cells are loaded; operation is not disturbed. -/
def execSamplePreload (cells : Nat) (s : State) : Host.Outcome State Fault Refusal :=
  .next (updPad (fun p => { p with tapIr := 2, bsr := cells, drive := .functional }) s)

/-- CLAMP. -/
def execClamp (s : State) : Host.Outcome State Fault Refusal := .next (tapDrive 4 .clamp s)

/-- HIGHZ. -/
def execHighz (s : State) : Host.Outcome State Fault Refusal := .next (tapDrive 5 .highz s)

/-- BYPASS, and every code not listed (R733). -/
def execBypass (code : Nat) (s : State) : Host.Outcome State Fault Refusal :=
  .next (updPad (fun p => { p with tapIr := code % 256, drive := .functional }) s)

/-- A manufacturing instruction (R715, R733, codes 0x80 to 0xBF): only at PL0 with STRAP_TESTMODE judged 1, otherwise as BYPASS. What
a manufacturing test does is not described; here it only loads. -/
def execManufacturingTest (code : Nat) (s : State) : Host.Outcome State Fault Refusal :=
  if s.pad.testmode ∧ s.pad.testJudged ∧ protLevel s = 0 ∧ 0x80 ≤ code ∧ code ≤ 0xBF then
    .next (updPad (fun p => { p with tapIr := code, drive := .functional }) s)
  else .next (updPad (fun p => { p with tapIr := 0xFF, drive := .functional }) s)

end Sys2Proof.Machine
end

