-- ==== Sys2Proof/Machine/PowerFam.lean ====
section
/-! DEFINITION. Meanings of the power-window commands (01 R34 to R52). -/

namespace Sys2Proof.Machine

/-- QUIESCE_REQUEST (01 R34, R49): a write of TOP_STATE_CTL.REQ = 1. -/
def execQuiesceRequest (s : State) : Host.Outcome State Fault Refusal := .next (stateRequest 1 s)

/-- RETAINED_REQUEST (01 R34, R49). -/
def execRetainedRequest (s : State) : Host.Outcome State Fault Refusal := .next (stateRequest 2 s)

/-- RESUME_REQUEST (01 R38, R49). -/
def execResumeRequest (s : State) : Host.Outcome State Fault Refusal := .next (stateRequest 3 s)

/-- QUIESCE_DRAIN_EXPIRE (01 R34 step 2): writes not yet committed complete with Command Aborted due to Power Loss Notification,
and the later steps proceed. -/
def execQuiesceDrainExpire (s : State) : Host.Outcome State Fault Refusal :=
  if s.top.dev ≠ .quiescing ∨ s.top.req = none ∨ s.top.quiesceDone = true ∨ s.top.drained = true ∨ s.top.pwrActive = true then .next s
  else
    let s := (drainLeft s).foldl (fun s k => if (getTask s k).uncommitted then dropWrite k (finishRetry k 0 0x05) s else s) s
    .next (quiesceAdvance s)

/-- Milliseconds since the accepted request. -/
def reqMs (s : State) : Nat := min (2 ^ 32 - 1) ((s.tu.ticks - s.top.reqTick) / 312500)

/-- QUIESCE_COMPLETE (01 R34 step 5, R745): with checkpoint, time mark and CLEAN accepted, source 9 fires and QUIESCE_DONE sets; a
Retained request goes on. Otherwise the quiesce takes the steps that are due. -/
def execQuiesceComplete (s : State) : Host.Outcome State Fault Refusal :=
  let s := quiesceAdvance s
  let t := s.top
  if t.dev = .quiescing ∧ t.quiesceDone = false ∧ t.req ≠ none ∧ t.pwrActive = false ∧ t.ckptAccepted = true ∧ t.markAccepted = true
      ∧ t.cleanAccepted = true then
    let s := fire 9 (reqMs s) (updTop (fun t => { t with quiesceDone := true }) s)
    if t.retainedAfter then .next (beginRetained s) else .next (updTop (fun t => { t with req := none }) s)
  else .next s

/-- A Sirsis firmware opcode runs: Retained is entered after it completes (17 R658). -/
def sirBusy (s : State) : Bool := s.mgc.paths.any (fun e => match e.2.packet with
  | some q => decide (0x22 ≤ q.opcode)
  | none => false)

/-- RETAINED_ENTRY (01 R38, 15 R563): the CLEAN record with cause 1 is accepted; every group is gated and DRAM goes to
partial-array self-refresh. -/
def execRetainedEntry (s : State) : Host.Outcome State Fault Refusal :=
  if s.top.dev = .quiescing ∧ s.top.quiesceDone = true ∧ s.top.req = some .retained ∧ s.top.cleanAccepted = true ∧ sirBusy s = false then
    let s := dmcRetainedEntry (gateAll s)
    let s := updRcu (fun r => { r with dies := mapMapVals dieAge0 (fun _ a => { a with ticking := false }) r.dies, climate := none }) s
    let s := updTop (fun t => { t with req := none, retainedAfter := false, quiesceDone := false }) s
    .next (enterDev .retained 3 s)
  else .next s

/-- RETAINED_RESUME_DONE (01 R38, R39, 14 R538, 15 R564): the DMC and the BPM are back, groups that failed their stored-result
retrain train in full, and Serving is entered. -/
def execRetainedResumeDone (failedGroups : Nat) (s : State) : Host.Outcome State Fault Refusal :=
  if s.top.dev = .retained ∧ s.top.req = some .resume then
    let s0 := s
    let s := bpmInit (dmcLeaveSelfRefresh s)
    let gs := (List.range (groupCount s)).filter (fun g => natBits failedGroups g 1 = 1)
    let s := gs.foldl (fun s g => ((groupLinks s g).filter (fun k => (getLink s k).st == 2)).foldl (fun s k => trainFallback k s) s) s
    let s := enterDev .serving 4 (updTop (fun t => { t with req := none }) s)
    .next (linkSettle s0 ((List.range 8).foldl (fun s p => portTrainFull p s) s))
  else .next s

/-- TIME_MARK (01 R41). -/
def execTimeMark (s : State) : Host.Outcome State Fault Refusal :=
  if (s.top.dev = .serving ∨ s.top.dev = .quiescing) ∧ s.jnl.emergencyMode = false then .next (issueTime s) else .next s

/-- A write of TOP_SKIM_DUE (01 R52): 0 is taken as 1, and the thresholds are evaluated again. -/
def skimDueWrite (v : Nat) (s : State) : State := skimSettle (setRegSaved 0x24 (if v % 2 ^ 32 = 0 then 1 else v % 2 ^ 32) s)

/-- SKIM_DUE_WRITE (01 R47, R52): only the operator. -/
def execSkimDueWrite (w : Writer) (value : Word) (s : State) : Host.Outcome State Fault Refusal :=
  match w with
  | .operator => .next (skimDueWrite value.toNat s)
  | .firmware => .next s

end Sys2Proof.Machine
end

