-- ==== Sys2Proof/Machine/StoreFam.lean ====
section
/-! DEFINITION. The firmware store (18): programs and erases, continuous reads, settings pages, boot-slot selection, protection
levels, and hitless activation (17 R654 to R657); the Herdbook's pages (19 R698). -/

namespace Sys2Proof.Machine

/-! ## FWS_CMD (R665 to R668, R687, R688) -/

/-- The RESULT of a command on a sector. -/
def cmdResult (result sector : Nat) (s : State) : State :=
  updFws (fun f => { f with result := result, pulses := 0, lastSector := sector }) s

/-- A command while an operation runs: RESULT 0x1; nothing else changes (Table 18-8). -/
def cmdBusy (s : State) : State := updFws (fun f => { f with result := 1 }) s

/-- Who may write which sectors (R677, R687). -/
def storePermitted (s : State) (w : Writer) (sector : Nat) : Bool :=
  if 348 ≤ sector then false
  else if regionOf sector = 1 then protLevel s == 0
  else
    match w with
    | .firmware => true
    | .operator => protLevel s == 0 || (s.fws.recovery && decide (100 ≤ sector) && decide (sector ≤ 291))

/-- A sector holds a suspended erase. -/
def isSuspended (s : State) (sector : Nat) : Bool := s.fws.suspended.any (fun o => o.sector == sector)

/-- What an erase by command takes with it: settings in force lie in the current settings sector, Herdbook records in theirs. -/
def forgetSector (sector : Nat) (s : State) : State :=
  let s := if sector = s.fws.settingsSector then updFws (fun f => { f with saved := [] }) s else s
  if regionOf sector = 4 then dropRing sector s else s

/-- SECTOR_ERASE (R666, R687): a FWS_CMD write with OP 0x1. -/
def execSectorErase (w : Writer) (sector : Nat) (s : State) : Host.Outcome State Fault Refusal :=
  let k := sector % 512
  if s.fws.op.isSome then .next (cmdBusy s)
  else if storePermitted s w k = false then .next (cmdResult 2 k s)
  else if isSuspended s k then .next (cmdResult 4 k s)
  else if s.fws.suspended.isSome then .next (cmdBusy s)
  else .next (beginErase k .command (forgetSector k (cmdResult 0 k s)))

/-- The words of FWS_PROG_BUF (R691). -/
def progBuf (s : State) : List Word := (List.range 128).map (fun i => BitVec.ofNat 32 (getF s (F.FWS_PROG_BUF_DATA i)))

/-- PAGE_PROGRAM (R665, R687): a FWS_CMD write with OP 0x2. Data of all 0xFF completes without pulses and advances the pointer. -/
def execPageProgram (w : Writer) (sector page : Nat) (s : State) : Host.Outcome State Fault Refusal :=
  let k := sector % 512
  if s.fws.op.isSome then .next (cmdBusy s)
  else if storePermitted s w k = false then .next (cmdResult 2 k s)
  else if isSuspended s k ∨ sectorReady s k = false then .next (cmdResult 4 k s)
  else if (getSector s k).next ≠ page % 512 then .next (cmdResult 3 k s)
  else if (progBuf s).all (· == 0xFFFFFFFF) then
    .next (updSector k (fun x => { x with next := x.next + 1 }) (dropLines k (cmdResult 0 k s)))
  else .next (beginProgram k (page % 512) (progBuf s) .command (cmdResult 0 k s))

/-- The running operation ends with a RESULT. -/
def endStoreOp (o : StoreOp) (result pulses : Nat) (s : State) : State :=
  updFws (fun f => { f with op := none, result := result, pulses := if o.pulseMode then min 8 pulses else 0, lastSector := o.sector }) s

/-- The commit in progress has one operation more behind it. -/
def jobStep (ok : Bool) (s : State) : State :=
  updFws (fun f => { f with job := f.job.map (fun j => { j with done := j.done + 1, failed := j.failed || !ok }) }) s

/-- The next bad Herdbook sector above one is tried again (19 R699). -/
def retryBad (above : Nat) (s : State) : State :=
  match s.evc.badSectors.filter (fun k => decide (above < k)) with
  | [] => s
  | k :: rest => beginErase (rest.foldl min k) .herdbook s

/-- A sector is bad (R667); source 832 fires for one outside the Herdbook. -/
def markBad (sector : Nat) (s : State) : State :=
  let s := updSector sector (fun x => { x with bad := true }) s
  if regionOf sector = 4 then s else fire 832 sector s

/-- SECTOR_ERASE_DONE (R666 to R668): a failed margin-read continues in pulse-and-verify; the sector gets its header row or is
bad. -/
def execSectorEraseDone (ok : Bool) (pulses : Nat) (s : State) : Host.Outcome State Fault Refusal :=
  match s.fws.op with
  | none => .next s
  | some o =>
    if o.erase = false then .next s
    else if ok = false ∧ o.pulseMode = false then .next (updFws (fun f => { f with op := some { o with pulseMode := true } }) s)
    else
      let wasBad := (getSector s o.sector).bad
      let s := endStoreOp o (if ok then 0 else 6) pulses s
      let s := if ok then headSector o.sector o.count o.pulseMode (min 8 pulses) s else markBad o.sector s
      match o.user with
      | .herdbook =>
        if wasBad then
          let s := if ok then updEvc (fun e => { e with badSectors := e.badSectors.filter (· != o.sector) }) s else s
          .next (retryBad o.sector s)
        else if ok then .next (jobAdvance s)
        else .next (jobAdvance (hbSectorFail o.sector 6 s))
      | .commit => .next (jobAdvance (jobStep ok s))
      | .command =>
        let s := if wasBad then updSector o.sector (fun x => { x with bad := true }) s else s
        .next (jobAdvance (if ok = false ∧ regionOf o.sector = 4 ∧ wasBad = false then hbSectorFail o.sector 6 s else s))

/-- PAGE_PROGRAM_DONE (R665, R668). -/
def execPageProgramDone (ok : Bool) (pulses : Nat) (s : State) : Host.Outcome State Fault Refusal :=
  match s.fws.op with
  | none => .next s
  | some o =>
    if o.erase = true then .next s
    else if ok = false ∧ o.pulseMode = false then .next (updFws (fun f => { f with op := some { o with pulseMode := true } }) s)
    else
      let s := endStoreOp o (if ok then 0 else 5) pulses s
      let s := if ok then putPage (pageKey o.sector o.page) o.data s else s
      match o.user with
      | .herdbook => .next (jobAdvance (if ok then hbPageDone s else hbSectorFail o.sector 5 s))
      | .commit => .next (jobAdvance (jobStep ok s))
      | .command => .next (jobAdvance s)

/-! ## Suspension and reads (R670, R671) -/

/-- STORE_ERASE_SUSPEND (R671). -/
def execStoreEraseSuspend (s : State) : Host.Outcome State Fault Refusal :=
  match s.fws.op with
  | none => .next s
  | some o =>
    if o.erase ∧ flagF s F.FWS_CFG_SUSP_EN = true then .next (updFws (fun f => { f with op := none, suspended := some o }) s)
    else .next s

/-- STORE_ERASE_RESUME (R671, R672): not while another operation runs or while PWRWARN_N holds it. -/
def execStoreEraseResume (s : State) : Host.Outcome State Fault Refusal :=
  match s.fws.suspended with
  | none => .next s
  | some o =>
    if s.fws.op.isSome ∨ o.forPwr then .next s
    else .next (updFws (fun f => { f with op := some { o with runTick := s.tu.ticks }, suspended := none }) s)

/-- The word at a store address as a continuous read gives it (R670): 0 from the configuration region and, at PL1 and PL2, from
the slots and the boot configuration region; free from an unerased sector, which holds no valid data (R666). -/
def creadWord (addr : Nat) (s : State) : Word × State :=
  let sector := addr / 2 ^ 18
  let r := regionOf sector
  if r = 5 ∨ (r ≤ 3 ∧ protLevel s ≠ 0) then (0, s)
  else if (getSector s sector).headerOk = false then
    let (v, s) := drawFree 32 s
    (BitVec.ofNat 32 v, s)
  else (pageWord (getPage s (addr / 512)) (addr / 4 % 128), s)

/-- A read of FWS_CREAD_DATA: the word at FWS_CREAD_ADDR, which advances and wraps (R670, R689). A read during an erase suspends
it when SUSP_EN is set (R671). -/
def creadNext (s : State) : Word × State :=
  let a := getF s F.FWS_CREAD_ADDR_ADDR
  let s := match s.fws.op with
    | some o =>
      if o.erase ∧ flagF s F.FWS_CFG_SUSP_EN = true then updFws (fun f => { f with op := none, suspended := some o }) s else s
    | none => s
  let (v, s) := creadWord (4 * a) s
  (v, setF F.FWS_CREAD_ADDR_ADDR ((a + 1) % 2 ^ 25) s)

/-- CONTINUOUS_READ (R670). -/
def execContinuousRead (s : State) : Host.Outcome State Fault Refusal :=
  let (v, s) := creadNext s
  .next (emit (.value 0x11000014 v) s)

/-! ## Settings pages (R680) -/

/-- SETTINGS_PAGE_PROGRAM (R680): the oldest changed setting is programmed into the next settings page and is in force. An unerased
sector is erased first. It waits while an operation runs or the sector is full. -/
def execSettingsPageProgram (s : State) : Host.Outcome State Fault Refusal :=
  match s.fws.dirty with
  | [] => .next s
  | (id, vals) :: rest =>
    let k := s.fws.settingsSector
    if s.fws.op.isSome ∨ isSuspended s k = true then .next s
    else
      let s := if sectorReady s k then s else eraseNow k s
      if 512 ≤ (getSector s k).next then .next s
      else
        let seq := s.fws.settingsSeq + 1
        let s := updFws (fun f => { f with dirty := rest, saved := mapPut f.saved id vals, settingsSeq := seq }) s
        .next (writePage k [BitVec.ofNat 32 seq, 1] s)

/-- SETTINGS_COMPACT (R680): with fewer than 32 free pages, the live entries are copied into the next sector, and the sectors that
hold superseded entries alone are erased. How many pages the copies take is free. -/
def execSettingsCompact (s : State) : Host.Outcome State Fault Refusal :=
  let k := s.fws.settingsSector
  if s.fws.op.isSome ∨ s.fws.suspended.isSome = true ∨ (getSector s k).next ≤ 480 then .next s
  else
    let n := if k = 339 then 324 else k + 1
    let s := if sectorReady s n ∧ (getSector s n).next = 0 then s else eraseNow n s
    let (c, s) := drawFree 9 s
    let s := updSector n (fun x => { x with next := 1 + c % 480 }) s
    let s := updFws (fun f => { f with settingsSector := n, settingsSeq := f.settingsSeq + (1 + c % 480) }) s
    let old := (List.range 16).map (fun (i : Nat) => 324 + i)
    .next ((old.filter (fun i => i != n && decide (0 < (getSector s i).next))).foldl (fun s i => eraseNow i s) s)

/-! ## Boot-slot selection (R675 to R677, R683) -/

/-- Steps 2 and 3 of R676 on the current record. -/
def advanceRecord (r : BootRec) (watchdog : Bool) : BootRec :=
  let r := if r.next = 0 then r else { r with active := r.next, previous := r.active, trial := true, attempts := 0, next := 0 }
  if r.trial ∧ (watchdog = true ∨ 3 ≤ r.attempts) then
    { r with active := r.previous, previous := r.active, trial := false, reverted := true }
  else r

/-- The order in which slots are tried: ACTIVE, PREVIOUS, slot 1 and the remaining slot (R676 step 4). -/
def slotOrder (r : BootRec) : List Nat := ([r.active, r.previous, 1, 2, 3].filter (fun k => decide (1 ≤ k) && decide (k ≤ 3))).eraseDups

/-- The first record of a boot (19 Table 19-3). -/
def bootMarker (s : State) : HbRec :=
  occurrence s 3 0xFFFF 0 0 [readReg s 0x1000020, readReg s 0, readReg s 0x11000000, s.top.powerCycles, 0, 0, 0]

/-- The boot marker goes in front of every record of the boot; the last one leaves a full FIFO as a lost one (19 R697). -/
def markBoot (s : State) : State :=
  updEvc (fun e => { e with fifo := bootMarker s :: e.fifo.take 63, lost := e.lost + (e.fifo.length - 63) }) s

/-- STRAP_TESTMODE is judged once the protection level is known (20 R715). -/
def judgeTestmode (s : State) : State :=
  if s.pad.testJudged then s
  else
    let bad := s.pad.testmode && decide (protLevel s ≠ 0)
    let s := updPad (fun p => { p with testJudged := true, bad := if bad then p.bad ||| 8 else p.bad }) s
    if bad then fire 51 3 s else s

/-- Boot firmware writes the serial number, the vendor identifier and the MAC base address into the manufacturing region (sectors
340 to 347) when no page of the region is programmed (R664). Their layout is not stated: the words are free. -/
def restoreMfg (s : State) : State :=
  if s.fws.pages.any (fun e => decide (340 ≤ e.1 / 512) && decide (e.1 / 512 < 348)) then s
  else
    let s := if sectorReady s 340 then s else eraseNow 340 s
    let (w, s) := drawWords s 128
    writePage 340 w s

/-- A slot boots: its image is loaded, its revision and handover format are the running ones, and settings are restored. -/
def bootSlot (k : Nat) (unsigned reverted : Bool) (s : State) : State :=
  let x := parseHead (slotBytes s k 0 512)
  let s := updFws (fun f => { f with bootSlot := k, unsigned := unsigned }) s
  let s := updMgc (fun m => { m with revision := x.revision, hoOwn := x.own, actPhase := if s.fws.record.trial then 3 else 0 }) s
  let s := restoreMfg (restoreSettings s)
  let s := if unsigned then fire 834 k s else s
  if reverted then fire 835 k s else s

/-- BOOT_SLOT_SELECT (R676, R677, R683): with ERASE_PENDING the whole-store erase goes on instead. -/
def execBootSlotSelect (s : State) : Host.Outcome State Fault Refusal :=
  if s.top.dev ≠ .boot ∨ s.cru.stage ≠ .early ∨ s.fws.bootSlot ≠ 0 ∨ s.fws.recovery = true ∨ s.fws.erasePending = true then .next s
  else
    let s := countBoot (judgeTestmode s)
    let cur := (currentRecord s).1
    let r := advanceRecord cur (s.cru.cause == 2)
    let reverted := r.reverted && !cur.reverted
    let s :=
      match (slotOrder r).find? (fun k => classOk s (slotClass s k)) with
      | none => fire 833 0 (updFws (fun f => { f with recovery := true, record := r }) s)
      | some k =>
        let r := if k = r.active then r else { r with active := k, trial := false }
        let r := if r.trial then { r with attempts := r.attempts + 1 } else r
        let s := updFws (fun f => { f with record := r }) s
        let s := if r = cur then s else appendRecord r s
        bootSlot k (slotClass s k == 1) reverted s
    let s := markBoot s
    .next (if hbDegraded s ∧ s.fws.op.isNone = true then retryBad 0 s else s)

/-! ## Protection levels (R681 to R683) -/

/-- PROT_SET (R682): its STATUS and DETAIL, and what it does. -/
def protSet (level confirm : Nat) (s : State) : Nat × Nat × State :=
  let pl := protLevel s
  if confirm ≠ 0x504C0000 + level then (2, 20, s)
  else if 2 < level then (2, 16, s)
  else if level = pl then (0, 0, s)
  else if s.fws.job.isSome then (5, retryHint s, s)
  else if pl < level then
    let s := if level = 1 then updFws (fun f => { f with rowLevel := 1 }) s else { s with fuse := { s.fuse with pl2 := true } }
    (0, 0, fire 836 level s)
  else if pl = 2 then (0x10, 2, s)
  else if s.top.quiesceDone = false then (4, devCode s.top.dev, s)
  else (0, 0, updFws (fun f => { f with erasePending := true }) s)

/-- Every sector is erased in pulse-and-verify and has its header row (Table 18-7). The pulses of each are free. -/
def eraseStore (s : State) : State :=
  (List.range 512).foldl (fun s k =>
    let n := nextCount s k
    let (p, s) := drawFree 3 s
    headSector k n true (p + 1) (wipeSector k s)) s

/-- PROTECTION_ERASE_DONE (R682, R683): the store is empty, the level is PL0, and the device resets. -/
def execProtectionEraseDone (s : State) : Host.Outcome State Fault Refusal :=
  if s.fws.erasePending = false then .next s
  else
    let s := eraseStore s
    let s := updFws (fun f => { f with
        op := none, suspended := none, saved := [], dirty := [], record := defaultRecord, job := none, settingsSeq := 0
        settingsSector := 324, rowLevel := 0, erasePending := false, prefetch := [], branch := [] }) s
    let s := updEvc (fun e => { e with ring := [], badSectors := [], curSector := 292 }) s
    .next (deviceReset 1 (fire 836 0 s))

/-! ## Hitless activation (17 R654 to R657) -/

/-- ACTIVATION_PAUSE (17 R655, R656): the pause of `us` microseconds ends with the new image running from the other bank; Keep Alive
timers are extended by it. -/
def execActivationPause (us : Nat) (s : State) : Host.Outcome State Fault Refusal :=
  if s.mgc.actPhase ≠ 1 then .next s
  else
    let x := parseHead (slotBytes s s.mgc.actSlot 0 512)
    let n := min us 2000
    let s := updMgc (fun m => { m with
        activeBank := 1 - m.activeBank, actPhase := 3, pauseUs := n, revision := x.revision, hoOwn := x.own }) s
    let s := updQe (fun q => { q with ctls := mapMapVals ctl0 (fun _ c => { c with kaTick := c.kaTick + n * 625 / 2 }) q.ctls }) s
    let s := fire 803 s.mgc.actSlot s
    match s.fws.job with
    | none => .next (releaseHeld s)
    | some j => .next (releaseHeld (answerJob j 0 0 stSuccess 0 true (updFws (fun f => { f with job := none }) s)))

/-- ACTIVATION_ABANDON (17 R656). -/
def execActivationAbandon (us : Nat) (s : State) : Host.Outcome State Fault Refusal :=
  if s.mgc.actPhase = 1 then .next (releaseHeld (abandonActivation (retryHint s) us s)) else .next s

/-- PROBATION_END (17 R657, R676): the record of the active slot loses TRIAL and REVERTED. -/
def execProbationEnd (s : State) : Host.Outcome State Fault Refusal :=
  if s.mgc.actPhase ≠ 3 then .next s
  else
    let s := updMgc (fun m => { m with actPhase := 0 }) s
    .next (appendRecord { s.fws.record with trial := false, reverted := false } s)

/-! ## The Herdbook's pages (19 R698) -/

/-- HERDBOOK_PAGE_PROGRAM (19 R698, R699). -/
def execHerdbookPageProgram (s : State) : Host.Outcome State Fault Refusal := .next (hbProgram s)

/-- HERDBOOK_SECTOR_FAIL (19 R698): the current sector is bad. -/
def execHerdbookSectorFail (result : Nat) (s : State) : Host.Outcome State Fault Refusal :=
  .next (hbSectorFail s.evc.curSector result s)

end Sys2Proof.Machine
end

