-- ==== Sys2Proof/Machine/AccessOps.lean ====
section
/-! DEFINITION. Register accesses (00 R15 to R21, 02 R63 to R67): which registers answer, what a read changes, what a write does. -/

namespace Sys2Proof.Machine

/-- The state that a meaning answers. -/
def outcomeState (s : State) (o : Host.Outcome State Fault Refusal) : State :=
  match o with
  | .next t => t
  | _ => s

/-! ## Which registers answer -/

/-- A block is released from reset and its clock runs (16 Table 16-7, 02 R67). -/
def blockUp (s : State) (blk : Nat) : Bool :=
  if s.top.dev = .off then false
  else if blk = 0 ∨ blk = 1 ∨ blk = 2 ∨ (16 ≤ blk ∧ blk ≤ 19) then true
  else if s.top.dev = .retained then false
  else if blk = 3 ∨ blk = 7 ∨ blk = 8 ∨ blk = 9 ∨ blk = 15 then s.cru.stage == .trainers || s.cru.stage == .bpm || s.cru.stage == .all
  else if blk = 14 then s.cru.stage == .bpm || s.cru.stage == .all
  else s.cru.stage == .all

/-- Sirsis STATUS of one access (17 Table 17-8): 0, 7 unmapped (R17, R64), 8 block unavailable (R67). -/
def accessStatus (s : State) (addr : Nat) : Nat :=
  if 0x14000000 ≤ addr then 7
  else if blockUp s (addr / 0x1000000) = false then 8
  else if (regFind addr).isNone then 7
  else 0

/-- A register of a port that the active mode does not define, or of a fused-off link: reset values, writes ignored (00 R2, 03
R116). -/
def regAbsent (s : State) (addr : Nat) : Bool :=
  if 0x3001000 ≤ addr ∧ addr < 0x3001800 then !(portDefined s ((addr - 0x3001000) / 0x100))
  else if 0x7001000 ≤ addr ∧ addr < 0x7003000 then decide (linkCount s ≤ (addr - 0x7001000) / 0x40)
  else false

/-! ## Reads -/

/-- The high word of a 64-bit pair whose low word is at an address (00 R19). -/
def pairHigh (addr : Nat) : Option Nat :=
  if addr ∈ [0x4000014, 0x8000018, 0x9000034, 0xC000010, 0xF000044, 0x2000020, 0x2000040, 0x12000014] then some (addr + 4)
  else if 0x3001000 ≤ addr ∧ addr < 0x3001800 ∧ addr % 0x100 = 0x14 then some (addr + 4)
  else none

/-- RC fields return to their reset value (00 R20). -/
def clearRc (addr : Nat) (s : State) : State :=
  match regFind addr with
  | none => s
  | some d => setReg addr (d.fields.foldl (fun w f => if f.acc = .rc then natSetBits w f.lo f.width f.reset else w) (getReg s addr)) s

/-- A read of a register that has no shadow and no FIFO of its own: an armed shadow answers once; a low word arms the shadow of its
high word (00 R19). -/
def readPlain (addr : Nat) (s : State) : Nat × State :=
  match mapGet none s.shadows addr with
  | some v => (v, { s with shadows := mapDel s.shadows addr })
  | none =>
    let v := readReg s addr
    match pairHigh addr with
    | some h => (v, { s with shadows := mapSet none s.shadows h (some (readReg s h)) })
    | none => (v, clearRc addr s)

/-- One read of a register, with its effects; the block answers and the register exists. -/
def readAccess (addr : Nat) (s : State) : Nat × State :=
  if regAbsent s addr then (regReset addr, s)
  else if addr = 0x3000050 then ptpPop s
  else if addr = 0x2000010 then tuReadNow s
  else if addr = 0x2000014 then
    (s.tu.shadowLo.getD (readReg s addr), { s with tu := { s.tu with shadowLo := none } })
  else if addr = 0x2000018 then
    (s.tu.shadowHi.getD (readReg s addr), { s with tu := { s.tu with shadowHi := none } })
  else if addr = 0x11000014 then
    let (v, s) := creadNext s
    (v.toNat, s)
  else if addr = 0xE000038 then (readReg s addr, updBpm (fun b => { b with errShadow := some (readReg s 0xE00003C) }) s)
  else if addr = 0xE00003C then (s.bpm.errShadow.getD (readReg s addr), updBpm (fun b => { b with errShadow := none }) s)
  else if addr = 0xE000044 then (readReg s addr, updBpm (fun b => { b with inspShadow := some (readReg s 0xE000048) }) s)
  else if addr = 0xE000048 then (s.bpm.inspShadow.getD (readReg s addr), updBpm (fun b => { b with inspShadow := none }) s)
  else readPlain addr s

/-- A read by any path: 0 where nothing answers (R17, R64, R67). -/
def regReadAt (addr : Nat) (s : State) : Nat × State := if accessStatus s addr = 0 then readAccess addr s else (0, s)

/-! ## Writes -/

/-- W1C bits written with 1 clear (00 R20). -/
def writeW1c (addr v : Nat) (s : State) : State :=
  match regFind addr with
  | none => s
  | some d => setReg addr (d.fields.foldl (fun w f =>
      if f.acc = .w1c then natSetBits w f.lo f.width (natBits w f.lo f.width - (natBits w f.lo f.width &&& natBits v f.lo f.width)) else w)
      (getReg s addr)) s

/-- The word a plain write would leave. -/
def merged (s : State) (addr v : Nat) : Nat :=
  match regFind addr with
  | none => 0
  | some d => mergeWrite (regLocked s addr) (getReg s addr) v d.fields

/-- A write whose result breaks a rule of the register as a whole is ignored as a whole. -/
def guardedWrite (addr v : Nat) (bad : Nat → Bool) (s : State) : State := if bad (merged s addr v) then s else plainWrite addr v s

def writeTop (off v : Nat) (s : State) : State :=
  match off with
  | 0x14 => stateRequest (natBits v 0 3) s
  | 0x24 => skimDueWrite v s
  | _ => plainWrite off v s

def writeCru (off v : Nat) (s : State) : State :=
  let addr := 0x1000000 + off
  match off with
  | 0x4 =>
    if natBits v 2 1 = 1 then outcomeState s (execClockSwitchRequest .operator (natBits v 0 2) (natBits v 3 1 == 1) s) else plainWrite addr v s
  | 0x1C => outcomeState s (execRcTrimWrite .operator (BitVec.ofNat 32 v) s)
  | 0x20 => writeW1c addr v s
  | 0x24 => if natBits v 8 1 = 1 then outcomeState s (execDeviceReset .operator (natBits v 0 8) s) else s
  | _ => plainWrite addr v s

/-- The low word of ADDEND takes the held high word with it; a value too far from 2^42 changes neither (16 R623). -/
def writeAddend (v : Nat) (s : State) : State :=
  let hi := (mapGet none s.heldHigh 0x2000024).getD (getF s F.TU_ADDEND_HI_VALUE)
  let s := { s with heldHigh := mapDel s.heldHigh 0x2000024 }
  let n : Int := hi * 2 ^ 32 + v % 2 ^ 32
  if servoLimit < ((n - 2 ^ 42).natAbs : Int) then s else setAddend n s

def writeTu (off v : Nat) (s : State) : State :=
  let addr := 0x2000000 + off
  match off with
  | 0x20 => writeAddend v s
  | 0x24 => { s with heldHigh := mapSet none s.heldHigh addr (some (v % 2 ^ 32)) }
  | 0x28 => if 999999999 < (toSigned 32 v).natAbs then s else plainWrite addr v s
  | 0x2C => outcomeState s (execTuStep (BitVec.ofNat 32 v) s)
  | _ => plainWrite addr v s

/-- HFE_PORT_CNT_SEL (03 R120): CLEAR clears the counter named after the write. -/
def writeCntSel (p v : Nat) (s : State) : State :=
  let s := plainWrite (0x3001010 + p * 0x100) v s
  if natBits v 5 1 = 1 then updHfe (fun h => { h with counters := mapDel h.counters (p * 32 + natBits v 0 5) }) s else s

/-- HFE_PTP_CFG (03 R111): with PTP switched off a locked Time Unit enters Holdover (16 R604). -/
def writePtpCfg (v : Nat) (s : State) : State :=
  let was := flagF s F.HFE_PTP_CFG_ENABLE
  let s := plainWrite 0x3000040 v s
  if was = true ∧ flagF s F.HFE_PTP_CFG_ENABLE = false then tuHoldover s else s

def writeHfe (off v : Nat) (s : State) : State :=
  let addr := 0x3000000 + off
  if off = 0 then modeCtl v s
  else if off = 0x40 then writePtpCfg v s
  else if 0x1000 ≤ off then
    let p := (off - 0x1000) / 0x100
    match off % 0x100 with
    | 0x0 => portCtl p v s
    | 0x8 => guardedWrite addr v (fun w => natBits w 3 1 == 1 && natBits w 7 1 == 1 && natBits w 0 3 == natBits w 4 3) s
    | 0xC => guardedWrite addr v (fun w => decide (natBits w 0 16 ≤ natBits w 16 16)) s
    | 0x10 => writeCntSel p v s
    | _ => plainWrite addr v s
  else plainWrite addr v s

def writeTiu (off v : Nat) (s : State) : State :=
  let addr := 0x5000000 + off
  let t := (off - 0x100000) / 0x1000
  let o := off % 0x1000
  if off < 0x100000 then s
  else if 0x100 ≤ o ∧ o < 0x180 then keyWord t ((o - 0x100) / 32) (o % 32 / 4) (BitVec.ofNat 32 v) s
  else
    match o with
    | 0x0 => tenantCtl t v s
    | 0x18 => taskQuota t false v s
    | 0x1C => taskQuota t true v s
    | 0x24 => zoneQuota t v s
    | 0x34 => connQuota t v s
    | 0x40 => dieSet t v s
    | _ => tiuPlain t addr v s

/-- FLC_LN_CTL (07 R279). -/
def writeLink (k v : Nat) (s : State) : State :=
  let was := flagF s (F.FLC_LN_CTL_ENABLE k)
  let s := if natBits v 0 1 = 0 ∧ was = true then linkDisable k s else if natBits v 0 1 = 1 ∧ was = false then linkEnable k s else s
  let s := if natBits v 2 1 = 1 then linkFullTrain k s else if natBits v 1 1 = 1 then linkRetrain k s else s
  saveSetting (0x7001000 + k * 0x40) [getReg s (0x7001000 + k * 0x40)] s

def writeFlc (off v : Nat) (s : State) : State :=
  if off = 0 then budgetWrite v s
  else if off = 0x18 then gateCtlWrite v s
  else if 0x1000 ≤ off ∧ off % 0x40 = 0 then writeLink ((off - 0x1000) / 0x40) v s
  else plainWrite (0x7000000 + off) v s

def writeClc (off v : Nat) (s : State) : State :=
  let s := plainWrite (0x8000000 + off) v s
  if off = 0x14 ∧ natBits v 3 1 = 1 then exitClear (getF s F.CLC_EXIT_SEL_SEL) s else s

/-- RCU_LEARN_RESET (09 R369). -/
def learnResetWrite (v : Nat) (s : State) : State :=
  if natBits v 13 1 = 1 then outcomeState s (execLearnResetAll s)
  else if natBits v 12 1 = 1 then outcomeState s (execLearnResetDie (natBits v 0 12) s)
  else s

def writeRcu (off v : Nat) (s : State) : State :=
  if off = 0x0 ∨ off = 0x4 ∨ off = 0x8 then outcomeState s (execArrheniusConstantWrite .operator off (BitVec.ofNat 32 v) s)
  else if off = 0x14 then shelfTempWrite v s
  else if off = 0x24 then learnResetWrite v s
  else plainWrite (0x9000000 + off) v s

/-- A ceiling lies below its class's floor (11 R453): floors in 10 MB/s, ceilings in 0.1 GB/s. -/
def ceilBad (s : State) (w : Nat) : Bool :=
  let bad (c f : Nat) : Bool := decide (c * 10 < f)
  bad (natBits w 0 8) (getF s F.MME_FLOOR_CFG_CHURN) || bad (natBits w 8 8) (getF s F.MME_FLOOR_CFG_REFRESH)
    || bad (natBits w 16 8) (getF s F.MME_FLOOR_CFG_REBUILD)

def writeMme (off v : Nat) (s : State) : State :=
  let addr := 0xB000000 + off
  match off with
  | 0x10 => guardedWrite addr v (fun w => decide (natBits w 16 16 ≤ natBits w 0 16)) s
  | 0x1C => floorWrite v s
  | 0x20 => guardedWrite addr v (ceilBad s) s
  | _ => plainWrite addr v s

def writeIte (off v : Nat) (s : State) : State :=
  match off with
  | 0x0 => guardedWrite 0xD000000 v (fun w => decide (14 < natBits w 4 4 + natBits w 8 4)) s
  | 0x4 => keyCtlWrite v s
  | 0x14 =>
    let t := getF s F.ITE_TEN_SEL_TENANT
    saveKeys t (updKeys t (fun k => { k with report := natBits v 0 1 == 1 }) s)
  | _ => plainWrite (0xD000000 + off) v s

def writeBpm (off v : Nat) (s : State) : State :=
  if off = 0x30 then
    if natBits v 6 1 = 1 then outcomeState s (execBpmCntClear (natBits v 4 2) (natBits v 0 4) s) else plainWrite 0xE000030 v s
  else plainWrite (0xE000000 + off) v s

def writeDmc (off v : Nat) (s : State) : State :=
  let addr := 0xF000000 + off
  if 0x10 ≤ off ∧ off ≤ 0x1C then guardedWrite addr v (fun w => natBits w 0 4 != 2 ^ ((off - 0x10) / 4)) s
  else
    match off with
    | 0x24 => guardedWrite addr v (fun w => decide (natBits w 10 6 ≤ natBits w 16 6)) s
    | 0x28 => guardedWrite addr v (fun w => decide (natBits w 8 8 ≤ natBits w 0 8)) s
    | 0x50 => if natBits v 0 1 = 1 then saveSetting 0xF000050 [1] s else s
    | _ => plainWrite addr v s

def writeMgc (off v : Nat) (s : State) : State :=
  match off with
  | 0x4 => guardedWrite 0x10000004 v (fun w => decide (natBits w 0 7 ≤ natBits w 8 7)) s
  | 0x8 => guardedWrite 0x10000008 v (fun w => decide (natBits w 0 10 < natBits w 16 10)) s
  | _ => plainWrite (0x10000000 + off) v s

/-- FWS_CMD (18 R687): a reserved OP answers RESULT 0x7 unless an operation runs. -/
def fwsCmd (w : Writer) (v : Nat) (s : State) : State :=
  let sector := natBits v 8 9
  match natBits v 0 3 with
  | 0 => s
  | 1 => outcomeState s (execSectorErase w sector s)
  | 2 => outcomeState s (execPageProgram w sector (natBits v 17 9) s)
  | _ => if s.fws.op.isSome then cmdBusy s else cmdResult 7 sector s

/-- FWS_PROG_BUF takes the operator's words at PL0 and in recovery (18 R687, R691). -/
def bufPermitted (s : State) (w : Writer) : Bool :=
  match w with
  | .firmware => true
  | .operator => protLevel s == 0 || s.fws.recovery

def writeFws (w : Writer) (off v : Nat) (s : State) : State :=
  if off = 0x8 then fwsCmd w v s
  else if 0x1000 ≤ off then (if bufPermitted s w then plainWrite (0x11000000 + off) v s else s)
  else plainWrite (0x11000000 + off) v s

/-- A mask register of a bank: bits of reserved sources ignore writes (19 R692, R711). -/
def writeEvcMask (addr v : Nat) (s : State) : State :=
  let m := evcExistsMask ((addr - 0x12001000) / 0x20)
  setRegSaved addr ((getReg s addr - (getReg s addr &&& m)) + (v &&& m)) s

def writeEvc (off v : Nat) (s : State) : State :=
  let addr := 0x12000000 + off
  if 0x1000 ≤ off then (if off % 0x20 = 4 then writeW1c addr v s else writeEvcMask addr v s)
  else if off = 0x1C then outcomeState s (execSwRaise (BitVec.ofNat 32 v) s)
  else plainWrite addr v s

/-- The effect of a write on a register that answers. -/
def writeEffect (w : Writer) (addr v : Nat) (s : State) : State :=
  let off := addr % 0x1000000
  match addr / 0x1000000 with
  | 0 => writeTop off v s
  | 1 => writeCru off v s
  | 2 => writeTu off v s
  | 3 => writeHfe off v s
  | 5 => writeTiu off v s
  | 6 => zmSettle s (plainWrite addr v s)
  | 7 => writeFlc off v s
  | 8 => writeClc off v s
  | 9 => writeRcu off v s
  | 11 => writeMme off v s
  | 12 => if off = 4 then ckptCfgWrite w v s else plainWrite addr v s
  | 13 => writeIte off v s
  | 14 => writeBpm off v s
  | 15 => writeDmc off v s
  | 16 => writeMgc off v s
  | 17 => writeFws w off v s
  | 18 => writeEvc off v s
  | _ => plainWrite addr v s

/-- Registers that only the operator writes. -/
def regOpOnly (addr : Nat) : Bool :=
  match regFind addr with
  | some d => d.opOnly
  | none => false

/-- A write by a writer: without effect where nothing answers, for an absent register, and by firmware on the operator's registers. -/
def regWriteAt (w : Writer) (addr v : Nat) (s : State) : State :=
  if accessStatus s addr ≠ 0 ∨ regAbsent s addr = true ∨ (w = .firmware ∧ regOpOnly addr = true) then s else writeEffect w addr v s

end Sys2Proof.Machine
end

