-- ==== Sys2Proof/Machine/HealthOps.lean ====
section
/-! DEFINITION. Reading the Herdbook and the health of the device (19 R702, R703, 11 R421, 17 R653, 05 R168, R170). -/

namespace Sys2Proof.Machine

/-! ## The Herdbook read (19 R702) -/

/-- The mirror can be read: the flash side serves reads. -/
def mirrorReadable (s : State) : Bool := s.top.readsOk && s.top.dev != .retained

/-- Records of the mirror that no other place holds. -/
def mirrorOnly (s : State) : List HbRec :=
  if mirrorReadable s then s.evc.mirror.filter (fun r => !((hbRecords s).any (fun x => x.seq == r.seq))) else []

/-- Every valid record, each once, by the places in R702's order, in ascending SEQ. -/
def hbAll (s : State) : List HbRec :=
  sortBy HbRec.seq ((hbRecords s ++ mirrorOnly s).foldl (fun l r => if l.any (fun x => x.seq == r.seq) then l else l ++ [r]) [])

/-- OLDEST: the lowest SEQ available; with none, the SEQ the next record takes. -/
def hbOldest (s : State) : Nat :=
  match hbAll s with
  | r :: _ => r.seq
  | [] => s.evc.nextSeq

/-- Some SEQ between the first and the last of the records is missing. -/
def seqGap (l : List HbRec) : Bool := (l.zip (l.drop 1)).any (fun p => p.2.seq != p.1.seq + 1)

/-- The header of Table 19-4 and at most `most` records from a cursor on. -/
def hbReply (cursor most : Nat) (s : State) : List Nat :=
  let all := hbAll s
  let oldest := hbOldest s
  let start := if cursor = 0 then oldest else cursor
  let rs := (all.filter (fun r => decide (start ≤ r.seq))).take most
  let next := match rs.getLast? with
    | some r => r.seq + 1
    | none => start
  let flags := bitOf (decide (cursor ≠ 0) && decide (cursor < oldest)) + bitAt (!(all.any (fun r => decide (next ≤ r.seq)))) 1
    + bitAt (rs.any (fun r => (mirrorOnly s).any (fun x => x.seq == r.seq))) 2 + bitAt (seqGap rs) 3
  leBytes 8 next ++ leBytes 8 oldest ++ leBytes 2 rs.length ++ [flags] ++ List.replicate 5 0 ++ rs.flatMap hbBytes

/-! ## Health (19 R703) -/

/-- Percentage Used and Available Spare (11 R421). -/
def percentUsed (s : State) : Nat := min 255 (100 * max (meanWear s 0) (max (meanWear s 1) (meanWear s 2)) / 30000)
def spareValue (s : State) : Nat := min 100 (100 * (max 0 (spare s)).toNat / max 1 (getF s F.MME_SPARE_CFG_FULL))

/-- The media side has served reads, so that the flags of its blocks mean something (01 R48). -/
def mediaUp (s : State) : Bool := s.top.readsOk && s.top.dev != .retained

/-- Flags that CRIT_WARN takes up. -/
def spareBelow (s : State) : Bool := mediaUp s && decide (spareValue s < 10)
def thermalFlag (s : State) : Bool :=
  (decide (s.pad.tj < 512) && decide (400 ≤ s.pad.tj)) || s.flc.dies.any (fun e => e.2.throttle)
def zonedUnavailable (s : State) : Bool := mediaUp s && linksFew s
def jnlGapFlag (s : State) : Bool := s.jnl.gap
def twoLostFlag (s : State) : Bool := decide (0 < hurtStripes s 2)
def lostUnitsFlag (s : State) : Bool := s.tabs.lostUnits != []

/-- FLAGS of Table 19-5. -/
def healthFlags (s : State) : Nat :=
  bitOf (hbDegraded s) + bitAt (s.evc.badSectors != []) 1 + bitAt s.evc.mirrorDown 2 + bitAt s.top.skimSoon 3
    + bitAt s.top.skimOverdue 4 + bitAt (zonedUnavailable s) 5 + bitAt s.mme.convWp 6 + bitAt (mediaUp s && openRefusing s) 7
    + bitAt (mediaUp s && reserveLow s) 8 + bitAt (spareBelow s) 9 + bitAt (thermalFlag s) 10 + bitAt (s.cru.rootMode != 0) 11
    + bitAt (s.tu.st != 3) 12 + bitAt s.top.pwrStuck 13 + bitAt (s.pad.stuck || s.pad.pins.any (fun e => e.2.chatter)) 14
    + bitAt (jnlGapFlag s) 15 + bitAt s.jnl.unsafeLast 16 + bitAt s.fws.record.reverted 17 + bitAt s.fws.unsigned 18
    + bitAt s.dmc.cold 19 + bitAt (decide (0 < hurtStripes s 1)) 20 + bitAt (twoLostFlag s) 21 + bitAt (lostUnitsFlag s) 22
    + bitAt s.mgc.shed 23 + bitAt (s.flc.dies.any (fun e => e.2.draining)) 24

/-- CRIT_WARN of Table 19-5. -/
def critWarn (s : State) : Nat :=
  bitOf (spareBelow s) + bitAt (thermalFlag s) 1
    + bitAt (s.top.skimOverdue || zonedUnavailable s || jnlGapFlag s || twoLostFlag s || lostUnitsFlag s || hbDegraded s) 2

/-- LATCHED: banks with a LATCH bit set. -/
def latchedBanks (s : State) : Nat := ((List.range 48).map (fun b => bitAt (getF s (F.EVC_LATCHb_LATCH b) != 0) b)).sum

/-- The 32 bytes of HEALTH_READ (Table 19-5). -/
def healthReply (s : State) : List Nat :=
  leBytes 4 (healthFlags s) ++ [critWarn s, 0, 0, 0] ++ leBytes 8 s.evc.nextSeq ++ leBytes 8 (hbOldest s)
    ++ leBytes 6 (latchedBanks s) ++ [0, 0]

/-! ## Identity -/

/-- ASCII bytes padded with spaces, or cut, to a length. -/
def padTo (n fill : Nat) (l : List Nat) : List Nat := (l ++ List.replicate n fill).take n

/-- The characters of a serial number or revision that is kept as the number its bytes spell. -/
def textBytes (n v : Nat) : List Nat := (leBytes n v).takeWhile (· != 0)

/-- The serial number field (05 Table 05-4): 20 characters. -/
def serialField (s : State) : List Nat := padTo 20 0x20 (textBytes 20 s.fuse.serial)

/-- The model number field: "Gnotrilon GN-CX7200-A" or "Gnotrilon GN-CX7164-A" (05 Table 05-4). -/
def modelField (s : State) : List Nat :=
  padTo 40 0x20 (beBytes 16 0x476E6F7472696C6F6E20474E2D435837 ++ beBytes 5 (if s.fuse.gradeB then 0x3136342D41 else 0x3230302D41))

/-- The firmware revision field: 8 characters. -/
def revField (v : Nat) : List Nat := padTo 8 0x20 (textBytes 8 v)

/-! ## NVMe-MI Basic Management data (17 R653) -/

/-- CRC-8 with polynomial x⁸ + x² + x + 1 of the SMBus packet error code. -/
def pecBit (c : Nat) : Nat := if 128 ≤ c then ((c * 2) ^^^ 0x107) % 256 else c * 2
def pecByte (c b : Nat) : Nat := pecBit (pecBit (pecBit (pecBit (pecBit (pecBit (pecBit (pecBit (c ^^^ b))))))))
def pec (l : List Nat) : Nat := l.foldl pecByte 0

/-- Composite Temperature as NVMe-MI encodes it: °C from −60 to 127 (PRESUMED: the encoding of NVMe-MI). -/
def miTemp (tj : Nat) : Nat :=
  let c := toSigned 10 tj / 4
  if 127 ≤ c then 0x7F else if c ≤ -60 then 0xC4 else ofSigned 8 c

/-- The transfer header of a block read at address 0x6A: the write address, the command code, the read address. -/
def miHeader (code : Nat) : List Nat := [0xD4, code, 0xD5]

/-- Table 17-9; the Vendor ID is most significant byte first, as NVMe-MI sends it (00 R12). Status Flags bit 7 is the SMBus arbitration bit, 1 when this block read wins it. -/
def miData (s : State) : List Nat :=
  let flags := 0x80 + bitAt (!(s.top.adminOk && s.top.dev != .retained)) 6 + bitAt (!s.dmc.halted) 5 + 0x10 + 0x07
  let a := [6, flags, 255 - critWarn s, miTemp s.pad.tj, percentUsed s, 0, 0]
  let b := [22] ++ beBytes 2 s.fuse.vendor ++ serialField s
  a ++ [pec (miHeader 0 ++ a)] ++ b ++ [pec (miHeader 8 ++ b)]

end Sys2Proof.Machine
end

