-- ==== Sys2Proof/Machine/AdminOps.lean ====
section
/-! DEFINITION. Operations of the admin commands (05 R161 to R171, R180 to R187, 17 R635): what may run, data in and out, the
Identify structures, log pages and features. Layouts that the spec does not print are those of NVMe Base 2.x (PRESUMED). -/

namespace Sys2Proof.Machine

/-! ## What may run -/

/-- The controller of a task. -/
def ctlOf (s : State) (t : Task) : Ctl := mapGet ctl0 s.qe.ctls (ctlKey t.tenant t.cntlid)

/-- Admin opcodes of Table 05-1 that a controller of a tenant serves; the Discovery controller serves those that need no
namespace. -/
def adminOpcodes (tenant : Nat) : List Nat :=
  let base := [0x02, 0x06, 0x08, 0x09, 0x0A, 0x0C, 0x18, 0x7F]
  if tenant = 0 then base ++ [0x10, 0x11, 0x15, 0x80, 0x84, 0xC4]
  else if tenant ≤ 512 then base ++ [0x15, 0x80, 0x84] else base

/-- A Sanitize runs on the tenant's subsystem and the command is not among those that NVMe allows meanwhile (05 R182). PRESUMED: the
list of NVMe Base 2.x. -/
def sanitizeBars (s : State) (t : Task) : Bool :=
  sanitizing s t.tenant
    && (t.cap.opc == 0x80 || t.cap.opc == 0x84 || t.cap.opc == 0x10 || t.cap.opc == 0x11 || t.cap.opc == 0x15
      || (t.cap.opc == 0x02 && !([0x01, 0x02, 0x04, 0x81].contains (t.cap.cdw10 % 256))))

/-- A command fetched on an admin queue and not yet executed. -/
def adminWaits (s : State) (slot : Nat) : Bool :=
  let t := getTask s slot
  t.st == .admitted && t.admin && !t.internal

/-- Execute an admin command of one opcode: a queue without a controller, an opcode not served, and a running Sanitize have their
statuses (05 R161, R182). -/
def adminRun (slot opc : Nat) (f : Task → Ctl → State → State) (s : State) : State :=
  let t := getTask s slot
  if adminWaits s slot = false ∨ t.cap.opc ≠ opc then s
  else if (ctlOf s t).live = false ∨ t.sqid ≠ 0 then finishErr slot 0 0x02 s
  else if (adminOpcodes t.tenant).contains opc = false then finishErr slot 0 0x01 s
  else if sanitizeBars s t then finishErr slot 0 0x1D s
  else f t (ctlOf s t) s

/-! ## Data -/

/-- Data goes to the host and the command completes. -/
def replyData (slot : Nat) (bytes : List Nat) (s : State) : State :=
  let t := getTask s slot
  finishOk slot (emit (.data t.conn t.cap.cid bytes) (transmit t.conn s))

/-- Data of a structure of fixed length: the SGL must hold it. -/
def replyFixed (slot : Nat) (bytes : List Nat) (s : State) : State :=
  if (getTask s slot).cap.sglLen < bytes.length then finishErr slot 0 0x0F s else replyData slot bytes s

/-- Ask the host for the next range of an admin command's data (03 R96). -/
def adminFetch (slot n : Nat) (s : State) : State :=
  let t := getTask s slot
  let c := getConn s t.conn
  let limit := if c.tcp then min 16 c.maxR2t else 16
  if n ≤ t.moved ∨ limit * 131072 ≤ t.moved - landedBytes t then s
  else
    let s := updTask slot (fun t => { t with moved := t.moved + min 131072 (n - t.moved) }) s
    emit (.frame t.conn (if c.tcp then "R2T" else "RDMA READ") t.moved) (transmit t.conn s)

/-- The data that has landed. -/
def landedData (t : Task) : List Nat := t.units.flatMap (fun e => leBytes e.2.bytes e.2.data)

/-- Give a command its `n` bytes of host data: in the capsule, or fetched over repeated executions. -/
def withData (slot n : Nat) (f : List Nat → State → State) (s : State) : State :=
  let t := getTask s slot
  if t.cap.inCapsule ≠ [] then (if t.cap.inCapsule.length = n then f t.cap.inCapsule s else finishErr slot 0 0x0F s)
  else if t.cap.sglLen ≠ n then finishErr slot 0 0x0F s
  else if n ≤ landedBytes t then f (landedData t) s
  else adminFetch slot n s

/-- Bytes at offsets, zero elsewhere; offsets rise. -/
def layout (total : Nat) : Nat → List (Nat × List Nat) → List Nat
  | pos, [] => List.replicate (total - pos) 0
  | pos, (o, b) :: rest => List.replicate (o - pos) 0 ++ b ++ layout total (o + b.length) rest

/-! ## Identify (05 R168, 07 R265) -/

/-- The subsystem NQN of a tenant (04 R122), and the discovery NQN. -/
def nqnPrefix : List Nat := beBytes 33 0x6E716E2E323031392D30342E636F6D2E676E6F7472696C6F6E3A6378373230303A
def discNqn : List Nat := beBytes 36 0x6E716E2E323031342D30382E6F72672E6E766D657870726573732E646973636F76657279
def tenantNqn (s : State) (t : Nat) : List Nat :=
  nqnPrefix ++ textBytes 20 s.fuse.serial ++ [0x3A, 0x74, 0x30 + t / 100 % 10, 0x30 + t / 10 % 10, 0x30 + t % 10]

/-- Flash budget in W of a power state (07 Table 07-15). -/
def psBudget (s : State) (ps : Nat) : Nat :=
  match ps with
  | 0 => getF s F.FLC_PWR_BUDGET_BUDGET_W
  | 1 => 200
  | 2 => 120
  | 3 => 80
  | _ => 40

/-- A power-state descriptor: MP in 0.01 W, relative fields equal to the state number (07 R265). -/
def psd (s : State) (ps : Nat) : List Nat :=
  layout 32 0 [(0, leBytes 2 ((115 + psBudget s ps) * 100)), (12, [ps, ps, ps, ps])]

/-- A controller of the Discovery subsystem. -/
def isDisc (t : Task) : Bool := t.tenant == discTenant

/-- OAES: the events of 05 Table 05-10 that NVMe lets a controller announce. -/
def oaes (disc : Bool) (tenant : Nat) : Nat :=
  if disc then 2 ^ 31 else 2 ^ 8 + bitAt (tenant == 0) 9 + 2 ^ 11 + 2 ^ 27

/-- Identify Controller (05 Table 05-4). -/
def idController (s : State) (t : Task) : List Nat :=
  let disc := isDisc t
  layout 4096 0
    [(0, leBytes 2 s.fuse.vendor), (4, serialField s), (24, modelField s), (64, revField s.mgc.revision), (76, [0x0B, 9]),
     (78, leBytes 2 t.cntlid), (80, leBytes 4 0x20000), (92, leBytes 4 (oaes disc t.tenant)), (111, [if disc then 2 else 1]),
     (128, leBytes 2 1), (130, leBytes 2 10), (132, leBytes 2 100), (256, leBytes 2 (2 + bitAt (t.tenant == 0) 2)),
     (258, [7, 7, 0x17, 0x06, 63, 4]), (320, leBytes 2 1), (328, leBytes 4 6), (343, [0x43]), (344, leBytes 4 1), (348, leBytes 4 1),
     (512, [0x66, 0x44]), (514, leBytes 2 4096), (516, leBytes 4 16), (520, leBytes 2 0x8C), (525, [0x07]), (526, leBytes 2 511),
     (528, leBytes 2 511), (536, leBytes 4 0x5), (540, leBytes 4 16), (768, if disc then discNqn else tenantNqn s t.tenant),
     (1792, leBytes 4 4), (1796, leBytes 4 1), (1803, [1]), (2048, (List.range 5).flatMap (psd s)),
     (3072, leBytes 4 (if disc then 0 else getF s (F.TIU_TEN_QP_QP_MAX t.tenant)))]

/-- Capacity of a namespace in LBAs: of a zoned one, what its zones that are not Offline hold. -/
def nsCapacity (s : State) (n : Nat) : Nat :=
  let x := getNs s n
  if x.conv then x.size
  else
    let listed := s.tabs.zones.filter (fun e => zoneNs e.1 == n)
    (listed.map (fun e => if e.2.st = .offline then 0 else e.2.zcap)).sum + (x.size - listed.length) * zone0.zcap

/-- Identify Namespace (05 R167, R178). -/
def idNamespace (s : State) (n : Nat) : List Nat :=
  let x := getNs s n
  layout 4096 0
    [(0, leBytes 8 (nsLbas x)), (8, leBytes 8 (nsCapacity s n)), (16, leBytes 8 (nsCapacity s n)), (30, [1]), (33, [bitOf x.conv]),
     (92, leBytes 4 1), (128, leBytes 4 0xC0000)]

/-- A 0's-based quota; 0 is reported for 0 as for 1 (R168). -/
def minusOne (n : Nat) : Nat := n - 1

/-- The zoned I/O command set specific Identify Namespace (R168). -/
def idZoned (s : State) (n : Nat) : List Nat :=
  let t := (getNs s n).tenant
  let om := getF s (F.TIU_TEN_ZONES_OPEN_MAX t)
  let am := getF s (F.TIU_TEN_ZONES_ACTIVE_MAX t)
  layout 4096 0
    [(0, leBytes 2 1), (2, leBytes 2 1), (4, leBytes 4 (minusOne am)), (8, leBytes 4 (minusOne om)), (2816, leBytes 8 zoneLbas),
     (3072, leBytes 4 om), (3076, leBytes 4 am)]

/-- Active NSIDs above one, ascending: attached to the controller, and of a command set when one is asked for. -/
def activeNsids (s : State) (t : Task) (csi : Option Nat) : List Nat :=
  sortBy id ((s.tabs.nss.filter (fun e => e.2.valid && e.2.tenant == t.tenant && e.2.attached.contains t.cntlid && decide (t.cap.nsid < e.2.nsid)
    && (match csi with
      | some c => c == (if e.2.conv then 0 else 2)
      | none => true))).map (fun e => e.2.nsid))

/-- Identify (Table 05-1): the structure of a CNS, or the status it fails with. -/
def identifyData (s : State) (t : Task) : (Nat × Nat) ⊕ List Nat :=
  let cns := t.cap.cdw10 % 256
  let csi := t.cap.cdw11 / 2 ^ 24 % 256
  let list (l : List Nat) : (Nat × Nat) ⊕ List Nat := .inr (layout 4096 0 [(0, (l.take 1024).flatMap (leBytes 4))])
  let ns (f : Nat → (Nat × Nat) ⊕ List Nat) : (Nat × Nat) ⊕ List Nat :=
    match nsOf s t with
    | some n => f n
    | none => .inl (0, 0x0B)
  if cns = 0x01 then .inr (idController s t)
  else if isDisc t then .inl (0, 0x02)
  else if cns = 0x00 then ns (fun n => .inr (idNamespace s n))
  else if cns = 0x02 then (if 0xFFFFFFFE ≤ t.cap.nsid then .inl (0, 0x0B) else list (activeNsids s t none))
  else if cns = 0x03 then ns (fun n => .inr (layout 4096 0 [(0, [4, 1, 0, 0, if (getNs s n).conv then 0 else 2])]))
  else if cns = 0x05 then ns (fun n =>
    if csi ≠ (if (getNs s n).conv then 0 else 2) then .inl (0, 0x02)
    else if (getNs s n).conv then .inr (List.replicate 4096 0) else .inr (idZoned s n))
  else if cns = 0x06 then
    (if csi = 0 then .inr (layout 4096 0 [(1, [9])]) else if csi = 2 then .inr (layout 4096 0 [(0, [9])]) else .inl (0, 0x02))
  else if cns = 0x07 then
    (if csi ≠ 0 ∧ csi ≠ 2 then .inl (0, 0x02) else if 0xFFFFFFFE ≤ t.cap.nsid then .inl (0, 0x0B) else list (activeNsids s t (some csi)))
  else if cns = 0x1C then .inr (layout 4096 0 [(0, leBytes 8 5)])
  else .inl (0, 0x02)

/-! ## Log pages (05 R170) -/

/-- Error Information: 64 entries of 64 bytes, newest first. -/
def logErrors (c : Ctl) : List Nat := layout 4096 0 [(0, c.errors.flatMap (leBytes 64))]

/-- The Composite Temperature crosses a threshold of the controller (19 R703). -/
def thresholdCrossed (s : State) (c : Ctl) : Bool := decide (c.tempOver ≤ kelvin s.pad.tj) || decide (kelvin s.pad.tj ≤ c.tempUnder)

/-- Thousands of 512-byte units of a number of LBAs, rounded up. -/
def dataUnits (lbas : Nat) : Nat := (lbas * 8 + 999) / 1000

/-- SMART / Health Information (11 R421, 19 R703): the spec gives no Controller Busy Time, which is a free value. -/
def logSmart (s : State) (t : Task) (c : Ctl) (busy : Nat) : List Nat :=
  let x := getTenant s t.tenant
  let w := critWarn s
  layout 512 0
    [(0, [w % 2 + bitAt (thermalFlag s || thresholdCrossed s c) 1 + w / 4 * 4]), (1, leBytes 2 (kelvin s.pad.tj)),
     (3, [spareValue s, 10, percentUsed s]), (32, leBytes 16 (dataUnits x.readLbas)), (48, leBytes 16 (dataUnits x.writeLbas)),
     (64, leBytes 16 x.readCmds), (80, leBytes 16 x.writeCmds), (96, leBytes 16 busy), (112, leBytes 16 s.top.powerCycles),
     (128, leBytes 16 (s.top.poweredSec / 3600)), (144, leBytes 16 s.top.unsafeCount), (160, leBytes 16 x.mediaErrors),
     (176, leBytes 16 ((c.errors.head?.map (· % 2 ^ 64)).getD 0))]

/-- The revision of a slot that holds an image; otherwise zero. -/
def slotRevision (s : State) (k : Nat) : List Nat :=
  if slotClass s k = 0 then List.replicate 8 0 else revField (parseHead (slotBytes s k 0 512)).revision

/-- Firmware Slot Information. -/
def logFirmware (s : State) : List Nat :=
  layout 512 0 [(0, [s.fws.bootSlot % 8 + s.fws.record.next % 8 * 16]), (8, slotRevision s 1), (16, slotRevision s 2), (24, slotRevision s 3)]

/-- Changed Namespace List. -/
def logChangedNs (c : Ctl) : List Nat :=
  layout 4096 0 [(0, if 1024 < c.changedNs.length then leBytes 4 0xFFFFFFFF else (sortBy id c.changedNs).flatMap (leBytes 4))]

/-- Effects of one opcode: supported; bit 1 when it changes data. -/
def effect (ops writes : List Nat) (o : Nat) : List Nat := leBytes 4 (bitOf (ops.contains o) + bitAt (writes.contains o) 1)

/-- Commands Supported and Effects (R161, R165): admin commands, then the I/O commands of the command set asked for. -/
def logEffects (t : Task) : List Nat :=
  let io := if isDisc t then [] else if t.cap.cdw14 / 2 ^ 24 % 256 = 2 then [0x00, 0x01, 0x02, 0x08, 0x0C, 0x79, 0x7A, 0x7D]
    else [0x00, 0x01, 0x02, 0x08, 0x09, 0x0C]
  layout 4096 0
    [(0, (List.range 256).flatMap (effect (adminOpcodes t.tenant) ((adminOpcodes t.tenant).filter (fun o => o == 0x80 || o == 0x84)))),
     (1024, (List.range 256).flatMap (effect io (io.filter (fun o => o == 0x01 || o == 0x08 || o == 0x09 || o == 0x79 || o == 0x7D))))]

/-- Asymmetric Namespace Access: one group, with its NSIDs unless groups only are asked for (R168, 03 R78). -/
def logAna (s : State) (t : Task) (c : Ctl) : List Nat :=
  let ids := if natBits t.cap.cdw10 8 1 = 1 then [] else activeNsids s { t with cap := { t.cap with nsid := 0 } } none
  let n := 48 + 4 * ids.length
  layout n 0
    [(0, leBytes 8 c.anaCount), (8, leBytes 2 1), (16, leBytes 4 1), (20, leBytes 4 ids.length), (24, leBytes 8 c.anaCount),
     (32, [if (getPort s c.port).nonOpt then 2 else 1]), (48, ids.flatMap (leBytes 4))]

/-- Sanitize Status of the tenant's subsystem (R182, 12 R485): SPROG, SSTAT, SCDW10, and no time estimates. -/
def logSanitize (s : State) (t : Task) : List Nat :=
  let v := mapGet san0 s.tabs.sanLog t.tenant
  let now := if sanitizing s t.tenant then s.tabs.san else v
  let done := now.total - now.work.length
  let sprog := if sanitizing s t.tenant then min 65535 (65536 * done / max 1 now.total) else 0xFFFF
  let cdw10 := if now.status = 0 then 0 else now.action + bitAt now.ause 3 + now.passes % 16 * 16 + bitAt now.oipbp 8
  layout 512 0
    [(0, leBytes 2 sprog), (2, leBytes 2 (now.status + now.pass % 32 * 8)), (4, leBytes 4 cdw10), (8, List.replicate 24 0xFF)]

/-- Changed Zone List of a namespace. -/
def logZones (c : Ctl) (n : Nat) : List Nat :=
  let l := sortBy id ((c.changedZones.filter (fun k => unitNs k == n)).map unitLba)
  if 511 < l.length then layout 4096 0 [(0, leBytes 2 0xFFFF)]
  else layout 4096 0 [(0, leBytes 2 l.length), (8, l.flatMap (leBytes 8))]

/-! ## The Discovery log (03 R98) -/

/-- A host may reach a tenant's subsystem (04 R127). -/
def hostAllowed (s : State) (t host : Nat) : Bool := flagF s (F.TIU_TEN_CTL_ANY_HOST t) || (getTenant s t).acl.contains host

/-- Decimal and hexadecimal digits in ASCII. -/
def decText (n : Nat) : List Nat :=
  (if 100 ≤ n then [0x30 + n / 100 % 10] else []) ++ (if 10 ≤ n then [0x30 + n / 10 % 10] else []) ++ [0x30 + n % 10]
def hexDigit (n : Nat) : Nat := if n < 10 then 0x30 + n else 0x57 + n
def hexText (n : Nat) : List Nat := [hexDigit (n / 4096 % 16), hexDigit (n / 256 % 16), hexDigit (n / 16 % 16), hexDigit (n % 16)]

/-- A list of texts with a separator between. -/
def joinText (sep : Nat) : List (List Nat) → List Nat
  | [] => []
  | [x] => x
  | x :: rest => x ++ [sep] ++ joinText sep rest

/-- A port address in text: entries 0 to 3 IPv4, 4 to 7 IPv6 (17 PORT_CFG); addresses are in network byte order. -/
def addrText (entry addr : Nat) : List Nat :=
  let b := leBytes 16 addr
  if entry < 4 then joinText 0x2E ((b.take 4).map decText)
  else joinText 0x3A ((List.range 8).map (fun i => hexText (b.getD (2 * i) 0 * 256 + b.getD (2 * i + 1) 0)))

/-- One entry: a port address, a transport, a subsystem. -/
def discEntry (s : State) (k : Nat) (tcp : Bool) (t : Nat) : List Nat :=
  let a := mapGet addr0 s.hfe.addrs k
  layout 1024 0
    [(0, [if tcp then 3 else 1, if k % 8 < 4 then 1 else 2, 2]), (4, leBytes 2 (k / 8)), (6, leBytes 2 0xFFFF), (8, leBytes 2 4096),
     (32, padTo 32 0x20 [0x34, 0x34, 0x32, 0x30]), (256, tenantNqn s t), (512, padTo 256 0x20 (addrText (k % 8) a.addr)),
     (768, if tcp then [0] else [1, 4, 1])]

/-- The page for a host: every port address, both transports, every tenant the host may reach. -/
def logDiscovery (s : State) (c : Ctl) : List Nat :=
  let ks := (s.hfe.addrs.filter (fun e => e.2.valid && portDefined s (e.1 / 8))).map Prod.fst
  let ts := (List.range 513).filter (fun t => tenantState s t == 1 && hostAllowed s t c.host)
  let es := ks.flatMap (fun k => [false, true].flatMap (fun tcp => ts.map (fun t => (k, tcp, t))))
  layout 1024 0 [(0, leBytes 8 s.hfe.discGen), (8, leBytes 8 es.length)] ++ es.flatMap (fun e => discEntry s e.1 e.2.1 e.2.2)

end Sys2Proof.Machine
end

