-- ==== Sys2Proof/Machine/FetchFam.lean ====
section
/-! DEFINITION. Command fetch (04 R131, R132, R138, 05 R172, R173, 17 R635) and the Fabrics commands (05 R162 to R164, R184). -/

namespace Sys2Proof.Machine

/-! ## Fetch -/

/-- MIN and MAX task slots of a tenant; page 0 has 4,096 of both (04 R132, R153). -/
def taskMin (s : State) (t : Nat) : Nat := if t = 0 then 4096 else if 512 < t then 0 else getF s (F.TIU_TEN_TASK_MIN_MIN t)
def taskMax (s : State) (t : Nat) : Nat := if t = 0 then 4096 else if 512 < t then 262144 else getF s (F.TIU_TEN_TASK_MAX_MAX t)

/-- Slots that the tenants' guarantees still claim. -/
def minClaims (s : State) : Nat := ((List.range 513).map (fun t => taskMin s t - tasksOf s t)).sum

/-- A tenant can take a task slot (R131, R132). -/
def canTake (s : State) (t : Nat) : Bool :=
  let used := tasksOf s t
  let free := 262144 - tasksUsed s
  decide (used < taskMax s t) && decide (0 < free) && (decide (used < taskMin s t) || decide (minClaims s ≤ free - 1))

/-- Tenants with a capsule waiting that can take a slot. -/
def fetchEligible (s : State) : List Nat :=
  (sortBy id ((s.hfe.conns.filter (fun e => e.2.ring != [])).map (fun e => e.2.tenant))).eraseDups.filter (canTake s)

/-- Weight of a tenant; the Discovery subsystem, which belongs to no tenant, counts as one of weight 1 (DESIGN CHOICE). -/
def fetchWeight (s : State) (t : Nat) : Nat := if 512 < t then 1 else getF s (F.TIU_TEN_BW_WEIGHT t)

/-- One round of the smooth weighted round robin (R138): the tenant served, and the credits. -/
def fetchGrant (s : State) : Option (Nat × State) :=
  let el := fetchEligible s
  let w := (el.map (fetchWeight s)).sum
  let ts := mapMapVals tenant0 (fun t x => if el.contains t then x else { x with eligible := false, credit := 0 }) s.qe.tenants
  let s := { s with qe := { s.qe with tenants := ts } }
  let s := el.foldl (fun s t => updTenant t (fun x => { x with eligible := true, credit := x.credit + fetchWeight s t }) s) s
  match el.foldl (fun (m : Option Nat) t => match m with
    | none => some t
    | some u => if (getTenant s u).credit < (getTenant s t).credit then some t else some u) none with
  | none => none
  | some t => some (t, updTenant t (fun x => { x with credit := x.credit - w }) s)

/-- The tenant's next queue pair in its round robin. -/
def fetchConn (s : State) (t : Nat) : Option Nat :=
  let l := mapKeysWhere (fun _ c => c.tenant == t && c.ring != []) s.hfe.conns
  match l.find? (fun c => decide ((getTenant s t).lastConn < c)) with
  | some c => some c
  | none => l.head?

/-- The task of a capsule. -/
def taskOf (c : Nat) (x : Conn) (cap : Capsule) : Task :=
  { task0 with
    st := .admitted, conn := c, tenant := x.tenant, cntlid := x.cntlid, sqid := x.qid, cap := cap
    admin := x.role != .io || cap.opc == 0x7F }

/-- Slow-path admission applies (17 R632, R635): commands of admin queues but Abort, Keep Alive, Asynchronous Event Request; a
Sirsis packet is judged when it is submitted; the Discovery subsystem has no limit. -/
def slowPath (x : Conn) (cap : Capsule) : Bool :=
  decide (x.tenant ≤ 512) && (match x.role with
    | .io => false
    | .unassigned => cap.opc == 0x7F && (cap.fctype != 1 || natBits cap.cdw10 16 16 == 0)
    | _ => !([0x08, 0x18, 0x0C, 0xC4].contains cap.opc))

/-- The limit of R635 on a tenant's operations, and device-wide. -/
def admitDepth (s : State) : Nat := if s.mgc.shed then getF s F.MGC_ADMIT_CFG_SHED_DEPTH else getF s F.MGC_ADMIT_CFG_DEPTH
def slowAdmits (s : State) (t : Nat) : Bool :=
  decide (mapGet 0 s.mgc.admitted t < getF s (F.TIU_TEN_CONN_ADMIN_DEPTH t)) && (t == 0 || decide (s.mgc.admittedAll < admitDepth s))

/-- An operation is admitted: its slot counts until it is freed. -/
def slowAdmit (slot : Nat) (s : State) : State :=
  let t := (getTask s slot).tenant
  let s := updMgc (fun m => { m with
    admitted := mapUpd 0 m.admitted t (· + 1), admittedAll := if t = 0 then m.admittedAll else m.admittedAll + 1 }) s
  updTask slot (fun x => { x with slow := true }) s

/-- An admission refused (17 R635). -/
def slowRefuse (slot : Nat) (s : State) : State := finishBusy slot (bumpF F.MGC_CNT_BUSY_REFUSED 1 s)

/-- Aborts outstanding on a controller. -/
def abortsOf (s : State) (t : Task) : Nat :=
  mapCount (fun _ x => x.st != .free && x.admin && x.cap.opc == 0x08 && x.tenant == t.tenant && x.cntlid == t.cntlid) s.qe.tasks

/-- The checks of Admitted that do not depend on the command: CID conflict (05 R172), the Abort limit (R180), and slow-path
admission. -/
def fetchChecks (slot : Nat) (x : Conn) (s : State) : State :=
  let t := getTask s slot
  if s.qe.tasks.any (fun e => e.1 != slot && e.2.st != .free && e.2.conn == t.conn && e.2.cap.cid == t.cap.cid) then finishErr slot 0 0x03 s
  else if x.role ≠ .io ∧ t.cap.opc = 0x08 ∧ 8 < abortsOf s t then finishErr slot 1 0x03 s
  else if slowPath x t.cap then (if slowAdmits s t.tenant then slowAdmit slot s else slowRefuse slot s)
  else s

/-- COMMAND_FETCH (04 R138): not during a thermal hold (20 R730). -/
def execCommandFetch (slot : Nat) (s : State) : Host.Outcome State Fault Refusal :=
  if 262144 ≤ slot ∨ (getTask s slot).st ≠ .free ∨ s.pad.hold = true then .next s
  else
    match fetchGrant s with
    | none => .next s
    | some (t, s) =>
      match fetchConn s t with
      | none => .next s
      | some c =>
        let x := getConn s c
        match x.ring with
        | [] => .next s
        | cap :: rest =>
          let s := updTenant t (fun y => { y with lastConn := c }) (updConn c (fun y => { y with ring := rest }) s)
          .next (fetchChecks slot x (updTask slot (fun _ => taskOf c x cap) s))

/-! ## Connect (05 R163, 04 R123, R127) -/

/-- Effective KATO in ms (05 R184). -/
def katoOf (s : State) (k : Nat) : Nat :=
  let k := if k = 0 then 120000 else k
  (max k (getF s F.QE_CMD_CFG_KATO_MIN_S * 1000) + 99) / 100 * 100

/-- The lowest free CNTLID of a subsystem (04 R123). -/
def freeCntlid (s : State) (t : Nat) : Option Nat :=
  ((List.range 64).map (· + 1)).find? (fun c => !(mapGet ctl0 s.qe.ctls (ctlKey t c)).live)

/-- Controllers a subsystem may have. -/
def ctlMax (s : State) (t : Nat) : Nat := if 512 < t then 64 else min 64 (getF s (F.TIU_TEN_QP_CTRL_MAX t))

/-- Fields of the Connect data: CNTLID, SUBNQN and HOSTNQN as numbers. -/
def connectCntlid (d : List Nat) : Nat := leNat ((d.drop 16).take 2)
def connectSub (d : List Nat) : Nat := leNat ((d.drop 256).take 256)
def connectHost (d : List Nat) : Nat := leNat ((d.drop 512).take 256)

/-- An admin Connect creates a controller. -/
def connectAdmin (slot : Nat) (d : List Nat) (s : State) : State :=
  let t := getTask s slot
  let full (s : State) : State := finish slot 1 0x82 true (2 ^ 16 + 16) 0 s
  if connectCntlid d ≠ 0xFFFF ∨ ctlMax s t.tenant ≤ ctlsOf s t.tenant then full s
  else
    match freeCntlid s t.tenant with
    | none => full s
    | some id =>
      let c : Ctl := { ctl0 with
        live := true, host := connectHost d, conn := t.conn, port := (getConn s t.conn).port, kato := katoOf s t.cap.cdw12
        kaTick := s.tu.ticks, wce := true }
      let s := updConn t.conn (fun x => { x with
        role := if isDisc t then .discovery else .admin, cntlid := id, qid := 0, sqsize := t.cap.cdw11 % 65536 }) s
      finish slot 0 0 false id 0 (updCtl (ctlKey t.tenant id) (fun _ => c) s)

/-- An I/O Connect creates a queue pair of an existing controller of the same host. -/
def connectIo (slot qid : Nat) (d : List Nat) (s : State) : State :=
  let t := getTask s slot
  let id := connectCntlid d
  let c := mapGet ctl0 s.qe.ctls (ctlKey t.tenant id)
  let x := getConn s t.conn
  let ios := s.hfe.conns.filter (fun e => e.2.role == .io)
  if isDisc t ∨ 64 < id ∨ id = 0 ∨ c.live = false ∨ c.host ≠ connectHost d then finish slot 1 0x82 true (2 ^ 16 + 16) 0 s
  else if ios.any (fun e => e.2.tenant == t.tenant && e.2.cntlid == id && e.2.qid == qid) ∨ getF s (F.TIU_TEN_QP_QP_MAX t.tenant) ≤ qpsOf s t.tenant
      ∨ 1048576 ≤ ios.length ∨ (x.tcp = true ∧ 65536 ≤ (ios.filter (fun e => e.2.tcp)).length) then finish slot 1 0x82 true 42 0 s
  else
    finish slot 0 0 false id 0 (updConn t.conn (fun x => { x with role := .io, cntlid := id, qid := qid, sqsize := t.cap.cdw11 % 65536 }) s)

/-- Connect with its data: SQSIZE 0 is refused as one above 4,095 (PRESUMED), a SUBNQN other than the subsystem's with IATTR 1 and
IPO 256 (PRESUMED). -/
def connectWith (slot : Nat) (d : List Nat) (s : State) : State :=
  let t := getTask s slot
  let sqsize := t.cap.cdw11 % 65536
  if isDisc t = false ∧ (tenantState s t.tenant ≠ 1 ∨ hostAllowed s t.tenant (connectHost d) = false) then finishErr slot 1 0x84 s
  else if connectSub d ≠ leNat (if isDisc t then discNqn else tenantNqn s t.tenant) then finish slot 1 0x82 true (2 ^ 16 + 256) 0 s
  else if 4095 < sqsize ∨ sqsize = 0 then finish slot 1 0x82 true 44 0 s
  else if natBits t.cap.cdw10 16 16 = 0 then connectAdmin slot d s
  else connectIo slot (natBits t.cap.cdw10 16 16) d s

/-- A Fabrics command of an FCTYPE waits. -/
def fabricsWaits (s : State) (slot fctype : Nat) : Bool :=
  adminWaits s slot && (getTask s slot).cap.opc == 0x7F && (getTask s slot).cap.fctype == fctype

/-- CONNECT (05 R163): on a connection that has already been connected it is an invalid field. -/
def execConnect (slot : Nat) (s : State) : Host.Outcome State Fault Refusal :=
  if fabricsWaits s slot 0x01 = false then .next s
  else if (getConn s (getTask s slot).conn).role ≠ .unassigned then .next (finishErr slot 0 0x02 s)
  else .next (withData slot 1024 (connectWith slot) s)

/-! ## Properties (05 R162 to R164) -/

/-- CSTS: RDY follows CC.EN; SHST; PP is never seen, the pause of an activation being one command of the model. -/
def cstsOf (c : Ctl) : Nat := c.cc % 2 + c.shst * 4

/-- PROPERTY_SET (05 R162): CC only, 4 bytes. A shutdown notification begins the shutdown; EN = 0 ends it. -/
def execPropertySet (slot : Nat) (s : State) : Host.Outcome State Fault Refusal :=
  if fabricsWaits s slot 0x00 = false then .next s
  else .next (adminRun slot 0x7F (fun t c s =>
    if t.cap.cdw11 ≠ 0x14 ∨ t.cap.cdw10 % 8 ≠ 0 then finishErr slot 0 0x02 s
    else
      let v := t.cap.cdw12 % 2 ^ 32
      let starts := natBits v 14 2 != 0 && c.shst == 0
      let s := updCtl (ctlKey t.tenant t.cntlid) (fun c =>
        if v % 2 = 0 ∧ starts = false then { c with cc := v, shst := 0, shutting := false, shutWait := [] }
        else { c with cc := v, shst := if starts then 1 else c.shst, shutting := c.shutting || starts }) s
      finishOk slot s) s)

/-- PROPERTY_GET (05 R162, R163): CAP, VS, CC and CSTS. -/
def execPropertyGet (slot : Nat) (s : State) : Host.Outcome State Fault Refusal :=
  if fabricsWaits s slot 0x04 = false then .next s
  else .next (adminRun slot 0x7F (fun t c s =>
    let size := t.cap.cdw10 % 8
    let give (lo hi : Nat) : State := finish slot 0 0 false lo hi s
    if t.cap.cdw11 = 0 ∧ size = 1 then give (4095 + 2 ^ 16 + 2 * 2 ^ 24) (2 ^ 5 + 2 ^ 11)
    else if t.cap.cdw11 = 8 ∧ size = 0 then give 0x20000 0
    else if t.cap.cdw11 = 0x14 ∧ size = 0 then give c.cc 0
    else if t.cap.cdw11 = 0x1C ∧ size = 0 then give (cstsOf c) 0
    else finishErr slot 0 0x02 s) s)

/-- Commands of a controller that its shutdown waits for: all but Asynchronous Event Requests, which never complete by themselves. -/
def shutBusy (s : State) (t c : Nat) : Bool :=
  s.qe.tasks.any (fun e => e.2.st != .free && e.2.tenant == t && e.2.cntlid == c && !(e.2.admin && e.2.cap.opc == 0x0C))

/-- The shutdown's Flush of every attached namespace. -/
def shutFlush (t c : Nat) (s : State) : State :=
  let nss := mapKeysWhere (fun _ n => n.valid && n.tenant == t && n.attached.contains c) s.tabs.nss
  let (w, s) := nss.foldl (fun acc n => let (st, s) := drawStamp n acc.2; (acc.1 ++ [(n, st)], s)) (([] : List (Nat × Nat)), s)
  let s := updCtl (ctlKey t c) (fun x => { x with shutting := false, shutWait := w }) s
  (w.filter (fun e => undurable s e.1 e.2 != [])).foldl (fun s e => serveFlush e.1 s) s

/-- SHUTDOWN_NOTIFICATION (05 R164): the Flush, then SHST 0b10 once it and every outstanding command have completed. -/
def execShutdownNotification (tenant cntlid : Nat) (s : State) : Host.Outcome State Fault Refusal :=
  let key := ctlKey tenant cntlid
  let c := mapGet ctl0 s.qe.ctls key
  if c.live = false ∨ c.shst ≠ 1 then .next s
  else
    let s := if c.shutting then shutFlush tenant cntlid s else s
    let w := (mapGet ctl0 s.qe.ctls key).shutWait
    if shutBusy s tenant cntlid ∨ w.any (fun e => undurable s e.1 e.2 != []) = true then .next s
    else .next (updCtl key (fun c => { c with shst := 2, shutWait := [] }) s)

/-- DISCONNECT (05 R162): an I/O queue goes once its completion has been handed over; on the admin queue an invalid field. -/
def execDisconnect (slot : Nat) (s : State) : Host.Outcome State Fault Refusal :=
  if fabricsWaits s slot 0x08 = false then .next s
  else
    let c := (getTask s slot).conn
    if (getConn s c).role ≠ .io then .next (finishErr slot 0 0x02 s)
    else .next (loseConn c (finishOk slot s))

/-- INVALID_FABRICS_COMMAND (05 R162): any other FCTYPE. -/
def execInvalidFabricsCommand (slot : Nat) (s : State) : Host.Outcome State Fault Refusal :=
  let t := getTask s slot
  if adminWaits s slot = false ∨ t.cap.opc ≠ 0x7F ∨ [0x00, 0x01, 0x04, 0x08].contains t.cap.fctype = true then .next s
  else .next (finishErr slot 0 0x02 s)

end Sys2Proof.Machine
end

