-- ==== Sys2Proof/Machine/AdminFam.lean ====
section
/-! DEFINITION. Meanings of the admin commands (05 R161 to R187, 12 R483 to R486, 18 R678, R679). -/

namespace Sys2Proof.Machine

/-! ## Identify and log pages -/

/-- IDENTIFY (05 R168). -/
def execIdentify (slot : Nat) (s : State) : Host.Outcome State Fault Refusal :=
  .next (adminRun slot 0x06 (fun t _ s => match identifyData s t with
    | .inl e => finishErr slot e.1 e.2 s
    | .inr d => replyFixed slot d s) s)

/-- Log pages served (05 Table 05-6). -/
def logPages (t : Task) : List Nat :=
  if isDisc t then [0x70]
  else [0x01, 0x02, 0x04, 0x05, 0x0C, 0x81, 0xBF] ++ (if t.tenant = 0 then [0x03, 0xC0] else [])

/-- The content of a log page; none: its namespace is not the tenant's. -/
def logPage (t : Task) (c : Ctl) (len : Nat) (s : State) : Option (List Nat × State) :=
  match t.cap.cdw10 % 256 with
  | 0x01 => some (logErrors c, s)
  | 0x02 => let (b, s) := drawFree 128 s; some (logSmart s t c b, s)
  | 0x03 => some (logFirmware s, s)
  | 0x04 => some (logChangedNs c, s)
  | 0x05 => some (logEffects t, s)
  | 0x0C => some (logAna s t c, s)
  | 0x70 => some (logDiscovery s c, s)
  | 0x81 => some (logSanitize s t, s)
  | 0xBF => (nsOf s t).map (fun n => (logZones c n, s))
  | _ => some (hbReply (t.cap.cdw12 + t.cap.cdw13 * 2 ^ 32) (min 1023 ((len - 24) / 64)) s, s)

/-- What a host has read: events of the page may be raised again unless RAE asks otherwise, and lists of changes start anew. RAE is
ignored for page 0xC0 (19 R702). -/
def logRead (t : Task) (s : State) : State :=
  let lid := t.cap.cdw10 % 256
  if lid ≠ 0xC0 ∧ natBits t.cap.cdw10 15 1 = 1 then s
  else
    updCtl (ctlKey t.tenant t.cntlid) (fun c => { c with
      unread := c.unread.filter (fun e => aenLog (e / 256) (e % 256) != lid)
      changedNs := if lid = 0x04 then [] else c.changedNs
      changedZones := if lid = 0xBF then c.changedZones.filter (fun k => some (unitNs k) != nsOf s t) else c.changedZones }) s

/-- Bytes beyond the end of a page are free: NVMe leaves them undefined. -/
def fillPage (n : Nat) (l : List Nat) (s : State) : List Nat × State :=
  if n ≤ l.length then (l.take n, s)
  else let (v, s) := drawFree (8 * (n - l.length)) s; (l ++ leBytes (n - l.length) v, s)

/-- Get Log Page: NUMD dwords from LPO on; page 0xC0 takes LPO as its cursor. -/
def getLog (slot : Nat) (t : Task) (c : Ctl) (s : State) : State :=
  let lid := t.cap.cdw10 % 256
  let len := 4 * (natBits t.cap.cdw10 16 16 + t.cap.cdw11 % 65536 * 65536 + 1)
  let lpo := if lid = 0xC0 then 0 else t.cap.cdw12 + t.cap.cdw13 * 2 ^ 32
  if (logPages t).contains lid = false then finishErr slot 1 0x09 s
  else if 2097152 < len ∨ lpo % 4 ≠ 0 ∨ natBits t.cap.cdw14 23 1 = 1 ∨ (lid = 0xC0 ∧ len < 88) then finishErr slot 0 0x02 s
  else if t.cap.sglLen < len then finishErr slot 0 0x0F s
  else
    match logPage t c len s with
    | none => finishErr slot 0 0x0B s
    | some (page, s) =>
      if page.length < lpo then finishErr slot 0 0x02 s
      else
        let (d, s) := fillPage len (page.drop lpo) s
        replyData slot d (logRead t s)

/-- GET_LOG_PAGE (05 R170, 19 R702). -/
def execGetLogPage (slot : Nat) (s : State) : Host.Outcome State Fault Refusal := .next (adminRun slot 0x02 (getLog slot) s)

/-! ## Features (05 R169) -/

/-- NSQA and NCQA of feature 0x07, 0's-based. -/
def queueCount (s : State) (t : Nat) : Nat :=
  let n := if 512 < t then 0 else min (getF s (F.TIU_TEN_QP_QP_MAX t)) 65536 - 1
  n + n * 65536

/-- UTC in ms since 1970 (16 R609): TAI minus the offset of the chosen master, else of the register. -/
def utcMs (s : State) : Nat :=
  let off := s.tu.utcPtp.getD (toSigned 16 (getReg s 0x2000048 % 2 ^ 16))
  (((s.tu.t / 2 ^ 48 / 1000000 : Nat) : Int) - off * 1000).toNat

/-- The features of Table 05-5, and those that can be set. -/
def features : List Nat := [0x02, 0x04, 0x05, 0x06, 0x07, 0x0B, 0x0E, 0x0F, 0x16]
def settable (tenant fid : Nat) : Bool := features.contains fid && fid != 0x0E && fid != 0x0F && (fid != 0x02 || tenant == 0)

/-- TMPSEL and THSEL of a Temperature Threshold: the Composite Temperature (or all), over or under. -/
def tempSelOk (v : Nat) : Bool := (natBits v 16 4 == 0 || natBits v 16 4 == 15) && decide (natBits v 20 2 ≤ 1)

/-- The value of a feature: `cur` the current one, otherwise the default. -/
def featureValue (s : State) (t : Task) (c : Ctl) (fid : Nat) (cur : Bool) : Nat :=
  let d := { ctl0 with wce := true, kato := 120000 }
  let c := if cur then c else d
  match fid with
  | 0x02 => if cur then s.flc.ps else 0
  | 0x04 => if natBits t.cap.cdw11 20 2 = 0 then c.tempOver else c.tempUnder
  | 0x06 => bitOf c.wce
  | 0x07 => queueCount s t.tenant
  | 0x0B => c.aec
  | 0x0F => c.kato
  | _ => 0

/-- Set a feature; the controller changes. -/
def setFeature (t : Task) (fid v : Nat) (s : State) : State :=
  let upd (f : Ctl → Ctl) : State := updCtl (ctlKey t.tenant t.cntlid) f s
  match fid with
  | 0x02 => budgetChanged s (updFlc (fun x => { x with ps := v % 32 }) s)
  | 0x04 => upd (fun c => if natBits v 20 2 = 0 then { c with tempOver := v % 65536 } else { c with tempUnder := v % 65536 })
  | 0x06 => upd (fun c => { c with wce := v % 2 == 1 })
  | 0x0B => upd (fun c => { c with aec := v })
  | _ => s

/-- SET_FEATURES (05 R169, 07 R265). -/
def execSetFeatures (slot : Nat) (s : State) : Host.Outcome State Fault Refusal :=
  .next (adminRun slot 0x09 (fun t _ s =>
    let fid := t.cap.cdw10 % 256
    let v := t.cap.cdw11
    if settable t.tenant fid = false then finishErr slot 0 0x02 s
    else if natBits t.cap.cdw10 31 1 = 1 then finishErr slot 1 0x0D s
    else if (fid = 0x02 ∧ 4 < v % 32) ∨ (fid = 0x04 ∧ tempSelOk v = false) ∨ (fid = 0x05 ∧ natBits v 16 1 = 1) then finishErr slot 0 0x02 s
    else if fid = 0x16 then
      withData slot 512 (fun d s => finishOk slot (updCtl (ctlKey t.tenant t.cntlid) (fun c => { c with acre := d.headD 0 % 2 == 1 }) s)) s
    else finish slot 0 0 false (if fid = 0x07 then queueCount s t.tenant else 0) 0 (setFeature t fid v s)) s)

/-- GET_FEATURES (05 R169): SEL 0 current, 1 default, 2 saved (the default), 3 capabilities. The Origin of a Timestamp while the Time
Unit is not locked is a free value. -/
def execGetFeatures (slot : Nat) (s : State) : Host.Outcome State Fault Refusal :=
  .next (adminRun slot 0x0A (fun t c s =>
    let fid := t.cap.cdw10 % 256
    let sel := natBits t.cap.cdw10 8 3
    if features.contains fid = false ∨ 3 < sel ∨ (fid = 0x04 ∧ tempSelOk t.cap.cdw11 = false) then finishErr slot 0 0x02 s
    else if sel = 3 then finish slot 0 0 false (if settable t.tenant fid then 4 else 0) 0 s
    else if fid = 0x0E then
      let (f, s) := drawFree 3 s
      replyFixed slot (leBytes 6 (utcMs s) ++ [(if tuLocked s then 2 else f) * 2, 0]) s
    else if fid = 0x16 then replyFixed slot (layout 512 0 [(0, [bitOf (c.acre && sel == 0)])]) s
    else finish slot 0 0 false (featureValue s t c fid (sel == 0)) 0 s) s)

/-! ## Abort (05 R180, R181) -/

/-- The slot that an Abort names. -/
def abortTarget (s : State) (slot : Nat) (t : Task) : Option Nat :=
  (s.qe.tasks.find? (fun e => e.1 != slot && e.2.st != .free && !e.2.internal && e.2.tenant == t.tenant && e.2.cntlid == t.cntlid
    && e.2.sqid == t.cap.cdw10 % 65536 && e.2.cap.cid == t.cap.cdw10 / 65536 % 65536)).map Prod.fst

/-- The outcome of Table 05-9: whether the command was aborted. -/
def abortTask (k : Nat) (s : State) : Bool × State :=
  let t := getTask s k
  let early := t.st == .admitted || t.st == .receiving
  if t.admin then
    if t.cap.opc = 0x0C ∧ t.st = .executing then
      (true, finishErr k 0 0x07 (updCtl (ctlKey t.tenant t.cntlid) (fun c => { c with aers := c.aers.filter (· != k) }) s))
    else (false, s)
  else if t.cap.opc = 0x01 ∨ t.cap.opc = 0x08 ∨ t.cap.opc = 0x7D then
    if early then (true, dropWrite k (finishErr k 0 0x07) s) else (false, s)
  else if t.cap.opc = 0x02 ∨ t.cap.opc = 0x0C then
    if t.st = .admitted ∨ t.st = .reading then (true, finishErr k 0 0x07 (abandonReads k s)) else (false, s)
  else if t.st = .admitted then (true, finishErr k 0 0x07 s)
  else (false, s)

/-- ABORT (05 R180): the named command's completion is handed over first. -/
def execAbort (slot : Nat) (s : State) : Host.Outcome State Fault Refusal :=
  .next (adminRun slot 0x08 (fun t _ s =>
    let (done, s) := match abortTarget s slot t with
      | some k => abortTask k s
      | none => (false, s)
    let s := bumpF (if done then F.QE_ABORT_CNT_ABORTED else F.QE_ABORT_CNT_NOT_ABORTED) 1 s
    finish slot 0 0 false (bitOf (!done)) 0 s) s)

/-! ## Events and Keep Alive (05 R184, R187) -/

/-- ASYNC_EVENT_REQUEST (05 R187): a waiting event completes it at once; at most 8 are outstanding. -/
def execAsyncEventRequest (slot : Nat) (s : State) : Host.Outcome State Fault Refusal :=
  .next (adminRun slot 0x0C (fun t c s =>
    let key := ctlKey t.tenant t.cntlid
    if 8 ≤ c.aers.length then finishErr slot 1 0x05 s
    else
      match c.waitingEv with
      | ev :: rest =>
        let s := updCtl key (fun c => { c with waitingEv := rest }) s
        finish slot 0 0 false (ev / 256 + ev % 256 * 2 ^ 8 + aenLog (ev / 256) (ev % 256) * 2 ^ 16) 0 s
      | [] =>
        updTask slot (fun t => { t with st := .executing }) (updCtl key (fun c => { c with aers := c.aers ++ [slot] }) s)) s)

/-- ASYNC_EVENT_RAISE (05 R187). -/
def execAsyncEventRaise (tenant cntlid typ info : Nat) (s : State) : Host.Outcome State Fault Refusal :=
  if typ = 0 ∨ (typ = 7 ∧ tenant ≠ 0) then .next s else .next (raiseAen (ctlKey tenant cntlid) typ info s)

/-- KEEP_ALIVE (05 R184). -/
def execKeepAlive (slot : Nat) (s : State) : Host.Outcome State Fault Refusal :=
  .next (adminRun slot 0x18 (fun t _ s => finishOk slot (updCtl (ctlKey t.tenant t.cntlid) (fun c => { c with kaTick := s.tu.ticks }) s)) s)

/-- KEEP_ALIVE_TIMEOUT (05 R184): the controller is torn down; source 192 names it. -/
def execKeepAliveTimeout (tenant cntlid : Nat) (s : State) : Host.Outcome State Fault Refusal :=
  if (mapGet ctl0 s.qe.ctls (ctlKey tenant cntlid)).live then .next (tearCtl tenant cntlid (fire 192 (tenant * 2 ^ 16 + cntlid) s)) else .next s

/-- INVALID_ADMIN_OPCODE (05 R161). -/
def execInvalidAdminOpcode (slot : Nat) (s : State) : Host.Outcome State Fault Refusal :=
  let t := getTask s slot
  if adminWaits s slot = false ∨ (adminOpcodes t.tenant).contains t.cap.opc = true then .next s else .next (finishErr slot 0 0x01 s)

/-! ## Namespace Attachment (04 R125) -/

/-- The controllers of a controller list. -/
def ctlList (d : List Nat) : List Nat :=
  (List.range (min 2047 (leNat (d.take 2)))).map (fun i => leNat ((d.drop (2 + 2 * i)).take 2))

/-- Attach (SEL 0) or detach (SEL 1) the tenant's own namespace; Namespace Attribute Changed goes to the controllers that have it
attached, before a detach takes effect. -/
def attachNs (slot n : Nat) (d : List Nat) (s : State) : State :=
  let t := getTask s slot
  let sel := t.cap.cdw10 % 16
  let l := (ctlList d).eraseDups
  let has := (getNs s n).attached
  let own := l.all (fun c => (mapGet ctl0 s.qe.ctls (ctlKey t.tenant c)).live && decide (1 ≤ c ∧ c ≤ 64))
  if 1 < sel ∨ l = [] ∨ own = false ∨ (sel = 0 ∧ l.any (fun c => has.contains c) = true) ∨ (sel = 1 ∧ l.all (fun c => has.contains c) = false) then
    finishErr slot 0 0x02 s
  else if sel = 0 then finishOk slot (nsChanged n (updNs n (fun x => { x with attached := x.attached ++ l }) s))
  else finishOk slot (updNs n (fun x => { x with attached := x.attached.filter (fun c => !(l.contains c)) }) (nsChanged n s))

/-- NAMESPACE_ATTACHMENT (04 R125). -/
def execNamespaceAttachment (slot : Nat) (s : State) : Host.Outcome State Fault Refusal :=
  .next (adminRun slot 0x15 (fun t _ s =>
    match nsIndex? s t.tenant t.cap.nsid with
    | none => finishErr slot 0 0x0B s
    | some n => withData slot 4096 (attachNs slot n) s) s)

/-! ## Firmware (18 R678, R679, 17 R658) -/

/-- FIRMWARE_IMAGE_DOWNLOAD (18 R678). -/
def execFirmwareImageDownload (slot : Nat) (s : State) : Host.Outcome State Fault Refusal :=
  .next (adminRun slot 0x11 (fun t _ s =>
    let len := 4 * (t.cap.cdw10 + 1)
    let off := 4 * t.cap.cdw11
    if s.fws.job.isSome then finishBusy slot s
    else if 2097152 < len ∨ 25165824 < off + len then finishErr slot 0 0x02 s
    else withData slot len (fun d s => finishOk slot (stageBytes off d s)) s) s)

/-- A commit is planned and started; a refused activation fires source 804. -/
def commitStart (slot action : Nat) (task path : Option Nat) (refuse : Nat → State → State) (s : State) : State :=
  match planCommit s slot action task path with
  | .inl d => refuse d (if action = 3 then fire 804 ((commitSlot s slot).getD slot) s else s)
  | .inr j => startJob j s

/-- FIRMWARE_COMMIT (18 R679): one commit at a time (17 Table 17-12). -/
def execFirmwareCommit (slot : Nat) (s : State) : Host.Outcome State Fault Refusal :=
  .next (adminRun slot 0x10 (fun t _ s =>
    if s.fws.job.isSome then finishBusy slot s
    else commitStart (t.cap.cdw10 % 8) (natBits t.cap.cdw10 3 3) (some slot) none (fun _ s => finishErr slot 0 0x02 s)
      (updTask slot (fun t => { t with st := .executing }) s)) s)

/-! ## Format and Sanitize (05 R182, 12 R483 to R486) -/

/-- A Sanitize or Format runs, or its first record is on its way: only one runs at a time (DESIGN CHOICE). -/
def wipeBusy (s : State) : Bool := s.tabs.san.active || (pendingRecs s).any (fun r => (r.typ == 0x17 || r.typ == 0x18) && r.words.getD 3 0 == 0)

/-- The progress that a Sanitize or Format with erase begins with. -/
def sanBegin (tenant : Nat) (ns : Option Nat) (action passes : Nat) (oipbp : Bool) (pattern : Nat) (ause : Bool) (slot : Option Nat) : San :=
  { san0 with
    active := true, action := action, tenant := tenant, ns := ns, passes := passes, status := 2, ause := ause, slot := slot
    oipbp := oipbp, pattern := pattern }

/-- FORMAT_NVM (12 R486, Table 05-1): LBAF 0, SES 0 or 1, no PI; the FMT record begins it. -/
def execFormatNvm (slot : Nat) (s : State) : Host.Outcome State Fault Refusal :=
  .next (adminRun slot 0x80 (fun t _ s =>
    let v := t.cap.cdw10
    let ses := natBits v 9 3
    match stateErr s true, nsOf s t with
    | some e, _ => finish slot e.1 e.2.1 e.2.2 0 0 s
    | none, none => finishErr slot 0 0x0B s
    | none, some n =>
      if v % 16 ≠ 0 ∨ natBits v 12 2 ≠ 0 ∨ natBits v 5 3 ≠ 0 ∨ 1 < ses then finishErr slot 1 0x0A s
      else if wipeBusy s ∨ bufFull s = true then s
      else
        let san := if ses = 1 then sanBegin t.tenant (some n) 2 0 false 0 false (some slot) else san0
        let jsn := s.jnl.nextJsn
        let s := issue 0x18 24 [n, ses, 0, 0] [] (.wipe ⟨t.tenant, [n], ses, san⟩) s
        updTask slot (fun t => { t with st := .executing, waitJsn := if ses = 1 then none else some jsn }) s) s)

/-- SANITIZE (12 R483, 05 R182): Block Erase or Overwrite; it completes when its SAN record of phase 0 is accepted. -/
def execSanitize (slot : Nat) (s : State) : Host.Outcome State Fault Refusal :=
  .next (adminRun slot 0x84 (fun t _ s =>
    let v := t.cap.cdw10
    let act := v % 8
    if act = 1 then s
    else if act ≠ 2 ∧ act ≠ 3 then finishErr slot 0 0x02 s
    else
      match stateErr s true with
      | some e => finish slot e.1 e.2.1 e.2.2 0 0 s
      | none =>
        if wipeBusy s ∨ bufFull s = true then s
        else
          let passes := if act = 3 then (if natBits v 4 4 = 0 then 16 else natBits v 4 4) else 0
          if passes = 16 then finishErr slot 0 0x02 s
          else
            let nss := mapKeysWhere (fun _ n => n.valid && n.tenant == t.tenant) s.tabs.nss
            let san := sanBegin t.tenant none act passes (act == 3 && natBits v 8 1 == 1) (if act = 3 then t.cap.cdw11 else 0)
              (natBits v 3 1 == 1) none
            let jsn := s.jnl.nextJsn
            let s := issue 0x17 24 [t.tenant, act, 0, passes] [] (.wipe ⟨t.tenant, nss, 2, san⟩) s
            updTask slot (fun t => { t with st := .executing, waitJsn := some jsn }) s) s)

/-- SANITIZE_EXIT_FAILURE (05 R182): SANACT 0x1. A Sanitize of this device never fails (12 R484), so there is no failure mode to leave
unless the tenant's log says so. -/
def execSanitizeExitFailure (slot : Nat) (s : State) : Host.Outcome State Fault Refusal :=
  .next (adminRun slot 0x84 (fun t _ s =>
    if t.cap.cdw10 % 8 ≠ 1 then s
    else
      let leave (v : San) : San := if v.status = 3 then { v with status := 0 } else v
      finishOk slot (updTabs (fun x => { x with sanLog := mapUpd san0 x.sanLog t.tenant leave }) s)) s)

/-- The die-block at the head of the work list can be dealt with: it is not being erased by an ordinary erase, and its release is
durable and nothing reads it. -/
def sanBlockReady (s : State) (r : Nat) : Bool :=
  let b := getBlock s r
  b.st != .erasing && (b.st != .released || waitsErase s r)

/-- Its erase, and for an Overwrite the passes before it, each with an erase of its own (R484): the wear they charge, and the two
records of the fence (11 R422). -/
def sanErase (r passes : Nat) (s : State) : State :=
  let b := getBlock s r
  let mode := eraseMode s
  let s := updBlock r (fun b => { b with wear := min 65535 (b.wear + passes * eraseCharge b.mode + eraseCharge mode) }) s
  let s := updBlock r (fun b => { b with
    st := .free, mode := mode, senses := 0, stripe := none, wl := 0, snaps := [], stamps := [], owner := 0xFFFF, stage := 0
    unconf := false, recovery := false }) s
  let _ := b
  let s := issue 0x0E 16 [r, mode, 0, (getBlock s r).wear] [.block r { getBlock s r with st := .erasing, stage := 1, unconf := true }] .nothing s
  issue 0x0F 16 [r, mode, 0] [.block r (getBlock s r)] .nothing s

/-- One die-block: unreachable ones are counted, Retired ones only receive an ERASE, an erase that fails retires the block
(11 R435); a block that has been erased since the list was made is done, but for an Overwrite. -/
def sanBlock (v : San) (r : Nat) (ok : Bool) (s : State) : San × State :=
  let b := getBlock s r
  if b.st = .lost ∨ dieReach s (refDie r) = false then ({ v with unreached := v.unreached + 1 }, s)
  else if b.st = .retired then (v, s)
  else if b.st = .needsErase ∨ b.st = .released ∨ (v.action = 3 ∧ b.st = .free) then
    (v, if ok then sanErase r (if v.action = 3 then v.passes else 0) s else retireBlock r 1 s)
  else (v, s)

/-- The progress and end records: SAN for a Sanitize, FMT for a Format. -/
def sanRecord (v : San) (phase : Nat) (s : State) : State :=
  match v.ns with
  | none => issue 0x17 24 [v.tenant, v.action, phase, v.passes] [.san v] .nothing s
  | some n => issue 0x18 24 [n, 1, phase, 0] [.san v, .ns n (getNs s n)] .nothing s

/-- The end (R485): the Sanitize Operation Completed event, or the Format's completion. -/
def sanEnd (v : San) (s : State) : State :=
  let fin := { v with active := false, status := 1, pass := v.passes, slot := none }
  match v.ns with
  | none =>
    let s := sanRecord fin 2 (updTabs (setSan fin) s)
    raiseAenWhere (fun k _ => k / 0x100 == v.tenant) 6 1 s
  | some n =>
    let s := sanRecord fin 2 (updTabs (setSan fin) (updNs n (fun x => { x with formatting := false }) s))
    match v.slot with
    | some k => if (getTask s k).cap.opc = 0x80 ∧ (getTask s k).st = .executing then finishOk k s else s
    | none => s

/-- SANITIZE_BLOCK_DONE (12 R484, R485): the die-block at the cursor has been dealt with; `ok`: its erases passed. -/
def execSanitizeBlockDone (ok : Bool) (s : State) : Host.Outcome State Fault Refusal :=
  let v := s.tabs.san
  if v.active = false ∨ s.top.dev ≠ .serving ∨ bufFull s = true then .next s
  else
    match v.work with
    | [] => .next (sanEnd v s)
    | r :: rest =>
      if sanBlockReady s r = false then .next s
      else
        let s0 := s
        let (v, s) := sanBlock v r ok s
        let v := { v with work := rest }
        let s := updTabs (setSan v) s
        .next (zmSettle s0 (if rest = [] then sanEnd v s else sanRecord v 1 s))

end Sys2Proof.Machine
end

