-- ==== Sys2Proof/Machine/SirsisOps.lean ====
section
/-! DEFINITION. Sirsis packets (17 R643 to R648): the header checks, fragments, retries, and the run of an opcode. -/

namespace Sys2Proof.Machine

/-! ## Status codes (Table 17-8) -/

def stContinue : Nat := 1
def stInvalidOpcode : Nat := 3
def stWrongState : Nat := 4
def stAlignment : Nat := 6
def stUnavailable : Nat := 8
def stVersion : Nat := 9
def stLength : Nat := 0xA
def stSequence : Nat := 0xB
def stCapacity : Nat := 0xC
def stNotFound : Nat := 0xD
def stLimit : Nat := 0xE
def stConflict : Nat := 0xF

/-! ## The opcodes (Table 17-10) -/

/-- Opcodes of Table 17-10. -/
def sirOpcodes : List Nat :=
  [0x01, 0x10, 0x11, 0x12, 0x20, 0x21, 0x22, 0x30, 0x31, 0x40, 0x41, 0x42, 0x50, 0x51, 0x52, 0x53, 0x54, 0x60, 0x61, 0x70, 0x71, 0x80,
   0x81, 0x82, 0x90, 0x91]

/-- Opcodes that hardware executes. -/
def sirHardware (op : Nat) : Bool := decide (op ≤ 0x21)

/-- SCOPE as the opcode's scope column allows it. -/
def sirScopeOk (op scope : Nat) : Bool :=
  if [0x40, 0x41, 0x42, 0x50].contains op then decide (scope ≤ 512) else scope == 0xFFFF

/-- Row 7 of Table 17-7: the states column, R631 and R605; STATUS and DETAIL when the opcode is not served. -/
def sirState (s : State) (op : Nat) : Option (Nat × Nat) :=
  if sirHardware op ∨ op = 0x90 ∨ op = 0x91 then none
  else if s.top.dev = .retained ∧ op ≠ 0x22 ∧ op ≠ 0x70 then some (stWrongState, devCode s.top.dev)
  else if s.top.adminOk = false then some (stUnavailable, 0)
  else if op = 0x22 ∧ s.tu.st ≠ 0 ∧ s.tu.st ≠ 1 then some (stWrongState, s.tu.st)
  else if op = 0x70 ∧ s.rcu.sealed = true then some (stWrongState, 1)
  else none

/-- A little-endian field of the parameters. -/
def par (p : List Nat) (o n : Nat) : Nat := leNat ((p.drop o).take n)

/-- Row 6 of Table 17-7: the parameter lengths that the opcode allows. A shelf-climate record is judged by R342. -/
def sirLenOk (op : Nat) (p : List Nat) : Bool :=
  let n := p.length
  match op with
  | 0x01 => n == 0
  | 0x10 => n == 8
  | 0x11 => decide (4 ≤ n) && n == 4 + 8 * par p 0 2
  | 0x12 => n == 12
  | 0x20 => n == 4
  | 0x21 => n == 4
  | 0x22 => n == 16
  | 0x30 => n == 24
  | 0x31 => n == 4
  | 0x40 => decide (1 ≤ n) && n == (par p 0 1 + 4) / 4 * 4
  | 0x41 => decide (1 ≤ n) && n == (par p 0 1 + 4) / 4 * 4
  | 0x42 => n == 4
  | 0x50 => n == 12
  | 0x51 => n == 4
  | 0x52 => n == 4
  | 0x53 => n == 16
  | 0x54 => n == 4
  | 0x60 => n == 16
  | 0x61 => n == 4
  | 0x70 => true
  | 0x71 => n == 76
  | 0x80 => decide (4 ≤ n) && n % 4 == 0
  | 0x81 => n == 4
  | 0x82 => n == 8
  | 0x90 => n == 12
  | _ => n == 0

/-- A parameter at an offset is invalid: its byte offset from the packet start. -/
def badAt (bad : Bool) (o : Nat) : List Nat := if bad then [16 + o] else []

/-- Bytes that must be zero and are not. -/
def notZero (p : List Nat) (o n : Nat) : List Nat := (List.range n).flatMap (fun i => badAt (p.getD (o + i) 0 != 0) (o + i))

/-- Link groups that a hint's LG_MASK allows, fused-off groups cleared (06 R217). -/
def hintGroups (s : State) (h : Nat) : Nat := ((List.range 16).filter (fun g => natBits (hintAllowed s h) g 1 == 1)).length

/-- A hint word that 06 R217 reserves. -/
def hintBad (s : State) (h : Nat) : Bool :=
  natBits h 15 1 == 1 || natBits h 12 2 == 3 || (natBits h 12 2 == 1 && natBits h 0 12 == 0) || decide (hintGroups s h < 7)

/-- Row 8 of Table 17-7: the invalid parameters, each by its offset from the packet start. -/
def sirBad (s : State) (op : Nat) (p : List Nat) : List Nat :=
  let v (o n : Nat) := par p o n
  match op with
  | 0x10 => badAt (v 4 2 == 0 || decide (1016 < v 4 2)) 4 ++ badAt (v 6 2 != 0 && v 6 2 != 4) 6
  | 0x11 => badAt (v 0 2 == 0 || decide (509 < v 0 2)) 0 ++ notZero p 2 2
  | 0x20 => badAt (v 0 1 == 0 || decide (3 < v 0 1)) 0 ++ notZero p 1 3
  | 0x21 => badAt (v 0 1 != 0x5A) 0 ++ notZero p 1 3
  | 0x22 => badAt (decide (2 ^ 48 ≤ v 0 8)) 0 ++ badAt (decide (1000000000 ≤ v 8 4)) 8 ++ notZero p 12 4
  | 0x30 =>
    badAt (decide (7 < v 0 1)) 0 ++ badAt (decide (7 < v 1 1)) 1 ++ badAt (decide (3 < v 2 1)) 2
      ++ badAt (decide ((if v 1 1 < 4 then 32 else 128) < v 3 1)) 3
      ++ badAt (natBits (v 2 1) 1 1 == 1 && (v 4 2 == 0 || decide (4094 < v 4 2))) 4 ++ notZero p 6 2
  | 0x31 => badAt (decide (7 < v 0 1)) 0 ++ notZero p 1 3
  | 0x40 => badAt (v 0 1 == 0 || decide (223 < v 0 1)) 0 ++ notZero p (1 + v 0 1) (p.length - 1 - v 0 1)
  | 0x41 => badAt (v 0 1 == 0 || decide (223 < v 0 1)) 0 ++ notZero p (1 + v 0 1) (p.length - 1 - v 0 1)
  | 0x42 => notZero p 2 2
  | 0x50 =>
    badAt (decide (1 < v 0 1)) 0 ++ notZero p 1 1 ++ badAt (decide (8191 < v 2 2) && v 2 2 != 0xFFFF) 2
      ++ badAt (v 4 8 == 0 || decide ((if v 0 1 = 0 then 262144 else 2684354560) < v 4 8)) 4
  | 0x51 => notZero p 2 2
  | 0x52 => badAt (decide (512 < v 2 2)) 2
  | 0x53 => notZero p 2 6
  | 0x54 => notZero p 2 2
  | 0x60 => notZero p 2 2 ++ badAt (v 8 4 == 0) 8 ++ badAt (hintBad s (v 12 4)) 12
  | 0x61 => badAt (v 0 2 == 0 || decide (4095 < v 0 2)) 0 ++ notZero p 2 2
  | 0x71 =>
    badAt (decide (4095 < v 0 2)) 0 ++ badAt (decide (1 < v 2 1)) 2 ++ notZero p 3 1 ++ badAt (v 4 4 == 0) 4 ++ notZero p 10 2
      ++ notZero p 74 2
  | 0x80 => badAt (v 0 4 % 4 != 0 || decide (25165824 < v 0 4 + (p.length - 4))) 0
  | 0x81 => badAt (v 0 1 == 0 || decide (3 < v 0 1)) 0 ++ badAt (decide (3 < v 1 1)) 1 ++ notZero p 2 2
  | 0x82 => notZero p 1 3
  | 0x90 => badAt (v 8 1 == 0 || decide (63 < v 8 1)) 8 ++ notZero p 9 3
  | _ => []

/-! ## Paths -/

/-- A path, and a change of it. -/
def getPath (s : State) (path : Nat) : SirPath := mapGet path0 s.mgc.paths path
def updPath (path : Nat) (f : SirPath → SirPath) (s : State) : State :=
  updMgc (fun m => { m with paths := mapUpd path0 m.paths path f }) s

/-- No assembly is open. -/
def closeAssembly (path : Nat) (s : State) : State :=
  updPath path (fun x => { x with fragOpcode := 0, fragSeq := 0, fragData := [], fragCount := 0 }) s

/-- The bytes of a reply (Table 17-6). -/
def replyBytes (r : Reply) : List Nat :=
  [1] ++ leBytes 2 r.opcode ++ [r.status] ++ leBytes 4 r.seq ++ leBytes 2 r.detail ++ leBytes 2 r.params.length ++ [0, 0, 0, 0] ++ r.params

/-- Rows 1 to 5 of Table 17-7; `delivered`: bytes of the packet. -/
def headerError (b : List Nat) (delivered : Nat) : Option (Nat × Nat) :=
  let op := par b 1 2
  let flags := par b 3 1
  let len := par b 10 2
  let z := ((List.range 4).filter (fun i => b.getD (12 + i) 0 != 0)).map (fun (i : Nat) => 12 + i)
  if par b 0 1 ≠ 1 then some (stVersion, 0)
  else if 4080 < len ∨ delivered < 16 + len then some (stLength, 0)
  else if sirOpcodes.contains op = false then some (stInvalidOpcode, 0)
  else if 2 ≤ flags ∨ (flags = 1 ∧ op ≠ 0x70) then some (stInvalidField, 3)
  else
    match z with
    | o :: _ => some (stInvalidField, o)
    | [] => if sirScopeOk op (par b 8 2) then none else some (stInvalidField, 8)

/-- Rows 6 to 8. -/
def paramError (s : State) (op : Nat) (p : List Nat) : Option (Nat × Nat) :=
  if sirLenOk op p = false then some (stLength, 0)
  else
    match sirState s op with
    | some e => some e
    | none =>
      match (sirBad s op p) with
      | [] => none
      | o :: rest => some (stInvalidField, rest.foldl min o)

/-- A request is answered by the interpreter itself. -/
def sirReply (path : Nat) (slot : Option Nat) (op seq status detail : Nat) (s : State) : State :=
  sirDeliver path slot ⟨op, status, seq, detail, []⟩ s

/-- The packet is taken for execution, unless admission refuses it: a management-port packet and a hardware opcode never are, a
packet in band by page 0's ADMIN_DEPTH (R635). -/
def sirTake (path : Nat) (slot : Option Nat) (op flags seq scope : Nat) (p : List Nat) (s : State) : State :=
  let take (s : State) : State := updPath path (fun x => { x with packet := some ⟨op, flags, seq, scope, p, slot⟩ }) s
  match slot with
  | none => take s
  | some k =>
    if sirHardware op then take (updTask k (fun t => { t with st := .executing }) s)
    else if slowAdmits s 0 then take (slowAdmit k (updTask k (fun t => { t with st := .executing }) s))
    else sirReply path slot op seq stBusy (retryHint s) (bumpF F.MGC_CNT_BUSY_REFUSED 1 s)

/-- A retry of the last completed request (R645): a BUSY refusal completed none. -/
def sirRetry (s : State) (path op seq : Nat) : Option Reply :=
  match (getPath s path).kept with
  | some r => if r.opcode = op ∧ r.seq = seq ∧ r.status ≠ stBusy then some r else none
  | none => none

/-- A packet of no open assembly, or the last of one whose parameters so far are `pre`. -/
def sirWhole (path : Nat) (slot : Option Nat) (b : List Nat) (delivered : Nat) (s : State) : State :=
  let op := par b 1 2
  let seq := par b 4 4
  let x := getPath s path
  match headerError b delivered with
  | some (st, d) => sirReply path slot op seq st d s
  | none =>
    let body := (b.drop 16).take (par b 10 2)
    if par b 3 1 = 1 then
      let s := updPath path (fun x => { x with
        fragOpcode := op, fragSeq := (seq + 1) % 2 ^ 32, fragData := x.fragData ++ body, fragCount := x.fragCount + 1 }) s
      sirReply path slot op seq stContinue (x.fragCount + 1) s
    else
      let p := x.fragData ++ body
      let s := closeAssembly path s
      match paramError s op p with
      | some (st, d) => sirReply path slot op seq st d s
      | none => sirTake path slot op (par b 3 1) seq (par b 8 2) p s

/-- A packet arrives on a path (R643 to R646): a retry is answered with the kept reply; a fragment that breaks the open assembly
replies SEQUENCE; any other packet closes it and is executed normally. -/
def sirPacket (path : Nat) (slot : Option Nat) (b : List Nat) (delivered : Nat) (s : State) : State :=
  let op := par b 1 2
  let seq := par b 4 4
  let x := getPath s path
  match sirRetry s path op seq with
  | some r => sirDeliver path slot r s
  | none =>
    if x.fragCount = 0 then sirWhole path slot b delivered s
    else if op = x.fragOpcode ∧ seq = x.fragSeq ∧ x.fragCount < 16 then sirWhole path slot b delivered s
    else if op = x.fragOpcode ∨ par b 3 1 = 1 then sirReply path slot op seq stSequence (x.fragSeq % 65536) (closeAssembly path s)
    else sirWhole path slot b delivered (closeAssembly path s)

/-! ## Running an opcode -/

/-- An opcode runs on the packet that a path holds; the states column is judged again when the core takes it. -/
def sirRun (path op : Nat) (f : Packet → State → State) (s : State) : State :=
  match (getPath s path).packet with
  | none => s
  | some q =>
    if q.opcode ≠ op then s
    else
      match sirState s op with
      | some (st, d) => sirAnswer path st d [] s
      | none => f q s

/-- SUCCESS with parameters, and without. -/
def sirOk (path : Nat) (params : List Nat) (s : State) : State := sirAnswer path stSuccess 0 params s
def sirDone (path : Nat) (s : State) : State := sirOk path [] s
def sirFail (path status detail : Nat) (s : State) : State := sirAnswer path status detail [] s

/-- An opcode that issues journal records waits for the reads-served point and for room in the journal buffer. -/
def sirRecord (path op : Nat) (f : Packet → State → State) (s : State) : State :=
  if s.top.readsOk = false ∨ bufFull s = true then s else sirRun path op f s

end Sys2Proof.Machine
end

