-- ==== Sys2Proof/Machine/SirsisFam.lean ====
section
/-! DEFINITION. Meanings of the Sirsis opcodes (17 Table 17-10). -/

namespace Sys2Proof.Machine

/-! ## Hardware opcodes (17 R647, R648) -/

/-- NOP: TOP_STATE and the revision of the running firmware. -/
def execNop (path : Nat) (s : State) : Host.Outcome State Fault Refusal :=
  .next (sirRun path 0x01 (fun _ s => sirOk path (leBytes 4 (readReg s 0x10) ++ revField s.mgc.revision) s) s)

/-- The first access that failed: its STATUS and its index. -/
def firstFail (e : Option (Nat × Nat)) (st i : Nat) : Option (Nat × Nat) :=
  match e with
  | some x => some x
  | none => if st = 0 then none else some (st, i)

/-- Reads in order, each atomic (R66). -/
def sirReads : List Nat → Nat → List Nat → Option (Nat × Nat) → State → List Nat × Option (Nat × Nat) × State
  | [], _, vs, e, s => (vs, e, s)
  | a :: rest, i, vs, e, s =>
    let st := accessStatus s a
    let (v, s) := regReadAt a s
    sirReads rest (i + 1) (vs ++ [v]) (firstFail e st i) s

/-- Writes in order; a write that resets the device ends the packet. -/
def sirWrites (path : Nat) : List (Nat × Nat) → Nat → Option (Nat × Nat) → State → Option (Nat × Nat) × State
  | [], _, e, s => (e, s)
  | (a, v) :: rest, i, e, s =>
    if (getPath s path).packet.isNone then (e, s)
    else
      let st := accessStatus s a
      sirWrites path rest (i + 1) (firstFail e st i) (regWriteAt .operator a v s)

/-- The index of the first unaligned address. -/
def unaligned (l : List Nat) : Option Nat := l.findIdx? (fun a => a % 4 != 0)

/-- The reply of register accesses: STATUS of the failed access of lowest index. -/
def sirAccessed (path : Nat) (params : List Nat) (e : Option (Nat × Nat)) (s : State) : State :=
  match e with
  | none => sirOk path params s
  | some (st, i) => sirAnswer path st i params s

/-- REG_READ (R647). -/
def execRegRead (path : Nat) (s : State) : Host.Outcome State Fault Refusal :=
  .next (sirRun path 0x10 (fun q s =>
    let as := (List.range (par q.params 4 2)).map (fun i => (par q.params 0 4 + i * par q.params 6 2) % 2 ^ 32)
    match unaligned as with
    | some i => sirFail path stAlignment i s
    | none =>
      let (vs, e, s) := sirReads as 0 [] none s
      sirAccessed path (vs.flatMap (leBytes 4)) e s) s)

/-- REG_WRITE (R647). -/
def execRegWrite (path : Nat) (s : State) : Host.Outcome State Fault Refusal :=
  .next (sirRun path 0x11 (fun q s =>
    let l := (List.range (par q.params 0 2)).map (fun i => (par q.params (4 + 8 * i) 4, par q.params (8 + 8 * i) 4))
    match unaligned (l.map Prod.fst) with
    | some i => sirFail path stAlignment i s
    | none =>
      let (e, s) := sirWrites path l 0 none s
      sirAccessed path [] e s) s)

/-- REG_RMW (R648): (old & ~MASK) | (VALUE & MASK), in the access of the read. -/
def execRegRmw (path : Nat) (s : State) : Host.Outcome State Fault Refusal :=
  .next (sirRun path 0x12 (fun q s =>
    let a := par q.params 0 4
    let m := par q.params 4 4
    if a % 4 ≠ 0 then sirFail path stAlignment 0 s
    else
      let st := accessStatus s a
      let (old, s) := regReadAt a s
      let s := regWriteAt .operator a ((old - (old &&& m)) ||| (par q.params 8 4 &&& m)) s
      sirAccessed path (leBytes 4 old) (firstFail none st 0) s) s)

/-- STATE_REQ (R648, 01 R49). -/
def execStateReq (path : Nat) (s : State) : Host.Outcome State Fault Refusal :=
  .next (sirRun path 0x20 (fun q s =>
    let s := stateRequest (par q.params 0 1) s
    sirOk path [s.top.result, 0, 0, 0] s) s)

/-- DEV_RESET (R648): the reply is posted, and the reset follows. -/
def execDevReset (path : Nat) (s : State) : Host.Outcome State Fault Refusal :=
  .next (sirRun path 0x21 (fun _ s => sirDone path (updMgc (fun m => { m with resetPending := true }) s)) s)

/-- DEV_RESET_DELAY_EXPIRE (R648, 16 Table 16-6): 1 ms after the reply has been posted. -/
def execDevResetDelayExpire (s : State) : Host.Outcome State Fault Refusal :=
  let waits := (getPath s 0).ready.any (fun r => r.opcode == 0x21)
  if s.mgc.resetPending = false ∨ waits = true then .next s else .next (deviceReset 1 s)

/-! ## Time, retention and model (16 R605, 09 R341, R342, 17 R651) -/

/-- TIME_SET (16 R605): the time is set and the Time Unit is Carried. -/
def execTimeSet (path : Nat) (s : State) : Host.Outcome State Fault Refusal :=
  .next (sirRun path 0x22 (fun q s =>
    let t := par q.params 0 8 * 1000000000 + par q.params 8 4
    sirDone path (tuEnter 1 (updTu (fun x => { x with t := t * 2 ^ 48, stepTick := x.ticks }) s))) s)

/-- Samples of a shelf-climate record. -/
def climateSamples (p : List Nat) (n : Nat) : List Int := (List.range n).map (fun i => toSigned 16 (par p (32 + 2 * i) 2))

/-- The first check of R342 that a record fails: STATUS and DETAIL (R651). -/
def climateError (p : List Nat) : Option (Nat × Nat) :=
  let n := par p 2 2
  let bad (o : Nat) : Option (Nat × Nat) := some (stInvalidField, 16 + o)
  if par p 0 2 ≠ 1 then bad 0
  else if n = 0 ∨ 16384 < n then bad 2
  else if p.length ≠ 36 + 2 * n then some (stLength, 0)
  else if crc32c (p.take (32 + 2 * n)) ≠ par p (32 + 2 * n) 4 then bad (32 + 2 * n)
  else if par p 8 2 = 0 ∨ 1440 < par p 8 2 then bad 8
  else
    match notZero p 12 20 with
    | o :: _ => some (stInvalidField, o)
    | [] =>
      match (climateSamples p n).findIdx? (fun x => x != -32768 && (decide (x < -512) || decide (511 < x))) with
      | some i => bad (32 + 2 * i)
      | none => none

/-- SHELF_CLIMATE (09 R342, R344): an accepted record replaces the earlier one, and the dark accrual is computed again. -/
def execShelfClimate (path : Nat) (s : State) : Host.Outcome State Fault Refusal :=
  .next (sirRun path 0x70 (fun q s =>
    let p := q.params
    match climateError p with
    | some (st, d) => sirFail path st d s
    | none =>
      let c : Climate := ⟨par p 4 4, par p 8 2, par p 10 2, climateSamples p (par p 2 2)⟩
      sirDone path (darkRecompute (updRcu (fun r => { r with climate := some c }) s))) s)

/-- MODEL_LOAD (17 R651, 09 Table 09-4): the model becomes the die's origin, or is dropped; learned values are discarded. -/
def execModelLoad (path : Nat) (s : State) : Host.Outcome State Fault Refusal :=
  .next (sirRecord path 0x71 (fun q s =>
    let p := q.params
    let d := par p 0 2
    let m : Model := ⟨(List.range 31).map (fun i => toSigned 16 (par p (12 + 2 * i) 2)), par p 4 4, par p 8 2⟩
    let loaded := if par p 2 1 = 1 then none else some m
    let s := updAge d (fun a => { a with loaded := loaded, learned := none }) s
    let s := updRcu (fun r => { r with ckptLearned := mapDel r.ckptLearned d, imgLearned := mapDel r.imgLearned d }) s
    sirDone path (issue 0x1D 80 [d, par p 4 4, par p 8 2, par p 2 1] [] .nothing s)) s)

/-! ## Ports and access lists (17 R650) -/

/-- The entry that PORT_CFG names, as its parameters give it; an IPv4 address is in bytes 0 to 3. -/
def cfgEntry (p : List Nat) : AddrEntry :=
  { valid := natBits (par p 2 1) 0 1 == 1, tagged := natBits (par p 2 1) 1 1 == 1, pfx := par p 3 1, vlan := par p 4 2
    addr := if par p 1 1 < 4 then par p 8 4 else par p 8 16 }

/-- PORT_CFG (R650): an address that is removed, or replaced, closes the connections made to it. -/
def execPortCfg (path : Nat) (s : State) : Host.Outcome State Fault Refusal :=
  .next (sirRun path 0x30 (fun q s =>
    let p := par q.params 0 1
    let k := par q.params 1 1
    let old := mapGet addr0 s.hfe.addrs (p * 8 + k)
    let new := cfgEntry q.params
    let gone := old.valid && (!new.valid || new.addr != old.addr || new.tagged != old.tagged || (new.tagged && new.vlan != old.vlan))
    let s := if gone then (mapKeysWhere (fun _ c => c.port == p && c.entry == k) s.hfe.conns).foldl (fun s c => loseConn c s) s else s
    let s := updHfe (fun h => { h with addrs := mapSet addr0 h.addrs (p * 8 + k) new }) s
    let s := saveSetting (addrSetting p k) [bitOf new.valid, bitOf new.tagged, new.pfx, new.vlan, new.addr] s
    sirDone path (if old = new then s else discChanged s)) s)

/-- An address entry as PORT_READ returns it: PORT_CFG from byte 1, padded to 24 bytes. -/
def entryBytes (k : Nat) (a : AddrEntry) : List Nat :=
  [k, bitOf a.valid + bitAt a.tagged 1, a.pfx] ++ leBytes 2 a.vlan ++ [0, 0] ++ leBytes 16 a.addr ++ [0]

/-- PORT_READ (R648). -/
def execPortRead (path : Nat) (s : State) : Host.Outcome State Fault Refusal :=
  .next (sirRun path 0x31 (fun q s =>
    sirOk path ((List.range 8).flatMap (fun k => entryBytes k (mapGet addr0 s.hfe.addrs (par q.params 0 1 * 8 + k)))) s) s)

/-- The host NQN of ACL_ADD and ACL_REMOVE. -/
def aclNqn (p : List Nat) : Nat := par p 1 (par p 0 1)

/-- ACL_ADD (R648, 04 R127): 256 entries at most. -/
def execAclAdd (path : Nat) (s : State) : Host.Outcome State Fault Refusal :=
  .next (sirRun path 0x40 (fun q s =>
    let l := (getTenant s q.scope).acl
    if l.contains (aclNqn q.params) then sirDone path s
    else if 256 ≤ l.length then sirFail path stLimit 0 s
    else sirDone path (setAcl q.scope (l ++ [aclNqn q.params]) s)) s)

/-- ACL_REMOVE (R650): the host's controllers of the tenant are torn down before the reply. -/
def execAclRemove (path : Nat) (s : State) : Host.Outcome State Fault Refusal :=
  .next (sirRun path 0x41 (fun q s =>
    let l := (getTenant s q.scope).acl
    let h := aclNqn q.params
    if l.contains h = false then sirFail path stNotFound 0 s
    else
      let s := setAcl q.scope (l.filter (· != h)) s
      let cs := mapKeysWhere (fun k c => c.live && k / 0x100 == q.scope && c.host == h) s.qe.ctls
      sirDone path (cs.foldl (fun s k => tearCtl q.scope (k % 0x100) s) s)) s)

/-- ACL_LIST (R648): up to 16 entries from START. -/
def execAclList (path : Nat) (s : State) : Host.Outcome State Fault Refusal :=
  .next (sirRun path 0x42 (fun q s =>
    let l := (getTenant s q.scope).acl
    let x := (l.drop (par q.params 0 2)).take 16
    let one (n : Nat) : List Nat := [(textBytes 223 n).length] ++ padTo 223 0 (textBytes 223 n)
    sirOk path (leBytes 2 l.length ++ leBytes 2 x.length ++ x.flatMap one) s) s)

/-! ## Namespaces (17 R649, 06 R193, R214, R223) -/

/-- An index is in use: by a namespace, or by one whose deletion is not yet durable. -/
def nsTaken (s : State) (n : Nat) : Bool := decide (getNs s n ≠ ns0)

/-- The lowest free NSID of a tenant's table. -/
def freeNsid (s : State) (t : Nat) : Nat := (((List.range 16).map (· + 1)).find? (fun k => (nsIndex? s t k).isNone)).getD 0

/-- Zones and LBAs of the namespaces there are, and what the grade allows. -/
def zonesMade (s : State) : Nat := ((s.tabs.nss.filter (fun e => e.2.valid && !e.2.conv)).map (fun e => e.2.size)).sum
def lbasMade (s : State) : Nat := ((s.tabs.nss.filter (fun e => e.2.valid && e.2.conv)).map (fun e => e.2.size)).sum
def zonesMax (s : State) : Nat := if s.fuse.gradeB then 131072 else 262144
def lbasMax (s : State) : Nat := if s.fuse.gradeB then 1342177280 else 2684354560

/-- A namespace of a size does not fit (R214, R223, 00 R4). -/
def nsNoRoom (s : State) (conv : Bool) (size : Nat) : Bool :=
  if conv then decide (lbasMax s < lbasMade s + size)
  else decide (spare s - 52 * (size : Int) < getF s F.ZM_RSV_CFG_LOW_MARK) || decide (zonesMax s < zonesMade s + size)
    || decide (trainedLinks s < 53)

/-- Operations of an NSCFG record (12 Table 12-3). -/
def nsRecord (op n : Nat) (patches : List Patch) (after : After) (s : State) : State :=
  issue 0x19 32 [op, n, (getNs s n).tenant, (getNs s n).size] patches after s

/-- NS_CREATE (R649). -/
def execNsCreate (path : Nat) (s : State) : Host.Outcome State Fault Refusal :=
  .next (sirRecord path 0x50 (fun q s =>
    let conv := par q.params 0 1 == 1
    let size := par q.params 4 8
    let ask := par q.params 2 2
    let n := if ask = 0xFFFF then ((List.range 8192).find? (fun n => !(nsTaken s n))).getD 8192 else ask
    if 16 ≤ nssOf s q.scope ∨ 8192 ≤ mapCount (fun _ x => x.valid) s.tabs.nss ∨ n = 8192 then sirFail path stLimit 0 s
    else if nsTaken s n = true ∨ tenantState s q.scope = 0 then sirFail path stConflict 0 s
    else if nsNoRoom s conv size then sirFail path stCapacity 0 s
    else
      let x : Ns := { ns0 with valid := true, tenant := q.scope, nsid := freeNsid s q.scope, conv := conv, size := size }
      let s' := updNs n (fun _ => x) s
      let s' := zmSettle s (nsRecord 0 n [.ns n x] .nothing s')
      sirOk path (leBytes 2 n ++ [0, 0] ++ leBytes 4 x.nsid) s') s)

/-- An opcode on a namespace: NOT_FOUND when the index names none. -/
def onNs (path : Nat) (q : Packet) (f : Nat → Ns → State) (s : State) : State :=
  let n := par q.params 0 2
  if (getNs s n).valid then f n (getNs s n) else sirFail path stNotFound 0 s

/-- NS_DELETE (R649): the namespace is gone at once; the NSCFG record releases its stripes when it is accepted. -/
def execNsDelete (path : Nat) (s : State) : Host.Outcome State Fault Refusal :=
  .next (sirRecord path 0x51 (fun q s => onNs path q (fun n x =>
    if x.attached ≠ [] then sirFail path stConflict 0 s
    else
      let s' := nsRecord 1 n [] (.wipe ⟨x.tenant, [n], 3, san0⟩) s
      sirDone path (zmSettle s (updNs n (fun x => { x with valid := false }) s'))) s) s)

/-- Die-blocks of a namespace's zone stripes and reservations. -/
def nsBlocks (s : State) (n : Nat) : List Nat :=
  (s.tabs.stripes.filter (fun e => e.2.live && e.2.zone.any (fun z => zoneNs z == n))).flatMap (fun e => heldMembers s e.1)
    ++ (s.tabs.zones.filter (fun e => zoneNs e.1 == n)).flatMap (fun e => e.2.reserve)

/-- The namespace's zone stripes and their die-blocks go to the new owner. -/
def moveStripes (n t : Nat) (s : State) : State :=
  let s := (nsBlocks s n).foldl (fun s r => updBlock r (fun b => { b with owner := t }) s) s
  (mapKeysWhere (fun _ x => x.live && x.zone.any (fun z => zoneNs z == n)) s.tabs.stripes).foldl
    (fun s k => updStripe k (fun x => { x with tenant := t }) s) s

/-- The patches that record a move. -/
def movePatches (n : Nat) (s : State) : List Patch :=
  [.ns n (getNs s n)] ++ (nsBlocks s n).map (fun r => .block r (getBlock s r))
    ++ (mapKeysWhere (fun _ x => x.live && x.zone.any (fun z => zoneNs z == n)) s.tabs.stripes).map (fun k => .stripe k (getStripe s k))

/-- NS_MOVE (R649, 04 R126): open and active zones go with it. -/
def execNsMove (path : Nat) (s : State) : Host.Outcome State Fault Refusal :=
  .next (sirRecord path 0x52 (fun q s => onNs path q (fun n x =>
    let t := par q.params 2 2
    if x.attached ≠ [] ∨ tenantState s t = 0 then sirFail path stConflict 0 s
    else if 16 ≤ nssOf s t then sirFail path stLimit 0 s
    else
      let nsid := if t = x.tenant then x.nsid else freeNsid s t
      let s' := moveStripes n t (updNs n (fun x => { x with tenant := t, nsid := nsid }) s)
      let s' := nsRecord 2 n (movePatches n s') .nothing s'
      sirOk path (leBytes 4 nsid) (zmSettle s s')) s) s)

/-- NS_RESIZE (R649): conventional namespaces only; a smaller size deallocates what lies above it. -/
def execNsResize (path : Nat) (s : State) : Host.Outcome State Fault Refusal :=
  .next (sirRecord path 0x53 (fun q s => onNs path q (fun n x =>
    let size := par q.params 8 8
    if x.conv = false then sirFail path stInvalidField 16 s
    else if size = 0 ∨ 2684354560 < size then sirFail path stInvalidField 24 s
    else if lbasMax s < lbasMade s - x.size + size then sirFail path stCapacity 0 s
    else
      let s := updNs n (fun x => { x with size := size }) s
      if size < x.size then
        let (st, s) := drawStamp n s
        let s := (rangeKeys s n size (x.size - size)).foldl (fun s k => updUnit k (fun l => goneUnit st :: l) s) s
        sirDone path (nsChanged n (nsRecord 3 n [.ns n (getNs s n)] (.dealloc n st [(size, x.size - size)]) s))
      else sirDone path (nsChanged n (nsRecord 3 n [.ns n (getNs s n)] .nothing s))) s) s)

/-- NS_INFO (R648): SIZE in zones or LBAs; WP of a conventional namespace as CONV_WP. -/
def execNsInfo (path : Nat) (s : State) : Host.Outcome State Fault Refusal :=
  .next (sirRun path 0x54 (fun q s => onNs path q (fun n x =>
    let live := if x.conv then 0 else zonesIn s n (fun z => z.st != .offline)
    sirOk path (leBytes 2 x.tenant ++ [bitOf x.conv, bitOf (x.conv && s.mme.convWp)] ++ leBytes 4 x.nsid ++ leBytes 8 x.size
      ++ leBytes 4 live ++ leBytes 4 x.attached.length) s) s) s)

/-! ## Hints (06 R216 to R218) -/

/-- ZONE_HINT (06 R216, R218): the hint word of a range; the first hint that names a group with MODE 1 chooses its home, and a home
that no hint names any more is forgotten. -/
def execZoneHint (path : Nat) (s : State) : Host.Outcome State Fault Refusal :=
  .next (sirRecord path 0x60 (fun q s => onNs path q (fun n x =>
    let first := par q.params 4 4
    let count := par q.params 8 4
    let h := par q.params 12 4
    let g := natBits h 0 12
    if x.conv then sirFail path stInvalidField 16 s
    else if x.size ≤ first then sirFail path stInvalidField 20 s
    else if x.size < first + count then sirFail path stInvalidField 24 s
    else
      let s := updTabs (fun t => { t with zones := setHints n first count h t.zones }) s
      let s := issue 0x1A 24 [n, 0, first, count, h] [.hints n first count h] .nothing s
      let s := if natBits h 12 2 = 1 ∧ mapGet 0 s.tabs.homes g = 0 then chooseHome g h x.tenant s else s
      let s := (idleHomes s).foldl (fun s g => issue 0x1A 24 [g, 0] [.home g 0] .nothing (forgetHome s g)) s
      sirDone path s) s) s)

/-- HOME_READ (R648): the home, whether it is pinned, and the bound zones whose hint names the group. -/
def execHomeRead (path : Nat) (s : State) : Host.Outcome State Fault Refusal :=
  .next (sirRun path 0x61 (fun q s =>
    let g := par q.params 0 2
    let v := mapGet 0 s.tabs.homes g
    let n := mapCount (fun _ z => z.stripe.isSome && natBits z.hint 0 12 == g) s.tabs.zones
    sirOk path (leBytes 2 (v / 2) ++ [v % 2, 0] ++ leBytes 4 n) s) s)

/-! ## Firmware store (18 R678, R679, R682) -/

/-- FW_DOWNLOAD (18 R678). -/
def execFwDownload (path : Nat) (s : State) : Host.Outcome State Fault Refusal :=
  .next (sirRun path 0x80 (fun q s =>
    if s.fws.job.isSome then sirFail path stBusy (retryHint s) s
    else sirDone path (stageBytes (par q.params 0 4) (q.params.drop 4) s)) s)

/-- FW_COMMIT (18 R679): it replies when its commit ends. -/
def execFwCommit (path : Nat) (s : State) : Host.Outcome State Fault Refusal :=
  .next (sirRun path 0x81 (fun q s =>
    match s.fws.job with
    | some j => if j.path = some path then s else sirFail path stBusy (retryHint s) s
    | none => commitStart (par q.params 0 1) (par q.params 1 1) none (some path) (fun d s => sirFail path stInvalidField d s) s) s)

/-- PROT_SET (18 R682). -/
def execProtSet (path : Nat) (s : State) : Host.Outcome State Fault Refusal :=
  .next (sirRun path 0x82 (fun q s =>
    let (st, d, s) := protSet (par q.params 0 1) (par q.params 4 4) s
    sirAnswer path st d [] s) s)

/-! ## The Herdbook and health (19 R702, R703) -/

/-- HB_READ (19 R702). -/
def execHbRead (path : Nat) (s : State) : Host.Outcome State Fault Refusal :=
  .next (sirRun path 0x90 (fun q s => sirOk path (hbReply (par q.params 0 8) (par q.params 8 1) s) s) s)

/-- HEALTH_READ (19 R703). -/
def execHealthRead (path : Nat) (s : State) : Host.Outcome State Fault Refusal :=
  .next (sirRun path 0x91 (fun _ s => sirOk path (healthReply s) s) s)

end Sys2Proof.Machine
end

