-- ==== Sys2Proof/Machine/MgmtFam.lean ====
section
/-! DEFINITION. Meanings of the management port's commands (17 R637 to R642, R653), of the Sirsis packets in band (R652) and of the load
window (R634). -/

namespace Sys2Proof.Machine

/-! ## The port (R638 to R642) -/

/-- The port hears its bus: the device has power, and no HDR mode is being ignored. -/
def portHears (s : State) : Bool := s.top.dev != .off && !(s.pad.mgmtI3c && s.mgc.hdrIgnore)

/-- The packet in MGC_TASK_BUF. -/
def taskPacket (s : State) : List Nat := (List.range 4096).map (fun i => (mapGet 0 s.mgc.buf i).toNat)

/-- GO (R639): the interpreter takes the packet; while STATE is busy OVERRUN is set instead. -/
def taskGo (s : State) : State :=
  if s.mgc.taskSt = 1 then updMgc (fun m => { m with overrun := true }) s
  else sirPacket 0 none (taskPacket s) 4096 (updMgc (fun m => { m with taskSt := 1, replyLen := 0 }) s)

/-- One data byte of a port write; the region is that of the write's first byte. -/
def portByte (region : Nat) (s : State) (e : Nat × Nat) : State :=
  let o := e.1
  let b := e.2 % 256
  if region = 0 ∧ o < 0x1000 then
    if s.mgc.taskSt = 1 then updMgc (fun m => { m with overrun := true }) s
    else updMgc (fun m => { m with buf := mapSet 0 m.buf o (BitVec.ofNat 8 b) }) s
  else if region = 1 ∧ o = 0x1000 then
    if s.mgc.taskSt = 1 then updMgc (fun m => { m with overrun := true }) s else if b % 2 = 1 then taskGo s else s
  else if region = 1 ∧ o < 0x1004 then (if s.mgc.taskSt = 1 then updMgc (fun m => { m with overrun := true }) s else s)
  else if region = 2 ∧ o = 0x1004 then
    updMgc (fun m => { m with overrun := m.overrun && natBits b 2 1 == 0, ibiEn := natBits b 3 1 == 1 }) s
  else s

/-- The region of Table 17-2 that takes writes. -/
def portRegion (o : Nat) : Nat := if o < 0x1000 then 0 else if o < 0x1004 then 1 else if o < 0x1008 then 2 else 3

/-- Data bytes of one transfer: 256 in SMBus mode, 4,096 in I3C mode (R638). -/
def portLimit (s : State) : Nat := if s.pad.mgmtI3c then 4096 else 256

/-- MGMT_PORT_WRITE (R637, R638): a transfer whose PEC fails has no effect. -/
def execMgmtPortWrite (offset : Nat) (data : List Nat) (pecOk : Bool) (s : State) : Host.Outcome State Fault Refusal :=
  if portHears s = false ∨ 0xFFFF < offset then .next s
  else if s.pad.mgmtI3c = false ∧ pecOk = false then .next (emit (.mgmt "NACK" []) s)
  else
    let d := data.take (portLimit s)
    let s := updMgc (fun m => { m with portOff := offset }) s
    .next (((List.range d.length).map (fun i => (offset + i, d.getD i 0))).foldl (portByte (portRegion offset)) s)

/-- TASK_GO (R639, R641). -/
def execTaskGo (s : State) : Host.Outcome State Fault Refusal := if portHears s then .next (taskGo s) else .next s

/-- TASK_REPLY_DONE (R639): the reply is in MGC_TASK_BUF, STATE is done, and the in-band interrupt is raised when IBI_EN = 1 and the
controller holds ENEC permission. -/
def execTaskReplyDone (s : State) : Host.Outcome State Fault Refusal :=
  match (getPath s 0).ready with
  | none => .next s
  | some r =>
    if s.mgc.taskSt ≠ 1 then .next s
    else
      let b := replyBytes r
      let put (m : SMap Byte) : SMap Byte := (List.range b.length).foldl (fun m i => mapSet 0 m i (BitVec.ofNat 8 (b.getD i 0))) m
      let s := updPath 0 (fun x => { x with ready := none }) s
      let s := updMgc (fun m => { m with buf := put m.buf, taskSt := 2, replyLen := b.length }) s
      if s.mgc.ibiEn ∧ s.mgc.ibiAllowed ∧ s.pad.mgmtI3c then .next (emit (.ibi 1) s) else .next s

/-! ## I3C common command codes (R637) -/

/-- The port hears a CCC: I3C mode, powered, and not ignoring an HDR mode. -/
def cccHeard (s : State) : Bool := s.pad.mgmtI3c && portHears s

/-- A directed CCC reaches the port at its dynamic address; without one it is not acknowledged. -/
def cccReply (name : String) (bytes : List Nat) (s : State) : State :=
  if cccHeard s = false then s else if s.mgc.dynAddr.isSome then emit (.mgmt name bytes) s else emit (.mgmt "NACK" []) s

/-- ENTDAA: a port without a dynamic address takes the one assigned. -/
def execEntdaa (addr : Nat) (s : State) : Host.Outcome State Fault Refusal :=
  if cccHeard s ∧ s.mgc.dynAddr.isNone then .next (updMgc (fun m => { m with dynAddr := some addr }) s) else .next s

/-- SETDASA: from the static address 0x18 + the strap (20 Table 20-3). -/
def execSetdasa (static addr : Nat) (s : State) : Host.Outcome State Fault Refusal :=
  if cccHeard s ∧ static = 0x18 + s.pad.mgmtAddr ∧ s.mgc.dynAddr.isNone then .next (updMgc (fun m => { m with dynAddr := some addr }) s)
  else .next s

/-- RSTDAA: the dynamic address goes. -/
def execRstdaa (s : State) : Host.Outcome State Fault Refusal :=
  if cccHeard s then .next (updMgc (fun m => { m with dynAddr := none }) s) else .next s

/-- ENEC: bit 0 (ENINT) permits in-band interrupts. -/
def execEnec (events : Nat) (s : State) : Host.Outcome State Fault Refusal :=
  if cccHeard s ∧ events % 2 = 1 then .next (updMgc (fun m => { m with ibiAllowed := true }) s) else .next s

/-- DISEC: bit 0 (DISINT) withdraws the permission. -/
def execDisec (events : Nat) (s : State) : Host.Outcome State Fault Refusal :=
  if cccHeard s ∧ events % 2 = 1 then .next (updMgc (fun m => { m with ibiAllowed := false }) s) else .next s

/-- GETPID: 48 bits, most significant byte first; the spec states no value. -/
def execGetpid (s : State) : Host.Outcome State Fault Refusal := .next (cccReply "GETPID" (beBytes 6 (Config.fixedValue 0)) s)

/-- GETBCR: the spec states no value. -/
def execGetbcr (s : State) : Host.Outcome State Fault Refusal := .next (cccReply "GETBCR" (beBytes 1 (Config.fixedValue 1)) s)

/-- GETDCR: the spec states no value. -/
def execGetdcr (s : State) : Host.Outcome State Fault Refusal := .next (cccReply "GETDCR" (beBytes 1 (Config.fixedValue 2)) s)

/-- GETSTATUS: 16 bits; the spec states no value. -/
def execGetstatus (s : State) : Host.Outcome State Fault Refusal :=
  let (v, s) := drawFree 16 s
  .next (cccReply "GETSTATUS" (beBytes 2 v) s)

/-- GETMWL reports 4,098 (R638). -/
def execGetmwl (s : State) : Host.Outcome State Fault Refusal := .next (cccReply "GETMWL" (beBytes 2 4098) s)

/-- HDR_ENTRY: ignored until the exit pattern. -/
def execHdrEntry (s : State) : Host.Outcome State Fault Refusal :=
  if cccHeard s then .next (updMgc (fun m => { m with hdrIgnore := true }) s) else .next s

/-- HDR_EXIT_PATTERN. -/
def execHdrExitPattern (s : State) : Host.Outcome State Fault Refusal := .next (updMgc (fun m => { m with hdrIgnore := false }) s)

/-- UNSUPPORTED_CCC: NACKed when directed, ignored when broadcast. -/
def execUnsupportedCcc (_code : Nat) (directed : Bool) (s : State) : Host.Outcome State Fault Refusal :=
  if cccHeard s ∧ directed = true then .next (emit (.mgmt "NACK" []) s) else .next s

/-- NVME_MI_BASIC_READ (R653): in SMBus mode `offset` is the command code of the block read; in I3C mode the offset from 0x2000. -/
def execNvmeMiBasicRead (offset : Nat) (s : State) : Host.Outcome State Fault Refusal :=
  if portHears s = false then .next s
  else
    let d := miData s
    let bytes :=
      if s.pad.mgmtI3c then padTo (max 1 (32 - offset)) 0 (d.drop offset)
      else if offset = 0 then d.take 8 else if offset = 8 then d.drop 8 else [0]
    .next (emit (.mgmt "NVME-MI" bytes) s)

/-! ## In band (R652) -/

/-- The CDWs that must be zero. -/
def inbandClean (t : Task) : Bool :=
  decide (t.cap.cdw10 < 2) && t.cap.cdw11 == 0 && t.cap.cdw12 == 0 && t.cap.cdw13 == 0 && t.cap.cdw14 == 0 && t.cap.cdw15 == 0

/-- SIRSIS_INBAND_SUBMIT (R652): phase 0; another one outstanding of the controller interrupts it. -/
def execSirsisInbandSubmit (slot : Nat) (s : State) : Host.Outcome State Fault Refusal :=
  if (getTask s slot).cap.cdw10 % 2 = 1 then .next s
  else
    .next (adminRun slot 0xC4 (fun t _ s =>
      let path := t.cntlid + 1
      let n := t.cap.inCapsule.length
      if inbandClean t = false then finishErr slot 0 0x02 s
      else if n < 16 ∨ 4096 < n ∨ n ≠ t.cap.sglLen then finishErr slot 0 0x0F s
      else if (getPath s path).packet.isSome then finishBusy slot s
      else sirPacket path (some slot) t.cap.inCapsule n s) s)

/-- SIRSIS_INBAND_FETCH (R652): phase 1. -/
def execSirsisInbandFetch (slot : Nat) (s : State) : Host.Outcome State Fault Refusal :=
  if (getTask s slot).cap.cdw10 % 2 = 0 then .next s
  else
    .next (adminRun slot 0xC4 (fun t _ s =>
      match (getPath s (t.cntlid + 1)).kept with
      | none => finishErr slot 0 0x02 s
      | some r =>
        if inbandClean t = false ∨ t.cap.sglLen < (replyBytes r).length then finishErr slot 0 0x02 s
        else replyData slot (replyBytes r) s) s)

/-! ## Load and shedding (R634) -/

/-- LOAD_WINDOW (R634, R636): the busy shares of the last 100 ms in percent, and the service times of the last second. Shedding is
entered above SHED_PCT and left after ten windows in a row at or below EXIT_PCT. -/
def execLoadWindow (cc0 cc1 cc2 cc3 sc svcSum svcCount : Nat) (s : State) : Host.Outcome State Fault Refusal :=
  let pct (n : Nat) : Nat := min 100 n
  let load := pct (max (max cc0 cc1) (max cc2 cc3))
  let run := if load ≤ getF s F.MGC_SHED_CFG_EXIT_PCT then s.mgc.lowRun + 1 else 0
  let s := updMgc (fun m => { m with
    loads := [pct cc0, pct cc1, pct cc2, pct cc3], scLoad := pct sc, svcSum := svcSum, svcCount := svcCount, lowRun := run }) s
  if s.mgc.shed = false then
    if getF s F.MGC_SHED_CFG_SHED_PCT < load then .next (fire 800 load (updMgc (fun m => { m with shed := true, lowRun := 0 }) s)) else .next s
  else if 10 ≤ run then .next (fire 801 load (updMgc (fun m => { m with shed := false }) s))
  else .next s

end Sys2Proof.Machine
end

