-- ==== Sys2Proof/Machine/CrcFam.lean ====
section
/-! DEFINITION. DRAM_CRC_MISMATCH (02 R60, Table 02-8, 15 R553, R554, 10 R402, 14 R537, 13 R513, 08 R316). -/

namespace Sys2Proof.Machine

/-- The mismatch is counted and recorded, and its source fires (15 R553). -/
def crcNote (addr port : Nat) (s : State) : State :=
  let ch := (dramMap s addr).channel
  fire 768 ch (updDmc (fun d => { d with lastAddr := addr / 512 * 512, lastChannel := ch, lastPort := port })
    (bumpF F.DMC_CRC_CNT_MISMATCH 1 s))

/-- Write data not yet committed: the unit is fetched from the host again and keeps its tag (03 R93, 13 R501). -/
def refetchUnit (slot unit : Nat) (s : State) : State :=
  let t := getTask s slot
  if t.uncommitted = false ∨ t.st ≠ .receiving ∨ (mapGet tunit0 t.units unit).bytes ≠ 4096 then s
  else
    let s := updTask slot (fun t => { t with
      units := mapUpd tunit0 t.units unit (fun u => { u with bytes := 0, recheck := u.tag.isSome }) }) s
    emit (.frame t.conn (if (getConn s t.conn).tcp then "R2T" else "RDMA READ") (unit * 4096)) (transmit t.conn s)

/-- Read staging of a codeword: it is read again from L0 (08 R316, 13 R513). -/
def rereadCw (i : Nat) (s : State) : State :=
  let c := getCw s i
  if (mapKeysWhere (fun k _ => k == i) s.clc.cws) = [] ∨ c.st ≠ 2 then s
  else
    startCw { c with
      step := 0, rereads := 0, st := 0, hard := [], sense := none, nbr := [], nbrBad := false, ran := 0, iters := 0, corrected := 0
      miscorrected := false, bytes := [], parts := [], memFailed := [] } (dropCw i s)

/-- Both copies of a queue-pair context failed: the connection goes as by a fatal transport error, and source 196 names its
tenant. -/
def contextLost (c : Nat) (s : State) : State :=
  let x := getConn s c
  if x.port = 8 then s else loseConn c (fire 196 x.tenant s)

/-- DRAM_CRC_MISMATCH. `object` names what the block held: 0 write data not committed (`key`: slot × 65536 + unit), 1 committed write
data, 2 a Pail or Rind column, 3 read staging of codeword `key`, 4 held samples `key`, 5 one copy of a queue-pair context, 6 both
copies of that of connection `key`, 7 a table page, 8 one copy of a side-table entry, 9 both copies of that of buffer `key`, 10 the
block of a partial write. An address at or above U is refused with an event (15 Table 15-2). -/
def execDramCrcMismatch (addr port object key : Nat) (s : State) : Host.Outcome State Fault Refusal :=
  if dramSpace s ≤ addr then .next (fire 773 port s)
  else if object = 10 then .next (fire 769 (dramMap s addr).channel (bumpF F.DMC_CRC_CNT_POISON 1 s))
  else
    let s := crcNote addr port s
    let s := if object ≤ 2 then bumpF F.WPE_FAIL_CNT_RECON 1 s else s
    match object with
    | 0 => .next (refetchUnit (key / 65536) (key % 65536) s)
    | 3 => .next (rereadCw key s)
    | 4 => .next (dropHeld key s)
    | 6 => .next (contextLost key s)
    | 9 => if handleValid key ∧ (mapGet buf0 s.bpm.bufs key).st = 1 then .next (retireBuffer key s) else .next s
    | _ => .next s

end Sys2Proof.Machine
end

