-- ==== Sys2Proof/Machine/RegFam.lean ====
section
/-! DEFINITION. Register accesses as commands (00 R16 to R20): a 64-bit pair, RC and W1C fields, and writes of registers that have no
row of their own. An address that is not a multiple of 4 is rejected with ALIGNMENT and has no effect (R16). -/

namespace Sys2Proof.Machine

/-- A read by command returns its value. -/
def readOut (addr : Nat) (s : State) : State :=
  if addr % 4 ≠ 0 then emit (.mgmt "ALIGNMENT" []) s
  else
    let (v, s) := regReadAt addr s
    emit (.value addr (BitVec.ofNat 32 v)) s

/-- A write by command. -/
def writeIn (w : Writer) (addr v : Nat) (s : State) : State :=
  if addr % 4 ≠ 0 then emit (.mgmt "ALIGNMENT" []) s else regWriteAt w addr v s

/-- REG_PAIR_LOW_READ (00 R19). -/
def execRegPairLowRead (addr : Nat) (s : State) : Host.Outcome State Fault Refusal := .next (readOut addr s)

/-- REG_PAIR_HIGH_READ (00 R19). -/
def execRegPairHighRead (addr : Nat) (s : State) : Host.Outcome State Fault Refusal := .next (readOut addr s)

/-- REG_PAIR_HIGH_WRITE (00 R19). -/
def execRegPairHighWrite (addr : Nat) (value : Word) (s : State) : Host.Outcome State Fault Refusal :=
  .next (writeIn .operator addr value.toNat s)

/-- REG_PAIR_LOW_WRITE (00 R19). -/
def execRegPairLowWrite (addr : Nat) (value : Word) (s : State) : Host.Outcome State Fault Refusal :=
  .next (writeIn .operator addr value.toNat s)

/-- RC_READ (00 R20). -/
def execRcRead (addr : Nat) (s : State) : Host.Outcome State Fault Refusal := .next (readOut addr s)

/-- W1C_WRITE (00 R20). -/
def execW1cWrite (addr : Nat) (value : Word) (s : State) : Host.Outcome State Fault Refusal :=
  .next (writeIn .operator addr value.toNat s)

/-- REGISTER_WRITE (00 R15, R20, R21). -/
def execRegisterWrite (w : Writer) (addr : Nat) (value : Word) (s : State) : Host.Outcome State Fault Refusal :=
  .next (writeIn w addr value.toNat s)

end Sys2Proof.Machine
end

