-- ==== Sys2Proof/Machine/Dispatch.lean ====
section
/-! DEFINITION. The dispatch: one arm per command, each one direct call of its meaning. -/

namespace Sys2Proof.Machine

/-- The effect of a command on everything but the queue. -/
def exec (i : Instr) (s : State) : Host.Outcome State Fault Refusal :=
  match i with
  | .porstNAssert powerRemoved => Sys2Proof.Machine.execPorstNAssert powerRemoved s
  | .porstNRelease hmode i3c addr testmode coreRuns netRuns => Sys2Proof.Machine.execPorstNRelease hmode i3c addr testmode coreRuns netRuns s
  | .railFail rail => Sys2Proof.Machine.execRailFail rail s
  | .bootSlotSelect => Sys2Proof.Machine.execBootSlotSelect s
  | .signatureCheckDone => Sys2Proof.Machine.execSignatureCheckDone s
  | .dramTrainingDone storedOk failMask cap ranks2 metaCopy retain => Sys2Proof.Machine.execDramTrainingDone storedOk failMask cap ranks2 metaCopy retain s
  | .adminServedPoint => Sys2Proof.Machine.execAdminServedPoint s
  | .readsServedPoint => Sys2Proof.Machine.execReadsServedPoint s
  | .openRowReplayDone => Sys2Proof.Machine.execOpenRowReplayDone s
  | .quiesceRequest => Sys2Proof.Machine.execQuiesceRequest s
  | .retainedRequest => Sys2Proof.Machine.execRetainedRequest s
  | .resumeRequest => Sys2Proof.Machine.execResumeRequest s
  | .quiesceDrainExpire => Sys2Proof.Machine.execQuiesceDrainExpire s
  | .quiesceComplete => Sys2Proof.Machine.execQuiesceComplete s
  | .retainedEntry => Sys2Proof.Machine.execRetainedEntry s
  | .retainedResumeDone failedGroups => Sys2Proof.Machine.execRetainedResumeDone failedGroups s
  | .pwrwarnStuck => Sys2Proof.Machine.execPwrwarnStuck s
  | .pwrwarnUnstick => Sys2Proof.Machine.execPwrwarnUnstick s
  | .timeMark => Sys2Proof.Machine.execTimeMark s
  | .skimDueWrite w value => Sys2Proof.Machine.execSkimDueWrite w value s
  | .modeApply => Sys2Proof.Machine.execModeApply s
  | .modeSave forget => Sys2Proof.Machine.execModeSave forget s
  | .modeForget save => Sys2Proof.Machine.execModeForget save s
  | .laneLossOfLockTimeout lane allTogether => Sys2Proof.Machine.execLaneLossOfLockTimeout lane allTogether s
  | .laneUncorrInterval lane uncorr => Sys2Proof.Machine.execLaneUncorrInterval lane uncorr s
  | .portTrainingDone port ok failedLanes => Sys2Proof.Machine.execPortTrainingDone port ok failedLanes s
  | .narrowCandidateTimeout port => Sys2Proof.Machine.execNarrowCandidateTimeout port s
  | .portRetrainTimer port => Sys2Proof.Machine.execPortRetrainTimer port s
  | .portWiden port => Sys2Proof.Machine.execPortWiden port s
  | .autoWidenTimer port => Sys2Proof.Machine.execAutoWidenTimer port s
  | .nextHopResolved hop => Sys2Proof.Machine.execNextHopResolved hop s
  | .nextHopTimeout hop => Sys2Proof.Machine.execNextHopTimeout hop s
  | .frameReceive port len fcsOk dscp vlan pcp => Sys2Proof.Machine.execFrameReceive port len fcsOk dscp vlan pcp s
  | .pfcXoffRepeat port b => Sys2Proof.Machine.execPfcXoffRepeat port b s
  | .pfcXon port b drained => Sys2Proof.Machine.execPfcXon port b drained s
  | .pfcFrameReceive port prio quanta => Sys2Proof.Machine.execPfcFrameReceive port prio quanta s
  | .pfcStormDetect port b => Sys2Proof.Machine.execPfcStormDetect port b s
  | .pfcStormEnd port b => Sys2Proof.Machine.execPfcStormEnd port b s
  | .rocePacketReceive conn psn op icrcOk ce len cap => Sys2Proof.Machine.execRocePacketReceive conn psn op icrcOk ce len cap s
  | .cnpReceive conn => Sys2Proof.Machine.execCnpReceive conn s
  | .rateRecoverTimer conn => Sys2Proof.Machine.execRateRecoverTimer conn s
  | .rdmaAckTimeout conn => Sys2Proof.Machine.execRdmaAckTimeout conn s
  | .rdmaConnectRequest port entry tenant hop io => Sys2Proof.Machine.execRdmaConnectRequest port entry tenant hop io s
  | .tcpSyn port entry dport tenant hop => Sys2Proof.Machine.execTcpSyn port entry dport tenant hop s
  | .tcpIcreq conn hdgst ddgst maxR2t tls => Sys2Proof.Machine.execTcpIcreq conn hdgst ddgst maxR2t tls s
  | .h2cDataPdu conn cid offset len digestOk data => Sys2Proof.Machine.execH2cDataPdu conn cid offset len digestOk data s
  | .tcpFatalPdu conn digest field => Sys2Proof.Machine.execTcpFatalPdu conn digest field s
  | .tcpRetransmitTimeout conn => Sys2Proof.Machine.execTcpRetransmitTimeout conn s
  | .ptpMessageReceive port msg transport domain seqId sec ns frac master prio utc => Sys2Proof.Machine.execPtpMessageReceive port msg transport domain seqId sec ns frac master prio utc s
  | .ptpTsRead => Sys2Proof.Machine.execPtpTsRead s
  | .portCntClear port sel => Sys2Proof.Machine.execPortCntClear port sel s
  | .tenantCtlWrite tenant value => Sys2Proof.Machine.execTenantCtlWrite tenant value s
  | .taskQuotaWrite tenant isMax value => Sys2Proof.Machine.execTaskQuotaWrite tenant isMax value s
  | .zoneQuotaWrite tenant value => Sys2Proof.Machine.execZoneQuotaWrite tenant value s
  | .connQuotaWrite tenant value => Sys2Proof.Machine.execConnQuotaWrite tenant value s
  | .diesetWrite tenant value => Sys2Proof.Machine.execDiesetWrite tenant value s
  | .connBucketRefill => Sys2Proof.Machine.execConnBucketRefill s
  | .bwInterval backlogged => Sys2Proof.Machine.execBwInterval backlogged s
  | .powerEntitlementRecompute => Sys2Proof.Machine.execPowerEntitlementRecompute s
  | .powerTokenGrant die => Sys2Proof.Machine.execPowerTokenGrant die s
  | .commandFetch slot => Sys2Proof.Machine.execCommandFetch slot s
  | .getLogPage slot => Sys2Proof.Machine.execGetLogPage slot s
  | .identify slot => Sys2Proof.Machine.execIdentify slot s
  | .abort slot => Sys2Proof.Machine.execAbort slot s
  | .setFeatures slot => Sys2Proof.Machine.execSetFeatures slot s
  | .getFeatures slot => Sys2Proof.Machine.execGetFeatures slot s
  | .asyncEventRequest slot => Sys2Proof.Machine.execAsyncEventRequest slot s
  | .asyncEventRaise tenant cntlid typ info => Sys2Proof.Machine.execAsyncEventRaise tenant cntlid typ info s
  | .firmwareImageDownload slot => Sys2Proof.Machine.execFirmwareImageDownload slot s
  | .firmwareCommit slot => Sys2Proof.Machine.execFirmwareCommit slot s
  | .namespaceAttachment slot => Sys2Proof.Machine.execNamespaceAttachment slot s
  | .keepAlive slot => Sys2Proof.Machine.execKeepAlive slot s
  | .keepAliveTimeout tenant cntlid => Sys2Proof.Machine.execKeepAliveTimeout tenant cntlid s
  | .formatNvm slot => Sys2Proof.Machine.execFormatNvm slot s
  | .sanitize slot => Sys2Proof.Machine.execSanitize slot s
  | .sanitizeBlockDone ok => Sys2Proof.Machine.execSanitizeBlockDone ok s
  | .sanitizeExitFailure slot => Sys2Proof.Machine.execSanitizeExitFailure slot s
  | .sirsisInbandSubmit slot => Sys2Proof.Machine.execSirsisInbandSubmit slot s
  | .sirsisInbandFetch slot => Sys2Proof.Machine.execSirsisInbandFetch slot s
  | .invalidAdminOpcode slot => Sys2Proof.Machine.execInvalidAdminOpcode slot s
  | .connect slot => Sys2Proof.Machine.execConnect slot s
  | .propertySet slot => Sys2Proof.Machine.execPropertySet slot s
  | .shutdownNotification tenant cntlid => Sys2Proof.Machine.execShutdownNotification tenant cntlid s
  | .propertyGet slot => Sys2Proof.Machine.execPropertyGet slot s
  | .disconnect slot => Sys2Proof.Machine.execDisconnect slot s
  | .flush slot => Sys2Proof.Machine.execFlush slot s
  | .write slot => Sys2Proof.Machine.execWrite slot s
  | .read slot => Sys2Proof.Machine.execRead slot s
  | .writeZeroes slot => Sys2Proof.Machine.execWriteZeroes slot s
  | .datasetManagement slot => Sys2Proof.Machine.execDatasetManagement slot s
  | .verify slot => Sys2Proof.Machine.execVerify slot s
  | .zoneAppend slot => Sys2Proof.Machine.execZoneAppend slot s
  | .zoneOpen slot => Sys2Proof.Machine.execZoneOpen slot s
  | .zoneClose slot => Sys2Proof.Machine.execZoneClose slot s
  | .zoneFinish slot => Sys2Proof.Machine.execZoneFinish slot s
  | .zoneReset slot => Sys2Proof.Machine.execZoneReset slot s
  | .zoneOffline slot => Sys2Proof.Machine.execZoneOffline slot s
  | .reportZones slot => Sys2Proof.Machine.execReportZones slot s
  | .invalidIoOpcode slot => Sys2Proof.Machine.execInvalidIoOpcode slot s
  | .dataPhaseStart slot => Sys2Proof.Machine.execDataPhaseStart slot s
  | .writeCommit slot => Sys2Proof.Machine.execWriteCommit slot s
  | .readTransferStart slot => Sys2Proof.Machine.execReadTransferStart slot s
  | .readTransferDone slot => Sys2Proof.Machine.execReadTransferDone slot s
  | .dataPhaseTimeout slot => Sys2Proof.Machine.execDataPhaseTimeout slot s
  | .connectionLoss conn => Sys2Proof.Machine.execConnectionLoss conn s
  | .shrinkFinish zone => Sys2Proof.Machine.execShrinkFinish zone s
  | .memberLoss stripe member => Sys2Proof.Machine.execMemberLoss stripe member s
  | .spareReplenish => Sys2Proof.Machine.execSpareReplenish s
  | .readyListRefill home blocks => Sys2Proof.Machine.execReadyListRefill home blocks s
  | .reservationReplace zone block => Sys2Proof.Machine.execReservationReplace zone block s
  | .rehome group => Sys2Proof.Machine.execRehome group s
  | .logStripeAssemble tenant blocks => Sys2Proof.Machine.execLogStripeAssemble tenant blocks s
  | .linkTrainingDone link ok cause serial => Sys2Proof.Machine.execLinkTrainingDone link ok cause serial s
  | .storedTrainingFallback link => Sys2Proof.Machine.execStoredTrainingFallback link s
  | .lockLossTimeout link => Sys2Proof.Machine.execLockLossTimeout link s
  | .retrainTimeout link => Sys2Proof.Machine.execRetrainTimeout link s
  | .linkRetryTimer link => Sys2Proof.Machine.execLinkRetryTimer link s
  | .linkFail link => Sys2Proof.Machine.execLinkFail link s
  | .linkGraceExpire link => Sys2Proof.Machine.execLinkGraceExpire link s
  | .linkDisable link => Sys2Proof.Machine.execLinkDisable link s
  | .linkEnable link => Sys2Proof.Machine.execLinkEnable link s
  | .linkRetrainRequest link => Sys2Proof.Machine.execLinkRetrainRequest link s
  | .linkFullTrainRequest link => Sys2Proof.Machine.execLinkFullTrainRequest link s
  | .flashFrameReceive link syncDist crcOk kind seq ack => Sys2Proof.Machine.execFlashFrameReceive link syncDist crcOk kind seq ack s
  | .flashNakReceive link ack => Sys2Proof.Machine.execFlashNakReceive link ack s
  | .flashReplayTimeout link => Sys2Proof.Machine.execFlashReplayTimeout link s
  | .maintFrameReceive link temps failed busy fault => Sys2Proof.Machine.execMaintFrameReceive link temps failed busy fault s
  | .maintFrameSend link => Sys2Proof.Machine.execMaintFrameSend link s
  | .dieLoss die => Sys2Proof.Machine.execDieLoss die s
  | .dieOpTimeout die => Sys2Proof.Machine.execDieOpTimeout die s
  | .readPageDone die status data => Sys2Proof.Machine.execReadPageDone die status data s
  | .readLevelDone die status codes => Sys2Proof.Machine.execReadLevelDone die status codes s
  | .programFoggyDone die status detail => Sys2Proof.Machine.execProgramFoggyDone die status detail s
  | .programFineDone die status detail => Sys2Proof.Machine.execProgramFineDone die status detail s
  | .programOneDone die status detail => Sys2Proof.Machine.execProgramOneDone die status detail s
  | .eraseDone die status => Sys2Proof.Machine.execEraseDone die status s
  | .eraseVerifyDone die status unerased => Sys2Proof.Machine.execEraseVerifyDone die status unerased s
  | .suspendDone die notSuspended => Sys2Proof.Machine.execSuspendDone die notSuspended s
  | .resumeDone die status => Sys2Proof.Machine.execResumeDone die status s
  | .identifyDone link partOk geometryOk serial goodDies => Sys2Proof.Machine.execIdentifyDone link partOk geometryOk serial goodDies s
  | .readCalDone link crcOk records => Sys2Proof.Machine.execReadCalDone link crcOk records s
  | .readDefectsDone die plane groups => Sys2Proof.Machine.execReadDefectsDone die plane groups s
  | .dieStatusDone die busy suspended failed => Sys2Proof.Machine.execDieStatusDone die busy suspended failed s
  | .standbyDone link => Sys2Proof.Machine.execStandbyDone link s
  | .resetDieDone die => Sys2Proof.Machine.execResetDieDone die s
  | .echoDone link value => Sys2Proof.Machine.execEchoDone link value s
  | .suspendDeferred die => Sys2Proof.Machine.execSuspendDeferred die s
  | .groupDrainStart group => Sys2Proof.Machine.execGroupDrainStart group s
  | .groupWake group => Sys2Proof.Machine.execGroupWake group s
  | .groupWakeWrite value => Sys2Proof.Machine.execGroupWakeWrite value s
  | .groupWakeTimeout group => Sys2Proof.Machine.execGroupWakeTimeout group s
  | .powerBudgetWrite w value => Sys2Proof.Machine.execPowerBudgetWrite w value s
  | .codewordDecodeDone cw => Sys2Proof.Machine.execCodewordDecodeDone cw s
  | .l5Reconstruct cw => Sys2Proof.Machine.execL5Reconstruct cw s
  | .sampleHoldExpire key => Sys2Proof.Machine.execSampleHoldExpire key s
  | .exitCntClear sel => Sys2Proof.Machine.execExitCntClear sel s
  | .ageTick => Sys2Proof.Machine.execAgeTick s
  | .arrheniusConstantWrite w reg value => Sys2Proof.Machine.execArrheniusConstantWrite w reg value s
  | .shelfTempWrite value => Sys2Proof.Machine.execShelfTempWrite value s
  | .shelfTempExpire => Sys2Proof.Machine.execShelfTempExpire s
  | .darkRecompute => Sys2Proof.Machine.execDarkRecompute s
  | .probeResult die => Sys2Proof.Machine.execProbeResult die s
  | .pilotReport => Sys2Proof.Machine.execPilotReport s
  | .learnResetDie die => Sys2Proof.Machine.execLearnResetDie die s
  | .learnResetAll => Sys2Proof.Machine.execLearnResetAll s
  | .rowComplete stripe => Sys2Proof.Machine.execRowComplete stripe s
  | .parkTimeout die => Sys2Proof.Machine.execParkTimeout die s
  | .stageHorizon stripe => Sys2Proof.Machine.execStageHorizon stripe s
  | .horizonMiss ns => Sys2Proof.Machine.execHorizonMiss ns s
  | .coolerBlockReclaim block => Sys2Proof.Machine.execCoolerBlockReclaim block s
  | .programFailure stripe member => Sys2Proof.Machine.execProgramFailure stripe member s
  | .dramCrcMismatch addr port object key => Sys2Proof.Machine.execDramCrcMismatch addr port object key s
  | .churnStart => Sys2Proof.Machine.execChurnStart s
  | .unitRemap ns lba source target => Sys2Proof.Machine.execUnitRemap ns lba source target s
  | .blockRelease block => Sys2Proof.Machine.execBlockRelease block s
  | .eraseBegin block => Sys2Proof.Machine.execEraseBegin block s
  | .blockFree block => Sys2Proof.Machine.execBlockFree block s
  | .scanProbe => Sys2Proof.Machine.execScanProbe s
  | .refreshStart => Sys2Proof.Machine.execRefreshStart s
  | .refreshRemap zone => Sys2Proof.Machine.execRefreshRemap zone s
  | .refreshPassComplete => Sys2Proof.Machine.execRefreshPassComplete s
  | .wearLevelCheck => Sys2Proof.Machine.execWearLevelCheck s
  | .rebuildRow stripe => Sys2Proof.Machine.execRebuildRow stripe s
  | .rebuildReplacementRetry => Sys2Proof.Machine.execRebuildReplacementRetry s
  | .mmeRateWindow churn refresh rebuild => Sys2Proof.Machine.execMmeRateWindow churn refresh rebuild s
  | .mmeFloorWrite w value => Sys2Proof.Machine.execMmeFloorWrite w value s
  | .journalPageSeal => Sys2Proof.Machine.execJournalPageSeal s
  | .journalPageAccept seq => Sys2Proof.Machine.execJournalPageAccept seq s
  | .journalCopyFail seq copy status => Sys2Proof.Machine.execJournalCopyFail seq copy status s
  | .checkpointStart => Sys2Proof.Machine.execCheckpointStart s
  | .checkpointStartWrite => Sys2Proof.Machine.execCheckpointStartWrite s
  | .checkpointComplete => Sys2Proof.Machine.execCheckpointComplete s
  | .rebaseCopyRow zone => Sys2Proof.Machine.execRebaseCopyRow zone s
  | .tagCompute slot unit => Sys2Proof.Machine.execTagCompute slot unit s
  | .tagCheck cw => Sys2Proof.Machine.execTagCheck cw s
  | .keyWordWrite tenant slot word value => Sys2Proof.Machine.execKeyWordWrite tenant slot word value s
  | .keyCommit tenant slot => Sys2Proof.Machine.execKeyCommit tenant slot s
  | .keyActivate tenant slot => Sys2Proof.Machine.execKeyActivate tenant slot s
  | .keyClear tenant slot => Sys2Proof.Machine.execKeyClear tenant slot s
  | .keyActionResult => Sys2Proof.Machine.execKeyActionResult s
  | .bufferAllocate port owner tenant size opportunistic linkBad => Sys2Proof.Machine.execBufferAllocate port owner tenant size opportunistic linkBad s
  | .bufferRelease port owner handle => Sys2Proof.Machine.execBufferRelease port owner handle s
  | .bufferHandOver port owner handle newOwner => Sys2Proof.Machine.execBufferHandOver port owner handle newOwner s
  | .bufferReference port owner handle => Sys2Proof.Machine.execBufferReference port owner handle s
  | .bufferCancel port owner => Sys2Proof.Machine.execBufferCancel port owner s
  | .freeListRebuildDone pool => Sys2Proof.Machine.execFreeListRebuildDone pool s
  | .bpmCntClear pool sel => Sys2Proof.Machine.execBpmCntClear pool sel s
  | .dramRefresh channel bank => Sys2Proof.Machine.execDramRefresh channel bank s
  | .refreshRatePoll channel rate => Sys2Proof.Machine.execRefreshRatePoll channel rate s
  | .rowHammerRfm channel bank row port acts => Sys2Proof.Machine.execRowHammerRfm channel bank row port acts s
  | .activationWindowEnd => Sys2Proof.Machine.execActivationWindowEnd s
  | .throttleExpire port bank => Sys2Proof.Machine.execThrottleExpire port bank s
  | .panicAssert port => Sys2Proof.Machine.execPanicAssert port s
  | .panicRelease port => Sys2Proof.Machine.execPanicRelease port s
  | .panicLong port => Sys2Proof.Machine.execPanicLong port s
  | .rowCloseTimer channel bank => Sys2Proof.Machine.execRowCloseTimer channel bank s
  | .dqsTracking channel => Sys2Proof.Machine.execDqsTracking channel s
  | .zqCalibration channel => Sys2Proof.Machine.execZqCalibration channel s
  | .monitorWindow coreCount netCount => Sys2Proof.Machine.execMonitorWindow coreCount netCount s
  | .referenceGood net => Sys2Proof.Machine.execReferenceGood net s
  | .stoppedClockTrip unit => Sys2Proof.Machine.execStoppedClockTrip unit s
  | .pllLockLoss unit => Sys2Proof.Machine.execPllLockLoss unit s
  | .rcCheckWindow count => Sys2Proof.Machine.execRcCheckWindow count s
  | .rcReady => Sys2Proof.Machine.execRcReady s
  | .rcTrimWrite w value => Sys2Proof.Machine.execRcTrimWrite w value s
  | .switchRetry => Sys2Proof.Machine.execSwitchRetry s
  | .clockSwitchDone forced => Sys2Proof.Machine.execClockSwitchDone forced s
  | .rootPllLock => Sys2Proof.Machine.execRootPllLock s
  | .accPllRelock => Sys2Proof.Machine.execAccPllRelock s
  | .doubleFaultSelfRefresh => Sys2Proof.Machine.execDoubleFaultSelfRefresh s
  | .clockSwitchRequest w target autoReturn => Sys2Proof.Machine.execClockSwitchRequest w target autoReturn s
  | .deviceReset w key => Sys2Proof.Machine.execDeviceReset w key s
  | .scWatchdogExpire => Sys2Proof.Machine.execScWatchdogExpire s
  | .ccWatchdogExpire core => Sys2Proof.Machine.execCcWatchdogExpire core s
  | .trstAssert => Sys2Proof.Machine.execTrstAssert s
  | .tuStep sec => Sys2Proof.Machine.execTuStep sec s
  | .tuNowRead => Sys2Proof.Machine.execTuNowRead s
  | .ptpServoUpdate e dtNs delay => Sys2Proof.Machine.execPtpServoUpdate e dtNs delay s
  | .ptpSyncTimeout => Sys2Proof.Machine.execPtpSyncTimeout s
  | .holdoverExpire => Sys2Proof.Machine.execHoldoverExpire s
  | .loadWindow cc0 cc1 cc2 cc3 sc svcSum svcCount => Sys2Proof.Machine.execLoadWindow cc0 cc1 cc2 cc3 sc svcSum svcCount s
  | .mgmtPortWrite offset data pecOk => Sys2Proof.Machine.execMgmtPortWrite offset data pecOk s
  | .taskGo => Sys2Proof.Machine.execTaskGo s
  | .taskReplyDone => Sys2Proof.Machine.execTaskReplyDone s
  | .entdaa addr => Sys2Proof.Machine.execEntdaa addr s
  | .setdasa static addr => Sys2Proof.Machine.execSetdasa static addr s
  | .rstdaa => Sys2Proof.Machine.execRstdaa s
  | .enec events => Sys2Proof.Machine.execEnec events s
  | .disec events => Sys2Proof.Machine.execDisec events s
  | .getpid => Sys2Proof.Machine.execGetpid s
  | .getbcr => Sys2Proof.Machine.execGetbcr s
  | .getdcr => Sys2Proof.Machine.execGetdcr s
  | .getstatus => Sys2Proof.Machine.execGetstatus s
  | .getmwl => Sys2Proof.Machine.execGetmwl s
  | .nvmeMiBasicRead offset => Sys2Proof.Machine.execNvmeMiBasicRead offset s
  | .nop path => Sys2Proof.Machine.execNop path s
  | .regRead path => Sys2Proof.Machine.execRegRead path s
  | .regWrite path => Sys2Proof.Machine.execRegWrite path s
  | .regRmw path => Sys2Proof.Machine.execRegRmw path s
  | .stateReq path => Sys2Proof.Machine.execStateReq path s
  | .devReset path => Sys2Proof.Machine.execDevReset path s
  | .devResetDelayExpire => Sys2Proof.Machine.execDevResetDelayExpire s
  | .timeSet path => Sys2Proof.Machine.execTimeSet path s
  | .portCfg path => Sys2Proof.Machine.execPortCfg path s
  | .portRead path => Sys2Proof.Machine.execPortRead path s
  | .aclAdd path => Sys2Proof.Machine.execAclAdd path s
  | .aclRemove path => Sys2Proof.Machine.execAclRemove path s
  | .aclList path => Sys2Proof.Machine.execAclList path s
  | .nsCreate path => Sys2Proof.Machine.execNsCreate path s
  | .nsDelete path => Sys2Proof.Machine.execNsDelete path s
  | .nsMove path => Sys2Proof.Machine.execNsMove path s
  | .nsResize path => Sys2Proof.Machine.execNsResize path s
  | .nsInfo path => Sys2Proof.Machine.execNsInfo path s
  | .zoneHint path => Sys2Proof.Machine.execZoneHint path s
  | .homeRead path => Sys2Proof.Machine.execHomeRead path s
  | .shelfClimate path => Sys2Proof.Machine.execShelfClimate path s
  | .modelLoad path => Sys2Proof.Machine.execModelLoad path s
  | .fwDownload path => Sys2Proof.Machine.execFwDownload path s
  | .fwCommit path => Sys2Proof.Machine.execFwCommit path s
  | .protSet path => Sys2Proof.Machine.execProtSet path s
  | .protectionEraseDone => Sys2Proof.Machine.execProtectionEraseDone s
  | .hbRead path => Sys2Proof.Machine.execHbRead path s
  | .healthRead path => Sys2Proof.Machine.execHealthRead path s
  | .activationPause us => Sys2Proof.Machine.execActivationPause us s
  | .activationAbandon us => Sys2Proof.Machine.execActivationAbandon us s
  | .probationEnd => Sys2Proof.Machine.execProbationEnd s
  | .sectorErase w sector => Sys2Proof.Machine.execSectorErase w sector s
  | .pageProgram w sector page => Sys2Proof.Machine.execPageProgram w sector page s
  | .sectorEraseDone ok pulses => Sys2Proof.Machine.execSectorEraseDone ok pulses s
  | .pageProgramDone ok pulses => Sys2Proof.Machine.execPageProgramDone ok pulses s
  | .storeEraseResume => Sys2Proof.Machine.execStoreEraseResume s
  | .continuousRead => Sys2Proof.Machine.execContinuousRead s
  | .settingsCompact => Sys2Proof.Machine.execSettingsCompact s
  | .settingsPageProgram => Sys2Proof.Machine.execSettingsPageProgram s
  | .eventFire source sev index detail => Sys2Proof.Machine.execEventFire source sev index detail s
  | .eventTokenRefill source => Sys2Proof.Machine.execEventTokenRefill source s
  | .summaryEnter source => Sys2Proof.Machine.execSummaryEnter source s
  | .eventFifoDrain => Sys2Proof.Machine.execEventFifoDrain s
  | .herdbookPageProgram => Sys2Proof.Machine.execHerdbookPageProgram s
  | .herdbookSectorFail result => Sys2Proof.Machine.execHerdbookSectorFail result s
  | .mirrorProgram ok => Sys2Proof.Machine.execMirrorProgram ok s
  | .swRaise value => Sys2Proof.Machine.execSwRaise value s
  | .inputTransition input level => Sys2Proof.Machine.execInputTransition input level s
  | .chatterMaskEnd input => Sys2Proof.Machine.execChatterMaskEnd input s
  | .chatterWindowEnd input => Sys2Proof.Machine.execChatterWindowEnd input s
  | .inputFilterChange input => Sys2Proof.Machine.execInputFilterChange input s
  | .thermalSample temp => Sys2Proof.Machine.execThermalSample temp s
  | .extest cells => Sys2Proof.Machine.execExtest cells s
  | .idcode => Sys2Proof.Machine.execIdcode s
  | .samplePreload cells => Sys2Proof.Machine.execSamplePreload cells s
  | .clamp => Sys2Proof.Machine.execClamp s
  | .highz => Sys2Proof.Machine.execHighz s
  | .bypass code => Sys2Proof.Machine.execBypass code s
  | .manufacturingTest code => Sys2Proof.Machine.execManufacturingTest code s
  | .regPairLowRead addr => Sys2Proof.Machine.execRegPairLowRead addr s
  | .regPairHighRead addr => Sys2Proof.Machine.execRegPairHighRead addr s
  | .regPairHighWrite addr value => Sys2Proof.Machine.execRegPairHighWrite addr value s
  | .regPairLowWrite addr value => Sys2Proof.Machine.execRegPairLowWrite addr value s
  | .rcRead addr => Sys2Proof.Machine.execRcRead addr s
  | .w1cWrite addr value => Sys2Proof.Machine.execW1cWrite addr value s
  | .registerWrite w addr value => Sys2Proof.Machine.execRegisterWrite w addr value s
  | .railsGood => Sys2Proof.Machine.execRailsGood s
  | .syncCandidateOpen link bitpos => Sys2Proof.Machine.execSyncCandidateOpen link bitpos s
  | .ptpDelayReqSend seqId sec ns frac => Sys2Proof.Machine.execPtpDelayReqSend seqId sec ns frac s
  | .pfcPauseExpire port b => Sys2Proof.Machine.execPfcPauseExpire port b s
  | .tcpCapsuleCmd conn cap => Sys2Proof.Machine.execTcpCapsuleCmd conn cap s
  | .invalidFabricsCommand slot => Sys2Proof.Machine.execInvalidFabricsCommand slot s
  | .zoneSendInvalidAction slot => Sys2Proof.Machine.execZoneSendInvalidAction slot s
  | .hdrEntry => Sys2Proof.Machine.execHdrEntry s
  | .hdrExitPattern => Sys2Proof.Machine.execHdrExitPattern s
  | .unsupportedCcc code directed => Sys2Proof.Machine.execUnsupportedCcc code directed s
  | .rnrRetryTimer conn => Sys2Proof.Machine.execRnrRetryTimer conn s
  | .storeEraseSuspend => Sys2Proof.Machine.execStoreEraseSuspend s

end Sys2Proof.Machine
end

