-- ==== Sys2Proof/WellFormed.lean ====
section
/-! DEFINITION. Which commands are well-formed: each operand that names a unit lies in the range the spec gives it: task slots (05
R174), tenants (04 R122; 0x400 the Discovery subsystem), controllers (04 R123), ports and lanes (03), links and dies (07), stripes and
die-block references (12 R464), namespace indexes (04 R124), event sources (19 R692), store sectors and pages (18 R664), inputs (20
R716), buffer pools (14), DRAM channels and banks (15), Sirsis paths (17 R645), register addresses (00 R16). -/

namespace Sys2Proof

/-- A command whose operands name units that exist. -/
def Instr.wf : Instr → Bool
  | .porstNAssert _ => true
  | .porstNRelease hmode _ addr _ _ _ => decide (hmode < 4) && decide (addr < 8)
  | .railFail _ => true
  | .bootSlotSelect => true
  | .signatureCheckDone => true
  | .dramTrainingDone _ _ _ _ _ _ => true
  | .adminServedPoint => true
  | .readsServedPoint => true
  | .openRowReplayDone => true
  | .quiesceRequest => true
  | .retainedRequest => true
  | .resumeRequest => true
  | .quiesceDrainExpire => true
  | .quiesceComplete => true
  | .retainedEntry => true
  | .retainedResumeDone failedGroups => decide (failedGroups < 2 ^ 16)
  | .pwrwarnStuck => true
  | .pwrwarnUnstick => true
  | .timeMark => true
  | .skimDueWrite _ _ => true
  | .modeApply => true
  | .modeSave _ => true
  | .modeForget _ => true
  | .laneLossOfLockTimeout lane _ => decide (lane < 8)
  | .laneUncorrInterval lane _ => decide (lane < 8)
  | .portTrainingDone port _ failedLanes => decide (port < 8) && decide (failedLanes < 256)
  | .narrowCandidateTimeout port => decide (port < 8)
  | .portRetrainTimer port => decide (port < 8)
  | .portWiden port => decide (port < 8)
  | .autoWidenTimer port => decide (port < 8)
  | .nextHopResolved _ => true
  | .nextHopTimeout _ => true
  | .frameReceive port _ _ _ _ pcp => decide (port < 8) && decide (pcp < 8)
  | .pfcXoffRepeat port _ => decide (port < 8)
  | .pfcXon port _ _ => decide (port < 8)
  | .pfcFrameReceive port prio quanta => decide (port < 8) && decide (prio < 8) && decide (quanta < 65536)
  | .pfcStormDetect port _ => decide (port < 8)
  | .pfcStormEnd port _ => decide (port < 8)
  | .rocePacketReceive _ psn _ _ _ _ _ => decide (psn < 2 ^ 24)
  | .cnpReceive _ => true
  | .rateRecoverTimer _ => true
  | .rdmaAckTimeout _ => true
  | .rdmaConnectRequest port entry tenant _ _ => decide (port < 8) && decide (entry < 8) && decide (tenant < 1025)
  | .tcpSyn port entry _ tenant _ => decide (port < 8) && decide (entry < 8) && decide (tenant < 1025)
  | .tcpIcreq _ _ _ _ _ => true
  | .h2cDataPdu _ _ _ _ _ _ => true
  | .tcpFatalPdu _ _ _ => true
  | .tcpRetransmitTimeout _ => true
  | .ptpMessageReceive port _ _ _ _ _ ns _ _ prio _ => decide (port < 8) && decide (ns < 1000000000) && decide (prio < 256)
  | .ptpTsRead => true
  | .portCntClear port sel => decide (port < 8) && decide (sel < 32)
  | .tenantCtlWrite tenant _ => decide (tenant < 513)
  | .taskQuotaWrite tenant _ _ => decide (tenant < 513)
  | .zoneQuotaWrite tenant _ => decide (tenant < 513)
  | .connQuotaWrite tenant _ => decide (tenant < 513)
  | .diesetWrite tenant _ => decide (tenant < 513)
  | .connBucketRefill => true
  | .bwInterval _ => true
  | .powerEntitlementRecompute => true
  | .powerTokenGrant die => decide (die < 4096)
  | .commandFetch slot => decide (slot < 262144)
  | .getLogPage slot => decide (slot < 262144)
  | .identify slot => decide (slot < 262144)
  | .abort slot => decide (slot < 262144)
  | .setFeatures slot => decide (slot < 262144)
  | .getFeatures slot => decide (slot < 262144)
  | .asyncEventRequest slot => decide (slot < 262144)
  | .asyncEventRaise tenant cntlid _ _ => decide (tenant < 1025) && decide (1 ≤ cntlid ∧ cntlid ≤ 64)
  | .firmwareImageDownload slot => decide (slot < 262144)
  | .firmwareCommit slot => decide (slot < 262144)
  | .namespaceAttachment slot => decide (slot < 262144)
  | .keepAlive slot => decide (slot < 262144)
  | .keepAliveTimeout tenant cntlid => decide (tenant < 1025) && decide (1 ≤ cntlid ∧ cntlid ≤ 64)
  | .formatNvm slot => decide (slot < 262144)
  | .sanitize slot => decide (slot < 262144)
  | .sanitizeBlockDone _ => true
  | .sanitizeExitFailure slot => decide (slot < 262144)
  | .sirsisInbandSubmit slot => decide (slot < 262144)
  | .sirsisInbandFetch slot => decide (slot < 262144)
  | .invalidAdminOpcode slot => decide (slot < 262144)
  | .connect slot => decide (slot < 262144)
  | .propertySet slot => decide (slot < 262144)
  | .shutdownNotification tenant cntlid => decide (tenant < 1025) && decide (1 ≤ cntlid ∧ cntlid ≤ 64)
  | .propertyGet slot => decide (slot < 262144)
  | .disconnect slot => decide (slot < 262144)
  | .flush slot => decide (slot < 262144)
  | .write slot => decide (slot < 262144)
  | .read slot => decide (slot < 262144)
  | .writeZeroes slot => decide (slot < 262144)
  | .datasetManagement slot => decide (slot < 262144)
  | .verify slot => decide (slot < 262144)
  | .zoneAppend slot => decide (slot < 262144)
  | .zoneOpen slot => decide (slot < 262144)
  | .zoneClose slot => decide (slot < 262144)
  | .zoneFinish slot => decide (slot < 262144)
  | .zoneReset slot => decide (slot < 262144)
  | .zoneOffline slot => decide (slot < 262144)
  | .reportZones slot => decide (slot < 262144)
  | .invalidIoOpcode slot => decide (slot < 262144)
  | .dataPhaseStart slot => decide (slot < 262144)
  | .writeCommit slot => decide (slot < 262144)
  | .readTransferStart slot => decide (slot < 262144)
  | .readTransferDone slot => decide (slot < 262144)
  | .dataPhaseTimeout slot => decide (slot < 262144)
  | .connectionLoss _ => true
  | .shrinkFinish zone => decide (zone < 8192 * 262144)
  | .memberLoss stripe member => decide (stripe < 270336) && decide (member < 54)
  | .spareReplenish => true
  | .readyListRefill _ _ => true
  | .reservationReplace zone block => decide (zone < 8192 * 262144) && decide (block < 2 ^ 24)
  | .rehome group => decide (1 ≤ group ∧ group ≤ 4095)
  | .logStripeAssemble tenant _ => decide (tenant < 513)
  | .linkTrainingDone link _ _ _ => decide (link < 128)
  | .storedTrainingFallback link => decide (link < 128)
  | .lockLossTimeout link => decide (link < 128)
  | .retrainTimeout link => decide (link < 128)
  | .linkRetryTimer link => decide (link < 128)
  | .linkFail link => decide (link < 128)
  | .linkGraceExpire link => decide (link < 128)
  | .linkDisable link => decide (link < 128)
  | .linkEnable link => decide (link < 128)
  | .linkRetrainRequest link => decide (link < 128)
  | .linkFullTrainRequest link => decide (link < 128)
  | .flashFrameReceive link syncDist _ _ _ _ => decide (link < 128) && decide (syncDist < 13)
  | .flashNakReceive link _ => decide (link < 128)
  | .flashReplayTimeout link => decide (link < 128)
  | .maintFrameReceive link _ _ _ _ => decide (link < 128)
  | .maintFrameSend link => decide (link < 128)
  | .dieLoss die => decide (die < 4096)
  | .dieOpTimeout die => decide (die < 4096)
  | .readPageDone die status _ => decide (die < 4096) && decide (status < 256)
  | .readLevelDone die status _ => decide (die < 4096) && decide (status < 256)
  | .programFoggyDone die status _ => decide (die < 4096) && decide (status < 256)
  | .programFineDone die status _ => decide (die < 4096) && decide (status < 256)
  | .programOneDone die status _ => decide (die < 4096) && decide (status < 256)
  | .eraseDone die status => decide (die < 4096) && decide (status < 256)
  | .eraseVerifyDone die status _ => decide (die < 4096) && decide (status < 256)
  | .suspendDone die _ => decide (die < 4096)
  | .resumeDone die status => decide (die < 4096) && decide (status < 256)
  | .identifyDone link _ _ _ _ => decide (link < 128)
  | .readCalDone link _ _ => decide (link < 128)
  | .readDefectsDone die plane _ => decide (die < 4096) && decide (plane < 4)
  | .dieStatusDone die _ _ _ => decide (die < 4096)
  | .standbyDone link => decide (link < 128)
  | .resetDieDone die => decide (die < 4096)
  | .echoDone link _ => decide (link < 128)
  | .suspendDeferred die => decide (die < 4096)
  | .groupDrainStart group => decide (group < 16)
  | .groupWake group => decide (group < 16)
  | .groupWakeWrite _ => true
  | .groupWakeTimeout group => decide (group < 16)
  | .powerBudgetWrite _ _ => true
  | .codewordDecodeDone _ => true
  | .l5Reconstruct _ => true
  | .sampleHoldExpire _ => true
  | .exitCntClear sel => decide (sel < 16)
  | .ageTick => true
  | .arrheniusConstantWrite _ _ _ => true
  | .shelfTempWrite _ => true
  | .shelfTempExpire => true
  | .darkRecompute => true
  | .probeResult die => decide (die < 4096)
  | .pilotReport => true
  | .learnResetDie die => decide (die < 4096)
  | .learnResetAll => true
  | .rowComplete stripe => decide (stripe < 270336)
  | .parkTimeout die => decide (die < 4096)
  | .stageHorizon stripe => decide (stripe < 270336)
  | .horizonMiss ns => decide (ns < 8192)
  | .coolerBlockReclaim block => decide (block < 2 ^ 24)
  | .programFailure stripe member => decide (stripe < 270336) && decide (member < 54)
  | .dramCrcMismatch addr port _ _ => decide (addr < 2 ^ 39) && decide (port < 12)
  | .churnStart => true
  | .unitRemap ns lba source _ => decide (ns < 8192) && decide (lba < 2 ^ 40) && decide (source < 1536)
  | .blockRelease block => decide (block < 2 ^ 24)
  | .eraseBegin block => decide (block < 2 ^ 24)
  | .blockFree block => decide (block < 2 ^ 24)
  | .scanProbe => true
  | .refreshStart => true
  | .refreshRemap zone => decide (zone < 8192 * 262144)
  | .refreshPassComplete => true
  | .wearLevelCheck => true
  | .rebuildRow stripe => decide (stripe < 270336)
  | .rebuildReplacementRetry => true
  | .mmeRateWindow _ _ _ => true
  | .mmeFloorWrite _ _ => true
  | .journalPageSeal => true
  | .journalPageAccept _ => true
  | .journalCopyFail _ _ status => decide (status < 256)
  | .checkpointStart => true
  | .checkpointStartWrite => true
  | .checkpointComplete => true
  | .rebaseCopyRow zone => decide (zone < 8192 * 262144)
  | .tagCompute slot unit => decide (slot < 262144) && decide (unit < 65536)
  | .tagCheck _ => true
  | .keyWordWrite tenant slot word _ => decide (tenant < 513) && decide (slot < 4) && decide (word < 8)
  | .keyCommit tenant slot => decide (tenant < 513) && decide (slot < 4)
  | .keyActivate tenant slot => decide (tenant < 513) && decide (slot < 4)
  | .keyClear tenant slot => decide (tenant < 513) && decide (slot < 4)
  | .keyActionResult => true
  | .bufferAllocate port _ tenant _ _ _ => decide (port < 16) && decide (tenant < 513)
  | .bufferRelease port _ handle => decide (port < 16) && decide (handle < 2 ^ 25)
  | .bufferHandOver port _ handle _ => decide (port < 16) && decide (handle < 2 ^ 25)
  | .bufferReference port _ handle => decide (port < 16) && decide (handle < 2 ^ 25)
  | .bufferCancel port _ => decide (port < 16)
  | .freeListRebuildDone pool => decide (pool < 4)
  | .bpmCntClear pool sel => decide (pool < 4) && decide (sel < 16)
  | .dramRefresh channel bank => decide (channel < 24) && decide (bank < 32)
  | .refreshRatePoll channel _ => decide (channel < 24)
  | .rowHammerRfm channel bank _ port _ => decide (channel < 24) && decide (bank < 32) && decide (port < 12)
  | .activationWindowEnd => true
  | .throttleExpire port bank => decide (port < 12) && decide (bank < 32)
  | .panicAssert port => decide (port < 12)
  | .panicRelease port => decide (port < 12)
  | .panicLong port => decide (port < 12)
  | .rowCloseTimer channel bank => decide (channel < 24) && decide (bank < 32)
  | .dqsTracking channel => decide (channel < 24)
  | .zqCalibration channel => decide (channel < 24)
  | .monitorWindow _ _ => true
  | .referenceGood _ => true
  | .stoppedClockTrip _ => true
  | .pllLockLoss _ => true
  | .rcCheckWindow _ => true
  | .rcReady => true
  | .rcTrimWrite _ _ => true
  | .switchRetry => true
  | .clockSwitchDone _ => true
  | .rootPllLock => true
  | .accPllRelock => true
  | .doubleFaultSelfRefresh => true
  | .clockSwitchRequest _ _ _ => true
  | .deviceReset _ _ => true
  | .scWatchdogExpire => true
  | .ccWatchdogExpire core => decide (core < 4)
  | .trstAssert => true
  | .tuStep _ => true
  | .tuNowRead => true
  | .ptpServoUpdate _ _ _ => true
  | .ptpSyncTimeout => true
  | .holdoverExpire => true
  | .loadWindow _ _ _ _ _ _ _ => true
  | .mgmtPortWrite _ _ _ => true
  | .taskGo => true
  | .taskReplyDone => true
  | .entdaa addr => decide (addr < 128)
  | .setdasa _ addr => decide (addr < 128)
  | .rstdaa => true
  | .enec _ => true
  | .disec _ => true
  | .getpid => true
  | .getbcr => true
  | .getdcr => true
  | .getstatus => true
  | .getmwl => true
  | .nvmeMiBasicRead _ => true
  | .nop path => decide (path < 65)
  | .regRead path => decide (path < 65)
  | .regWrite path => decide (path < 65)
  | .regRmw path => decide (path < 65)
  | .stateReq path => decide (path < 65)
  | .devReset path => decide (path < 65)
  | .devResetDelayExpire => true
  | .timeSet path => decide (path < 65)
  | .portCfg path => decide (path < 65)
  | .portRead path => decide (path < 65)
  | .aclAdd path => decide (path < 65)
  | .aclRemove path => decide (path < 65)
  | .aclList path => decide (path < 65)
  | .nsCreate path => decide (path < 65)
  | .nsDelete path => decide (path < 65)
  | .nsMove path => decide (path < 65)
  | .nsResize path => decide (path < 65)
  | .nsInfo path => decide (path < 65)
  | .zoneHint path => decide (path < 65)
  | .homeRead path => decide (path < 65)
  | .shelfClimate path => decide (path < 65)
  | .modelLoad path => decide (path < 65)
  | .fwDownload path => decide (path < 65)
  | .fwCommit path => decide (path < 65)
  | .protSet path => decide (path < 65)
  | .protectionEraseDone => true
  | .hbRead path => decide (path < 65)
  | .healthRead path => decide (path < 65)
  | .activationPause _ => true
  | .activationAbandon _ => true
  | .probationEnd => true
  | .sectorErase _ sector => decide (sector < 512)
  | .pageProgram _ sector page => decide (sector < 512) && decide (page < 512)
  | .sectorEraseDone _ pulses => decide (pulses < 16)
  | .pageProgramDone _ pulses => decide (pulses < 16)
  | .storeEraseResume => true
  | .continuousRead => true
  | .settingsCompact => true
  | .settingsPageProgram => true
  | .eventFire source sev _ _ => decide (source < 1536) && decide (sev < 4)
  | .eventTokenRefill source => decide (source < 1536)
  | .summaryEnter source => decide (source < 1536)
  | .eventFifoDrain => true
  | .herdbookPageProgram => true
  | .herdbookSectorFail _ => true
  | .mirrorProgram _ => true
  | .swRaise _ => true
  | .inputTransition input _ => decide (input < 16)
  | .chatterMaskEnd input => decide (input < 16)
  | .chatterWindowEnd input => decide (input < 16)
  | .inputFilterChange input => decide (input < 16)
  | .thermalSample temp => decide (temp < 1024)
  | .extest _ => true
  | .idcode => true
  | .samplePreload _ => true
  | .clamp => true
  | .highz => true
  | .bypass _ => true
  | .manufacturingTest _ => true
  | .regPairLowRead addr => decide (addr < 2 ^ 32)
  | .regPairHighRead addr => decide (addr < 2 ^ 32)
  | .regPairHighWrite addr _ => decide (addr < 2 ^ 32)
  | .regPairLowWrite addr _ => decide (addr < 2 ^ 32)
  | .rcRead addr => decide (addr < 2 ^ 32)
  | .w1cWrite addr _ => decide (addr < 2 ^ 32)
  | .registerWrite _ addr _ => decide (addr < 2 ^ 32)
  | .railsGood => true
  | .syncCandidateOpen link _ => decide (link < 128)
  | .ptpDelayReqSend _ _ ns _ => decide (ns < 1000000000)
  | .pfcPauseExpire port _ => decide (port < 8)
  | .tcpCapsuleCmd _ _ => true
  | .invalidFabricsCommand slot => decide (slot < 262144)
  | .zoneSendInvalidAction slot => decide (slot < 262144)
  | .hdrEntry => true
  | .hdrExitPattern => true
  | .unsupportedCcc _ _ => true
  | .rnrRetryTimer _ => true
  | .storeEraseSuspend => true

end Sys2Proof
end

