-- ==== Sys2Proof/Safety.lean ====
section
/-! DEFINITION. What counts as a safe step and a safe run: the machine answers a next state. And when an admin command or a Sirsis opcode
is executed: the preconditions that the statements share. -/

namespace Sys2Proof

/-- A step is safe when it neither faults nor is refused. -/
def SafeStep (s : Machine.State) : Prop := ∃ t, Machine.step s = .next t

/-- A command is safe in a state when its meaning answers a next state. -/
def SafeCommand (c : Instr) (s : Machine.State) : Prop := ∃ t, Machine.exec c s = .next t

/-- A run of `n` steps is safe when every step of it is. -/
def SafeRun : Nat → Machine.State → Prop
  | 0, _ => True
  | n + 1, s => ∃ t, Machine.step s = .next t ∧ SafeRun n t

end Sys2Proof

namespace Sys2Proof.Machine

/-- An admin command of one opcode is executed: it waits on the admin queue of a live controller that serves the opcode, and no
Sanitize bars it (05 R161, R182). -/
def adminRuns (s : State) (slot opc : Nat) : Bool :=
  let t := getTask s slot
  adminWaits s slot && t.cap.opc == opc && (ctlOf s t).live && t.sqid == 0 && (adminOpcodes t.tenant).contains opc && !sanitizeBars s t

/-- A Sirsis packet is executed: the path holds it, its opcode is the command's, and the states column of Table 17-10 serves it (17
R646). -/
def sirRuns (s : State) (path op : Nat) (q : Packet) : Bool := decide ((getPath s path).packet = some q ∧ q.opcode = op ∧ sirState s op = none)

/-- The packet of an opcode that issues journal records is executed: past the reads-served point, with room in the journal buffer. -/
def sirRecords (s : State) (path op : Nat) (q : Packet) : Bool := s.top.readsOk && !bufFull s && sirRuns s path op q

end Sys2Proof.Machine
end

