-- ==== Sys2Proof/Certificates/Slice0/Obligations.lean ====
section
/-! DEFINITION. The statements about the model: what every command does, what it leaves alone, and the invariants of a step. -/

open Sys2Proof Sys2Proof.Machine Host

/-- For every command c and every state, the step of the state with c at the front of its queue is exec of c on the state with the rest of the queue. -/
def Obligations.StepRunsTheFrontCommand : Prop :=
  (∀ (c : Instr) (rest : List Instr) (s : State), step { s with pending := c :: rest } = exec c { s with pending := rest }) ∧
  (∀ (c : Instr) (rest : List Instr) (s : State), s.pending = c :: rest → step s = exec c { s with pending := rest })

/-- For every command and every state exec answers a next state: there is no fault and no refusal. The queue is unchanged, every fuse except PL2 is unchanged, what has been sent out stays sent in its order, and the count of free values never falls. Where the spec leaves a choice the clauses follow the model's: log entries 2, 3, 10, 11. -/
def Obligations.EveryCommandCompletes : Prop :=
  ∀ (c : Instr) (s : State), ∃ t, exec c s = .next t ∧ t.pending = s.pending ∧ { t.fuse with pl2 := s.fuse.pl2 } = s.fuse ∧ s.out <:+ t.out ∧
    s.drawn ≤ t.drawn

/-- After reset the queue is empty, nothing has been sent, the device is in Boot and serves nothing, the invariants hold, and the registers named read their stated reset values, one of every block but the Event Collector's banks: TOP_STATE and the configuration registers. Where the spec leaves a choice the clauses follow the model's: log entries 4, 5, 6, 7, 8. -/
def Obligations.ResetState : Prop :=
  (State.reset.pending = [] ∧ State.reset.out = [] ∧ State.reset.top.dev = .boot ∧ State.reset.top.adminOk = false ∧ State.reset.top.readsOk = false ∧
    State.reset.evc.fifo.length ≤ 64 ∧ State.reset.evc.sramRing.length ≤ 1024 ∧ State.reset.mgc.taskSt ≤ 2) ∧
  (mapWf 0 State.reset.regs = true ∧ mapWf 0 State.reset.mgc.buf = true ∧ mapWf 0 State.reset.fws.staging = true) ∧
  (∀ (a v : Nat), (a, v) ∈ [(0x10, 0x1), (0x18, 0x3E8), (0x100000C, 0x640240), (0x2000024, 0x400), (0x3000020, 0x6303201), (0x4000004, 0x1012C),
    (0x5100010, 0x4000800), (0x6000004, 0x40002), (0x7000000, 0x12C), (0x8000004, 0x300F418), (0x9000000, 0x1199999A), (0xA00000C, 0x30407808),
    (0xB000000, 0x13C80E8), (0xC000000, 0x6404), (0xD000000, 0x281), (0xE000000, 0x1000002), (0xF000010, 0x1111), (0x10000004, 0x3E84B55), (0x11000004,
    0x3E83201), (0x12000000, 0xA6400A8), (0x13000004, 0xA03E832)] → readReg State.reset a = v)

/-- Protection level 2 is held in a fuse and may never be lowered (Table 18-6): in every state at PL2, whatever the step does, the next state is at PL2. Where the spec leaves a choice the clauses follow the model's: log entries 6. -/
def Obligations.ProtectionLevelTwoIsForEver : Prop :=
  ∀ (s t : State), protLevel s = 2 → s.fuse.pl2 = true → step s = .next t → protLevel t = 2 ∧ t.fuse.pl2 = true

/-- From every state in which the staging FIFO holds at most 64 entries (19 R697), the SRAM ring at most 1,024 records (19 R699) and MGC_TASK_STATUS.STATE is not 3 (Table 17-5), every step leads to a state of which the same holds. Where the spec leaves a choice the clauses follow the model's: log entries 17. -/
def Obligations.QueuesKeepTheirBounds : Prop :=
  ∀ (s t : State), s.evc.fifo.length ≤ 64 → s.evc.sramRing.length ≤ 1024 → s.mgc.taskSt ≤ 2 → step s = .next t → t.evc.fifo.length ≤ 64 ∧
    t.evc.sramRing.length ≤ 1024 ∧ t.mgc.taskSt ≤ 2

/-- From every state in which the stored registers, MGC_TASK_BUF and the firmware staging buffer are in canonical form (keys strictly rising, no entry equal to what an unlisted key reads as), every step leads to a state of which the same holds. Where the spec leaves a choice the clauses follow the model's: log entries 12, 16. -/
def Obligations.StoredDataKeepsItsForm : Prop :=
  ∀ (s t : State), mapWf 0 s.regs = true → mapWf 0 s.mgc.buf = true → mapWf 0 s.fws.staging = true → step s = .next t → mapWf 0 t.regs = true ∧
    mapWf 0 t.mgc.buf = true ∧ mapWf 0 t.fws.staging = true

/-- A write of TIU_TEN_TASK_MIN that would raise the sum of MIN over tenants 1 to 512 above 258,048 is refused with CODE 3; one of MIN or of MAX that would make MAX less than MIN is refused with CODE 4; a refused write changes nothing but the result register. Formalises R133. -/
def Obligations.TaskSlotGuarantees : Prop :=
  (∀ (s : State) (t w : Nat) (v : Word), 1 ≤ t → t ≤ 512 → tiuMerged s (0x5100018 + t * 0x1000) v.toNat = (w, false) →
    258048 < ((List.range 512).map (fun i => getF s (F.TIU_TEN_TASK_MIN_MIN (i + 1)))).sum - getF s (F.TIU_TEN_TASK_MIN_MIN t) + w →
    exec (.taskQuotaWrite t false v) s = .next { s with qe := { s.qe with cfgCode := 3, cfgTenant := t } }) ∧
  (∀ (s : State) (t w : Nat) (v : Word), 1 ≤ t → t ≤ 512 → tiuMerged s (0x5100018 + t * 0x1000) v.toNat = (w, false) →
    ((List.range 512).map (fun i => getF s (F.TIU_TEN_TASK_MIN_MIN (i + 1)))).sum - getF s (F.TIU_TEN_TASK_MIN_MIN t) + w ≤ 258048 →
    getF s (F.TIU_TEN_TASK_MAX_MAX t) < w → exec (.taskQuotaWrite t false v) s = .next { s with qe := { s.qe with cfgCode := 4, cfgTenant := t } }) ∧
  (∀ (s : State) (t w : Nat) (v : Word), 1 ≤ t → t ≤ 512 → tiuMerged s (0x510001C + t * 0x1000) v.toNat = (w, false) →
    w < getF s (F.TIU_TEN_TASK_MIN_MIN t) → exec (.taskQuotaWrite t true v) s = .next { s with qe := { s.qe with cfgCode := 4, cfgTenant := t } })

/-- A die-block that waits for its erase and whose wear count plus the charge of that erase exceeds MME_WEAR_CFG.LIMIT is retired at that point and not erased. (A repeat of an unconfirmed erase charges nothing.) Formalises R418. -/
def Obligations.WornBlockIsRetired : Prop :=
  ∀ (s : State) (r : Nat), refDie r < linkCount s * 32 → refBlock r < 3800 → isAnchor r = false → s.top.readsOk = true → waitsErase s r = true →
    dieIsLost s (refDie r) = false → (getDie s (refDie r)).usable = true → bufFull s = false → s.tabs.san.active = false → (getBlock s r).unconf = false →
    getF s F.MME_WEAR_CFG_LIMIT < (getBlock s r).wear + eraseCharge (eraseMode s) → ∃ cause u, u = retireBlock r cause s ∧
    exec (.eraseBegin r) s = .next (zmSettle s u) ∧ (getBlock u r).st = .retired ∧ (getBlock u r).wear = (getBlock s r).wear

/-- A read of the low word of a 64-bit pair returns it and arms the shadow of the high word; the armed shadow answers one read of the high word; a read of an RC field returns it and clears it; a write of 1 clears a latch bit; the high word of the addend is held until the low word is written; a plain field takes an unreserved value and keeps its own against a reserved one; a register of the operator ignores firmware; an address that is no multiple of 4 has no effect. An access to a block that is not reachable has status 8; a read returns 0 and a write has no effect. Where the spec leaves a choice the clauses follow the model's: log entries 12, 13, 14, 15. -/
def Obligations.RegisterAccess : Prop :=
  (∀ (s : State) (a h : Nat), a % 4 = 0 → accessStatus s a = 0 → regAbsent s a = false → pairHigh a = some h → mapGet none s.shadows a = none →
    a ∉ [0x3000050, 0x2000010, 0x2000014, 0x2000018, 0x11000014, 0xE000038, 0xE00003C, 0xE000044, 0xE000048] → ∃ t, exec (.regPairLowRead a) s = .next t ∧
    t.out = .value a (BitVec.ofNat 32 (readReg s a)) :: s.out ∧ mapGet none t.shadows h = some (readReg s h) ∧
    t = { s with shadows := t.shadows, out := t.out }) ∧
  (∀ (s : State) (a v : Nat), a % 4 = 0 → accessStatus s a = 0 → regAbsent s a = false → mapGet none s.shadows a = some v → a ∉ [0x3000050, 0x2000010,
    0x2000014, 0x2000018, 0x11000014, 0xE000038, 0xE00003C, 0xE000044, 0xE000048] → ∃ t, exec (.regPairHighRead a) s = .next t ∧
    t.out = .value a (BitVec.ofNat 32 v) :: s.out ∧ mapGet none t.shadows a = none ∧ t = { s with shadows := t.shadows, out := t.out }) ∧
  (∀ (s : State) (a : Nat) (d : RegDesc), a % 4 = 0 → accessStatus s a = 0 → regAbsent s a = false → pairHigh a = none → mapGet none s.shadows a = none →
    regFind a = some d → a ∉ [0x3000050, 0x2000010, 0x2000014, 0x2000018, 0x11000014, 0xE000038, 0xE00003C, 0xE000044, 0xE000048] → ∃ t,
    exec (.rcRead a) s = .next t ∧ t.out = .value a (BitVec.ofNat 32 (readReg s a)) :: s.out ∧
    getReg t a = d.fields.foldl (fun w f => if f.acc = .rc then natSetBits w f.lo f.width f.reset else w) (getReg s a) ∧ (∀ b, b ≠ a →
    getReg t b = getReg s b) ∧ t = { s with regs := t.regs, out := t.out }) ∧
  (∀ (s : State) (b : Nat) (v : Word), b < 48 → s.top.dev ≠ .off → ∃ t, exec (.w1cWrite (0x12001004 + b * 0x20) v) s = .next t ∧
    getF t (F.EVC_LATCHb_LATCH b) = (getF s (F.EVC_LATCHb_LATCH b) - (getF s (F.EVC_LATCHb_LATCH b) &&& v.toNat)) % 2 ^ 32 ∧ (∀ a,
    a ≠ 0x12001004 + b * 0x20 → getReg t a = getReg s a) ∧ t = { s with regs := t.regs }) ∧
  (∀ (s : State) (v : Word), s.top.dev ≠ .off → ∃ t, exec (.regPairHighWrite 0x2000024 v) s = .next t ∧ mapGet none t.heldHigh 0x2000024 = some v.toNat ∧
    t = { s with heldHigh := t.heldHigh }) ∧
  (∀ (s : State) (v : Word), s.top.dev ≠ .off → ∃ t, exec (.regPairLowWrite 0x2000020 v) s = .next t ∧ t = writeAddend v.toNat s ∧
    mapGet none t.heldHigh 0x2000024 = none) ∧
  (∀ (s : State) (v : Word), s.top.dev ≠ .off → v.toNat ≤ 10000 → ∃ t, exec (.registerWrite .operator 0x18 v) s = .next t ∧
    getF t F.TOP_QUIESCE_CFG_DRAIN_MS = v.toNat ∧ t = { s with regs := t.regs }) ∧
  (∀ (s : State) (v : Word), s.top.dev ≠ .off → 10000 < v.toNat % 2 ^ 16 → ∃ t, exec (.registerWrite .operator 0x18 v) s = .next t ∧ (∀ a,
    getReg t a = getReg s a) ∧ t = { s with regs := t.regs }) ∧
  (∀ (s : State) (a : Nat) (v : Word), a % 4 = 0 → regOpOnly a = true → exec (.registerWrite .firmware a v) s = .next s) ∧
  (∀ (s : State) (a : Nat) (v : Word) (w : Writer), a % 4 ≠ 0 → exec (.registerWrite w a v) s = .next (emit (.mgmt "ALIGNMENT" []) s) ∧
    exec (.w1cWrite a v) s = .next (emit (.mgmt "ALIGNMENT" []) s) ∧ exec (.rcRead a) s = .next (emit (.mgmt "ALIGNMENT" []) s)) ∧
  (∀ (s : State) (w : Writer) (a v : Nat), a < 0x14000000 → blockUp s (a / 0x1000000) = false → accessStatus s a = 8 ∧ regReadAt a s = (0, s) ∧
    regWriteAt w a v s = s)

/-- An access to an unmapped offset of a reachable block window, or to an address from 0x1400_0000 up, has the unmapped-address status 7 (Table 17-8); a read returns 0 and a write has no effect. Formalises R17 and R64. -/
def Obligations.UnmappedAccess : Prop :=
  ∀ (s : State) (w : Writer) (a v : Nat), (0x14000000 ≤ a ∨ (blockUp s (a / 0x1000000) = true ∧ regFind a = none)) → accessStatus s a = 7 ∧
    regReadAt a s = (0, s) ∧ regWriteAt w a v s = s

/-- Loss of power (PORST_N, a failed rail) leads to Off with every register at reset and the durable tables in force. From Off with good rails and the RC ready, the release of PORST_N samples the straps, senses the fuses and enters Boot. A device reset by the operator with its key, and the supervisor watchdog, lead to Boot; a core watchdog sets its mask bit alone. TRST resets the TAP. Rails-good in Off drives the default core voltage code. Where the spec leaves a choice the clauses follow the model's: log entries 4, 5, 17. -/
def Obligations.PowerUp : Prop :=
  (∀ (s : State) (removed : Bool), ∃ t, exec (.porstNAssert removed) s = .next t ∧ t.top.dev = .off ∧ t.regs = [] ∧ t.cru.stage = .held ∧
    t.tabs = s.dur ∧ t.dur = s.dur ∧ t.units = s.units) ∧
  (∀ (s : State) (rail : Nat), ∃ t, exec (.railFail rail) s = .next t ∧ t.top.dev = .off ∧ t.pad.railsGood = false ∧ t.regs = [] ∧ t.dur = s.dur ∧
    t.units = s.units) ∧
  (∀ (s : State), s.top.dev = .off → ∃ t, exec .railsGood s = .next t ∧ t.pad.railsGood = true ∧ t.pad.vidValid = true ∧ t.pad.vidCode = 10 ∧
    t = { s with pad := t.pad, cru := t.cru }) ∧
  (∀ (s : State) (hmode addr : Nat) (i3c testmode core net : Bool), s.top.dev = .off → s.pad.railsGood = true → s.cru.rcReady = true →
    s.pad.thermtrip = false → ∃ t, exec (.porstNRelease hmode i3c addr testmode core net) s = .next t ∧ t.top.dev = .boot ∧ t.pad.hmode = hmode % 4 ∧
    t.pad.mgmtI3c = i3c ∧ t.pad.mgmtAddr = addr % 8 ∧ t.pad.testmode = testmode ∧ t.pad.fusesSensed = true ∧ t.pad.vidCode = s.fuse.vid) ∧
  (∀ (s : State), s.top.dev ≠ .off → ∃ t, exec (.deviceReset .operator 0x5A) s = .next t ∧ t.top.dev = .boot ∧ t.cru.cause = 1 ∧
    t.cru.devResets = min 0xFF (s.cru.devResets + 1)) ∧
  (∀ (s : State) (w : Writer) (key : Nat), (w = .firmware ∨ key ≠ 0x5A) → exec (.deviceReset w key) s = .next s) ∧
  (∀ (s : State), s.top.dev ≠ .off → ∃ t, exec .scWatchdogExpire s = .next t ∧ t.top.dev = .boot) ∧
  (∀ (s : State) (core : Nat), core < 4 → s.top.dev ≠ .off → ∃ t, exec (.ccWatchdogExpire core) s = .next t ∧ t.top = s.top ∧
    getF t F.CRU_RESET_CAUSE_CC_MASK = (getF s F.CRU_RESET_CAUSE_CC_MASK ||| 2 ^ core) % 2 ^ F.CRU_RESET_CAUSE_CC_MASK.width) ∧
  (∀ (s : State), ∃ t, exec .trstAssert s = .next t ∧ t.pad.tapIr = 1 ∧ t.pad.bsr = 0 ∧ t.pad.drive = .functional ∧ t = { s with pad := t.pad })

/-- In Boot, slot selection counts the power cycle and either boots a slot or enters recovery; the signature check starts the trainers; DRAM training without a failing channel releases the buffer manager and sets both locks, and a failing channel halts the boot; the admin-served point enters Replay; the reads-served point sets READS_SERVED; and the end of the open-row replay enters Serving. Where the spec leaves a choice the clauses follow the model's: log entries 7, 17, 19, 22, 25, 26. -/
def Obligations.BootSequence : Prop :=
  (∀ (s : State), s.top.dev = .boot → s.cru.stage = .early → s.fws.bootSlot = 0 → s.fws.recovery = false → s.fws.erasePending = false → ∃ t,
    exec .bootSlotSelect s = .next t ∧ t.top.powerCycles = satAdd (2 ^ 32 - 1) s.top.powerCycles 1 ∧ t.top.dev = .boot) ∧
  (∀ (s : State), s.cru.stage = .early → s.top.dev = .boot → s.fws.bootSlot ≠ 0 → ∃ t, exec .signatureCheckDone s = .next t ∧ t.cru.stage = .trainers) ∧
  (∀ (s : State) (ok ranks2 metaCopy : Bool) (failMask cap retain : Nat), s.cru.stage = .trainers → s.dmc.halted = false → failMask % 2 ^ 24 = 0 → ∃ t,
    exec (.dramTrainingDone ok failMask cap ranks2 metaCopy retain) s = .next t ∧ t.dmc.trained = true ∧ t.dmc.cap = cap % 4 ∧ t.dmc.ranks2 = ranks2 ∧
    t.dmc.retainSeg = retain % 256 ∧ t.cru.stage = .bpm ∧ getF t F.BPM_LOCK_LOCK = 1 ∧ getF t F.DMC_LOCK_LOCK = 1 ∧ t.top = s.top) ∧
  (∀ (s : State) (ok ranks2 metaCopy : Bool) (failMask cap retain : Nat), s.cru.stage = .trainers → s.dmc.halted = false → failMask % 2 ^ 24 ≠ 0 → ∃ t,
    exec (.dramTrainingDone ok failMask cap ranks2 metaCopy retain) s = .next t ∧ t.dmc.halted = true ∧ t.dmc.failMask = failMask % 2 ^ 24 ∧
    t.cru = s.cru ∧ t.top = s.top) ∧
  (∀ (s : State), s.top.dev = .boot → s.cru.stage = .bpm → ∃ t, exec .adminServedPoint s = .next t ∧ t.top.dev = .replay ∧ t.top.lastCause = 1 ∧
    t.top.adminOk = true ∧ t.cru.stage = .all ∧ t.jnl.phase = 1) ∧
  (∀ (s : State), s.top.dev = .replay → s.top.readsOk = false → ∃ t, exec .readsServedPoint s = .next t ∧ t.top.readsOk = true ∧ t.top.dev = .replay ∧
    t.jnl.phase = 5) ∧
  (∀ (s r : State), s.top.dev = .replay → s.top.readsOk = true → s.top.pwrActive = false → skimsLeft s = false →
    rebaseAll s (mapKeysWhere (fun _ z => needsRebase s z) s.tabs.zones) = some r → ∃ t, exec .openRowReplayDone s = .next t ∧ t.top.dev = .serving ∧
    t.top.lastCause = 1)

/-- A quiesce or Retained request in Serving enters Quiescing; a Retained request after QUIESCE_DONE and a resume request are accepted as Table 01-3 says, and a request in a state that has no transition for it is refused with RESULT 1; the drain limit drops the uncommitted writes; a quiesce whose checkpoint, mark and CLEAN are accepted sets QUIESCE_DONE; the accepted CLEAN of a Retained request enters Retained, and the resume ends in Serving. A time mark issues a TIME record. A write of TOP_SKIM_DUE takes 0 as 1, from the operator alone. Where the spec leaves a choice the clauses follow the model's: log entries 1, 2, 20. -/
def Obligations.QuiesceAndRetained : Prop :=
  (∀ (s : State), s.top.dev = .serving → s.top.req = none → s.mgc.actPhase ≠ 1 → ∃ t, exec .quiesceRequest s = .next t ∧ t.top.dev = .quiescing ∧
    t.top.req = some .quiesce ∧ t.top.lastCause = 2 ∧ t.top.result = 0) ∧
  (∀ (s : State), s.top.dev = .serving → s.top.req = none → s.mgc.actPhase ≠ 1 → ∃ t, exec .retainedRequest s = .next t ∧ t.top.dev = .quiescing ∧
    t.top.req = some .retained ∧ t.top.lastCause = 3 ∧ t.top.result = 0) ∧
  (∀ (s : State), s.top.dev = .quiescing → s.top.quiesceDone = true → s.top.req = none → s.mgc.actPhase ≠ 1 → ∃ t, exec .retainedRequest s = .next t ∧
    t.top.dev = .quiescing ∧ t.top.req = some .retained ∧ t.top.result = 0) ∧
  (∀ (s : State), s.top.dev = .quiescing → s.top.quiesceDone = true → s.top.req = none → ∃ t, exec .resumeRequest s = .next t ∧
    t.top = { s.top with dev := .serving, lastCause := 4, quiesceDone := false, result := 0 }) ∧
  (∀ (s : State), s.top.dev = .retained → s.top.req = none → ∃ t, exec .resumeRequest s = .next t ∧ t.top.dev = .retained ∧ t.top.req = some .resume ∧
    t.top.result = 0) ∧
  (∀ (s : State), (s.top.dev = .boot ∨ s.top.dev = .replay) → s.top.req = none → s.mgc.actPhase ≠ 1 →
    exec .quiesceRequest s = .next { s with top := { s.top with result := 1 } } ∧
    exec .retainedRequest s = .next { s with top := { s.top with result := 1 } }) ∧
  (∀ (s : State), s.top.dev = .quiescing → s.top.req ≠ none → s.top.quiesceDone = false → s.top.drained = false → s.top.pwrActive = false →
    exec .quiesceDrainExpire s = .next (quiesceAdvance ((drainLeft s).foldl (fun s k => if (getTask s k).uncommitted then dropWrite k (finishRetry k 0 0x05) s else s) s))) ∧
  (∀ (s : State), s.top.dev = .quiescing → s.top.req = some .quiesce → s.top.quiesceDone = false → s.top.drained = true → s.top.pwrActive = false →
    s.top.ckptAccepted = true → s.top.markAccepted = true → s.top.cleanAccepted = true → s.top.retainedAfter = false → ∃ t,
    exec .quiesceComplete s = .next t ∧ t.top = { s.top with quiesceDone := true, req := none }) ∧
  (∀ (s : State), s.top.dev = .quiescing → s.top.quiesceDone = true → s.top.req = some .retained → s.top.cleanAccepted = true → sirBusy s = false → ∃ t,
    exec .retainedEntry s = .next t ∧ t.top.dev = .retained ∧ t.top.lastCause = 3 ∧ t.top.req = none ∧ t.top.quiesceDone = false) ∧
  (∀ (s : State) (failed : Nat), s.top.dev = .retained → s.top.req = some .resume → ∃ t, exec (.retainedResumeDone failed) s = .next t ∧
    t.top.dev = .serving ∧ t.top.lastCause = 4 ∧ t.top.req = none) ∧
  (∀ (s : State), (s.top.dev = .serving ∨ s.top.dev = .quiescing) → s.jnl.emergencyMode = false → ∃ t, exec .timeMark s = .next t ∧
    t.jnl.nextJsn = s.jnl.nextJsn + 1 ∧ t.jnl.buffer.map (fun r => r.typ) = s.jnl.buffer.map (fun r => r.typ) ++ [0x11] ∧ t = { s with jnl := t.jnl }) ∧
  (∀ (s : State) (value : Word), exec (.skimDueWrite .firmware value) s = .next s ∧
    exec (.skimDueWrite .operator value) s = .next (skimSettle (setRegSaved 0x24 (if value = 0 then 1 else value.toNat) s)))

/-- A transition of an input is counted and takes its raw level; the end of a chatter mask or window restarts the count; a stable level becomes the filtered level; PWRWARN_N held low is declared stuck and, once high, unstuck; a junction sample is recorded, and a sample of 120 degrees C trips to Off; each TAP instruction loads as R732 and R733 say. Where the spec leaves a choice the clauses follow the model's: log entries 2, 5, 33, 79. -/
def Obligations.PinsAndTap : Prop :=
  (∀ (s : State) (input : Nat) (level : Bool), input < 16 → (getPin s input).raw ≠ level → s.top.dev ≠ .off →
    (getPin s input).count + 1 ≤ getF s F.PAD_FILT_CFG_CHATTER_MAX → ∃ t, exec (.inputTransition input level) s = .next t ∧
    getPin t input = { getPin s input with raw := level, count := (getPin s input).count + 1 } ∧ (∀ j, j ≠ input → getPin t j = getPin s j) ∧
    t = { s with pad := t.pad }) ∧
  (∀ (s : State) (input : Nat) (level : Bool), input < 16 → (getPin s input).raw ≠ level → s.top.dev ≠ .off → (getPin s input).chatter = false →
    getF s F.PAD_FILT_CFG_CHATTER_MAX < (getPin s input).count + 1 → s.top.pwrActive = false → ∃ t, exec (.inputTransition input level) s = .next t ∧
    getPin t input = { getPin s input with raw := level, count := (getPin s input).count + 1, chatter := true, filt := (getPin s input).filt || input == 0 }) ∧
  (∀ (s : State) (input : Nat), input < 16 → (getPin s input).chatter = true → ∃ t, exec (.chatterMaskEnd input) s = .next t ∧
    getPin t input = { getPin s input with chatter := false, count := 0 } ∧ t = { s with pad := t.pad }) ∧
  (∀ (s : State) (input : Nat), input < 16 → ∃ t, exec (.chatterWindowEnd input) s = .next t ∧ getPin t input = { getPin s input with count := 0 } ∧
    t = { s with pad := t.pad }) ∧
  (∀ (s : State) (input : Nat), 0 < input → input < 16 → (getPin s input).filt ≠ (getPin s input).raw → pinMasked s input = false → s.top.dev ≠ .off →
    ∃ t, exec (.inputFilterChange input) s = .next t ∧ getPin t input = { getPin s input with filt := (getPin s input).raw } ∧ t = { s with pad := t.pad }) ∧
  (∀ (s : State), (getPin s 0).filt = true → (getPin s 0).raw = false → pinMasked s 0 = false → s.top.dev ≠ .off →
    exec (.inputFilterChange 0) s = .next (pwrwarnAccept (setPin 0 (fun p => { p with filt := p.raw }) s))) ∧
  (∀ (s : State), (getPin s 0).filt = false → (getPin s 0).raw = true → pinMasked s 0 = false → s.top.dev ≠ .off →
    exec (.inputFilterChange 0) s = .next (pwrwarnEnd 6 (setPin 0 (fun p => { p with filt := p.raw }) s))) ∧
  (∀ (s : State), s.top.pwrActive = true → s.pad.railsGood = true → (getPin s 0).filt = false → ∃ t, exec .pwrwarnStuck s = .next t ∧
    t.pad.stuck = true ∧ t.top.pwrStuck = true ∧ (getPin t 0).filt = true) ∧
  (∀ (s : State), s.pad.stuck = true → (getPin s 0).raw = true → ∃ t, exec .pwrwarnUnstick s = .next t ∧ t.pad = { s.pad with stuck := false } ∧
    t.top = { s.top with pwrStuck := false } ∧ t = { s with pad := t.pad, top := t.top }) ∧
  (∀ (s : State) (temp : Nat), s.top.dev ≠ .off → (512 ≤ temp % 1024 ∨ temp % 1024 < 480) → ∃ t, exec (.thermalSample temp) s = .next t ∧
    t.pad.tj = temp % 1024) ∧
  (∀ (s : State) (temp : Nat), s.top.dev ≠ .off → temp % 1024 < 512 → 480 ≤ temp % 1024 → ∃ t, exec (.thermalSample temp) s = .next t ∧
    t.top.dev = .off ∧ t.pad.thermtrip = true ∧ t.pad.tj = temp % 1024 ∧ t.out.head? = some (.pin "THERMTRIP_N" 0)) ∧
  (∀ (s : State) (cells : Nat), s.pad.porstLow = true → (∃ t, exec (.extest cells) s = .next t ∧
    t.pad = { s.pad with bsr := cells, tapIr := 0, drive := .boundary } ∧ t = { s with pad := t.pad }) ∧ (∃ t, exec .clamp s = .next t ∧
    t.pad = { s.pad with tapIr := 4, drive := .clamp } ∧ t = { s with pad := t.pad }) ∧ (∃ t, exec .highz s = .next t ∧
    t.pad = { s.pad with tapIr := 5, drive := .highz } ∧ t = { s with pad := t.pad })) ∧
  (∀ (s : State) (cells : Nat), s.pad.porstLow = false → ∃ t, exec (.extest cells) s = .next t ∧ exec .clamp s = .next t ∧ exec .highz s = .next t ∧
    t.pad = { s.pad with tapIr := 0xFF } ∧ t = { s with pad := t.pad }) ∧
  (∀ (s : State) (cells code : Nat), (∃ t, exec .idcode s = .next t ∧ t.pad = { s.pad with tapIr := 1, drive := .functional } ∧
    t.out = .pin "TDO" 0x4C720F1B :: s.out ∧ t = { s with pad := t.pad, out := t.out }) ∧ (∃ t, exec (.samplePreload cells) s = .next t ∧
    t.pad = { s.pad with tapIr := 2, bsr := cells, drive := .functional } ∧ t = { s with pad := t.pad }) ∧ (∃ t, exec (.bypass code) s = .next t ∧
    t.pad = { s.pad with tapIr := code % 256, drive := .functional } ∧ t = { s with pad := t.pad })) ∧
  (∀ (s : State) (code : Nat), ∃ t, exec (.manufacturingTest code) s = .next t ∧
    t.pad = { s.pad with tapIr := if s.pad.testmode = true ∧ s.pad.testJudged = true ∧ protLevel s = 0 ∧ 0x80 ≤ code ∧ code ≤ 0xBF then code else 0xFF, drive := .functional } ∧
    t = { s with pad := t.pad })

/-- Each monitoring window judges the references; a reference that has been bad long enough, or whose clock stops, is bad, is counted, and a root in Normal then enters Coast; a reference becomes good again after GOOD_MS; a PLL that loses lock freezes or moves; the RC is checked, restarted and becomes ready. Where the spec leaves a choice the clauses follow the model's: log entries 2. -/
def Obligations.ClockReferences : Prop :=
  (∀ (s : State) (coreCount netCount : Nat), s.cru.rcGood = true → 0 < getF s F.CRU_MON_CFG_BAD_N → windowBad s coreCount 1024 = false →
    windowBad s netCount 1600 = false →
    exec (.monitorWindow coreCount netCount) s = .next { s with cru := { s.cru with coreCount := coreCount, netCount := netCount, coreBadRun := 0, netBadRun := 0 } }) ∧
  (∀ (s : State) (coreCount netCount : Nat), s.cru.rcGood = true → s.cru.coreGood = true → windowBad s coreCount 1024 = true →
    getF s F.CRU_MON_CFG_BAD_N ≤ s.cru.coreBadRun + 1 → ∃ t, exec (.monitorWindow coreCount netCount) s = .next t ∧ t.cru.coreGood = false ∧
    t.cru.coreCount = coreCount ∧ t.cru.netCount = netCount) ∧
  (∀ (s : State), s.cru.coreGood = true → ∃ t, exec (.stoppedClockTrip .core) s = .next t ∧ t.cru.coreGood = false ∧ t.cru.coreStopped = true ∧
    (s.cru.rootMode = 0 → t.cru.rootMode = 1 ∧ t.cru.progHold = true ∧ t.cru.accFrozen = true) ∧ (s.cru.netGood = false → t.cru.doubleFault = true)) ∧
  (∀ (s : State), s.cru.netGood = true → ∃ t, exec (.stoppedClockTrip .net) s = .next t ∧ t.cru.netGood = false ∧ t.cru.netStopped = true ∧
    (s.cru.rootMode = 0 → t.cru.netOnRoot = true ∧ t.cru.netFrozen = false) ∧ (s.cru.rootMode ≠ 0 → t.cru.netFrozen = true)) ∧
  (∀ (s : State), s.cru.rcGood = true → s.cru.coreGood = false → s.cru.coreBadRun = 0 → s.cru.doubleFault = false →
    (s.cru.rootMode = 0 ∨ getF s F.CRU_SWITCH_CTL_AUTO_RETURN = 0) →
    exec (.referenceGood false) s = .next { s with cru := { s.cru with coreGood := true, coreStopped := false } }) ∧
  (∀ (s : State), s.cru.rcGood = true → s.cru.netGood = false → s.cru.netBadRun = 0 → s.cru.doubleFault = false →
    exec (.referenceGood true) s = .next { s with cru := { s.cru with netGood := true, netStopped := false, netOnRoot := false, netFrozen := false }, tu := { s.tu with srcRoot := false } }) ∧
  (∀ (s : State) (n : Nat), ∃ t, exec (.pllLockLoss (.flashTx n)) s = .next t ∧ t.cru = { s.cru with accFrozen := true } ∧ t.tu = s.tu ∧
    getF t F.CRU_FAULT_CNT_UNLOCK = min 255 (getF s F.CRU_FAULT_CNT_UNLOCK + 1)) ∧
  (∀ (s : State) (count : Nat), windowBad s count 1024 = false →
    exec (.rcCheckWindow count) s = .next { s with cru := { s.cru with rcCount := count, vsNet := !s.cru.coreGood, rcBadRun := 0, rcGood := s.cru.rcGood || s.cru.rcReady } }) ∧
  (∀ (s : State) (count : Nat), windowBad s count 1024 = true → getF s F.CRU_MON_CFG_BAD_N ≤ s.cru.rcBadRun + 1 → s.cru.rcGood = true → ∃ t,
    exec (.rcCheckWindow count) s = .next t ∧ t.cru.rcGood = false ∧ t.cru.rcReady = false ∧ t.cru.rcBadRun = 0 ∧ (s.cru.rootMode = 2 →
    t.cru.rootMode = 1) ∧ t.cru.rcCount = count) ∧
  (∀ (s : State) (count : Nat), windowBad s count 1024 = true → s.cru.rcBadRun + 1 < getF s F.CRU_MON_CFG_BAD_N →
    exec (.rcCheckWindow count) s = .next { s with cru := { s.cru with rcCount := count, vsNet := !s.cru.coreGood, rcBadRun := s.cru.rcBadRun + 1 } }) ∧
  (∀ (s : State), s.pad.railsGood = true →
    exec .rcReady s = .next { s with cru := { s.cru with rcReady := true, rcGood := if s.cru.rcReady then s.cru.rcGood else true } }) ∧
  (∀ (s : State) (value : Word), ∃ t, exec (.rcTrimWrite .operator value) s = .next t ∧ getF t F.CRU_RC_TRIM_TRIM = value.toNat % 128 ∧
    t.cru = { s.cru with rcReady := false } ∧ exec (.rcTrimWrite .firmware value) s = .next s)

/-- A refused fail-over is requested again until its target is ready; a finished switch selects the target, is counted and takes up a held request; the locked root is in Backup on the RC and in Normal on REFCLK_CORE; the accurate PLLs relock; a double fault puts DRAM into self-refresh; an operator switch runs or is refused. Where the spec leaves a choice the clauses follow the model's: log entries 2. -/
def Obligations.ClockSwitch : Prop :=
  (∀ (s : State) (target : Nat), s.cru.retrying = some target → s.cru.switching = none → switchReady s target = true →
    exec .switchRetry s = .next { s with cru := { s.cru with switching := some target, retrying := none } }) ∧
  (∀ (s : State) (target : Nat), s.cru.retrying = some target → s.cru.switching = none → switchReady s target = false → ∃ t,
    exec .switchRetry s = .next t ∧ getF t F.CRU_SWITCH_STATUS_REFUSED = min 255 (getF s F.CRU_SWITCH_STATUS_REFUSED + 1) ∧ t = { s with regs := t.regs }) ∧
  (∀ (s : State) (target : Nat), s.cru.switching = some target → (s.cru.heldReq = none ∨ s.cru.heldReq = some target) → ∃ t,
    exec (.clockSwitchDone false) s = .next t ∧
    t.cru = { s.cru with current := target, switching := none, heldReq := none, lastForced := false, relocking := true } ∧
    getF t F.CRU_SWITCH_STATUS_SWITCHES = min 255 (getF s F.CRU_SWITCH_STATUS_SWITCHES + 1)) ∧
  (∀ (s : State), s.cru.relocking = true → s.cru.switching = none → s.cru.current = 1 →
    exec .rootPllLock s = .next { s with cru := { s.cru with rootMode := 2, relocking := false } }) ∧
  (∀ (s : State), s.cru.relocking = true → s.cru.switching = none → s.cru.current ≠ 1 → ∃ t, exec .rootPllLock s = .next t ∧ t.cru.rootMode = 0 ∧
    t.cru.relocking = false ∧ t.cru.progHold = false ∧ t.cru.accFrozen = true ∧ t.cru.netFrozen = false) ∧
  (∀ (s : State), s.cru.accFrozen = true → (s.cru.rootMode = 0 ∨ s.cru.netGood = true) →
    exec .accPllRelock s = .next (dmcDriftTrackAll { s with cru := { s.cru with accFrozen := false, accOnNet := decide (s.cru.rootMode ≠ 0) } })) ∧
  (∀ (s : State), s.cru.doubleFault = true → ∃ t, exec .doubleFaultSelfRefresh s = .next t ∧ t.dmc.selfRef = true ∧ t = { s with dmc := t.dmc }) ∧
  (∀ (s : State) (autoReturn : Bool), s.cru.switching = none → s.cru.rcReady = true → s.cru.rootMode = 0 → ∃ t,
    exec (.clockSwitchRequest .operator 1 autoReturn) s = .next t ∧ t.cru.rootMode = 1 ∧ t.cru.progHold = true ∧ t.cru.switching = some 1 ∧
    t.cru.relocking = false) ∧
  (∀ (s : State) (autoReturn : Bool), s.cru.switching = none → s.cru.rcReady = false → ∃ t,
    exec (.clockSwitchRequest .operator 1 autoReturn) s = .next t ∧ t.cru = s.cru ∧
    getF t F.CRU_SWITCH_STATUS_REFUSED = min 255 (getF s F.CRU_SWITCH_STATUS_REFUSED + 1)) ∧
  (∀ (s : State) (autoReturn : Bool) (target : Nat), exec (.clockSwitchRequest .firmware target autoReturn) s = .next s)

/-- A step moves T and the state, or is refused when the time would be negative; a read of NOW returns the nanoseconds and arms both shadows; a servo update of a large offset steps and one of a small offset records it; Locked without a Sync, and Holdover that lasts too long, change state. A usable Sync records its offset and delay; more than 1 ms of offset steps T back by it, clears the integral and enters Acquiring; a smaller one sets the integral to the clamped sum and ADDEND to 2^42 minus the clamped correction. Where the spec leaves a choice the clauses follow the model's: log entries 1, 2, 49. -/
def Obligations.NetworkTime : Prop :=
  (∀ (s : State) (sec : Word), 0 ≤ (s.tu.t : Int) + (toSigned 32 sec.toNat * 1000000000 + toSigned 32 (getF s F.TU_STEP_NS_NS)) * 2 ^ 48 → ∃ t,
    exec (.tuStep sec) s = .next t ∧
    (t.tu.t : Int) = (s.tu.t : Int) + (toSigned 32 sec.toNat * 1000000000 + toSigned 32 (getF s F.TU_STEP_NS_NS)) * 2 ^ 48 + tuInc s ∧
    t.tu.stepRefused = false ∧ t.tu.st = (if s.tu.st = 0 then 1 else if s.tu.st = 3 ∨ s.tu.st = 4 then 2 else s.tu.st) ∧
    getF t F.TU_STATUS_STEPS = min 255 (getF s F.TU_STATUS_STEPS + 1)) ∧
  (∀ (s : State) (sec : Word), (s.tu.t : Int) + (toSigned 32 sec.toNat * 1000000000 + toSigned 32 (getF s F.TU_STEP_NS_NS)) * 2 ^ 48 < 0 → ∃ t,
    exec (.tuStep sec) s = .next t ∧ t.tu = { s.tu with stepRefused := true }) ∧
  (∀ (s : State),
    exec .tuNowRead s = .next { s with tu := { s.tu with shadowLo := some (viewTu s 0x14), shadowHi := some (viewTu s 0x18) }, out := .value 0x2000010 (BitVec.ofNat 32 (tuNs s.tu.t)) :: s.out }) ∧
  (∀ (s : State), s.tu.st = 3 → ∃ t, exec .ptpSyncTimeout s = .next t ∧ t.tu.st = 4 ∧ t.tu.holdTick = s.tu.ticks ∧ t.tu.integ = s.tu.integ ∧
    t.tu.t = s.tu.t) ∧
  (∀ (s : State), s.tu.st ≠ 3 → exec .ptpSyncTimeout s = .next s) ∧
  (∀ (s : State), s.tu.st = 4 → ∃ t, exec .holdoverExpire s = .next t ∧ t.tu = { s.tu with st := 1, lockRun := 0, unlockRun := 0 }) ∧
  (∀ (s : State) (e : Int) (dtNs : Nat), 1000000 < e.natAbs → 0 ≤ (s.tu.t : Int) + (-e) * 2 ^ 48 → s.tu.st ≠ 3 → ∃ t,
    exec (.ptpServoUpdate e dtNs none) s = .next t ∧ (t.tu.t : Int) = (s.tu.t : Int) + (-e) * 2 ^ 48 + tuInc s ∧ t.tu.integ = 0 ∧ t.tu.st = 2 ∧
    t.tu.offset = e ∧ t.tu.delays = s.tu.delays)

/-- SECTOR_ERASE starts an erase of a permitted sector whose header row becomes invalid, or answers RESULT 1 while an operation runs, 2 without permission, 4 on a suspended erase; SECTOR_ERASE_DONE writes the header row and RESULT 0, turns to pulse-and-verify, or marks the sector bad with RESULT 6; a suspended erase is resumed. Where the spec leaves a choice the clauses follow the model's: log entries 2, 16, 27, 28. -/
def Obligations.StoreErase : Prop :=
  (∀ (s : State) (w : Writer) (sector : Nat), s.fws.op = none → s.fws.suspended = none → storePermitted s w (sector % 512) = true → ∃ t,
    exec (.sectorErase w sector) s = .next t ∧ (∃ o, t.fws.op = some o ∧ o.erase = true ∧ o.sector = sector % 512 ∧ o.user = .command) ∧
    t.fws.result = 0 ∧ t.fws.lastSector = sector % 512 ∧ (getSector t (sector % 512)).headerOk = false ∧ (getSector t (sector % 512)).next = 0) ∧
  (∀ (s : State) (w : Writer) (sector : Nat), s.fws.op.isSome = true →
    exec (.sectorErase w sector) s = .next { s with fws := { s.fws with result := 1 } }) ∧
  (∀ (s : State) (w : Writer) (sector : Nat), s.fws.op = none → storePermitted s w (sector % 512) = false →
    exec (.sectorErase w sector) s = .next { s with fws := { s.fws with result := 2, pulses := 0, lastSector := sector % 512 } }) ∧
  (∀ (s : State) (w : Writer) (sector : Nat) (o : StoreOp), s.fws.op = none → storePermitted s w (sector % 512) = true → s.fws.suspended = some o →
    o.sector = sector % 512 → exec (.sectorErase w sector) s = .next { s with fws := { s.fws with result := 4, pulses := 0, lastSector := sector % 512 } }) ∧
  (∀ (s : State) (o : StoreOp) (pulses : Nat), s.fws.op = some o → o.erase = true → o.user = .commit →
    exec (.sectorEraseDone true pulses) s = .next (jobAdvance (jobStep true (headSector o.sector o.count o.pulseMode (min 8 pulses) { s with fws := { s.fws with op := none, result := 0, pulses := if o.pulseMode then min 8 pulses else 0, lastSector := o.sector } })))) ∧
  (∀ (s : State) (o : StoreOp) (pulses : Nat), s.fws.op = some o → o.erase = true → o.user = .command → (getSector s o.sector).bad = false →
    s.fws.job = none → ∃ t, exec (.sectorEraseDone true pulses) s = .next t ∧ t.fws.op = none ∧ t.fws.result = 0 ∧
    t.fws.pulses = (if o.pulseMode then min 8 pulses else 0) ∧ getSector t o.sector = ⟨true, bitOf o.pulseMode, if o.pulseMode then min 8 pulses else 0,
    o.count, s.top.powerCycles, false, 0⟩) ∧
  (∀ (s : State) (o : StoreOp) (pulses : Nat), s.fws.op = some o → o.pulseMode = false → ∃ t,
    exec (if o.erase then .sectorEraseDone false pulses else .pageProgramDone false pulses) s = .next t ∧
    t = { s with fws := { s.fws with op := some { o with pulseMode := true } } }) ∧
  (∀ (s : State) (o : StoreOp), s.fws.suspended = some o → s.fws.op = none → o.forPwr = false →
    exec .storeEraseResume s = .next { s with fws := { s.fws with op := some { o with runTick := s.tu.ticks }, suspended := none } }) ∧
  (∀ (s : State) (o : StoreOp), s.fws.op = some o → o.erase = true → getF s F.FWS_CFG_SUSP_EN = 1 →
    exec .storeEraseSuspend s = .next { s with fws := { s.fws with op := none, suspended := some o } })

/-- PAGE_PROGRAM starts a program of the page the next-page pointer names, completes at once on blank data, and answers RESULT 2, 3 or 4 otherwise; its completion leaves the data in the page; a continuous read returns the word at the read address, which advances; a settings page takes the oldest changed setting. Where the spec leaves a choice the clauses follow the model's: log entries 25, 26, 27, 28, 29. -/
def Obligations.StorePrograms : Prop :=
  (∀ (s : State) (w : Writer) (sector page : Nat), s.fws.op = none → s.fws.suspended = none → storePermitted s w (sector % 512) = true →
    sectorReady s (sector % 512) = true → (getSector s (sector % 512)).next = page % 512 → (progBuf s).all (· == 0xFFFFFFFF) = false → ∃ t,
    exec (.pageProgram w sector page) s = .next t ∧ (∃ o, t.fws.op = some o ∧ o.erase = false ∧ o.sector = sector % 512 ∧ o.page = page % 512 ∧
    o.data = progBuf s) ∧ t.fws.lastSector = sector % 512) ∧
  (∀ (s : State) (w : Writer) (sector page : Nat), s.fws.op = none → s.fws.suspended = none → storePermitted s w (sector % 512) = true →
    sectorReady s (sector % 512) = true → (getSector s (sector % 512)).next ≠ page % 512 →
    exec (.pageProgram w sector page) s = .next { s with fws := { s.fws with result := 3, pulses := 0, lastSector := sector % 512 } }) ∧
  (∀ (s : State) (w : Writer) (sector page : Nat), s.fws.op = none → storePermitted s w (sector % 512) = true → sectorReady s (sector % 512) = false →
    exec (.pageProgram w sector page) s = .next { s with fws := { s.fws with result := 4, pulses := 0, lastSector := sector % 512 } }) ∧
  (∀ (s : State) (o : StoreOp) (pulses : Nat), s.fws.op = some o → o.erase = false → o.user = .command → s.fws.job = none → ∃ t,
    exec (.pageProgramDone true pulses) s = .next t ∧ t.fws.op = none ∧ t.fws.result = 0 ∧ getPage t (pageKey o.sector o.page) = o.data) ∧
  (∀ (s : State), ∃ t v, exec .continuousRead s = .next t ∧ t.out = .value 0x11000014 v :: s.out ∧
    getF t F.FWS_CREAD_ADDR_ADDR = (getF s F.FWS_CREAD_ADDR_ADDR + 1) % 2 ^ 25 ∧
    ((getSector s (4 * getF s F.FWS_CREAD_ADDR_ADDR / 2 ^ 18)).headerOk = true → protLevel s = 0 →
    regionOf (4 * getF s F.FWS_CREAD_ADDR_ADDR / 2 ^ 18) ≠ 5 →
    v = pageWord (getPage s (4 * getF s F.FWS_CREAD_ADDR_ADDR / 512)) (4 * getF s F.FWS_CREAD_ADDR_ADDR / 4 % 128))) ∧
  (∀ (s : State) (id : Nat) (vals : List Nat) (rest : SMap (List Nat)), s.fws.dirty = (id, vals) :: rest → s.fws.op = none → s.fws.suspended = none →
    sectorReady s s.fws.settingsSector = true → (getSector s s.fws.settingsSector).next < 512 → ∃ t, exec .settingsPageProgram s = .next t ∧
    t.fws.dirty = rest ∧ mapGet [] t.fws.saved id = vals ∧ t.fws.settingsSeq = s.fws.settingsSeq + 1 ∧
    (getSector t s.fws.settingsSector).next = (getSector s s.fws.settingsSector).next + 1) ∧
  (∀ (s : State), s.fws.op = none → s.fws.suspended = none → 480 < (getSector s s.fws.settingsSector).next → s.fws.settingsSector = 339 → ∃ t,
    exec .settingsCompact s = .next t ∧ t.fws.settingsSector = 324 ∧ s.fws.settingsSeq < t.fws.settingsSeq ∧ t.fws.saved = s.fws.saved)

/-- A source that exists and is enabled is latched when it fires, whether by hardware, by firmware or by the raise register, and a source that is not enabled does nothing but use up a free value; a bucket below BURST gains a token; a summary enters the FIFO with its count and clears the source. Where the spec leaves a choice the clauses follow the model's: log entries 10, 32. -/
def Obligations.EventSources : Prop :=
  (∀ (s : State) (source sev index : Nat) (detail : List Nat), evcExists source = true → evcBit s F.EVC_ENb_EN source = true → ∃ t,
    exec (.eventFire source sev index detail) s = .next t ∧ evcBit t F.EVC_LATCHb_LATCH source = true ∧
    t = { s with regs := t.regs, evc := t.evc, out := t.out, drawn := t.drawn }) ∧
  (∀ (s : State) (source sev index : Nat) (detail : List Nat), evcBit s F.EVC_ENb_EN source = false → ∃ t,
    exec (.eventFire source sev index detail) s = .next t ∧ t = { s with drawn := t.drawn }) ∧
  (∀ (s : State) (value : Word), 896 ≤ natBits value.toNat 0 11 → natBits value.toNat 0 11 ≤ 1535 → evcExists (natBits value.toNat 0 11) = true →
    evcBit s F.EVC_ENb_EN (natBits value.toNat 0 11) = true → ∃ t, exec (.swRaise value) s = .next t ∧
    evcBit t F.EVC_LATCHb_LATCH (natBits value.toNat 0 11) = true ∧ t = { s with regs := t.regs, evc := t.evc, out := t.out, drawn := t.drawn }) ∧
  (∀ (s : State) (value : Word), (natBits value.toNat 0 11 < 896 ∨ 1535 < natBits value.toNat 0 11) → exec (.swRaise value) s = .next s) ∧
  (∀ (s : State) (source : Nat), evcTokens s source < getF s F.EVC_CFG_BURST → (mapGet evcSrc0 s.evc.src source).supp = 0 → ∃ t,
    exec (.eventTokenRefill source) s = .next t ∧ evcTokens t source = evcTokens s source + 1 ∧ t = { s with evc := { s.evc with src := t.evc.src } }) ∧
  (∀ (s : State) (source : Nat), evcTokens s source = getF s F.EVC_CFG_BURST → exec (.eventTokenRefill source) s = .next s) ∧
  (∀ (s : State) (source : Nat), summaryReady s source = true → ∃ t r, exec (.summaryEnter source) s = .next t ∧ t.evc.fifo = s.evc.fifo ++ [r] ∧
    r.typ = 2 ∧ r.source = source ∧ r.detail.head? = some (mapGet evcSrc0 s.evc.src source).supp ∧ (mapGet evcSrc0 t.evc.src source).supp = 0 ∧
    t = { s with evc := { s.evc with fifo := t.evc.fifo, src := t.evc.src } })

/-- A drained FIFO head becomes a record with the next SEQ in the open page; a full page goes to the current sector, or to the SRAM ring when the Herdbook is degraded; a failed sector is bad and its records are written again after the record of source 864; the mirror takes the records above its highest SEQ. Where the spec leaves a choice the clauses follow the model's: log entries 17, 31. -/
def Obligations.EventRecords : Prop :=
  (∀ (s : State) (r : HbRec) (rest : List HbRec), s.evc.fifo = r :: rest → s.evc.filling.length < 8 → (s.fws.bootSlot ≠ 0 ∨ s.fws.recovery = true) →
    r.typ ≠ 2 → s.evc.lost = 0 → (1536 ≤ r.source ∨ evcBit s F.EVC_AENb_AEN r.source = false) →
    exec .eventFifoDrain s = .next { s with evc := { s.evc with fifo := rest, filling := s.evc.filling ++ [{ r with seq := s.evc.nextSeq }], nextSeq := s.evc.nextSeq + 1, mirrorNow := s.evc.mirrorNow || r.sev == 3 || r.source == 864 } }) ∧
  (∀ (s : State), s.evc.filling ≠ [] → s.evc.programming = none → hbDegraded s = true → ∃ t, exec .herdbookPageProgram s = .next t ∧ t.evc.filling = [] ∧
    t.evc.sramRing = (s.evc.sramRing ++ s.evc.filling).drop ((s.evc.sramRing ++ s.evc.filling).length - 1024) ∧ t = { s with evc := t.evc }) ∧
  (∀ (s : State), s.evc.filling ≠ [] → s.evc.programming = none → hbDegraded s = false → s.fws.op = none → s.fws.suspended = none →
    sectorReady s s.evc.curSector = true → (getSector s s.evc.curSector).next < 512 → ∃ t, exec .herdbookPageProgram s = .next t ∧
    t.evc.programming = some (s.evc.filling.take 8) ∧ t.evc.filling = s.evc.filling.drop 8 ∧ (∃ o, t.fws.op = some o ∧ o.erase = false ∧
    o.user = .herdbook ∧ o.sector = s.evc.curSector ∧ o.page = (getSector s s.evc.curSector).next ∧ o.data = hbPage (s.evc.filling.take 8))) ∧
  (∀ (s : State) (result : Nat), ∃ t, exec (.herdbookSectorFail result) s = .next t ∧ s.evc.curSector ∈ t.evc.badSectors ∧ t.evc.programming = none ∧
    t.evc.nextSeq = s.evc.nextSeq + 1 ∧ (∃ r, t.evc.filling = r :: (s.evc.programming.getD [] ++ s.evc.filling) ∧ r.source = 864 ∧
    r.index = s.evc.curSector ∧ r.seq = s.evc.nextSeq)) ∧
  (∀ (s : State), s.evc.mirrorOn = true → s.evc.mirrorDown = false → ((hbRecords s).filter (fun r => decide (s.evc.mirrorSeq < r.seq))).take 1024 ≠ [] →
    ∃ t, exec (.mirrorProgram true) s = .next t ∧
    t.evc.mirror = s.evc.mirror ++ ((hbRecords s).filter (fun r => decide (s.evc.mirrorSeq < r.seq))).take 1024 ∧ t.evc.mirrorNow = false ∧
    t = { s with evc := t.evc }) ∧
  (∀ (s : State), s.evc.mirrorOn = true → s.evc.mirrorDown = false → evcBit s F.EVC_ENb_EN 867 = true → ∃ t, exec (.mirrorProgram false) s = .next t ∧
    t.evc.mirror = s.evc.mirror ∧ t.evc.mirrorDown = mirrorBlockless s ∧ evcBit t F.EVC_LATCHb_LATCH 867 = true)

/-- An allocation takes the head of the free list of the smallest pool that fits and answers GRANTED with the handle; at the reserve an opportunistic one is refused; with no buffer free and no fallback it waits; a request by an identity its port may not present is refused with RANGE and recorded; a cancel takes the oldest waiter of an owner out of every queue. Where the spec leaves a choice the clauses follow the model's: log entries 2. -/
def Obligations.BufferAllocation : Prop :=
  (∀ (s : State) (port owner tenant size i : Nat) (x : Pool) (opp : Bool), ownerOk port owner = true → 0 < size → size ≤ 1048576 →
    poolPop (poolFor size) (mapGet pool0 s.bpm.pools (poolFor size)) = some (i, x) → (opp = true →
    poolReserve s (poolFor size) < poolFree s (poolFor size)) → ∃ t, exec (.bufferAllocate port owner tenant size opp false) s = .next t ∧
    t.bpm.status = 0 ∧ t.bpm.handle = handleOf (poolFor size) i ∧ mapGet buf0 t.bpm.bufs (handleOf (poolFor size) i) = ⟨1, owner, tenant, 1⟩ ∧
    mapGet pool0 t.bpm.pools (poolFor size) = x ∧ (∀ h, h ≠ handleOf (poolFor size) i → mapGet buf0 t.bpm.bufs h = mapGet buf0 s.bpm.bufs h) ∧
    t = { s with bpm := t.bpm }) ∧
  (∀ (s : State) (port owner tenant size : Nat), ownerOk port owner = true → 0 < size → size ≤ 1048576 →
    poolFree s (poolFor size) ≤ poolReserve s (poolFor size) → ∃ t, exec (.bufferAllocate port owner tenant size true false) s = .next t ∧
    t.bpm.status = 1 ∧ t.bpm.bufs = s.bpm.bufs ∧ t.bpm.pools = s.bpm.pools ∧ t = { s with bpm := t.bpm }) ∧
  (∀ (s : State) (port owner tenant size : Nat), ownerOk port owner = true → 0 < size → size ≤ 1048576 →
    poolPop (poolFor size) (mapGet pool0 s.bpm.pools (poolFor size)) = none → poolFallback s (poolFor size) = false →
    (mapGet pool0 s.bpm.pools (poolFor size)).waiters.length < 64 → ∃ t, exec (.bufferAllocate port owner tenant size false false) s = .next t ∧
    t.bpm.status = 2 ∧ t.bpm.bufs = s.bpm.bufs ∧
    (mapGet pool0 t.bpm.pools (poolFor size)).waiters = (mapGet pool0 s.bpm.pools (poolFor size)).waiters ++ [⟨port, owner, tenant⟩] ∧
    t = { s with bpm := t.bpm }) ∧
  (∀ (s : State) (port owner tenant size : Nat) (opp : Bool), (ownerOk port owner = false ∨ size = 0 ∨ 1048576 < size) →
    exec (.bufferAllocate port owner tenant size opp false) s = .next (bpmRefuse (poolFor size) 0 7 owner port 0 s)) ∧
  (∀ (s : State) (port owner handle newOwner : Nat), handleCheck s port owner handle = none → poolRefMode s (handlePool handle % 4) = false →
    ownerExists newOwner = true → (mapGet buf0 s.bpm.bufs handle).st = 1 → (mapGet buf0 s.bpm.bufs handle).owner = owner → ∃ t,
    exec (.bufferHandOver port owner handle newOwner) s = .next t ∧ t.bpm.status = 0 ∧
    mapGet buf0 t.bpm.bufs handle = { mapGet buf0 s.bpm.bufs handle with owner := newOwner } ∧ (∀ h, h ≠ handle →
    mapGet buf0 t.bpm.bufs h = mapGet buf0 s.bpm.bufs h) ∧ t = { s with bpm := t.bpm }) ∧
  (∀ (s : State) (port owner handle : Nat), handleCheck s port owner handle = none → poolRefMode s (handlePool handle % 4) = true →
    (mapGet buf0 s.bpm.bufs handle).st ≠ 0 → (mapGet buf0 s.bpm.bufs handle).refs ≠ 1023 → ∃ t, exec (.bufferReference port owner handle) s = .next t ∧
    t.bpm.status = 0 ∧ mapGet buf0 t.bpm.bufs handle = { mapGet buf0 s.bpm.bufs handle with refs := (mapGet buf0 s.bpm.bufs handle).refs + 1 } ∧
    t = { s with bpm := t.bpm }) ∧
  (∀ (s : State) (port owner : Nat), ownerOk port owner = true → (∀ p, p < 4 →
    (mapGet pool0 s.bpm.pools p).waiters.any (fun w => w.owner == owner) = false) → exec (.bufferCancel port owner) s = .next (bpmAnswer 0 s)) ∧
  (∀ (s : State) (port owner : Nat), ownerOk port owner = true → (mapGet pool0 s.bpm.pools 0).waiters.any (fun w => w.owner == owner) = true → (∀ p,
    p < 4 → 0 < p → (mapGet pool0 s.bpm.pools p).waiters.any (fun w => w.owner == owner) = false) → ∃ t, exec (.bufferCancel port owner) s = .next t ∧
    t.bpm.status = 10 ∧ (mapGet pool0 t.bpm.pools 0).waiters = dropWaiter owner (mapGet pool0 s.bpm.pools 0).waiters ∧ t = { s with bpm := t.bpm })

/-- A release by the owner frees the buffer, to the oldest waiter if one waits; of a buffer with references it takes one away; a request that fails a check is counted, recorded and answered with its cause and changes nothing else of the pools; a rebuild ends; the counter that SEL and POOL name is cleared. Where the spec leaves a choice the clauses follow the model's: log entries 2. -/
def Obligations.BufferRelease : Prop :=
  (∀ (s : State) (port owner handle : Nat), handleCheck s port owner handle = none → poolRefMode s (handlePool handle % 4) = false →
    (mapGet buf0 s.bpm.bufs handle).st = 1 → (mapGet buf0 s.bpm.bufs handle).owner = owner → (mapGet pool0 s.bpm.pools (handlePool handle)).waiters = [] →
    ∃ t, exec (.bufferRelease port owner handle) s = .next t ∧ t.bpm.status = 0 ∧ mapGet buf0 t.bpm.bufs handle = buf0 ∧
    (mapGet pool0 t.bpm.pools (handlePool handle)).freed = handleIndex handle :: (mapGet pool0 s.bpm.pools (handlePool handle)).freed ∧ (∀ h, h ≠ handle →
    mapGet buf0 t.bpm.bufs h = mapGet buf0 s.bpm.bufs h) ∧ t = { s with bpm := t.bpm }) ∧
  (∀ (s : State) (port owner handle : Nat) (w : Waiter) (rest : List Waiter), handleCheck s port owner handle = none →
    poolRefMode s (handlePool handle % 4) = false → (mapGet buf0 s.bpm.bufs handle).st = 1 → (mapGet buf0 s.bpm.bufs handle).owner = owner →
    (mapGet pool0 s.bpm.pools (handlePool handle)).waiters = w :: rest → ∃ t, exec (.bufferRelease port owner handle) s = .next t ∧ t.bpm.status = 0 ∧
    mapGet buf0 t.bpm.bufs handle = ⟨1, w.owner, w.tenant, 1⟩ ∧ (mapGet pool0 t.bpm.pools (handlePool handle)).waiters = rest ∧
    t = { s with bpm := t.bpm }) ∧
  (∀ (s : State) (port owner handle : Nat), handleCheck s port owner handle = none → poolRefMode s (handlePool handle % 4) = true →
    (mapGet buf0 s.bpm.bufs handle).st ≠ 0 → 1 < (mapGet buf0 s.bpm.bufs handle).refs → ∃ t, exec (.bufferRelease port owner handle) s = .next t ∧
    t.bpm.status = 0 ∧ mapGet buf0 t.bpm.bufs handle = { mapGet buf0 s.bpm.bufs handle with refs := (mapGet buf0 s.bpm.bufs handle).refs - 1 } ∧
    t = { s with bpm := t.bpm }) ∧
  (∀ (s : State) (port owner handle cause newOwner : Nat), handleCheck s port owner handle = some cause →
    exec (.bufferRelease port owner handle) s = .next (bpmRefuse (handlePool handle % 4) handle cause owner port 1 s) ∧
    exec (.bufferHandOver port owner handle newOwner) s = .next (bpmRefuse (handlePool handle % 4) handle cause owner port 2 s) ∧
    exec (.bufferReference port owner handle) s = .next (bpmRefuse (handlePool handle % 4) handle cause owner port 3 s)) ∧
  (∀ (s : State) (port owner handle : Nat), handleCheck s port owner handle = none → poolRefMode s (handlePool handle % 4) = false →
    (mapGet buf0 s.bpm.bufs handle).st = 0 → exec (.bufferRelease port owner handle) s = .next (bpmRefuse (handlePool handle % 4) handle 4 owner port 1 s)) ∧
  (∀ (s : State) (p h cause owner port op : Nat), (bpmRefuse p h cause owner port op s).bpm.status = cause ∧
    (bpmRefuse p h cause owner port op s).bpm.bufs = s.bpm.bufs ∧ (bpmRefuse p h cause owner port op s).bpm.pools = s.bpm.pools ∧
    (bpmRefuse p h cause owner port op s).bpm.errHandle = h ∧ (bpmRefuse p h cause owner port op s).bpm.errCause = cause ∧
    (bpmRefuse p h cause owner port op s).bpm.errOwner = owner ∧ (bpmRefuse p h cause owner port op s).bpm.errPort = port ∧
    (bpmRefuse p h cause owner port op s).bpm.errOp = op) ∧
  (∀ (s : State) (pool : Nat), (mapGet pool0 s.bpm.pools pool).rebuilding = true → ∃ t, exec (.freeListRebuildDone pool) s = .next t ∧
    (mapGet pool0 t.bpm.pools pool).rebuilding = false ∧ t.bpm.bufs = s.bpm.bufs) ∧
  (∀ (s : State) (pool sel : Nat), pool < 4 → sel ≤ 11 → ∃ t, exec (.bpmCntClear pool sel) s = .next t ∧ mapGet 0 t.bpm.counters (pool * 16 + sel) = 0 ∧
    (∀ k, k ≠ pool * 16 + sel → mapGet 0 t.bpm.counters k = mapGet 0 s.bpm.counters k) ∧ t.bpm.bufs = s.bpm.bufs)

/-- A refresh closes the row and clears the postponement; activations are tracked, and a tracked row at ROW_THR gets a targeted RFM and, the second time, throttles the port with the most activations; the window end clears the trackers; a throttle ends; panic bits are set and cleared; a row timer closes the row; tracking and ZQ calibration are counted. Where the spec leaves a choice the clauses follow the model's: log entries 2, 65. -/
def Obligations.DramRows : Prop :=
  (∀ (s : State) (channel bank : Nat), ∃ t, exec (.dramRefresh channel bank) s = .next t ∧
    mapGet bank0 t.dmc.banks (bankKey channel bank) = { mapGet bank0 s.dmc.banks (bankKey channel bank) with openRow := none, refreshes := 0, raa := (mapGet bank0 s.dmc.banks (bankKey channel bank)).raa - Config.freeValue s.drawn % 2 ^ 16 } ∧
    (∀ k, k ≠ bankKey channel bank → mapGet bank0 t.dmc.banks k = mapGet bank0 s.dmc.banks k) ∧ t.drawn = s.drawn + 1) ∧
  (∀ (s : State) (channel rate : Nat), ∃ t, exec (.refreshRatePoll channel rate) s = .next t ∧ mapGet 0 t.dmc.rates channel = rate ∧ (∀ k, k ≠ channel →
    mapGet 0 t.dmc.rates k = mapGet 0 s.dmc.rates k) ∧ t = { s with dmc := { s.dmc with rates := t.dmc.rates } }) ∧
  (∀ (s : State) (channel bank row port acts : Nat) (e : Nat × Nat × List Nat × Bool),
    (trackRow (mapGet bank0 s.dmc.banks (bankKey channel bank)).track row port acts).find? (fun e => e.1 == row) = some e →
    e.2.1 < getF s F.DMC_RH_CFG_ROW_THR → ∃ t, exec (.rowHammerRfm channel bank row port acts) s = .next t ∧
    mapGet bank0 t.dmc.banks (bankKey channel bank) = { mapGet bank0 s.dmc.banks (bankKey channel bank) with openRow := some row, raa := (mapGet bank0 s.dmc.banks (bankKey channel bank)).raa + acts, track := trackRow (mapGet bank0 s.dmc.banks (bankKey channel bank)).track row port acts } ∧
    t = { s with dmc := { s.dmc with banks := t.dmc.banks } }) ∧
  (∀ (s : State) (channel bank row port acts : Nat) (e : Nat × Nat × List Nat × Bool),
    (trackRow (mapGet bank0 s.dmc.banks (bankKey channel bank)).track row port acts).find? (fun e => e.1 == row) = some e →
    getF s F.DMC_RH_CFG_ROW_THR ≤ e.2.1 → e.2.2.2 = false → ∃ t, exec (.rowHammerRfm channel bank row port acts) s = .next t ∧
    (mapGet bank0 t.dmc.banks (bankKey channel bank)).openRow = none ∧ t.dmc.throttles = s.dmc.throttles ∧
    getF t F.DMC_RH_CNT_RFM_TARGETED = min 65535 (getF s F.DMC_RH_CNT_RFM_TARGETED + 1)) ∧
  (∀ (s : State) (channel bank row port acts : Nat) (e : Nat × Nat × List Nat × Bool),
    (trackRow (mapGet bank0 s.dmc.banks (bankKey channel bank)).track row port acts).find? (fun e => e.1 == row) = some e →
    getF s F.DMC_RH_CFG_ROW_THR ≤ e.2.1 → e.2.2.2 = true → ∃ t, exec (.rowHammerRfm channel bank row port acts) s = .next t ∧
    (mapGet bank0 t.dmc.banks (bankKey channel bank)).openRow = none ∧ (topPort e.2.2.1, bankKey channel bank) ∈ t.dmc.throttles) ∧
  (∀ (s : State), ∃ t, exec .activationWindowEnd s = .next t ∧ (∀ k, (mapGet bank0 t.dmc.banks k).track = []) ∧
    t = { s with dmc := { s.dmc with banks := t.dmc.banks } }) ∧
  (∀ (s : State) (port bank : Nat), ∃ t, exec (.throttleExpire port bank) s = .next t ∧ (port, bank) ∉ t.dmc.throttles ∧ (∀ x, x ≠ (port, bank) →
    (x ∈ t.dmc.throttles ↔ x ∈ s.dmc.throttles)) ∧ t = { s with dmc := { s.dmc with throttles := t.dmc.throttles } }) ∧
  (∀ (s : State) (port : Nat), ∃ t u, exec (.panicAssert port) s = .next t ∧ natBits t.dmc.panic port 1 = 1 ∧ exec (.panicRelease port) s = .next u ∧
    natBits u.dmc.panic port 1 = 0 ∧ t = { s with dmc := { s.dmc with panic := t.dmc.panic } } ∧ u = { s with dmc := { s.dmc with panic := u.dmc.panic } }) ∧
  (∀ (s : State) (port : Nat), natBits s.dmc.panic port 1 = 1 → ∃ t, exec (.panicLong port) s = .next t ∧ t.dmc = s.dmc ∧
    getF t F.DMC_PANIC_STATUS_LONG = min (2 ^ F.DMC_PANIC_STATUS_LONG.width - 1) (getF s F.DMC_PANIC_STATUS_LONG + 1)) ∧
  (∀ (s : State) (channel bank : Nat), ∃ t, exec (.rowCloseTimer channel bank) s = .next t ∧
    mapGet bank0 t.dmc.banks (bankKey channel bank) = { mapGet bank0 s.dmc.banks (bankKey channel bank) with openRow := none } ∧
    t = { s with dmc := { s.dmc with banks := t.dmc.banks } }) ∧
  (∀ (s : State) (channel : Nat), ∃ t u, exec (.dqsTracking channel) s = .next t ∧ mapGet 0 t.dmc.tracked channel = mapGet 0 s.dmc.tracked channel + 1 ∧
    exec (.zqCalibration channel) s = .next u ∧ mapGet 0 u.dmc.zq channel = mapGet 0 s.dmc.zq channel + 1 ∧
    t = { s with dmc := { s.dmc with tracked := t.dmc.tracked } } ∧ u = { s with dmc := { s.dmc with zq := u.dmc.zq } }) ∧
  (∀ (s : State) (addr port object key : Nat), addr < dramSpace s → (object = 1 ∨ object = 2 ∨ object = 5 ∨ object = 7 ∨ object = 8) → ∃ t,
    exec (.dramCrcMismatch addr port object key) s = .next t ∧ t.dmc.lastAddr = addr / 512 * 512 ∧ t.dmc.lastChannel = (dramMap s addr).channel ∧
    t.dmc.lastPort = port ∧ getF t F.DMC_CRC_CNT_MISMATCH = min (2 ^ F.DMC_CRC_CNT_MISMATCH.width - 1) (getF s F.DMC_CRC_CNT_MISMATCH + 1) ∧
    t.bpm = s.bpm ∧ t.clc = s.clc)

/-- A key word is staged in a slot that is not loaded; a commit of eight words loads the slot with the staged key and advances the generation number, and is refused with its code otherwise; an activate makes a loaded slot the active one; a clear zeroes a slot, waiting for the writes that use it; the result of an action shows when the slot state is in the configuration region. Where the spec leaves a choice the clauses follow the model's: log entries 64. -/
def Obligations.TenantKeys : Prop :=
  (∀ (s : State) (tenant slot word : Nat) (value : Word), tenant ≤ 512 → slot < 4 → word < 8 → (getSlot (getKeys s tenant) slot).loaded = false → ∃ t,
    exec (.keyWordWrite tenant slot word value) s = .next t ∧ mapGet 0 (getSlot (getKeys t tenant) slot).staged word = value.toNat ∧
    word ∈ (getSlot (getKeys t tenant) slot).marks ∧ t = { s with ite := { s.ite with keys := t.ite.keys } }) ∧
  (∀ (s : State) (tenant slot word : Nat) (value : Word), (512 < tenant ∨ 4 ≤ slot ∨ 8 ≤ word ∨ (getSlot (getKeys s tenant) slot).loaded = true) →
    exec (.keyWordWrite tenant slot word value) s = .next s) ∧
  (∀ (s : State) (tenant slot : Nat), keyBlocked s tenant = none → tenantState s tenant ≠ 0 → (getSlot (getKeys s tenant) slot).loaded = false →
    8 ≤ (getSlot (getKeys s tenant) slot).marks.length → (getF s F.ITE_KEY_ID_ID = 0 ∨ slotWith s tenant (getF s F.ITE_KEY_ID_ID) = none) → ∃ t,
    exec (.keyCommit tenant slot) s = .next t ∧ getSlot (getKeys t tenant) slot = ⟨[], [], stagedKey (getSlot (getKeys s tenant) slot),
    if getF s F.ITE_KEY_ID_ID = 0 then (getKeys s tenant).gen else getF s F.ITE_KEY_ID_ID, true⟩ ∧
    (getKeys t tenant).gen = max (getKeys s tenant).gen (if getF s F.ITE_KEY_ID_ID = 0 then (getKeys s tenant).gen else getF s F.ITE_KEY_ID_ID) + 1 ∧
    (getKeys t tenant).active = (getKeys s tenant).active ∧ t.ite.busy = true ∧ t.ite.nextTenant = tenant ∧
    t.ite.nextKcv = kcvOf (stagedKey (getSlot (getKeys s tenant) slot))) ∧
  (∀ (s : State) (tenant slot : Nat), keyBlocked s tenant = none → tenantState s tenant ≠ 0 →
    ((getSlot (getKeys s tenant) slot).loaded = true ∨ (getSlot (getKeys s tenant) slot).marks.length < 8) →
    exec (.keyCommit tenant slot) s = .next (keyRefuse (if (getSlot (getKeys s tenant) slot).loaded then 3 else 2) tenant s)) ∧
  (∀ (s : State) (tenant slot : Nat), keyBlocked s tenant = none → (getSlot (getKeys s tenant) slot).loaded = true → ∃ t,
    exec (.keyActivate tenant slot) s = .next t ∧ (getKeys t tenant).active = some slot ∧ (getKeys t tenant).slots = (getKeys s tenant).slots ∧
    t.ite.busy = true ∧ t.ite.nextTenant = tenant) ∧
  (∀ (s : State) (tenant slot : Nat), keyBlocked s tenant = none → (getSlot (getKeys s tenant) slot).loaded = false →
    exec (.keyActivate tenant slot) s = .next (keyRefuse 4 tenant s)) ∧
  (∀ (s : State) (tenant slot : Nat), keyBlocked s tenant = none → (getKeys s tenant).active ≠ some slot → clearWaits s tenant slot = false → ∃ t,
    exec (.keyClear tenant slot) s = .next t ∧ getSlot (getKeys t tenant) slot = slot0 ∧ (∀ j, j ≠ slot →
    getSlot (getKeys t tenant) j = getSlot (getKeys s tenant) j) ∧ (getKeys t tenant).active = (getKeys s tenant).active ∧ t.ite.busy = true ∧
    t.ite.clearing = none) ∧
  (∀ (s : State) (tenant slot code : Nat), keyBlocked s tenant = some code → exec (.keyCommit tenant slot) s = .next (keyRefuse code tenant s) ∧
    exec (.keyActivate tenant slot) s = .next (keyRefuse code tenant s) ∧ exec (.keyClear tenant slot) s = .next (keyRefuse code tenant s)) ∧
  (∀ (s : State) (code tenant : Nat), (keyRefuse code tenant s).ite = { s.ite with code := code }) ∧
  (∀ (s : State), s.ite.busy = true → s.ite.clearing = none → s.fws.dirty.any (fun e => e.1 == keySetting s.ite.nextTenant) = false → ∃ t,
    exec .keyActionResult s = .next t ∧ t.ite = { s.ite with busy := false, code := 0, kcv := s.ite.nextKcv } ∧ t.fws = s.fws) ∧
  (∀ (s : State) (tenant slot : Nat), s.ite.busy = true → s.ite.clearing = some (tenant, slot) → clearWaits s tenant slot = false → ∃ t,
    exec .keyActionResult s = .next t ∧ getSlot (getKeys t tenant) slot = slot0 ∧ t.ite.clearing = none)

/-- A landed unit without a tag gets the tag under the active key of its tenant; a unit fetched again keeps its tag; a unit of a read that passes its check is served, one whose key is not loaded fails unless the tenant reports, and one that fails for the first time is rebuilt. Where the spec leaves a choice the clauses follow the model's: log entries 64. -/
def Obligations.UnitTags : Prop :=
  (∀ (s : State) (slot unit : Nat) (k : KeySlot), (getTask s slot).uncommitted = true →
    ((getTask s slot).st = .receiving ∨ (getTask s slot).st = .executing) → (mapGet tunit0 (getTask s slot).units unit).bytes = 4096 →
    (mapGet tunit0 (getTask s slot).units unit).tag = none → (mapGet tunit0 (getTask s slot).units unit).keyId = 0 →
    activeSlot s (getNs s (getTask s slot).ns).tenant = some k → ∃ t, exec (.tagCompute slot unit) s = .next t ∧
    mapGet tunit0 (getTask t slot).units unit = { mapGet tunit0 (getTask s slot).units unit with keyId := k.keyId, tag := some (unitTag k.key (getNs s (getTask s slot).ns).tenant (getTask s slot).ns ((getTask s slot).slba + unit) (if (getNs s (getTask s slot).ns).conv then 0 else (getZone s (zoneOfLba (getTask s slot).ns (getTask s slot).slba)).zgen) k.keyId (leBytes 4096 (mapGet tunit0 (getTask s slot).units unit).data)), recheck := false }) ∧
  (∀ (s : State) (cw slot : Nat), (getCw s cw).slot = some slot → (getCw s cw).parent = none → (getCw s cw).st = 4 →
    exec (.tagCheck cw) s = .next (unitFailed slot (getCw s cw).index 2 0x81 (dropCw cw s))) ∧
  (∀ (s : State) (cw slot : Nat), (getCw s cw).slot = some slot → (getCw s cw).parent = none → (getCw s cw).st = 2 → ∃ t u,
    exec (.tagCheck cw) s = .next t ∧ u = iteBegin 0 s ∧ u.clc = s.clc ∧ u.qe = s.qe ∧
    (checkUnit s (unitNs (getCw s cw).key) (unitLba (getCw s cw).key) (getCw s cw).zgen (getCw s cw).bytes = 0 →
    t = unitPassed slot (getCw s cw).index ((getCw s cw).bytes.take 4096) (dropCw cw u)) ∧
    (checkUnit s (unitNs (getCw s cw).key) (unitLba (getCw s cw).key) (getCw s cw).zgen (getCw s cw).bytes = 2 →
    (getKeys s (getNs s (unitNs (getCw s cw).key)).tenant).report = false →
    t = unitFailed slot (getCw s cw).index 2 0xC1 (dropCw cw (bumpF F.ITE_ERR_CNT2_NOKEY 1 u))) ∧
    ((checkUnit s (unitNs (getCw s cw).key) (unitLba (getCw s cw).key) (getCw s cw).zgen (getCw s cw).bytes = 1 ∨ checkUnit s (unitNs (getCw s cw).key) (unitLba (getCw s cw).key) (getCw s cw).zgen (getCw s cw).bytes = 3) →
    (getCw s cw).firstFail = 0 →
    t = toL5 cw (updCw cw (fun c => { c with firstFail := checkUnit s (unitNs (getCw s cw).key) (unitLba (getCw s cw).key) (getCw s cw).zgen (getCw s cw).bytes }) (countFirst (checkUnit s (unitNs (getCw s cw).key) (unitLba (getCw s cw).key) (getCw s cw).zgen (getCw s cw).bytes) (unitNs (getCw s cw).key) u))))

/-- A seal moves the oldest records of the buffer into a page with the next PAGE_SEQ on a free pair; when both copies of the oldest page have returned its records are accepted and change the durable layer in order; a failed copy retires the block and the page is written again; a checkpoint begins with a TIME and a CKPT-BEGIN record and completes when its CKPT-END is accepted. Where the spec leaves a choice the clauses follow the model's: log entries 23, 63. -/
def Obligations.JournalPages : Prop :=
  (∀ (s : State) (p : Nat) (rest : List Nat), s.jnl.emergencyMode = false → freePairs s = p :: rest → takeRecs 65472 s.jnl.buffer ≠ [] → ∃ t,
    exec .journalPageSeal s = .next t ∧ t.jnl.nextSeq = s.jnl.nextSeq + 1 ∧ t.jnl.buffer = s.jnl.buffer.drop (takeRecs 65472 s.jnl.buffer).length ∧
    t.jnl.pages = s.jnl.pages ++ [⟨s.jnl.nextSeq, s.jnl.nextJsn - s.jnl.buffer.length, takeRecs 65472 s.jnl.buffer, p, false⟩]) ∧
  (∀ (s : State), s.jnl.emergencyMode = true → exec .journalPageSeal s = .next s) ∧
  (∀ (s : State) (p : JPage), s.jnl.pages = [p] → p.ok = false → (∀ r ∈ p.recs, r.after = .nothing) → ∃ t u,
    exec (.journalPageAccept p.seq) s = .next t ∧ t = jnlSettle s (settle (runWipes u)) ∧ u.jnl.accSeq = p.seq ∧ u.jnl.accJsn = p.first + p.recs.length ∧
    u.jnl.pages = [] ∧ u.dur = p.recs.foldl (fun d r => r.patches.foldl applyPatch d) s.dur) ∧
  (∀ (s : State) (seq : Nat), s.jnl.pages.any (fun g => g.seq == seq && !g.ok) = false → exec (.journalPageAccept seq) s = .next s) ∧
  (∀ (s : State) (seq copy status : Nat) (g : JPage), s.jnl.pages.find? (fun g => g.seq == seq && !g.ok) = some g → status ≠ 0 → ∃ u,
    u = dropJournalOps seq s ∧ u.jnl = s.jnl ∧
    exec (.journalCopyFail seq copy status) s = .next (jnlSettle s (rewritePage seq (if copy = 0 then (pagePair u g.pair).1 else (pagePair u g.pair).2) (retireBlock (if copy = 0 then (pagePair u g.pair).1 else (pagePair u g.pair).2) 0 u)))) ∧
  (∀ (s : State), (s.top.dev = .serving ∨ s.top.dev = .quiescing) → s.jnl.ckptActive = false → ∃ t, exec .checkpointStart s = .next t ∧
    exec .checkpointStartWrite s = .next t ∧ t.jnl.ckptActive = true ∧ t.jnl.endAccepted = false ∧ t.jnl.imageSeq = s.jnl.imageSeq + 1 ∧
    t.jnl.ckptJsn = s.jnl.nextJsn + 1 ∧ t.jnl.nextJsn = s.jnl.nextJsn + 2 ∧ (t.jnl.buffer.drop s.jnl.buffer.length).map Rec.typ = [0x11, 0x12]) ∧
  (∀ (s : State), (s.top.dev = .serving ∨ s.top.dev = .quiescing) → s.jnl.ckptActive = true →
    exec .checkpointStart s = .next { s with jnl := { s.jnl with ckptHeld := true } } ∧
    exec .checkpointStartWrite s = .next { s with jnl := { s.jnl with ckptHeld := true } }) ∧
  (∀ (s : State), s.jnl.ckptActive = true → s.jnl.endAccepted = true → s.jnl.ckptHeld = false → s.jnl.old = [] → ∃ t,
    exec .checkpointComplete s = .next t ∧ t.jnl.ckptActive = false ∧ t.jnl.lastSeq = s.jnl.imageSeq ∧ t.jnl.anchors = anchorTowers s ∧
    t.jnl.fromVol = s.jnl.ckptFrom ∧ t.rcu.ckptAges = s.rcu.imgAges ∧ t.mme.ckptCursor = s.mme.imgCursor) ∧
  (∀ (s : State) (zone src tgt r : Nat), (getZone s zone).rebase = true → (getZone s zone).stripe = some src → (getZone s zone).target = some tgt →
    natBits s.mme.above 2 1 = 0 → bufFull s = false → s.top.dev = .serving → rebaseNext s tgt = some r → ∃ t u, exec (.rebaseCopyRow zone) s = .next t ∧
    u = rebaseCopied tgt r s ∧ t = (if (rebaseNext u tgt).isNone then rebaseDone zone src tgt u else u)) ∧
  (∀ (s : State) (zone src tgt : Nat), (getZone s zone).rebase = true → (getZone s zone).stripe = some src → (getZone s zone).target = some tgt →
    natBits s.mme.above 2 1 = 0 → bufFull s = false → s.top.dev = .serving → rebaseNext s tgt = none → ∃ t, exec (.rebaseCopyRow zone) s = .next t ∧
    (getZone t zone).stripe = some tgt ∧ (getZone t zone).target = none ∧ (getZone t zone).rebase = false ∧ t.jnl.nextJsn = s.jnl.nextJsn + 1)

/-- A complete row is issued: its stripe lists it, the row is held in the Vat and the Pail and one ROW-ISSUE record is buffered; a held wordline gets its fine pass when it has been parked too long; a stripe past its horizon is staged; a missed horizon is counted once; a full staging block without live slices is released; a program failure takes the member out. Where the spec leaves a choice the clauses follow the model's: log entries 62, 65. -/
def Obligations.RowsAndStaging : Prop :=
  (∀ (s : State) (k : Nat), (getStripe s k).live = true → currentRow s k < 256 → rowIsComplete s k (currentRow s k) = true → bufFull s = false → ∃ t,
    exec (.rowComplete k) s = .next t ∧ (getStripe t k).issued = (getStripe s k).issued ++ [currentRow s k] ∧
    getRow t k (currentRow s k) = { row0 with vat := true, pail := true } ∧ t.jnl.nextJsn = s.jnl.nextJsn + 1 ∧
    t.jnl.buffer.map Rec.typ = s.jnl.buffer.map Rec.typ ++ [0x06]) ∧
  (∀ (s : State) (k : Nat), ((getStripe s k).live = false ∨ 256 ≤ currentRow s k ∨ rowIsComplete s k (currentRow s k) = false ∨ bufFull s = true) →
    exec (.rowComplete k) s = .next s) ∧
  (∀ (s : State) (die : Nat), exec (.parkTimeout die) s = .next ((getDie s die).held.foldl (fun s h => queueFine die h s) s)) ∧
  (∀ (s : State) (k : Nat), (getStripe s k).live = true → bufFull s = false → exec (.stageHorizon k) s = .next (coolerSettle (stageStripe k s))) ∧
  (∀ (s : State) (k : Nat), ((getStripe s k).live = false ∨ bufFull s = true) → exec (.stageHorizon k) s = .next s) ∧
  (∀ (s : State) (ns : Nat) (c : Commit), s.jnl.commits.find? (fun c => c.ns == ns && c.postTick.isSome && !c.missed) = some c → ∃ t,
    exec (.horizonMiss ns) s = .next t ∧
    getF t F.WPE_HORIZON_STATUS_MISS = min (2 ^ F.WPE_HORIZON_STATUS_MISS.width - 1) (getF s F.WPE_HORIZON_STATUS_MISS + 1) ∧
    t.jnl.commits = s.jnl.commits.map (fun x => if x = c then { x with missed := true } else x)) ∧
  (∀ (s : State) (b : Nat), s.wpe.areaBlocks.contains b = true → (getBlock s b).st = .bound → bufFull s = false →
    mapKeysWhere (fun _ x => x.refs.contains b) s.tabs.slices = [] →
    exec (.coolerBlockReclaim b) s = .next (coolerSettle (issueRelease b (updBlock b (fun x => { x with wl := max x.wl stageCap }) s)))) ∧
  (∀ (s : State) (b : Nat), (s.wpe.areaBlocks.contains b = false ∨ (getBlock s b).st ≠ .bound ∨ bufFull s = true) →
    exec (.coolerBlockReclaim b) s = .next s) ∧
  (∀ (s : State) (k m : Nat), (getStripe s k).live = true → m < (getStripe s k).members.length → (getStripe s k).lost.contains m = false → ∃ ref,
    ref = (getStripe s k).members.getD m 0 ∧
    exec (.programFailure k m) s = .next (zmSettle s (retireBlock ref 0 (memberGone k m (fire 611 (refDie ref) (bumpF F.WPE_FAIL_CNT_PROG_FAIL 1 s))))))

/-- A member loss takes the member out and settles the flags; a shrinking zone without pending commands becomes Full; the controller takes one Empty zone while spares are below the mark; a ready-list entry of 52 free die-blocks on distinct links is kept; a void reserved die-block is journaled; a home with too few links is chosen anew; a log stripe is assembled for a tenant. Where the spec leaves a choice the clauses follow the model's: log entries 2, 62. -/
def Obligations.ZoneUpkeep : Prop :=
  (∀ (s : State) (k m : Nat), exec (.memberLoss k m) s = .next (zmSettle s (loseMember k m s))) ∧
  (∀ (s : State) (zk : Nat), (getZone s zk).shrinking = true → (zonePending s zk).isEmpty = true →
    exec (.shrinkFinish zk) s = .next (zmSettle s (zoneChanged zk (issueZone zk 1 0 .nothing (sealZone zk .full true s))))) ∧
  (∀ (s : State) (zk : Nat), spare s < getF s F.ZM_RSV_CFG_LOW_MARK → replenishTarget s = some zk →
    exec .spareReplenish s = .next (zmSettle s (offlineByController zk s))) ∧
  (∀ (s : State) (bs : List Nat), entryOk s bs = true → ∃ t, exec (.readyListRefill 0 bs) s = .next t ∧ t.mme.ready = s.mme.ready ++ [bs] ∧
    t.mme.homeReady = s.mme.homeReady ∧ t.jnl = s.jnl) ∧
  (∀ (s : State) (home : Nat) (bs : List Nat), entryOk s bs = false → exec (.readyListRefill home bs) s = .next s) ∧
  (∀ (s u : State) (zk b : Nat), (getZone s zk).reserve.contains b = true → (getZone s zk).isActive = true → 1 ≤ spare (voidReserve zk b s) →
    takeReserve zk (getNs (voidReserve zk b s) (zoneNs zk)).tenant (voidReserve zk b s) 1 = some u →
    exec (.reservationReplace zk b) s = .next (zmSettle s u)) ∧
  (∀ (s : State) (zk b : Nat), (getZone s zk).reserve.contains b = true → (getZone s zk).isActive = true → spare (voidReserve zk b s) < 1 → ∃ t,
    exec (.reservationReplace zk b) s = .next t ∧ t = voidReserve zk b s ∧ (getZone t zk).reserve = (getZone s zk).reserve.filter (· != b) ∧
    t.jnl.nextJsn = s.jnl.nextJsn + 1) ∧
  (∀ (s : State) (g zk : Nat) (z : Zone), s.tabs.zones.find? (fun e => natBits e.2.hint 0 12 == g && natBits e.2.hint 12 2 == 1) = some (zk, z) →
    mapGet 0 s.tabs.homes g ≠ 0 → mapGet 0 s.tabs.homes g % 2 = 0 → flagF s F.ZM_HINT_CFG_AUTO_REHOME = true →
    homeLinks s (getNs s (zoneNs zk)).tenant (mapGet 0 s.tabs.homes g / 2) < 52 → ∃ t, exec (.rehome g) s = .next t ∧
    t.mme.homeReady = mapDel s.mme.homeReady g ∧ t.jnl.nextJsn = s.jnl.nextJsn + 1 ∧
    t.tabs.homes = mapSet 0 s.tabs.homes g (growHome s (getNs s (zoneNs zk)).tenant (hintAllowed s z.hint) 0 16 * 2 + natBits z.hint 14 1)) ∧
  (∀ (s : State) (tn : Nat) (bs : List Nat), mapGet 0 s.wpe.openLog tn = 0 → 4 ≤ logWidth s → bs.length = logWidth s + 2 → (bs.map refLink).Nodup →
    bs.any (fun r => !((candidates s 1 [] (posOwn s tn)).contains r)) = false → ∃ t k, exec (.logStripeAssemble tn bs) s = .next t ∧
    k = freeStripe s 262144 8192 ∧ mapGet 0 t.wpe.openLog tn = k + 1 ∧ (getStripe t k).members = bs ∧ (getStripe t k).tenant = tn ∧
    (getStripe t k).live = true ∧ t.jnl.nextJsn = s.jnl.nextJsn + 1)

/-- Every local second the powered seconds count and each ticking die ages; the Arrhenius constants are the operator’s and RCU_B follows EA and KB; a shelf temperature is taken in the states that allow it; a probe report ends its die’s probe, other reports feed the learning; a reset of the learned offsets drops them. Where the spec leaves a choice the clauses follow the model's: log entries 58, 59, 76. -/
def Obligations.AgesAndProbes : Prop :=
  (∀ (s : State), ∃ t u, exec .ageTick s = .next t ∧
    u = (allDies s).foldl tickDie { s with top := { s.top with poweredSec := satAdd (2 ^ 40 - 1) s.top.poweredSec 1 } } ∧ t = skimSettle u ∧
    t.top.poweredSec = min (2 ^ 40 - 1) (s.top.poweredSec + 1) ∧ t.tu = s.tu ∧ t.units = s.units) ∧
  (∀ (s : State) (reg : Nat) (v : Word), (reg = 0 ∨ reg = 4) → ∃ t u, exec (.arrheniusConstantWrite .operator reg v) s = .next t ∧
    u = plainWrite (0x9000000 + reg) v.toNat s ∧ t = { u with rcu := { u.rcu with b := rcuB u } }) ∧
  (∀ (s : State) (v : Word), exec (.arrheniusConstantWrite .operator 8 v) s = .next (plainWrite 0x9000008 v.toNat s)) ∧
  (∀ (s : State) (reg : Nat) (v : Word), exec (.arrheniusConstantWrite .firmware reg v) s = .next s) ∧
  (∀ (s : State) (v : Word), s.top.adminOk = true → s.top.dev ≠ .retained → ∃ t u, exec (.shelfTempWrite v) s = .next t ∧
    u = plainWrite 0x9000014 v.toNat s ∧ t = { u with rcu := { u.rcu with shelfValid := true } }) ∧
  (∀ (s : State) (v : Word), (s.top.adminOk = false ∨ s.top.dev = .retained) → exec (.shelfTempWrite v) s = .next s) ∧
  (∀ (s : State), exec .shelfTempExpire s = .next { s with rcu := { s.rcu with shelfValid := false } }) ∧
  (∀ (s : State), s.top.readsOk = true → s.rcu.sealed = false → exec .darkRecompute s = .next (darkAll (tuLocked s) s)) ∧
  (∀ (s : State), (s.top.readsOk = false ∨ s.rcu.sealed = true) → exec .darkRecompute s = .next s) ∧
  (∀ (s : State) (d ep snap i : Nat) (r : Report), s.clc.reports.findIdx? (fun r => r.probe && r.die == d) = some i → s.clc.reports[i]? = some r →
    s.rcu.sealed = false → (r.planes.filter (fun p => p.2.2)).map (fun p => p.2.1) ≠ [] →
    pilotAge (modelOf (updClc (fun c => { c with reports := c.reports.eraseIdx i }) s) d) (peOf (updClc (fun c => { c with reports := c.reports.eraseIdx i }) s) r.ref) ((r.planes.filter (fun p => p.2.2)).map (fun p => p.2.1)) = some ep →
    snapOf (updClc (fun c => { c with reports := c.reports.eraseIdx i }) s) r.ref (r.wl / 32) = some snap → ∃ u v,
    u = (updClc (fun c => { c with reports := c.reports.eraseIdx i }) s) ∧
    v = updAge d (fun a => { a with probing := false, probe := some (ep, ageInt u d - snap, snap) }) u ∧
    exec (.probeResult d) s = .next (probesSettle (skimSettle (darkDie (tuLocked v) v d)))) ∧
  (∀ (s : State) (d : Nat), s.clc.reports.findIdx? (fun r => r.probe && r.die == d) = none → exec (.probeResult d) s = .next s) ∧
  (∀ (s : State) (i : Nat) (r : Report), s.clc.reports.findIdx? (fun r => !r.probe) = some i → s.clc.reports[i]? = some r →
    exec .pilotReport s = .next (takeReport r { s with clc := { s.clc with reports := s.clc.reports.eraseIdx i } })) ∧
  (∀ (s : State) (d : Nat), ∃ t, exec (.learnResetDie d) s = .next t ∧ (getAge t d).learned = none ∧ ∀ e, e ≠ d → getAge t e = getAge s e) ∧
  (∀ (s : State), ∃ t, exec .learnResetAll s = .next t ∧ ∀ e ∈ t.rcu.dies, e.2.learned = none)

/-- A codeword that has what its step needs is decoded: a Skim codeword gets its class, a scan codeword queues its stripe when it fails, any other passes or climbs; an L5 rebuild with enough members gives the bytes when their CRC holds and leaves the codeword unrecovered otherwise; held samples that expire free their buffer; a clear drops the selected exit counter. Where the spec leaves a choice the clauses follow the model's: log entries 57, 58. -/
def Obligations.ReadLadder : Prop :=
  (∀ (s : State) (i : Nat), (getCw s i).st = 1 → (getCw s i).cls = 4 → (getCw s i).parent = none →
    exec (.codewordDecodeDone i) s = .next (skimDecoded i (decodeCw s (getCw s i)) s)) ∧
  (∀ (s : State) (i : Nat), (getCw s i).st = 1 → (getCw s i).cls = 0 →
    exec (.codewordDecodeDone i) s = .next (scanDecoded (getCw s i) (decodeCw s (getCw s i)) (dropCw i s))) ∧
  (∀ (s : State) (i : Nat), (getCw s i).st = 1 → (getCw s i).cls ≠ 0 → ((getCw s i).cls ≠ 4 ∨ (getCw s i).parent ≠ none) →
    exec (.codewordDecodeDone i) s = .next (endDecode i (decodeCw s (getCw s i)) s)) ∧
  (∀ (s : State) (i : Nat), (getCw s i).st ≠ 1 → exec (.codewordDecodeDone i) s = .next s) ∧
  (∀ (s : State) (i : Nat), (getCw s i).st = 3 → needParts s (getCw s i) ≤ (getCw s i).parts.length → (getCw s i).parts ≠ [] → ∃ u, u = dropParts i s ∧
    exec (.l5Reconstruct i) s = .next (if cwCrcOk (rebuiltBytes s (getCw s i)) then cwPassed i (rebuiltBytes s (getCw s i)) (exitCount 5 u) else updCw i (fun c => { c with st := 4 }) (exitCount 6 u))) ∧
  (∀ (s : State) (i : Nat), ((getCw s i).st ≠ 3 ∨ (getCw s i).parts.length < needParts s (getCw s i) ∨ (getCw s i).parts = []) →
    exec (.l5Reconstruct i) s = .next s) ∧
  (∀ (s : State) (k e : Nat) (x : Held), s.clc.held.find? (fun e => e.1 == k) = some (e, x) →
    exec (.sampleHoldExpire k) s = .next (bpmRelease 3 4 x.handle { s with clc := { s.clc with held := mapDel s.clc.held k } })) ∧
  (∀ (s : State) (sel : Nat), ∃ t, exec (.exitCntClear sel) s = .next t ∧ getF t F.CLC_EXIT_SEL_SEL = sel % 2 ^ F.CLC_EXIT_SEL_SEL.width ∧
    t.clc.exits = mapDel s.clc.exits (sel % 2 ^ F.CLC_EXIT_SEL_SEL.width))

/-- The pause of an activation ends with the new image on the other bank in probation and its job answered; an abandoned one is answered with the reason; the end of probation clears TRIAL and REVERTED; the whole-store erase leaves the defaults at PL0 and resets the device. Where the spec leaves a choice the clauses follow the model's: log entries 20, 26, 43. -/
def Obligations.ActivationAndProtection : Prop :=
  (∀ (s : State) (us : Nat), s.mgc.actPhase = 1 → ∃ t u, exec (.activationPause us) s = .next t ∧ u.mgc.activeBank = 1 - s.mgc.activeBank ∧
    u.mgc.actPhase = 3 ∧ u.mgc.pauseUs = min us 2000 ∧ u.mgc.revision = (parseHead (slotBytes s s.mgc.actSlot 0 512)).revision ∧
    t = releaseHeld (match s.fws.job with | none => u | some j => answerJob j 0 0 stSuccess 0 true (updFws (fun f => { f with job := none }) u))) ∧
  (∀ (s : State) (us : Nat), s.mgc.actPhase ≠ 1 → exec (.activationPause us) s = .next s ∧ exec (.activationAbandon us) s = .next s) ∧
  (∀ (s : State) (us : Nat), s.mgc.actPhase = 1 → exec (.activationAbandon us) s = .next (releaseHeld (abandonActivation (retryHint s) us s))) ∧
  (∀ (s : State), s.mgc.actPhase = 3 →
    exec .probationEnd s = .next (appendRecord { s.fws.record with trial := false, reverted := false } { s with mgc := { s.mgc with actPhase := 0 } })) ∧
  (∀ (s : State), s.mgc.actPhase ≠ 3 → exec .probationEnd s = .next s) ∧
  (∀ (s : State), s.fws.erasePending = true → ∃ t, exec .protectionEraseDone s = .next t ∧ t.top.dev = .boot) ∧
  (∀ (s : State), s.fws.erasePending = false → exec .protectionEraseDone s = .next s)

/-- Churn takes the victim of its rule and copies its valid units; the remap of a durable copy is journaled unless a newer write has superseded the unit; a die-block that holds nothing live is released; an erase is issued, or its die-block retired at its wear limit; a die-block whose header is durable becomes Free. Where the spec leaves a choice the clauses follow the model's: log entries 60, 62. -/
def Obligations.ChurnAndErase : Prop :=
  (∀ (s : State) (k : Nat), s.top.readsOk = true → natBits s.mme.above 0 1 = 0 → bufFull s = false → (s.mme.victim = some k ∨ (s.mme.victim = none ∧
    churnVictim s = some k)) → (s.mme.churning = true ∨ churnDue s = true) → ∃ u, u = updMme (fun m => { m with churning := true, victim := some k }) s ∧
    exec .churnStart s = .next ((validUnits u k).foldl (churnUnit k) u)) ∧
  (∀ (s : State), s.top.readsOk = true → natBits s.mme.above 0 1 = 0 → bufFull s = false → s.mme.victim = none → churnVictim s = none →
    (s.mme.churning = true ∨ churnDue s = true) → exec .churnStart s = .next (updMme (fun m => { m with churning := true }) s)) ∧
  (∀ (s : State), (s.top.readsOk = false ∨ bufFull s = true ∨ (s.mme.churning = false ∧ churnDue s = false)) → exec .churnStart s = .next s) ∧
  (∀ (s : State) (ns lba source target : Nat) (c v : UnitV),
    (mapGet [] s.units (unitKey ns lba)).find? (fun v => match v.place with | some p => p.1 == target | none => false) = some c →
    (mapGet [] s.units (unitKey ns lba)).find? (fun v => match v.place with | some p => p.1 == source | none => false) = some v → c.durable = true →
    c.stamp = v.stamp → v.rgen < c.rgen → bufFull s = false → (mapGet [] s.units (unitKey ns lba)).any (fun w => decide (c.stamp < w.stamp)) = false →
    ∃ t, exec (.unitRemap ns lba source target) s = .next t ∧
    mapGet [] t.units (unitKey ns lba) = (mapGet [] s.units (unitKey ns lba)).filter (fun w => !((match w.place with | some p => p.1 == source | none => false) && w.stamp == v.stamp)) ∧
    t.mme.remaps = s.mme.remaps + 1 ∧ t.jnl.nextJsn = s.jnl.nextJsn + 1 ∧ t.jnl.buffer.map Rec.typ = s.jnl.buffer.map Rec.typ ++ [0x0B]) ∧
  (∀ (s : State) (ns lba source target : Nat) (c v : UnitV),
    (mapGet [] s.units (unitKey ns lba)).find? (fun v => match v.place with | some p => p.1 == target | none => false) = some c →
    (mapGet [] s.units (unitKey ns lba)).find? (fun v => match v.place with | some p => p.1 == source | none => false) = some v → c.durable = true →
    c.stamp = v.stamp → v.rgen < c.rgen → bufFull s = false → (mapGet [] s.units (unitKey ns lba)).any (fun w => decide (c.stamp < w.stamp)) = true → ∃ t,
    exec (.unitRemap ns lba source target) s = .next t ∧
    mapGet [] t.units (unitKey ns lba) = (mapGet [] s.units (unitKey ns lba)).filter (fun w => !((match w.place with | some p => p.1 == target | none => false) && w.stamp == c.stamp)) ∧
    t = { s with units := t.units }) ∧
  (∀ (s : State) (r k : Nat), (getBlock s r).stripe = some k → (getBlock s r).st = .bound → bufFull s = false →
    (getStripe s k).members.findIdx? (· == r) = none → ∃ t, exec (.blockRelease r) s = .next t ∧ (getBlock t r).st = .released ∧
    (getBlock t r).stripe = none ∧ t.jnl.nextJsn = s.jnl.nextJsn + 1 ∧ ∀ q, q ≠ r → getBlock t q = getBlock s q) ∧
  (∀ (s : State) (r : Nat), (getBlock s r).stripe = none → exec (.blockRelease r) s = .next s) ∧
  (∀ (s : State) (r : Nat), refDie r < linkCount s * 32 → refBlock r < 3800 → isAnchor r = false → s.top.readsOk = true → waitsErase s r = true →
    dieIsLost s (refDie r) = false → (getDie s (refDie r)).usable = true → bufFull s = false → s.tabs.san.active = false →
    (getDie s (refDie r)).draining = false →
    ((getBlock s r).unconf = true ∨ (getBlock s r).wear + eraseCharge (if (getBlock s r).unconf then (getBlock s r).mode else eraseMode s) ≤ getF s F.MME_WEAR_CFG_LIMIT) →
    ∃ t m, m = (if (getBlock s r).unconf then (getBlock s r).mode else eraseMode s) ∧ exec (.eraseBegin r) s = .next t ∧ (getBlock t r).st = .erasing ∧
    (getBlock t r).mode = m ∧
    (getBlock t r).wear = (if (getBlock s r).unconf then (getBlock s r).wear else min 65535 ((getBlock s r).wear + eraseCharge m)) ∧
    (getBlock t r).snaps = [] ∧ t.jnl.nextJsn = s.jnl.nextJsn + 1) ∧
  (∀ (s : State) (r : Nat), refDie r < linkCount s * 32 → refBlock r < 3800 → isAnchor r = false → s.top.readsOk = true → waitsErase s r = true →
    dieIsLost s (refDie r) = false → (getDie s (refDie r)).usable = true → bufFull s = false → s.tabs.san.active = false →
    (getDie s (refDie r)).draining = true → exec (.eraseBegin r) s = .next (zmSettle s (retireBlock r 3 s))) ∧
  (∀ (s : State) (r : Nat), (getBlock s r).st = .erasing → (getBlock s r).stage = 4 → (mapGet block0 s.dur.blocks r).st = .free → ∃ u,
    exec (.blockFree r) s = .next (zmSettle s (coolerSettle u)) ∧
    getBlock u r = { getBlock s r with st := .free, stage := 0, unconf := false, recovery := false, owner := 0xFFFF } ∧ u.jnl = s.jnl)

/-- The scan probes its next point and wakes the die’s link group; a refresh binds a fresh stripe to the zone and its remap moves the binding; a finished pass sets F of every die and starts anew; wear levelling queues at most one zone; a rebuild writes the next row of a replacement; the rate window sets which classes are below their floors and above their ceilings; the floors are the operator’s. Where the spec leaves a choice the clauses follow the model's: log entries 61, 62. -/
def Obligations.RefreshAndRebuild : Prop :=
  (∀ (s : State) (key r g : Nat), s.top.readsOk = true → s.top.dev ≠ .quiescing → s.top.dev ≠ .retained → natBits s.mme.above 1 1 = 0 →
    nextScan s = some (key, r, g) → dieIsLost s (refDie r) = false → (getBlock s r).mode = 0 → ∃ u,
    u = { s with mme := { s.mme with passActive := true, cursor := key + 1, scanned := s.mme.scanned + 1 } } ∧
    exec .scanProbe s = .next (enqueue (refDie r) { dieOp0 with kind := .readLevel, block := refBlock r, wl := g * 32, planes := 15, count := 608, probe := 2, work := 2 } (wakeGroup (refDie r / 256) u))) ∧
  (∀ (s : State), s.top.readsOk = true → s.top.dev ≠ .quiescing → s.top.dev ≠ .retained → natBits s.mme.above 1 1 = 0 → nextScan s = none →
    exec .scanProbe s = .next { s with mme := { s.mme with passActive := true } }) ∧
  (∀ (s : State) (k zk g : Nat) (e : List Nat) (b : Bool) (u : State), s.top.readsOk = true → s.mme.current = none → natBits s.mme.above 1 1 = 0 →
    bufFull s = false → nextRefresh s = some k → (getStripe s k).zone = some zk → readyEntry s zk = some (e, b) → takeStripe zk e s = (g, u) → ∃ v,
    v = updMme (fun m => { m with current := some k, currentRows := 0 }) (updZone zk (fun z => { z with target := some g }) u) ∧
    exec .refreshStart s = .next (issueBind g v)) ∧
  (∀ (s : State), s.top.readsOk = true → s.mme.current = none → natBits s.mme.above 1 1 = 0 → bufFull s = false → nextRefresh s = none →
    exec .refreshStart s = .next s) ∧
  (∀ (s : State) (zk k g : Nat), (getZone s zk).stripe = some k → (getZone s zk).target = some g → (getZone s zk).rebase = false → rowsOf s k = [] →
    bufFull s = false → ∃ t u, exec (.refreshRemap zk) s = .next t ∧ t = zmSettle s (skimSettle u) ∧ (getZone u zk).stripe = some g ∧
    (getZone u zk).target = none ∧ u.mme.current = none ∧ u.jnl.nextJsn = s.jnl.nextJsn + 1) ∧
  (∀ (s : State), s.top.readsOk = true → s.mme.passActive = true → nextScan s = none →
    s.mme.passQueued.any (fun k => s.mme.queue.any (fun q => q.stripe == k) || s.mme.current == some k) = false → ∃ t u,
    exec .refreshPassComplete s = .next t ∧ t = skimSettle (fire 645 0 u) ∧ u.mme.cursor = 0 ∧ u.mme.scanned = 0 ∧ u.mme.passQueued = [] ∧
    u.rcu = ((allDies s).foldl (fun s d => updAge d (fun a => { a with refreshed := a.age / 2 ^ 32 }) s) s).rcu) ∧
  (∀ (s : State), (flagF s F.MME_WEAR_CFG_WL_EN = false ∨ s.mme.wlQueued = true ∨ fullStripes s = []) → exec .wearLevelCheck s = .next s) ∧
  (∀ (s : State) (k : Nat), flagF s F.MME_WEAR_CFG_WL_EN = true → s.mme.wlQueued = false → fullStripes s = [k] →
    ((getStripe s k).members.map (fun r => (getBlock s r).wear)).foldl min 65536 + 100 * getF s F.MME_WEAR_CFG_WL_DELTA < (poolWear s).foldl max 0 → ∃ t,
    exec .wearLevelCheck s = .next t ∧ t.mme.wlQueued = true ∧ t = updMme (fun m => { m with wlQueued := true }) (queueRefresh 5 0 k s)) ∧
  (∀ (s : State) (k m r : Nat), nextRebuild s k = some (m, r) → isLog k = false → (getStripe s k).live = true → bufFull s = false →
    natBits s.mme.above 2 1 = 0 → r < (getStripe s k).issued.length → rowNeeds s k r ≤ (rowMembers s k r m).length →
    exec (.rebuildRow k) s = .next (rebuildStep k m r s)) ∧
  (∀ (s : State) (k m r : Nat), nextRebuild s k = some (m, r) → isLog k = false → (getStripe s k).live = true → bufFull s = false →
    natBits s.mme.above 2 1 = 0 → (getStripe s k).issued.length ≤ r → ∃ t, exec (.rebuildRow k) s = .next t ∧
    (getStripe t k).rebuild = (getStripe s k).rebuild.filter (fun p => p.1 != m)) ∧
  (∀ (s : State), s.tabs.stripes.filter (fun e => e.2.live && e.2.zone.isSome && e.2.lost != []) = [] →
    exec .rebuildReplacementRetry s = .next (zmSettle s s)) ∧
  (∀ (s : State) (k m : Nat) (x : Stripe), s.tabs.stripes.filter (fun e => e.2.live && e.2.zone.isSome && e.2.lost != []) = [(k, x)] → x.lost = [m] →
    exec .rebuildReplacementRetry s = .next (zmSettle s (replaceLost k m s))) ∧
  (∀ (s : State) (a b c : Nat), s.pad.throttle = false →
    exec (.mmeRateWindow a b c) s = .next (updMme (fun m => { m with below := bitOf (decide (a < getF s F.MME_FLOOR_CFG_CHURN * 1000000)) + 2 * bitOf (decide (b < getF s F.MME_FLOOR_CFG_REFRESH * 1000000)) + 4 * bitOf (decide (c < getF s F.MME_FLOOR_CFG_REBUILD * 1000000)), above := bitOf (decide (getF s F.MME_CEIL_CFG_CHURN * 10000000 ≤ a)) + 2 * bitOf (decide (getF s F.MME_CEIL_CFG_REFRESH * 10000000 ≤ b)) + 4 * bitOf (decide (getF s F.MME_CEIL_CFG_REBUILD * 10000000 ≤ c)) }) s)) ∧
  (∀ (s : State) (v : Word),
    exec (.mmeFloorWrite .operator v) s = .next (if 93139 < 102 * (natBits v.toNat 0 10 + natBits v.toNat 10 10) + 2550 * natBits v.toNat 20 10 then s else plainWrite 0xB00001C v.toNat s) ∧
    exec (.mmeFloorWrite .firmware v) s = .next s)

/-- MODE_APPLY takes every port down and trains the lanes in the written mode; SAVE and FORGET together are ignored; a lane that loses lock takes its port down or narrows it; a failed training narrows or takes the port down, a good one brings it up; a narrowing candidate that times out gives way to the next; a down port retrains; widening trains at full width. Where the spec leaves a choice the clauses follow the model's: log entries 2, 25. -/
def Obligations.PortModesAndLanes : Prop :=
  (∀ (s : State), s.hfe.training = true → exec .modeApply s = .next s) ∧
  (∀ (s : State), s.hfe.training = false → ∃ t w, exec .modeApply s = .next t ∧ t = modeApply false s ∧
    w = (List.range 8).foldl (fun s p => portOff p s) ((s.hfe.conns.map Prod.fst).foldl (fun s c => loseConn c s) s) ∧
    t.hfe.mode = getF w F.HFE_MODE_CTL_MODE ∧ t.hfe.savedMode = false) ∧
  (∀ (s : State) (f : Bool), exec (.modeSave f) s = .next (if f then s else saveSetting modeSetting [getF s F.HFE_MODE_CTL_MODE + 1] s) ∧
    exec (.modeForget f) s = .next (if f then s else saveSetting modeSetting [0] s)) ∧
  (∀ (s : State) (l : Nat), laneCarries s l = true → ∃ u, u = updLane l (fun x => { x with locked := false }) s ∧
    exec (.laneLossOfLockTimeout l false) s = .next (lanesLost (portOfLane s l) l u) ∧
    exec (.laneLossOfLockTimeout l true) s = .next (portDown (portOfLane s l) ((portLanes s.hfe.mode (portOfLane s l)).foldl (fun s l => updLane l (fun x => { x with locked := false }) s) u))) ∧
  (∀ (s : State) (l : Nat) (b : Bool), laneCarries s l = false → exec (.laneLossOfLockTimeout l b) s = .next s) ∧
  (∀ (s : State) (l n : Nat), l < 8 → (laneCarries s l = false ∨ getF s F.HFE_LANE_FAIL_CFG_UNCORR_MAX = 0 ∨ n ≤ getF s F.HFE_LANE_FAIL_CFG_UNCORR_MAX) →
    ∃ t, exec (.laneUncorrInterval l n) s = .next t ∧ (getLane t l).degraded = decide (0 < n) ∧ (getLane t l).uncorr = n ∧ (∀ k, k ≠ l →
    getLane t k = getLane s k) ∧ t.hfe.ports = s.hfe.ports) ∧
  (∀ (s : State) (p m : Nat), (getPort s p).st = 1 → exec (.portTrainingDone p true m) s = .next (portUp p s)) ∧
  (∀ (s : State) (p m : Nat), (getPort s p).st = 1 →
    exec (.portTrainingDone p false m) s = .next (if (portLanes s.hfe.mode p).length ≤ 1 then portDown p s else narrow p (if (getPort s p).narrowing then (getPort s p).trying else 0) ((maskLanes ((getPort s p).trying &&& m)).foldl (fun s l => failLane l s) s))) ∧
  (∀ (s : State) (p m : Nat) (ok : Bool), (getPort s p).st ≠ 1 → exec (.portTrainingDone p ok m) s = .next s ∧
    exec (.narrowCandidateTimeout p) s = .next s) ∧
  (∀ (s : State) (p : Nat), (getPort s p).st = 1 → (getPort s p).narrowing = true →
    exec (.narrowCandidateTimeout p) s = .next (narrow p (getPort s p).trying s)) ∧
  (∀ (s : State) (p : Nat), (getPort s p).st = 0 → portDefined s p = true → flagF s (F.HFE_PORT_CTL_ENABLE p) = true → lanesRun s = true → ∃ t,
    exec (.portRetrainTimer p) s = .next t ∧ (getPort t p).st = 1 ∧ (getPort t p).trying = laneMask (portLanes s.hfe.mode p) ∧
    (getPort t p).narrowing = false) ∧
  (∀ (s : State) (p : Nat),
    exec (.portWiden p) s = .next (if portDefined s p = false ∨ (getPort s p).st = 1 then s else updPort p (fun x => { x with widenTimer := true }) (portTrainFull p s))) ∧
  (∀ (s : State) (p : Nat), flagF s (F.HFE_PORT_CTL_AUTO_WIDEN p) = true → (getPort s p).st = 3 → exec (.autoWidenTimer p) s = .next (portWiden p s))

/-- A good frame is counted and fills the buffer of its lossless priority; a bad, giant or foreign frame is counted by kind; XOFF is repeated while the buffer stays full and XON is sent when it has drained; a PFC frame pauses or resumes its priority; a storm discards the queued frames and ends; a resolved next hop lets its connections transmit and an unresolved one fails them. Where the spec leaves a choice the clauses follow the model's: log entries 2, 46. -/
def Obligations.FramesAndFlowControl : Prop :=
  (∀ (s : State) (p len prio : Nat) (b : Bool), 2 ≤ (getPort s p).st → p < 8 → len ≤ 9216 → flagF s (F.HFE_PORT_PFC_CFG_TRUST_DSCP p) = true →
    prioIs s p prio = some b → ∀ d, d / 8 % 8 = prio → exec (.frameReceive p len true (some d) none 0) s = .next (prioFill p b len (portCount p 0 1 s))) ∧
  (∀ (s : State) (p len pcp : Nat) (d v : Option Nat) (ok : Bool), ((getPort s p).st < 2 ∨ 8 ≤ p) → exec (.frameReceive p len ok d v pcp) s = .next s) ∧
  (∀ (s : State) (p len pcp : Nat) (d v : Option Nat), 2 ≤ (getPort s p).st → p < 8 →
    exec (.frameReceive p len false d v pcp) s = .next (portCount p 2 1 s) ∧ (9216 < len →
    exec (.frameReceive p len true d v pcp) s = .next (portCount p 3 1 s)) ∧ (len ≤ 9216 → v.any (fun v => !vlanKnown s p v) = true →
    exec (.frameReceive p len true d v pcp) s = .next (portCount p 0x13 1 s))) ∧
  (∀ (s : State) (p : Nat) (b : Bool), (getPrio s p b).xoff = true → prioOn s p b = true → exec (.pfcXoffRepeat p b) s = .next (sendPfc p b 0xFFFF s)) ∧
  (∀ (s : State) (p n : Nat) (b : Bool), (getPrio s p b).xoff = true → (getPrio s p b).fill - n ≤ xonBytes s p → ∃ t u,
    exec (.pfcXon p b n) s = .next t ∧ t = sendPfc p b 0 u ∧ getPrio u p b = { getPrio s p b with fill := (getPrio s p b).fill - n, xoff := false }) ∧
  (∀ (s : State) (p prio q : Nat) (b : Bool), prioIs s p prio = some b → (getPrio s p b).storm = false → q ≠ 0 →
    exec (.pfcFrameReceive p prio q) s = .next (updPrio p b (fun x => { x with paused := true }) (portCount p (if b then 8 else 6) 1 s)) ∧
    exec (.pfcFrameReceive p prio 0) s = .next (prioResume p b (portCount p (if b then 8 else 6) 1 s))) ∧
  (∀ (s : State) (p prio q : Nat), prioIs s p prio = none → exec (.pfcFrameReceive p prio q) s = .next s) ∧
  (∀ (s : State) (p : Nat) (b : Bool), (getPrio s p b).paused = true → exec (.pfcPauseExpire p b) s = .next (prioResume p b s)) ∧
  (∀ (s : State) (p : Nat) (b : Bool), (getPrio s p b).paused = true → getF s (F.HFE_PORT_PFC_CFG_STORM_MS p) ≠ 0 → ∃ t u,
    exec (.pfcStormDetect p b) s = .next t ∧ t = fire (130 + 4 * p) (prioNum u p b) (portCount p 0x12 1 u) ∧
    getPrio u p b = { getPrio s p b with storm := true, paused := false, queued := 0 }) ∧
  (∀ (s : State) (p : Nat) (b : Bool), ∃ t, exec (.pfcStormEnd p b) s = .next t ∧ getPrio t p b = { getPrio s p b with storm := false } ∧
    t = { s with hfe := { s.hfe with ports := t.hfe.ports } }) ∧
  (∀ (s : State) (hop : Nat), ∃ t u, exec (.nextHopResolved hop) s = .next t ∧
    u.hfe.neigh = (if s.hfe.neigh.contains hop then s.hfe.neigh else (hop :: s.hfe.neigh).take 4096) ∧
    t = (hopWaiters s hop).foldl (fun s c => acceptConn c (updConn c (fun x => { x with waitHop := none }) s)) u) ∧
  (∀ (s : State) (hop : Nat), exec (.nextHopTimeout hop) s = .next ((hopWaiters s hop).foldl (fun s c => loseConn c (fire 161 (getConn s c).port s)) s))

/-- A packet that fails its ICRC is counted and dropped; a SEND in order is acknowledged and its capsule queued; a request out of order is answered with an ACK or a NAK; RDMA requests of the host fail the connection; a CNP cuts the rate and the timer recovers it; retries exhausted fail the connection; a connection request is refused without resources or tokens and otherwise opens. Where the spec leaves a choice the clauses follow the model's: log entries 2. -/
def Obligations.RocePackets : Prop :=
  (∀ (s : State) (c psn len : Nat) (op : RoceOp) (ce : Bool) (cap : CapsuleIn), (getConn s c).port ≠ 8 → (getConn s c).tcp = false →
    exec (.rocePacketReceive c psn op false ce len cap) s = .next (portCount (getConn s c).port 0x0D 1 s) ∧
    exec (.rocePacketReceive c psn op true ce len cap) s = .next (roceOp c psn op len cap (if ce then markCe c s else s))) ∧
  (∀ (s : State) (c psn len : Nat) (cap : CapsuleIn), (getConn s c).port ≠ 8 → (getConn s c).tcp = false → psn = (getConn s c).psn →
    len ≤ capsuleMax (getConn s c) → ∃ t, exec (.rocePacketReceive c psn .send true false len cap) s = .next t ∧
    (getConn t c).ring = (getConn s c).ring ++ [capOf cap] ∧ (getConn t c).psn = (psn + 1) % 2 ^ 24 ∧ t.out = .frame c "ACK" psn :: s.out ∧ t.qe = s.qe) ∧
  (∀ (s : State) (c psn len : Nat) (cap : CapsuleIn), (getConn s c).port ≠ 8 → (getConn s c).tcp = false → psn ≠ (getConn s c).psn → ∃ t,
    exec (.rocePacketReceive c psn .send true false len cap) s = .next t ∧ t.hfe = s.hfe ∧
    t.out = (if psnLe psn (getConn s c).psn then .frame c "ACK" psn else .frame c "NAK" (getConn s c).psn) :: s.out) ∧
  (∀ (s : State) (c : Nat), (getConn s c).port ≠ 8 → (getConn s c).tcp = false →
    exec (.cnpReceive c) s = .next (cutRate c (portCount (getConn s c).port 0x0C 1 s))) ∧
  (∀ (s : State) (c : Nat), (getConn s c).port ≠ 8 → (getConn s c).tcp = false → ∃ t, exec (.rateRecoverTimer c) s = .next t ∧
    (getConn t c).rate = (if flagF s F.HFE_CC_RP_RP_EN then min (portRate s (getConn s c).port) ((getConn s c).rate + max 10 ((portRate s (getConn s c).port - (getConn s c).rate) / 8)) else portRate s (getConn s c).port) ∧
    (getConn t c).tStep = nowNs s) ∧
  (∀ (s : State) (c : Nat), (getConn s c).port ≠ 8 → (getConn s c).tcp = false → (getConn s c).unacked ≠ [] →
    exec (.rdmaAckTimeout c) s = .next (if natBits (getConn s c).cfg 5 3 < (getConn s c).retries + 1 then loseConn c s else resendConn c (updConn c (fun x => { x with retries := x.retries + 1 }) s))) ∧
  (∀ (s : State) (c : Nat), (getConn s c).port ≠ 8 → (getConn s c).rnrWaiting = true →
    exec (.rnrRetryTimer c) s = .next (if natBits (getConn s c).cfg 8 3 ≠ 7 ∧
    natBits (getConn s c).cfg 8 3 < (getConn s c).rnrRetries + 1 then loseConn c s else resendConn c (updConn c (fun x => { x with rnrWaiting := false, rnrRetries := x.rnrRetries + 1 }) s))) ∧
  (∀ (s : State) (p e tn hop : Nat) (io : Bool), portReached s p e = true → (fabricOpen s = false ∨ 4096 ≤ connsWaiting s) →
    exec (.rdmaConnectRequest p e tn hop io) s = .next { s with out := .frame 0 "CM REJ no resources" 2 :: s.out } ∧ (∀ d,
    exec (.tcpSyn p e d tn hop) s = .next { s with out := .frame 0 "RST" d :: s.out })) ∧
  (∀ (s u : State) (p e tn hop : Nat), portReached s p e = true → fabricOpen s = true → connsWaiting s < 4096 → takeToken tn s = (true, u) →
    exec (.rdmaConnectRequest p e tn hop false) s = .next (openConn false p e tn hop u) ∧ (connsTcp s < 99392 →
    exec (.tcpSyn p e 4420 tn hop) s = .next (openConn true p e tn hop u))) ∧
  (∀ (s u : State) (p e tn hop : Nat) (io : Bool), portReached s p e = true → fabricOpen s = true → connsWaiting s < 4096 → connsRole s .io < 1048576 →
    takeToken tn s = (false, u) → exec (.rdmaConnectRequest p e tn hop io) s = .next (rejectConn "CM REJ no resources" 2 u)) ∧
  (∀ (s : State) (p e d tn hop : Nat) (io : Bool), portReached s p e = false → exec (.rdmaConnectRequest p e tn hop io) s = .next s ∧
    exec (.tcpSyn p e d tn hop) s = .next s)

/-- An ICReq without TLS is answered with ICResp and fixes the digests; a data PDU lands in its command or, with a bad data digest, ends it with a retryable status; a capsule command joins the ring, in-capsule data on an I/O queue completing with Data SGL Length Invalid; a fatal PDU sends C2HTermReq and closes; PTP event messages are timestamped into the FIFO; a counter clears. Where the spec leaves a choice the clauses follow the model's: log entries 48, 49. -/
def Obligations.TcpAndPtp : Prop :=
  (∀ (s : State) (c m : Nat) (hd dd : Bool), (getConn s c).port ≠ 8 → (getConn s c).tcp = true → (getConn s c).icDone = false → ∃ t,
    exec (.tcpIcreq c hd dd m false) s = .next t ∧ getConn t c = { getConn s c with icDone := true, hdgst := hd, ddgst := dd, maxR2t := m } ∧
    t.out = .frame c "ICResp" 131072 :: s.out ∧ exec (.tcpIcreq c hd dd m true) s = .next (loseConn c s)) ∧
  (∀ (s : State) (c cid off len slot : Nat) (ok : Bool) (data : List Nat), (getConn s c).port ≠ 8 → (getConn s c).tcp = true →
    dataSlot s c cid = some slot → (ok = true ∨ (getConn s c).ddgst = false) →
    exec (.h2cDataPdu c cid off len ok data) s = .next (landData slot off (data.take len) (tcpAck c s))) ∧
  (∀ (s : State) (c cid off len slot : Nat) (data : List Nat), (getConn s c).port ≠ 8 → (getConn s c).tcp = true → dataSlot s c cid = some slot →
    (getConn s c).ddgst = true →
    exec (.h2cDataPdu c cid off len false data) s = .next (dropWrite slot (finishRetry slot 0 0x22) (portCount (getConn s c).port 0x11 1 (tcpAck c s)))) ∧
  (∀ (s : State) (c : Nat) (cap : CapsuleIn), (getConn s c).port ≠ 8 → (getConn s c).tcp = true → (getConn s c).icDone = true →
    ((getConn s c).role ≠ .io ∨ cap.inCapsule = []) → ∃ t, exec (.tcpCapsuleCmd c cap) s = .next t ∧
    (getConn t c).ring = (getConn s c).ring ++ [capOf cap] ∧ (getConn t c).unacked = [] ∧ t.out = s.out) ∧
  (∀ (s : State) (c : Nat) (cap : CapsuleIn), (getConn s c).port ≠ 8 → (getConn s c).tcp = true → (getConn s c).icDone = true →
    (getConn s c).role = .io → cap.inCapsule ≠ [] →
    exec (.tcpCapsuleCmd c cap) s = .next (emit (.completion c cap.cid 0 0x0F true 0 0 0) (transmit c (tcpAck c s)))) ∧
  (∀ (s : State) (c field : Nat) (dg : Bool), (getConn s c).port ≠ 8 → (getConn s c).tcp = true → (dg = true → (getConn s c).hdgst = true) →
    exec (.tcpFatalPdu c dg field) s = .next (loseConn c (emit (.frame c "C2HTermReq" (if dg then 3 else field)) (if dg then portCount (getConn s c).port 0x11 1 s else s)))) ∧
  (∀ (s : State) (c : Nat), (getConn s c).port ≠ 8 → (getConn s c).tcp = true →
    exec (.tcpRetransmitTimeout c) s = .next (portCount (getConn s c).port 0x10 (getConn s c).unacked.length s)) ∧
  (∀ (s : State) (p tr dom q sec ns fr ms pr : Nat) (u : Option Int), ptpRuns s p = true → tr < 3 → natBits (getF s F.HFE_PTP_CFG_TRANSPORT) tr 1 ≠ 0 →
    dom = getF s F.HFE_PTP_CFG_DOMAIN → exec (.ptpMessageReceive p .sync tr dom q sec ns fr ms pr u) s = .next (ptpPush ⟨q % 2 ^ 16, 0, false, p,
    sec % 2 ^ 48, ns % 1000000000, fr % 2 ^ 16⟩ s) ∧ exec (.ptpMessageReceive p .announce tr dom q sec ns fr ms pr u) s = .next (announce ms pr u s)) ∧
  (∀ (s : State) (p tr dom q sec ns fr ms pr : Nat) (u : Option Int) (m : PtpMsg),
    (ptpRuns s p = false ∨ 3 ≤ tr ∨ natBits (getF s F.HFE_PTP_CFG_TRANSPORT) tr 1 = 0 ∨ dom ≠ getF s F.HFE_PTP_CFG_DOMAIN ∨ m = .management ∨ m = .signalling) →
    exec (.ptpMessageReceive p m tr dom q sec ns fr ms pr u) s = .next s) ∧
  (∀ (s : State) (q sec ns fr : Nat), ptpRuns s (getF s F.HFE_PTP_CFG_PORT) = true →
    exec (.ptpDelayReqSend q sec ns fr) s = .next (emit (.ptp (if flagF s F.HFE_PTP_CFG_DELAY_MECH then "Pdelay_Req" else "Delay_Req") q) (ptpPush ⟨q % 2 ^ 16,
    if flagF s F.HFE_PTP_CFG_DELAY_MECH then 2 else 1, true, getF s F.HFE_PTP_CFG_PORT, sec % 2 ^ 48, ns % 1000000000, fr % 2 ^ 16⟩ s))) ∧
  (∀ (s : State) (x : PtpTs) (l : List PtpTs), s.hfe.fifo = x :: l → ∃ t, exec .ptpTsRead s = .next t ∧ t.hfe.fifo = l ∧ t.hfe.lastTs = x ∧
    t.out = .value 0x3000050 (BitVec.ofNat 32 (ptpWord x)) :: s.out) ∧
  (∀ (s : State) (p sel : Nat), portDefined s p = true → ∃ t, exec (.portCntClear p sel) s = .next t ∧
    t.hfe.counters = mapDel s.hfe.counters (p * 32 + sel % 32) ∧ t = { s with hfe := { s.hfe with counters := t.hfe.counters } })

/-- An admin command runs on the admin queue of a live controller that serves its opcode: Identify and Get Log Page reply with their data or the error; Set and Get Features read and write the feature; Abort ends the named command when it still can and answers whether it did; an Asynchronous Event Request takes a waiting event or joins the outstanding ones; Keep Alive restarts the timer and its expiry tears the controller down; an opcode outside the table is invalid. Where the spec leaves a choice the clauses follow the model's: log entries 34, 35, 36, 37, 39, 44, 45. -/
def Obligations.AdminCommands : Prop :=
  (∀ (s : State) (slot : Nat), adminWaits s slot = false → exec (.identify slot) s = .next s ∧ exec (.getLogPage slot) s = .next s ∧
    exec (.setFeatures slot) s = .next s ∧ exec (.getFeatures slot) s = .next s ∧ exec (.abort slot) s = .next s ∧
    exec (.asyncEventRequest slot) s = .next s ∧ exec (.keepAlive slot) s = .next s ∧ exec (.namespaceAttachment slot) s = .next s ∧
    exec (.firmwareImageDownload slot) s = .next s ∧ exec (.firmwareCommit slot) s = .next s ∧ exec (.formatNvm slot) s = .next s ∧
    exec (.sanitize slot) s = .next s ∧ exec (.sanitizeExitFailure slot) s = .next s) ∧
  (∀ (s : State) (slot : Nat) (d : List Nat), adminRuns s slot 0x06 = true → identifyData s (getTask s slot) = .inr d →
    exec (.identify slot) s = .next (replyFixed slot d s)) ∧
  (∀ (s : State) (slot sct sc : Nat), adminRuns s slot 0x06 = true → identifyData s (getTask s slot) = .inl (sct, sc) →
    exec (.identify slot) s = .next (finishErr slot sct sc s)) ∧
  (∀ (s : State) (slot : Nat), adminRuns s slot 0x02 = true →
    exec (.getLogPage slot) s = .next (getLog slot (getTask s slot) (ctlOf s (getTask s slot)) s)) ∧
  (∀ (s : State) (slot fid : Nat), adminRuns s slot 0x09 = true → fid = (getTask s slot).cap.cdw10 % 256 → settable (getTask s slot).tenant fid = true →
    natBits (getTask s slot).cap.cdw10 31 1 = 0 → (fid = 0x06 ∨ fid = 0x0B ∨ fid = 0x07 ∨ (fid = 0x02 ∧ (getTask s slot).cap.cdw11 % 32 ≤ 4)) →
    exec (.setFeatures slot) s = .next (finish slot 0 0 false (if fid = 0x07 then queueCount s (getTask s slot).tenant else 0) 0 (setFeature (getTask s slot) fid (getTask s slot).cap.cdw11 s))) ∧
  (∀ (s : State) (slot fid : Nat), adminRuns s slot 0x0A = true → fid = (getTask s slot).cap.cdw10 % 256 → features.contains fid = true →
    natBits (getTask s slot).cap.cdw10 8 3 ≤ 2 → (fid ≠ 0x04 ∧ fid ≠ 0x0E ∧ fid ≠ 0x16) →
    exec (.getFeatures slot) s = .next (finish slot 0 0 false (featureValue s (getTask s slot) (ctlOf s (getTask s slot)) fid (natBits (getTask s slot).cap.cdw10 8 3 == 0)) 0 s)) ∧
  (∀ (s : State) (slot k : Nat), adminRuns s slot 0x08 = true → abortTarget s slot (getTask s slot) = some k →
    exec (.abort slot) s = .next (finish slot 0 0 false (bitOf (!(abortTask k s).1)) 0 (bumpF (if (abortTask k s).1 then F.QE_ABORT_CNT_ABORTED else F.QE_ABORT_CNT_NOT_ABORTED) 1 (abortTask k s).2))) ∧
  (∀ (s : State) (slot : Nat), adminRuns s slot 0x08 = true → abortTarget s slot (getTask s slot) = none →
    exec (.abort slot) s = .next (finish slot 0 0 false 1 0 (bumpF F.QE_ABORT_CNT_NOT_ABORTED 1 s))) ∧
  (∀ (s : State) (slot : Nat), adminRuns s slot 0x0C = true → (ctlOf s (getTask s slot)).aers.length < 8 → (ctlOf s (getTask s slot)).waitingEv = [] →
    ∃ t, exec (.asyncEventRequest slot) s = .next t ∧ (getTask t slot).st = .executing ∧
    (mapGet ctl0 t.qe.ctls (ctlKey (getTask s slot).tenant (getTask s slot).cntlid)).aers = (ctlOf s (getTask s slot)).aers ++ [slot] ∧ t.out = s.out) ∧
  (∀ (s : State) (slot ev : Nat) (rest : List Nat), adminRuns s slot 0x0C = true → (ctlOf s (getTask s slot)).aers.length < 8 →
    (ctlOf s (getTask s slot)).waitingEv = ev :: rest →
    exec (.asyncEventRequest slot) s = .next (finish slot 0 0 false (ev / 256 + ev % 256 * 2 ^ 8 + aenLog (ev / 256) (ev % 256) * 2 ^ 16) 0 (updCtl (ctlKey (getTask s slot).tenant (getTask s slot).cntlid) (fun c => { c with waitingEv := rest }) s))) ∧
  (∀ (s : State) (tn c typ info : Nat), typ ≠ 0 → (typ = 7 → tn = 0) →
    exec (.asyncEventRaise tn c typ info) s = .next (raiseAen (ctlKey tn c) typ info s)) ∧
  (∀ (s : State) (slot : Nat), adminRuns s slot 0x18 = true →
    exec (.keepAlive slot) s = .next (finishOk slot (updCtl (ctlKey (getTask s slot).tenant (getTask s slot).cntlid) (fun c => { c with kaTick := s.tu.ticks }) s))) ∧
  (∀ (s : State) (tn c : Nat), (mapGet ctl0 s.qe.ctls (ctlKey tn c)).live = true →
    exec (.keepAliveTimeout tn c) s = .next (tearCtl tn c (fire 192 (tn * 2 ^ 16 + c) s))) ∧
  (∀ (s : State) (tn c : Nat), (mapGet ctl0 s.qe.ctls (ctlKey tn c)).live = false → exec (.keepAliveTimeout tn c) s = .next s) ∧
  (∀ (s : State) (slot : Nat), adminWaits s slot = true → (adminOpcodes (getTask s slot).tenant).contains (getTask s slot).cap.opc = false →
    exec (.invalidAdminOpcode slot) s = .next (finishErr slot 0 0x01 s))

/-- An attachment applies its controller list; a firmware download stages its bytes and one beside a running commit is turned away as busy; a commit starts its job; a Format and a Sanitize issue their first record and wait for it; each die-block of the work list is dealt with in turn, and the end of the list ends the operation. Where the spec leaves a choice the clauses follow the model's: log entries 39, 41, 42, 43. -/
def Obligations.AdminMedia : Prop :=
  (∀ (s : State) (slot n : Nat), adminRuns s slot 0x15 = true → nsIndex? s (getTask s slot).tenant (getTask s slot).cap.nsid = some n →
    (getTask s slot).cap.inCapsule.length = 4096 → exec (.namespaceAttachment slot) s = .next (attachNs slot n (getTask s slot).cap.inCapsule s)) ∧
  (∀ (s : State) (slot : Nat), adminRuns s slot 0x15 = true → nsIndex? s (getTask s slot).tenant (getTask s slot).cap.nsid = none →
    exec (.namespaceAttachment slot) s = .next (finishErr slot 0 0x0B s)) ∧
  (∀ (s : State) (slot : Nat), adminRuns s slot 0x11 = true → s.fws.job = none →
    (getTask s slot).cap.inCapsule.length = 4 * ((getTask s slot).cap.cdw10 + 1) → 4 * ((getTask s slot).cap.cdw10 + 1) ≤ 2097152 →
    4 * (getTask s slot).cap.cdw11 + 4 * ((getTask s slot).cap.cdw10 + 1) ≤ 25165824 →
    exec (.firmwareImageDownload slot) s = .next (finishOk slot (stageBytes (4 * (getTask s slot).cap.cdw11) (getTask s slot).cap.inCapsule s))) ∧
  (∀ (s : State) (slot : Nat), adminRuns s slot 0x11 = true → s.fws.job.isSome = true → exec (.firmwareImageDownload slot) s = .next (finishBusy slot s)) ∧
  (∀ (s : State) (slot : Nat), adminRuns s slot 0x10 = true → s.fws.job.isSome = false → ∃ u, u = updTask slot (fun t => { t with st := .executing }) s ∧
    exec (.firmwareCommit slot) s = .next (commitStart ((getTask s slot).cap.cdw10 % 8) (natBits (getTask s slot).cap.cdw10 3 3) (some slot) none (fun _ s => finishErr slot 0 0x02 s) u)) ∧
  (∀ (s : State) (slot : Nat), adminRuns s slot 0x10 = true → s.fws.job.isSome = true → exec (.firmwareCommit slot) s = .next (finishBusy slot s)) ∧
  (∀ (s : State) (slot n : Nat), adminRuns s slot 0x80 = true → stateErr s true = none → nsOf s (getTask s slot) = some n →
    ((getTask s slot).cap.cdw10 = 0 ∨ (getTask s slot).cap.cdw10 = 0x200) → wipeBusy s = false → bufFull s = false → ∃ t,
    exec (.formatNvm slot) s = .next t ∧ t.jnl.buffer.map Rec.typ = s.jnl.buffer.map Rec.typ ++ [0x18] ∧ (getTask t slot).st = .executing ∧
    (getTask t slot).waitJsn = (if (getTask s slot).cap.cdw10 = 0 then some s.jnl.nextJsn else none) ∧ t.units = s.units ∧ t.tabs = s.tabs) ∧
  (∀ (s : State) (slot : Nat), adminRuns s slot 0x84 = true → (getTask s slot).cap.cdw10 % 8 = 2 → stateErr s true = none → wipeBusy s = false →
    bufFull s = false → ∃ t, exec (.sanitize slot) s = .next t ∧ t.jnl.buffer.map Rec.typ = s.jnl.buffer.map Rec.typ ++ [0x17] ∧
    (getTask t slot).st = .executing ∧ (getTask t slot).waitJsn = some s.jnl.nextJsn ∧ t.units = s.units ∧ t.tabs = s.tabs) ∧
  (∀ (s : State) (slot : Nat), adminRuns s slot 0x84 = true → (getTask s slot).cap.cdw10 % 8 = 1 →
    exec (.sanitizeExitFailure slot) s = .next (finishOk slot (updTabs (fun x => { x with sanLog := mapUpd san0 x.sanLog (getTask s slot).tenant (fun v => if v.status = 3 then { v with status := 0 } else v) }) s))) ∧
  (∀ (s : State) (r : Nat) (rest : List Nat) (ok : Bool), s.tabs.san.active = true → s.top.dev = .serving → bufFull s = false →
    s.tabs.san.work = r :: rest → sanBlockReady s r = true → ∃ v u, v = { (sanBlock s.tabs.san r ok s).1 with work := rest } ∧
    u = updTabs (setSan v) (sanBlock s.tabs.san r ok s).2 ∧
    exec (.sanitizeBlockDone ok) s = .next (zmSettle s (if rest = [] then sanEnd v u else sanRecord v 1 u))) ∧
  (∀ (s : State) (ok : Bool), s.tabs.san.active = false → exec (.sanitizeBlockDone ok) s = .next s)

/-- A fetch takes a capsule of the tenant whose turn it is into the free slot and checks it; Connect, the properties, the shutdown and Disconnect answer as NVMe over Fabrics says, and another FCTYPE is an invalid field. Where the spec leaves a choice the clauses follow the model's: log entries 33, 36, 37, 38, 40. -/
def Obligations.FetchAndFabrics : Prop :=
  (∀ (s : State) (slot : Nat), (262144 ≤ slot ∨ (getTask s slot).st ≠ .free ∨ s.pad.hold = true) → exec (.commandFetch slot) s = .next s) ∧
  (∀ (s u : State) (slot tn c : Nat) (cap : Capsule) (rest : List Capsule), slot < 262144 → (getTask s slot).st = .free → s.pad.hold = false →
    fetchGrant s = some (tn, u) → fetchConn u tn = some c → (getConn u c).ring = cap :: rest → ∃ v,
    v = updTask slot (fun _ => taskOf c (getConn u c) cap) (updTenant tn (fun y => { y with lastConn := c }) (updConn c (fun y => { y with ring := rest }) u)) ∧
    (getConn v c).ring = rest ∧ getTask v slot = taskOf c (getConn u c) cap ∧ exec (.commandFetch slot) s = .next (fetchChecks slot (getConn u c) v)) ∧
  (∀ (s : State) (slot : Nat), fabricsWaits s slot 0x01 = true → (getConn s (getTask s slot).conn).role = .unassigned →
    (getTask s slot).cap.inCapsule.length = 1024 → exec (.connect slot) s = .next (connectWith slot (getTask s slot).cap.inCapsule s)) ∧
  (∀ (s : State) (slot : Nat), fabricsWaits s slot 0x01 = true → (getConn s (getTask s slot).conn).role ≠ .unassigned →
    exec (.connect slot) s = .next (finishErr slot 0 0x02 s)) ∧
  (∀ (s : State) (slot v : Nat), fabricsWaits s slot 0x00 = true → adminRuns s slot 0x7F = true → (getTask s slot).cap.cdw11 = 0x14 →
    (getTask s slot).cap.cdw10 % 8 = 0 → v = (getTask s slot).cap.cdw12 % 2 ^ 32 → (ctlOf s (getTask s slot)).shst = 0 → natBits v 14 2 ≠ 0 →
    exec (.propertySet slot) s = .next (finishOk slot (updCtl (ctlKey (getTask s slot).tenant (getTask s slot).cntlid) (fun c => { c with cc := v, shst := 1, shutting := true }) s))) ∧
  (∀ (s : State) (slot lo hi : Nat), fabricsWaits s slot 0x04 = true → adminRuns s slot 0x7F = true → (((getTask s slot).cap.cdw11 = 0 ∧
    (getTask s slot).cap.cdw10 % 8 = 1 ∧ lo = 4095 + 2 ^ 16 + 2 * 2 ^ 24 ∧ hi = 2 ^ 5 + 2 ^ 11) ∨ ((getTask s slot).cap.cdw11 = 8 ∧
    (getTask s slot).cap.cdw10 % 8 = 0 ∧ lo = 0x20000 ∧ hi = 0) ∨ ((getTask s slot).cap.cdw11 = 0x14 ∧ (getTask s slot).cap.cdw10 % 8 = 0 ∧
    lo = (ctlOf s (getTask s slot)).cc ∧ hi = 0) ∨ ((getTask s slot).cap.cdw11 = 0x1C ∧ (getTask s slot).cap.cdw10 % 8 = 0 ∧
    lo = cstsOf (ctlOf s (getTask s slot)) ∧ hi = 0)) → exec (.propertyGet slot) s = .next (finish slot 0 0 false lo hi s)) ∧
  (∀ (s : State) (tn c : Nat), (mapGet ctl0 s.qe.ctls (ctlKey tn c)).live = true → (mapGet ctl0 s.qe.ctls (ctlKey tn c)).shst = 1 →
    (mapGet ctl0 s.qe.ctls (ctlKey tn c)).shutting = false → (mapGet ctl0 s.qe.ctls (ctlKey tn c)).shutWait = [] → shutBusy s tn c = false → ∃ t,
    exec (.shutdownNotification tn c) s = .next t ∧ (mapGet ctl0 t.qe.ctls (ctlKey tn c)).shst = 2 ∧ t.out = s.out) ∧
  (∀ (s : State) (slot : Nat), fabricsWaits s slot 0x08 = true →
    exec (.disconnect slot) s = .next (if (getConn s (getTask s slot).conn).role ≠ .io then finishErr slot 0 0x02 s else loseConn (getTask s slot).conn (finishOk slot s))) ∧
  (∀ (s : State) (slot : Nat), adminWaits s slot = true → (getTask s slot).cap.opc = 0x7F → [0x00, 0x01, 0x04,
    0x08].contains (getTask s slot).cap.fctype = false → exec (.invalidFabricsCommand slot) s = .next (finishErr slot 0 0x02 s))

/-- A write of a tenant page answers in TIU_CFG_RESULT with its code and tenant: a reserved state, a delete with namespaces left, a quota beyond the pool or against its partner, and a die set that conflicts are refused and change nothing; a page above 512 is ignored; the buckets, the bandwidth shares and the power entitlements are filled by their rules, and the operation that is next gets its power token. Where the spec leaves a choice the clauses follow the model's: log entries 46, 47, 56, 61. -/
def Obligations.TenantPages : Prop :=
  (∀ (s : State) (t : Nat) (v : Word) (m : Bool), 512 < t → exec (.tenantCtlWrite t v) s = .next s ∧ exec (.taskQuotaWrite t m v) s = .next s ∧
    exec (.zoneQuotaWrite t v) s = .next s ∧ exec (.connQuotaWrite t v) s = .next s ∧ exec (.diesetWrite t v) s = .next s) ∧
  (∀ (s : State) (t : Nat) (v : Word), t ≤ 512 → natBits v.toNat 0 2 = 3 → getF s (F.TIU_TEN_CTL_ANY_HOST t) = natBits v.toNat 2 1 →
    exec (.tenantCtlWrite t v) s = .next { s with qe := { s.qe with cfgCode := 1, cfgTenant := t } }) ∧
  (∀ (s : State) (t : Nat) (v : Word), t ≤ 512 → t ≠ 0 → natBits v.toNat 0 2 = 0 → nssOf s t ≠ 0 →
    getF s (F.TIU_TEN_CTL_ANY_HOST t) = natBits v.toNat 2 1 →
    exec (.tenantCtlWrite t v) s = .next { s with qe := { s.qe with cfgCode := 2, cfgTenant := t } }) ∧
  (∀ (s : State) (t : Nat) (v : Word), t ≤ 512 → t ≠ 0 → natBits v.toNat 0 2 = 1 → tenantState s t = 0 →
    getF s (F.TIU_TEN_CTL_ANY_HOST t) = natBits v.toNat 2 1 → ∃ u w, u = updTenant t (fun x => { x with tokens := none, milli := 0, spill := false }) s ∧
    w = setRegSaved (tiuAddr t 0) (natSetBits (getReg u (tiuAddr t 0)) 0 2 1) u ∧
    exec (.tenantCtlWrite t v) s = .next (tiuResult t 0 (fire 194 (t * 2 ^ 16 + 1) w))) ∧
  (∀ (s : State) (t w : Nat) (v : Word), t ≤ 512 → t ≠ 0 → tiuMerged s (tiuAddr t 0x18) v.toNat = (w, false) →
    exec (.taskQuotaWrite t false v) s = .next (if 258048 < minSum s - getF s (F.TIU_TEN_TASK_MIN_MIN t) + w then tiuResult t 3 s else if getF s (F.TIU_TEN_TASK_MAX_MAX t) < w then tiuResult t 4 s else tiuResult t 0 (setRegSaved (tiuAddr t 0x18) w s))) ∧
  (∀ (s : State) (t w : Nat) (v : Word), t ≤ 512 → t ≠ 0 → tiuMerged s (tiuAddr t 0x1C) v.toNat = (w, false) →
    exec (.taskQuotaWrite t true v) s = .next (if w < getF s (F.TIU_TEN_TASK_MIN_MIN t) then tiuResult t 4 s else tiuResult t 0 (setRegSaved (tiuAddr t 0x1C) w s))) ∧
  (∀ (s : State) (t w : Nat) (v : Word), t ≤ 512 → tiuMerged s (tiuAddr t 0x24) v.toNat = (w, false) →
    exec (.zoneQuotaWrite t v) s = .next (if natBits w 12 15 < natBits w 0 12 then tiuResult t 4 s else tiuResult t 0 (setRegSaved (tiuAddr t 0x24) w s))) ∧
  (∀ (s : State) (t : Nat) (v : Word), t ≤ 512 → ∃ u, u = tiuPlain t (tiuAddr t 0x34) v.toNat s ∧
    exec (.connQuotaWrite t v) s = .next (setConnTokens t (connTokens s t) u)) ∧
  (∀ (s : State) (t : Nat) (v : Word), t ≤ 512 →
    exec (.diesetWrite t v) s = .next (if dieSetConflict s t v.toNat then tiuResult t 5 s else spillSettle (tiuResult t 0 (setRegSaved (tiuAddr t 0x40) v.toNat s)))) ∧
  (∀ (s : State) (t : Nat), mapKeysWhere (fun _ x => x.tokens.isSome) s.qe.tenants = [t] →
    exec .connBucketRefill s = .next (setConnTokens t (connTokens s t + ((getTenant s t).milli + getF s (F.TIU_TEN_CONN_RATE t)) / 1000) (updTenant t (fun x => { x with milli := ((getTenant s t).milli + getF s (F.TIU_TEN_CONN_RATE t)) % 1000 }) s))) ∧
  (∀ (s : State), ∃ t, exec (.bwInterval []) s = .next t ∧
    t.hfe.carry = min (min (if s.pad.throttle then 480000 else 960000) (portsPool s) + s.hfe.carry) 131072 ∧
    t.qe.tenants = mapMapVals tenant0 (fun _ x => { x with bytes := min x.bytes 0 }) s.qe.tenants ∧
    t = { s with hfe := { s.hfe with carry := t.hfe.carry }, qe := { s.qe with tenants := t.qe.tenants } }) ∧
  (∀ (s : State), powerBacklog s = [] → ∃ t, exec .powerEntitlementRecompute s = .next t ∧
    t.qe.tenants = mapMapVals tenant0 (fun _ x => { x with entitled := 0 }) s.qe.tenants ∧ t = { s with qe := { s.qe with tenants := t.qe.tenants } }) ∧
  (∀ (s : State) (d : Nat) (o : DieOp), grantable s d = some o → exec (.powerTokenGrant d) s = .next (fineIssued d o (sendOp d o s))) ∧
  (∀ (s : State) (d : Nat), grantable s d = none → exec (.powerTokenGrant d) s = .next s)

/-- A write that fails a check completes with its status; a zoned write that passes takes the next order and the admission pointer; a started data phase asks for the next range, and one that cannot start is held; a commit draws the next stamp, takes its data and waits for its record; a data phase that times out is withdrawn and completes with a retryable status. Where the spec leaves a choice the clauses follow the model's: log entries 24, 50, 52. -/
def Obligations.WritesOfIo : Prop :=
  (∀ (s : State) (slot : Nat), exec (.write slot) s = .next (admitWrite slot 0x01 true s) ∧
    exec (.writeZeroes slot) s = .next (admitWrite slot 0x08 true s) ∧ exec (.zoneAppend slot) s = .next (admitWrite slot 0x7D false s)) ∧
  (∀ (s : State) (slot opc : Nat) (e : IoErr) (c : Bool), freshIo s slot opc = true → nsErr s (getTask s slot) true c true = .inl e →
    admitWrite slot opc c s = failIo slot e s) ∧
  (∀ (s : State) (slot opc n : Nat) (c : Bool) (u : State), freshIo s slot opc = true → nsErr s (getTask s slot) true c true = .inr n →
    rangeErr s (getTask s slot) n (if opc = 0x08 then none else some ((getTask s slot).cap.nlb * 4096)) = none → keyActive s (getNs s n).tenant = true →
    (getNs s n).conv = false → opc = (getTask s slot).cap.opc → zoneHeld s (zoneOfLba n (getTask s slot).cap.slba) = false → bufFull s = false →
    admitZoned (zoneOfLba n (getTask s slot).cap.slba) (if opc = 0x7D then (if (getTask s slot).cap.slba % zoneLbas = 0 then none else some ((getZone s (zoneOfLba n (getTask s slot).cap.slba)).adm + 1)) else some ((getTask s slot).cap.slba % zoneLbas)) (getTask s slot).cap.nlb s = .inr u →
    ∃ v, admitWrite slot opc c s = zmSettle s (stageNewlyClosed s v) ∧
    (getTask v slot).slba = zslba (zoneOfLba n (getTask s slot).cap.slba) + (getZone s (zoneOfLba n (getTask s slot).cap.slba)).adm ∧
    (getTask v slot).nlb = (getTask u slot).cap.nlb ∧ (getTask v slot).order = u.qe.order + 1 ∧
    (getZone v (zoneOfLba n (getTask s slot).cap.slba)).adm = (getZone u (zoneOfLba n (getTask s slot).cap.slba)).adm + (getTask s slot).cap.nlb ∧
    v.jnl = u.jnl) ∧
  (∀ (s : State) (slot opc n : Nat), freshIo s slot opc = true → opc = (getTask s slot).cap.opc → nsErr s (getTask s slot) true true true = .inr n →
    rangeErr s (getTask s slot) n (if opc = 0x08 then none else some ((getTask s slot).cap.nlb * 4096)) = none → keyActive s (getNs s n).tenant = true →
    (getNs s n).conv = true → s.mme.convWp = false → ∃ t, admitWrite slot opc true s = t ∧ (getTask t slot).order = s.qe.order + 1 ∧
    (getTask t slot).slba = (getTask s slot).cap.slba ∧ (getTask t slot).nlb = (getTask s slot).cap.nlb ∧
    (getTask t slot).st = (if opc = 0x08 then .executing else .admitted) ∧ t = { s with qe := t.qe }) ∧
  (∀ (s : State) (slot opc n : Nat) (c : Bool), freshIo s slot opc = true → nsErr s (getTask s slot) true c true = .inr n →
    rangeErr s (getTask s slot) n (if opc = 0x08 then none else some ((getTask s slot).cap.nlb * 4096)) = none → keyActive s (getNs s n).tenant = false →
    admitWrite slot opc c s = failIo slot (1, 0xC1, true) s) ∧
  (∀ (s : State) (slot : Nat), (getTask s slot).admin = false → (getTask s slot).order ≠ 0 → (getTask s slot).nlb ≠ 0 →
    ((getTask s slot).cap.opc = 0x01 ∨ (getTask s slot).cap.opc = 0x08 ∨ (getTask s slot).cap.opc = 0x7D) → (getTask s slot).st = .receiving →
    exec (.dataPhaseStart slot) s = .next (nextFetch slot s)) ∧
  (∀ (s : State) (slot : Nat), (getTask s slot).admin = false → (getTask s slot).order ≠ 0 → (getTask s slot).nlb ≠ 0 →
    ((getTask s slot).cap.opc = 0x01 ∨ (getTask s slot).cap.opc = 0x08 ∨ (getTask s slot).cap.opc = 0x7D) → (getTask s slot).st = .admitted →
    turnCome s (getTask s slot) = true → bindAccepted s (getTask s slot) = true → startReceive slot s = none → ∃ t,
    exec (.dataPhaseStart slot) s = .next t ∧ getTask t slot = { (getTask s slot) with held := true } ∧ t = { s with qe := t.qe }) ∧
  (∀ (s u : State) (slot : Nat), (getTask s slot).admin = false → (getTask s slot).order ≠ 0 → (getTask s slot).nlb ≠ 0 →
    ((getTask s slot).cap.opc = 0x01 ∨ (getTask s slot).cap.opc = 0x08 ∨ (getTask s slot).cap.opc = 0x7D) → (getTask s slot).st = .admitted →
    turnCome s (getTask s slot) = true → bindAccepted s (getTask s slot) = true → (getTask s slot).zeroes = false → startReceive slot s = some u →
    exec (.dataPhaseStart slot) s = .next (nextFetch slot (updTask slot (fun t => { t with st := .receiving }) u))) ∧
  (∀ (s : State) (slot : Nat), (getTask s slot).uncommitted = true → ((getTask s slot).st = .receiving ∨ (getTask s slot).st = .executing) →
    (getNs s (getTask s slot).ns).conv = false → unitsReady (getTask s slot) = true →
    (zonePending s (zoneOfLba (getTask s slot).ns (getTask s slot).slba)).all (fun k => decide ((getTask s slot).order ≤ (getTask s k).order)) = true →
    bufFull s = false → journalHeld s = false → ∃ u,
    exec (.writeCommit slot) s = .next (zmSettle s (if (getTask s slot).fua then serveFlush (getTask s slot).ns u else u)) ∧
    (getTask u slot).st = .committed ∧ (getTask u slot).stamp = (drawStamp (getTask s slot).ns s).1 ∧ (getTask u slot).bufs = []) ∧
  (∀ (s : State) (slot : Nat), ((getTask s slot).uncommitted = false ∨ bufFull s = true ∨ journalHeld s = true) → exec (.writeCommit slot) s = .next s) ∧
  (∀ (s : State) (slot : Nat), (getTask s slot).st = .receiving → (getTask s slot).admin = false →
    exec (.dataPhaseTimeout slot) s = .next (dropWrite slot (finishRetry slot 0 0x22) s)) ∧
  (∀ (s : State) (slot : Nat), (getTask s slot).st ≠ .receiving → exec (.dataPhaseTimeout slot) s = .next s)

/-- A read that passes its checks starts its units; a transfer that has every unit sends the next range or the status of the lowest failing unit, and its end completes it; a Flush waits for what was committed before it; a Deallocate issues its record; a zone action that needs no record completes at once; Report Zones answers its descriptors; an invalid opcode or action is refused; a lost connection takes its commands with it. Where the spec leaves a choice the clauses follow the model's: log entries 50, 51, 52, 53. -/
def Obligations.ReadsAndZoneCommands : Prop :=
  (∀ (s : State) (slot : Nat), exec (.read slot) s = .next (admitRead slot 0x02 s) ∧ exec (.verify slot) s = .next (admitRead slot 0x0C s)) ∧
  (∀ (s : State) (slot opc n : Nat), freshIo s slot opc = true → nsErr s (getTask s slot) false true true = .inr n →
    rangeErr s (getTask s slot) n (if opc = 0x02 then some ((getTask s slot).cap.nlb * 4096) else none) = none →
    ((getNs s n).conv = true ∨ (zonesOfRange n (getTask s slot).cap.slba (getTask s slot).cap.nlb).any (fun zk => (getZone s zk).st == .offline) = false) →
    (opc ≠ 0x02 ∨ (getTask s slot).cap.fua = false) → ∃ u,
    u = updTask slot (fun t => { t with ns := n, slba := t.cap.slba, nlb := t.cap.nlb, fua := false, waitDurable := [] }) s ∧
    admitRead slot opc s = readStart slot u) ∧
  (∀ (s : State) (slot opc : Nat) (e : IoErr), freshIo s slot opc = true → nsErr s (getTask s slot) false true true = .inl e →
    admitRead slot opc s = failIo slot e s) ∧
  (∀ (s : State) (slot : Nat) (f : Nat × Nat × Nat), (getTask s slot).reads = true → (getTask s slot).st = .reading →
    (getTask s slot).nlb ≤ (getTask s slot).passed.length + (getTask s slot).failed.length → lowestFail (getTask s slot).failed = some f →
    exec (.readTransferStart slot) s = .next (readFails slot f s)) ∧
  (∀ (s : State) (slot : Nat), (getTask s slot).reads = true → (getTask s slot).st = .reading →
    (getTask s slot).nlb ≤ (getTask s slot).passed.length + (getTask s slot).failed.length → lowestFail (getTask s slot).failed = none →
    exec (.readTransferStart slot) s = .next (if (getTask s slot).cap.opc = 0x0C then finishOk slot (countRead (getTask s slot) s) else nextSend slot s)) ∧
  (∀ (s : State) (slot : Nat), (getTask s slot).st = .transferring → (getTask s slot).nlb * 4096 ≤ (getTask s slot).moved →
    exec (.readTransferDone slot) s = .next (finishOk slot (countRead (getTask s slot) s))) ∧
  (∀ (s : State) (slot n : Nat), freshIo s slot 0x00 = true → (getTask s slot).cap.nsid ≠ 0xFFFFFFFF →
    nsErr s (getTask s slot) false true true = .inr n → ∃ u,
    u = updTask slot (fun t => { t with st := .executing, waitDurable := [(n, (drawStamp n s).1)] }) (drawStamp n s).2 ∧
    exec (.flush slot) s = .next (settleTasks (if undurable u n (drawStamp n s).1 ≠ [] then serveFlush n u else u))) ∧
  (∀ (s : State) (slot n : Nat), (getTask s slot).st = .admitted → (getTask s slot).admin = false → (getTask s slot).cap.opc = 0x09 →
    nsErr s (getTask s slot) true true false = .inr n → (getTask s slot).cap.inCapsule = [] →
    (getTask s slot).cap.sglLen = 16 * ((getTask s slot).cap.cdw10 % 256 + 1) → s.mme.convWp = false → (getTask s slot).moved = 0 → ∃ u,
    u = updTask slot (fun t => { t with ns := n, moved := 16 * ((getTask s slot).cap.cdw10 % 256 + 1) }) s ∧
    exec (.datasetManagement slot) s = .next (emit (.frame (getTask s slot).conn (if (getConn u (getTask s slot).conn).tcp then "R2T" else "RDMA READ") 0) (transmit (getTask s slot).conn u))) ∧
  (∀ (s : State) (slot n st : Nat) (u : State), (getTask s slot).st = .admitted → (getTask s slot).admin = false → (getTask s slot).cap.opc = 0x09 →
    nsErr s (getTask s slot) true true false = .inr n → (getTask s slot).cap.inCapsule = [] →
    (getTask s slot).cap.sglLen = 16 * ((getTask s slot).cap.cdw10 % 256 + 1) → s.mme.convWp = false → (getTask s slot).moved ≠ 0 →
    (mapGet tunit0 (getTask s slot).units 0).bytes = 16 * ((getTask s slot).cap.cdw10 % 256 + 1) → bufFull s = false →
    (dsmRanges ((getTask s slot).cap.cdw10 % 256 + 1) (mapGet tunit0 (getTask s slot).units 0).data).any (fun r => decide (nsLbas (getNs s n) < r.1 + r.2)) = false →
    natBits (getTask s slot).cap.cdw11 2 1 = 1 → drawStamp n s = (st, u) → ∃ t, exec (.datasetManagement slot) s = .next t ∧
    (getTask t slot).st = .executing ∧ (getTask t slot).stamp = st ∧ t.jnl.nextJsn = u.jnl.nextJsn + 1 ∧
    t.jnl.buffer.map Rec.typ = u.jnl.buffer.map Rec.typ ++ [0x02]) ∧
  (∀ (s : State) (slot : Nat), exec (.zoneOpen slot) s = .next (zoneSend slot 0x03 s) ∧ exec (.zoneClose slot) s = .next (zoneSend slot 0x01 s) ∧
    exec (.zoneFinish slot) s = .next (zoneSend slot 0x02 s) ∧ exec (.zoneReset slot) s = .next (zoneSend slot 0x04 s) ∧
    exec (.zoneOffline slot) s = .next (zoneSend slot 0x05 s)) ∧
  (∀ (s u v w : State) (slot act n st : Nat), (getTask s slot).st = .admitted → (getTask s slot).admin = false → (getTask s slot).cap.opc = 0x79 →
    (getTask s slot).cap.zsa = act → nsErr s (getTask s slot) true false true = .inr n → (getTask s slot).cap.zall = false →
    (getTask s slot).cap.slba < nsLbas (getNs s n) → (getTask s slot).order = 0 →
    u = updTask slot (fun t => { t with ns := n, order := s.qe.order + 1, zones := [zoneOfLba n (getTask s slot).cap.slba] }) { s with qe := { s.qe with order := s.qe.order + 1 } } →
    (zonePending u (zoneOfLba n (getTask s slot).cap.slba)).any (fun k => decide ((getTask u k).order < s.qe.order + 1)) = false → bufFull u = false →
    drawStamp n u = (st, v) → zoneAction act (zoneOfLba n (getTask s slot).cap.slba) st v = .inr w → ∃ x, x = zmSettle u w ∧
    zoneSend slot act s = (if x.jnl.nextJsn = u.jnl.nextJsn then finishOk slot x else updTask slot (fun t => { t with st := .executing, stamp := st, waitJsn := some (lastJsn x), zones := [] }) x)) ∧
  (∀ (s : State) (slot n : Nat), freshIo s slot 0x79 = true → ((getTask s slot).cap.zsa = 0 ∨ 5 < (getTask s slot).cap.zsa) →
    nsErr s (getTask s slot) true false true = .inr n → exec (.zoneSendInvalidAction slot) s = .next (failIo slot (0, 0x02, true) s)) ∧
  (∀ (s : State) (slot n : Nat), freshIo s slot 0x7A = true → nsErr s (getTask s slot) false false true = .inr n → (getTask s slot).cap.zsa = 0 →
    (getTask s slot).cap.cdw13 / 256 % 256 ≤ 7 → (getTask s slot).cap.inCapsule = [] →
    (getTask s slot).cap.sglLen = ((getTask s slot).cap.cdw12 + 1) * 4 → (getTask s slot).cap.slba < nsLbas (getNs s n) → ∃ b,
    exec (.reportZones slot) s = .next (finishOk slot (emit (.data (getTask s slot).conn (getTask s slot).cap.cid b) s)) ∧
    b.length ≤ (getTask s slot).cap.sglLen) ∧
  (∀ (s : State) (slot : Nat), freshIo s slot (getTask s slot).cap.opc = true → ioSupported (getTask s slot).cap.opc = false → stateErr s false = none →
    exec (.invalidIoOpcode slot) s = .next (failIo slot (0, 0x01, true) s)) ∧
  (∀ (s : State) (c : Nat), exec (.connectionLoss c) s = .next (loseConn c s) ∧ ((getConn s c).port ≠ 8 → (getConn s c).role = .io →
    exec (.connectionLoss c) s = .next (dropConn c s)))

/-- A training that succeeds brings the link up, one that fails falls back to full training or fails the link with its cause; lock lost for 1 ms retrains it and retraining that takes 1 s fails it; an enabled failed link trains again; a link still not Up after its grace is lost; DISABLE, ENABLE, RETRAIN and FULL act on the states that allow them. Where the spec leaves a choice the clauses follow the model's: log entries 2. -/
def Obligations.LinkTraining : Prop :=
  (∀ (s : State) (k c n : Nat), linkExists s k = true → ((getLink s k).st = 2 ∨ (getLink s k).st = 4) →
    exec (.linkTrainingDone k true c n) s = .next (linkUp k (serialSeen k n s))) ∧
  (∀ (s : State) (k c n : Nat), linkExists s k = true → (getLink s k).st = 2 → (getLink s k).stored = true → c ≠ 3 →
    exec (.linkTrainingDone k false c n) s = .next (trainFallback k s) ∧ exec (.storedTrainingFallback k) s = .next (trainFallback k s)) ∧
  (∀ (s : State) (k c n : Nat), linkExists s k = true → ((getLink s k).st = 4 ∨ ((getLink s k).st = 2 ∧ ((getLink s k).stored = false ∨ c = 3))) →
    1 ≤ c → c ≤ 4 → exec (.linkTrainingDone k false c n) s = .next (failLink k 5 c s)) ∧
  (∀ (s : State) (k c n : Nat) (ok : Bool), linkExists s k = false → exec (.linkTrainingDone k ok c n) s = .next s ∧
    exec (.lockLossTimeout k) s = .next s ∧ exec (.linkRetryTimer k) s = .next s ∧ exec (.linkFail k) s = .next s ∧ exec (.linkDisable k) s = .next s ∧
    exec (.linkEnable k) s = .next s ∧ exec (.maintFrameSend k) s = .next s) ∧
  (∀ (s : State) (k : Nat), linkExists s k = true → (getLink s k).st = 3 → (getLink s k).lock = false →
    exec (.lockLossTimeout k) s = .next (enterRetraining k 6 s)) ∧
  (∀ (s : State) (k : Nat), linkExists s k = true → (getLink s k).st = 4 → exec (.retrainTimeout k) s = .next (failLink k 5 (getLink s k).cause s)) ∧
  (∀ (s : State) (k : Nat), linkExists s k = true → (getLink s k).st = 5 → flagF s (F.FLC_LN_CTL_ENABLE k) = true → ∃ t,
    exec (.linkRetryTimer k) s = .next t ∧ getLink t k = { getLink s k with st := 2, stored := false, lock := false, misses := 0, cands := [] } ∧ (∀ j,
    j ≠ k → getLink t j = getLink s j) ∧ t = { s with flc := { s.flc with links := t.flc.links } }) ∧
  (∀ (s : State) (k : Nat), linkExists s k = true → (getLink s k).failed = false → exec (.linkFail k) s = .next (failLink k 5 (getLink s k).cause s)) ∧
  (∀ (s : State) (k : Nat), linkExists s k = true → (getLink s k).failed = true → (getLink s k).st ≠ 3 → (getLink s k).lost = false →
    s.top.readsOk = true → exec (.linkGraceExpire k) s = .next (linkSettle s (loseLink k s))) ∧
  (∀ (s : State) (k : Nat), (s.top.readsOk = false ∨ (getLink s k).st = 3) → exec (.linkGraceExpire k) s = .next s) ∧
  (∀ (s : State) (k : Nat), linkExists s k = true → ∃ u, u = setF (F.FLC_LN_CTL_ENABLE k) 0 s ∧
    exec (.linkDisable k) s = .next (if (getLink s k).st = 0 then u else failLink k 0 8 u)) ∧
  (∀ (s : State) (k : Nat), linkExists s k = true → ∃ u, u = setF (F.FLC_LN_CTL_ENABLE k) 1 s ∧ exec (.linkEnable k) s = .next (if (getLink s k).st = 0 ∧
    s.cru.stage ≠ .early ∧ s.cru.stage ≠ .held then startTraining k u else u)) ∧
  (∀ (s : State) (k : Nat), linkExists s k = true → exec (.linkRetrainRequest k) s = .next (if (getLink s k).st = 3 then enterRetraining k 0 s else s)) ∧
  (∀ (s : State) (k : Nat), linkExists s k = true → 2 ≤ (getLink s k).st → ∃ t, exec (.linkFullTrainRequest k) s = .next t ∧
    getLink t k = { getLink s k with haveStored := false, stored := false, st := 2, lock := false, misses := 0, cands := [] } ∧ (∀ j, j ≠ k →
    getLink t j = getLink s j) ∧ t = { s with flc := { s.flc with links := t.flc.links } })

/-- In hunt an exact SYNC opens a candidate and a good frame with an exact next mark confirms it; in lock a third miss in a row loses lock; a frame with a bad CRC is counted and discarded, a reserved type discarded; a good one acknowledges and is delivered in sequence; a NAK replays; a MAINT frame brings temperatures, failed dies and tower faults, and one is sent with the time. Where the spec leaves a choice the clauses follow the model's: log entries 55. -/
def Obligations.LinkFrames : Prop :=
  (∀ (s : State) (k b : Nat), linkExists s k = true → ((getLink s k).st = 2 ∨ (getLink s k).st = 3 ∨ (getLink s k).st = 4) → (getLink s k).lock = false →
    (getLink s k).cands.length < 8 → (getLink s k).cands.contains b = false → ∃ t, exec (.syncCandidateOpen k b) s = .next t ∧
    getLink t k = { getLink s k with cands := (getLink s k).cands ++ [b] } ∧ (∀ j, j ≠ k → getLink t j = getLink s j) ∧
    t = { s with flc := { s.flc with links := t.flc.links } }) ∧
  (∀ (s : State) (k b : Nat), (getLink s k).lock = true → exec (.syncCandidateOpen k b) s = .next s) ∧
  (∀ (s : State) (k ty q a d : Nat), linkExists s k = true → ((getLink s k).st = 2 ∨ (getLink s k).st = 3 ∨ (getLink s k).st = 4) →
    (getLink s k).lock = false → (getLink s k).cands ≠ [] → ∃ t u, exec (.flashFrameReceive k 0 true ty q a) s = .next t ∧
    getLink t k = { getLink s k with lock := true, misses := 0, cands := [] } ∧ exec (.flashFrameReceive k d false ty q a) s = .next u ∧
    getLink u k = { getLink s k with cands := (getLink s k).cands.drop 1 }) ∧
  (∀ (s : State) (k ty q a d : Nat) (ok : Bool), linkExists s k = true → ((getLink s k).st = 2 ∨ (getLink s k).st = 3 ∨ (getLink s k).st = 4) →
    (getLink s k).lock = true → 3 ≤ d → exec (.flashFrameReceive k d ok ty q a) s = .next (missedMark k s)) ∧
  (∀ (s : State) (k ty q a d : Nat), linkExists s k = true → ((getLink s k).st = 2 ∨ (getLink s k).st = 3 ∨ (getLink s k).st = 4) →
    (getLink s k).lock = true → d < 3 → ∃ u, u = updLink k (fun l => { l with misses := 0 }) s ∧
    exec (.flashFrameReceive k d false ty q a) s = .next (frameDiscard k (bumpF (F.FLC_LN_ERR_CRC_ERR k) 1 u)) ∧ (6 ≤ ty →
    exec (.flashFrameReceive k d true ty q a) s = .next (frameDiscard k u))) ∧
  (∀ (s v : State) (k ty q a d : Nat), linkExists s k = true → ((getLink s k).st = 2 ∨ (getLink s k).st = 3 ∨ (getLink s k).st = 4) →
    (getLink s k).lock = true → d < 3 → (ty = 1 ∨ ty = 2 ∨ ty = 3) → v = takeAck k a (updLink k (fun l => { l with misses := 0 }) s) →
    exec (.flashFrameReceive k d true ty q a) s = .next (if q = ((getLink v k).rxLast + 1) % 4096 then updLink k (fun l => { l with rxLast := q, nakSent := false }) v else frameDiscard k v)) ∧
  (∀ (s : State) (k ty q a d : Nat), linkExists s k = true → ((getLink s k).st = 2 ∨ (getLink s k).st = 3 ∨ (getLink s k).st = 4) →
    (getLink s k).lock = true → d < 3 → (ty = 0 ∨ ty = 4 ∨ ty = 5) → ∃ u, u = updLink k (fun l => { l with misses := 0 }) s ∧
    exec (.flashFrameReceive k d true ty q a) s = .next (if ty = 5 then takeNak k a u else takeAck k a u)) ∧
  (∀ (s : State) (k a : Nat), linkExists s k = true → exec (.flashNakReceive k a) s = .next (takeNak k a s) ∧
    exec (.flashReplayTimeout k) s = .next (resend k s)) ∧
  (∀ (s : State) (k : Nat), linkExists s k = true → (getLink s k).st = 3 →
    exec (.maintFrameSend k) s = .next (emit (.tower k "MAINT" (tuNs s.tu.t) (tuSec s.tu.t)) s)) ∧
  (∀ (s : State) (k f b : Nat) (ts : List Nat) (flt : Bool), linkExists s k = true → (getLink s k).st = 3 → ∃ u v n,
    u = (List.range 32).foldl (fun s i => if natBits f i 1 = 1 then loseDie (k * 32 + i) s else s) (tempMax k ((List.range 32).foldl (fun s i => takeTemp (k * 32 + i) (ts.getD i 0x8000) s) s)) ∧
    v = zmSettle s u ∧ n = (if flt then (getLink v k).faults + 1 else 0) ∧
    exec (.maintFrameReceive k ts f b flt) s = .next (if 2 ≤ n then failLink k 5 7 (updLink k (fun l => { l with faults := n }) v) else updLink k (fun l => { l with faults := n }) v)) ∧
  (∀ (s : State) (k f b d ty q a : Nat) (ts : List Nat) (flt : Bool), (getLink s k).st = 0 → exec (.maintFrameReceive k ts f b flt) s = .next s ∧
    exec (.flashFrameReceive k d flt ty q a) s = .next s)

/-- An answer that fits the outstanding operation ends it and takes the status action: page and level reads pass their samples on, foggy, fine and one-pass programs advance the wordline, an erase is verified, a verified erase writes its header; answers that fit nothing change nothing. Where the spec leaves a choice the clauses follow the model's: log entries 2, 55. -/
def Obligations.TowerAnswers : Prop :=
  (∀ (s : State) (d st : Nat) (o : DieOp) (data : List Nat), sentRead s d .readPage = some o →
    exec (.readPageDone d st data) s = .next (dieNext d (readStatus d st o (pageRead d o data) (endRead d o s)))) ∧
  (∀ (s : State) (d st : Nat) (o : DieOp) (codes : List (List Nat)), sentRead s d .readLevel = some o →
    exec (.readLevelDone d st codes) s = .next (dieNext d (readStatus d st o (levelSensed d o codes) (endRead d o s)))) ∧
  (∀ (s : State) (d st x : Nat) (o : DieOp), runningOp s d .foggy = some o →
    exec (.programFoggyDone d st x) s = .next (dieNext d (programStatus d st o (foggyDone d o.block o.wl) (endOp d s)))) ∧
  (∀ (s : State) (d st x : Nat) (o : DieOp), runningOp s d .fine = some o →
    exec (.programFineDone d st x) s = .next (dieNext d (programStatus d st o (wordlineDone (refOf d o.block) o.wl) (updDie d (fun x => { x with held := x.held.filter (· != (o.block, o.wl)) }) (endOp d s))))) ∧
  (∀ (s : State) (d st x : Nat) (o : DieOp), sentRead s d .one = some o →
    exec (.programOneDone d st x) s = .next (dieNext d (programStatus d st o id (endRead d o s)))) ∧
  (∀ (s : State) (d st x : Nat) (o : DieOp), sentRead s d .one = none → runningOp s d .one = some o → o.mode = 1 →
    exec (.programOneDone d st x) s = .next (dieNext d (programStatus d st o (wordlineDone (refOf d o.block) o.wl) (endOp d s)))) ∧
  (∀ (s : State) (d st : Nat) (o : DieOp), runningOp s d .erase = some o → ∃ r e, r = refOf d o.block ∧ e = endOp d s ∧
    exec (.eraseDone d st) s = .next (zmSettle s (dieNext d (if st = 0 then queueVerify r e else if st = 2 ∨ st = 8 then retireBlock r 1 e else if st = 4 ∨ 9 ≤ st then loseDie d e else if st = 5 then requeue d o e else eraseAgain r e)))) ∧
  (∀ (s : State) (d n : Nat) (o : DieOp), runningOp s d .verify = some o → ∃ r e, r = refOf d o.block ∧ e = endOp d s ∧
    exec (.eraseVerifyDone d 0 n) s = .next (zmSettle s (dieNext d (if n ≤ getF e F.MME_ERASE_CFG_MAX_UNERASED then issueHeader r n e else if (getBlock e r).recovery then retireBlock r 1 e else issueErase r (getBlock e r).mode true e)))) ∧
  (∀ (s : State) (d : Nat) (ns : Bool), (getDie s d).suspSent = true → ∃ u, exec (.suspendDone d ns) s = .next (dieNext d u) ∧
    getDie u d = { getDie s d with suspSent := false, op := if ns then (getDie s d).op else (getDie s d).op.map (fun o => { o with suspended := true, suspensions := o.suspensions + 1, reads := 0 }) }) ∧
  (∀ (s : State) (d : Nat), (getDie s d).resumeSent = true → ∃ u, exec (.resumeDone d 0) s = .next (dieNext d u) ∧
    getDie u d = { getDie s d with resumeSent := false, op := (getDie s d).op.map (fun o => { o with suspended := false, resumeTick := s.tu.ticks }) }) ∧
  (∀ (s : State) (d st x : Nat) (data : List Nat) (codes : List (List Nat)) (ns : Bool), getDie s d = die0 → exec (.readPageDone d st data) s = .next s ∧
    exec (.readLevelDone d st codes) s = .next s ∧ exec (.programFoggyDone d st x) s = .next s ∧ exec (.programFineDone d st x) s = .next s ∧
    exec (.programOneDone d st x) s = .next s ∧ exec (.eraseDone d st) s = .next s ∧ exec (.eraseVerifyDone d st x) s = .next s ∧
    exec (.suspendDone d ns) s = .next s ∧ exec (.resumeDone d st) s = .next s ∧ exec (.resetDieDone d) s = .next s ∧ exec (.dieOpTimeout d) s = .next s)

/-- A lost die is taken out; an operation that times out resets the die and the third timeout within a minute loses it; IDENTIFY judges part, geometry and good dies; a calibration page and the defect lists make a die usable; a quiet group drains, gates when its towers stand by, and wakes; only the operator writes the power budget. Where the spec leaves a choice the clauses follow the model's: log entries 2, 55. -/
def Obligations.DiesAndGroups : Prop :=
  (∀ (s : State) (d : Nat), d < linkCount s * 32 → exec (.dieLoss d) s = .next (zmSettle s (loseDie d s)) ∧ ∀ b u,
    exec (.dieStatusDone d b u true) s = .next (zmSettle s (loseDie d s)) ∧ exec (.dieStatusDone d b u false) s = .next s) ∧
  (∀ (s : State) (d : Nat), ((getDie s d).op ≠ none ∨ (getDie s d).reading ≠ []) → (getDie s d).resetSent = false → ∃ ts u,
    ts = (getDie s d).timeouts.filter (fun t => decide (s.tu.ticks - t ≤ usTicks 60000000)) ++ [s.tu.ticks] ∧
    u = updDie d (fun x => { x with timeouts := ts, resetSent := true }) s ∧
    exec (.dieOpTimeout d) s = .next (if 3 ≤ ts.length then zmSettle s (loseDie d (sendTower d "RESET_DIE" 0 u)) else sendTower d "RESET_DIE" 0 u)) ∧
  (∀ (s : State) (d : Nat), (getDie s d).resetSent = true → (getDie s d).op = none → (getDie s d).held = [] → (getDie s d).reading = [] → ∃ u,
    exec (.resetDieDone d) s = .next (zmSettle s (dieNext d u)) ∧
    getDie u d = { getDie s d with resetSent := false, suspSent := false, resumeSent := false }) ∧
  (∀ (s : State) (k n g : Nat) (p m : Bool), k < linkCount s → ((getLink s k).st = 2 ∨ (getLink s k).st = 4) →
    exec (.identifyDone k p m n g) s = .next (if p = false ∨ m = false then failLink k 5 3 s else zmSettle s ((List.range 32).foldl (fun s d => if natBits g d 1 = 0 then loseDie (k * 32 + d) s else s) (serialSeen k n s)))) ∧
  (∀ (s : State) (k : Nat) (rs : List (Nat × List Int × Nat × Nat)), k < linkCount s →
    exec (.readCalDone k false rs) s = .next ((List.range 32).foldl (fun s d => usableSettle (k * 32 + d) s) (updLink k (fun l => { l with awaitCal := false }) (fire 512 k s)))) ∧
  (∀ (s : State) (d p : Nat) (gs : List Nat), d < linkCount s * 32 → p < 4 → gs.length ≤ 32 → s.top.readsOk = false → ∃ u,
    u = updTabs (fun t => { t with skips := mapSet [] t.skips (d * 4 + p) gs }) s ∧
    exec (.readDefectsDone d p gs) s = .next (usableSettle d (updDie d (fun x => { x with defectsLeft := x.defectsLeft - 1 }) { u with dur := { u.dur with skips := mapSet [] u.dur.skips (d * 4 + p) gs } }))) ∧
  (∀ (s : State) (k : Nat), (groupSt s (k / 8) ≠ .draining ∨ s.flc.standbySent.contains (k / 8) = false) → exec (.standbyDone k) s = .next s) ∧
  (∀ (s u : State) (k g : Nat), g = k / 8 → u = updLink k (fun l => { l with standby := true }) s → groupSt s g = .draining →
    s.flc.standbySent.contains g = true → ∃ ups v, ups = (groupLinks u g).filter (fun j => (getLink u j).st == 3 || (getLink u j).st == 4) ∧
    v = linkSettle s (ups.foldl (fun s j => updLink j (fun l => { l with st := 1, lock := false }) s) (setGroup g .gated (updFlc (fun f => { f with standbySent := f.standbySent.filter (· != g) }) u))) ∧
    exec (.standbyDone k) s = .next (if ups.all (fun j => (getLink u j).standby) then (if groupWaiting v g ∧
    v.top.dev ≠ .retained then wakeGroup g v else v) else u)) ∧
  (∀ (s : State) (k v : Nat), exec (.echoDone k v) s = .next s) ∧
  (∀ (s : State) (d : Nat), exec (.suspendDeferred d) s = .next (trySuspend d s)) ∧
  (∀ (s : State) (g : Nat), g < groupCount s → s.top.readsOk = true → groupSt s g = .awake → flagF s F.FLC_GATE_CFG_GATE_EN = true →
    natBits (getF s F.FLC_GATE_CTL_KEEP) g 1 = 0 → s.flc.dies = [] → groupRows s g = false →
    min (getF s F.FLC_GATE_CFG_MIN_AWAKE) (groupCount s) ≤ (awakeGroups s).length - 1 → ∃ u,
    u = setGroup g .draining (updFlc (fun f => { f with standbySent := f.standbySent ++ [g] }) s) ∧
    exec (.groupDrainStart g) s = .next (linkSettle s (((groupLinks u g).filter (fun k => (getLink u k).st == 3)).foldl (fun s k => sendTower (k * 32) "STANDBY" 0 s) u))) ∧
  (∀ (s : State) (g : Nat), (s.top.readsOk = false ∨ groupSt s g ≠ .awake ∨ flagF s F.FLC_GATE_CFG_GATE_EN = false) →
    exec (.groupDrainStart g) s = .next s) ∧
  (∀ (s : State) (g : Nat), g < groupCount s → s.top.dev ≠ .retained → exec (.groupWake g) s = .next (groupSettle g (wakeGroup g s))) ∧
  (∀ (s : State) (g : Nat), s.top.dev = .retained → exec (.groupWake g) s = .next s ∧ ∀ v : Word,
    exec (.groupWakeWrite v) s = .next (setF F.FLC_GATE_CTL_KEEP (natBits v.toNat 0 (groupCount s)) s)) ∧
  (∀ (s : State) (g : Nat), g < groupCount s → groupSt s g = .waking → ∃ u, u = fire 514 g (setGroup g .awake s) ∧
    exec (.groupWakeTimeout g) s = .next (((groupLinks u g).filter (fun k => (getLink u k).st == 2 || (getLink u k).st == 4)).foldl (fun s k => failLink k (getLink s k).st (getLink s k).cause s) u)) ∧
  (∀ (s : State) (v : Word), exec (.powerBudgetWrite .operator v) s = .next (budgetChanged s (plainWrite 0x7000000 v.toNat s)) ∧
    exec (.powerBudgetWrite .firmware v) s = .next s)

/-- A port write without a bad PEC reaches the port byte by byte, one with a bad PEC is not acknowledged; GO hands the packet to the interpreter or sets OVERRUN; the reply goes to the buffer and is announced; the I3C codes assign and withdraw the address, permit interrupts, report the lengths and enter and leave HDR; the NVMe-MI basic read returns its data. Where the spec leaves a choice the clauses follow the model's: log entries 10, 71, 72, 73. -/
def Obligations.ManagementPort : Prop :=
  (∀ (s : State) (o : Nat) (d : List Nat) (pec : Bool), portHears s = true → o ≤ 0xFFFF → (s.pad.mgmtI3c = true ∨ pec = true) → ∃ b,
    b = d.take (if s.pad.mgmtI3c then 4096 else 256) ∧ exec (.mgmtPortWrite o d pec) s = .next (((List.range b.length).map (fun i => (o + i,
    b.getD i 0))).foldl (portByte (portRegion o)) (updMgc (fun m => { m with portOff := o }) s))) ∧
  (∀ (s : State) (o : Nat) (d : List Nat), portHears s = true → o ≤ 0xFFFF → s.pad.mgmtI3c = false →
    exec (.mgmtPortWrite o d false) s = .next (emit (.mgmt "NACK" []) s)) ∧
  (∀ (s : State), portHears s = true → s.mgc.taskSt ≠ 1 →
    exec .taskGo s = .next (sirPacket 0 none ((List.range 4096).map (fun i => (mapGet 0 s.mgc.buf i).toNat)) 4096 (updMgc (fun m => { m with taskSt := 1, replyLen := 0 }) s))) ∧
  (∀ (s : State), portHears s = true → s.mgc.taskSt = 1 → exec .taskGo s = .next (updMgc (fun m => { m with overrun := true }) s)) ∧
  (∀ (s : State) (r : Reply), (getPath s 0).ready = some r → s.mgc.taskSt = 1 → ∃ t, exec .taskReplyDone s = .next t ∧ t.mgc.taskSt = 2 ∧
    t.mgc.replyLen = 16 + r.params.length ∧ t.mgc.overrun = s.mgc.overrun ∧ t.out = (if s.mgc.ibiEn ∧ s.mgc.ibiAllowed ∧
    s.pad.mgmtI3c then .ibi 1 :: s.out else s.out)) ∧
  (∀ (s : State) (a : Nat), cccHeard s = true → s.mgc.dynAddr = none → exec (.entdaa a) s = .next (updMgc (fun m => { m with dynAddr := some a }) s) ∧
    exec (.setdasa (0x18 + s.pad.mgmtAddr) a) s = .next (updMgc (fun m => { m with dynAddr := some a }) s)) ∧
  (∀ (s : State), cccHeard s = true → exec .rstdaa s = .next (updMgc (fun m => { m with dynAddr := none }) s) ∧
    exec .hdrEntry s = .next (updMgc (fun m => { m with hdrIgnore := true }) s) ∧
    exec (.enec 1) s = .next (updMgc (fun m => { m with ibiAllowed := true }) s) ∧
    exec (.disec 1) s = .next (updMgc (fun m => { m with ibiAllowed := false }) s) ∧ ∀ c,
    exec (.unsupportedCcc c true) s = .next (emit (.mgmt "NACK" []) s) ∧ exec (.unsupportedCcc c false) s = .next s) ∧
  (∀ (s : State), cccHeard s = true → s.mgc.dynAddr.isSome = true → exec .getmwl s = .next (emit (.mgmt "GETMWL" [0x10, 0x02]) s) ∧
    exec .getpid s = .next (emit (.mgmt "GETPID" (beBytes 6 (Config.fixedValue 0))) s) ∧
    exec .getbcr s = .next (emit (.mgmt "GETBCR" (beBytes 1 (Config.fixedValue 1))) s) ∧
    exec .getdcr s = .next (emit (.mgmt "GETDCR" (beBytes 1 (Config.fixedValue 2))) s) ∧
    exec .getstatus s = .next (emit (.mgmt "GETSTATUS" (beBytes 2 (drawFree 16 s).1)) (drawFree 16 s).2)) ∧
  (∀ (s : State), cccHeard s = true → s.mgc.dynAddr = none → exec .getmwl s = .next (emit (.mgmt "NACK" []) s)) ∧
  (∀ (s : State), exec .hdrExitPattern s = .next (updMgc (fun m => { m with hdrIgnore := false }) s)) ∧
  (∀ (s : State) (o : Nat), portHears s = true →
    exec (.nvmeMiBasicRead o) s = .next (emit (.mgmt "NVME-MI" (if s.pad.mgmtI3c then padTo (max 1 (32 - o)) 0 ((miData s).drop o) else if o = 0 then (miData s).take 8 else if o = 8 then (miData s).drop 8 else [0])) s))

/-- A phase 0 command with a whole packet is given to the interpreter of its controller, one with CDWs that are not zero fails and one behind an outstanding packet is refused busy; phase 1 returns the kept reply; a load window above SHED_PCT enters shedding and ten quiet windows in a row leave it. Where the spec leaves a choice the clauses follow the model's: log entries 66, 74, 75. -/
def Obligations.InBandAndLoad : Prop :=
  (∀ (s : State) (slot : Nat), adminRuns s slot 0xC4 = true → (getTask s slot).cap.cdw10 % 2 = 0 → inbandClean (getTask s slot) = true →
    16 ≤ (getTask s slot).cap.inCapsule.length → (getTask s slot).cap.inCapsule.length ≤ 4096 →
    (getTask s slot).cap.inCapsule.length = (getTask s slot).cap.sglLen → (getPath s ((getTask s slot).cntlid + 1)).packet = none →
    exec (.sirsisInbandSubmit slot) s = .next (sirPacket ((getTask s slot).cntlid + 1) (some slot) (getTask s slot).cap.inCapsule (getTask s slot).cap.inCapsule.length s)) ∧
  (∀ (s : State) (slot : Nat), adminRuns s slot 0xC4 = true → (getTask s slot).cap.cdw10 % 2 = 0 → inbandClean (getTask s slot) = false →
    exec (.sirsisInbandSubmit slot) s = .next (finishErr slot 0 0x02 s)) ∧
  (∀ (s : State) (slot : Nat), adminRuns s slot 0xC4 = true → (getTask s slot).cap.cdw10 % 2 = 0 → inbandClean (getTask s slot) = true →
    16 ≤ (getTask s slot).cap.inCapsule.length → (getTask s slot).cap.inCapsule.length ≤ 4096 →
    (getTask s slot).cap.inCapsule.length = (getTask s slot).cap.sglLen → (getPath s ((getTask s slot).cntlid + 1)).packet ≠ none →
    exec (.sirsisInbandSubmit slot) s = .next (finishBusy slot s)) ∧
  (∀ (s : State) (slot : Nat) (r : Reply), adminRuns s slot 0xC4 = true → (getTask s slot).cap.cdw10 % 2 = 1 → inbandClean (getTask s slot) = true →
    (getPath s ((getTask s slot).cntlid + 1)).kept = some r → 16 + r.params.length ≤ (getTask s slot).cap.sglLen →
    exec (.sirsisInbandFetch slot) s = .next (replyData slot (replyBytes r) s)) ∧
  (∀ (s : State) (slot : Nat), adminRuns s slot 0xC4 = true → (getTask s slot).cap.cdw10 % 2 = 1 →
    (getPath s ((getTask s slot).cntlid + 1)).kept = none → exec (.sirsisInbandFetch slot) s = .next (finishErr slot 0 0x02 s) ∧
    exec (.sirsisInbandSubmit slot) s = .next s) ∧
  (∀ (s u : State) (a b c d e x y l n : Nat), l = min 100 (max (max a b) (max c d)) →
    n = (if l ≤ getF s F.MGC_SHED_CFG_EXIT_PCT then s.mgc.lowRun + 1 else 0) →
    u = updMgc (fun m => { m with loads := [min 100 a, min 100 b, min 100 c, min 100 d], scLoad := min 100 e, svcSum := x, svcCount := y, lowRun := n }) s →
    exec (.loadWindow a b c d e x y) s = .next (if s.mgc.shed = false then (if getF u F.MGC_SHED_CFG_SHED_PCT < l then fire 800 l (updMgc (fun m => { m with shed := true, lowRun := 0 }) u) else u) else if 10 ≤ n then fire 801 l (updMgc (fun m => { m with shed := false }) u) else u))

/-- Without a packet nothing happens, and an opcode the states column does not serve is answered with its status. NOP returns TOP_STATE and the revision; register reads and writes run in order and report the first failed access; REG_RMW writes (old AND NOT mask) OR (value AND mask); STATE_REQ answers with the result; DEV_RESET is answered before the reset, which follows once the reply is read. Where the spec leaves a choice the clauses follow the model's: log entries 68, 70, 74. -/
def Obligations.SirsisHardware : Prop :=
  (∀ (s : State) (path : Nat), (getPath s path).packet = none → exec (.nop path) s = .next s ∧ exec (.regRead path) s = .next s ∧
    exec (.regWrite path) s = .next s ∧ exec (.regRmw path) s = .next s ∧ exec (.stateReq path) s = .next s ∧ exec (.devReset path) s = .next s ∧
    exec (.timeSet path) s = .next s ∧ exec (.shelfClimate path) s = .next s ∧ exec (.modelLoad path) s = .next s ∧ exec (.portCfg path) s = .next s ∧
    exec (.portRead path) s = .next s ∧ exec (.aclAdd path) s = .next s ∧ exec (.aclRemove path) s = .next s ∧ exec (.aclList path) s = .next s ∧
    exec (.nsCreate path) s = .next s ∧ exec (.nsDelete path) s = .next s ∧ exec (.nsMove path) s = .next s ∧ exec (.nsResize path) s = .next s ∧
    exec (.nsInfo path) s = .next s ∧ exec (.zoneHint path) s = .next s ∧ exec (.homeRead path) s = .next s ∧ exec (.fwDownload path) s = .next s ∧
    exec (.fwCommit path) s = .next s ∧ exec (.protSet path) s = .next s ∧ exec (.hbRead path) s = .next s ∧ exec (.healthRead path) s = .next s) ∧
  (∀ (s : State) (path op st d : Nat) (q : Packet), (getPath s path).packet = some q → q.opcode = op → sirState s op = some (st, d) → (op = 0x22 →
    exec (.timeSet path) s = .next (sirAnswer path st d [] s)) ∧ (op = 0x70 → exec (.shelfClimate path) s = .next (sirAnswer path st d [] s)) ∧
    (op = 0x30 → exec (.portCfg path) s = .next (sirAnswer path st d [] s)) ∧ (op = 0x31 → exec (.portRead path) s = .next (sirAnswer path st d [] s)) ∧
    (op = 0x40 → exec (.aclAdd path) s = .next (sirAnswer path st d [] s)) ∧ (op = 0x41 → exec (.aclRemove path) s = .next (sirAnswer path st d [] s)) ∧
    (op = 0x42 → exec (.aclList path) s = .next (sirAnswer path st d [] s)) ∧ (op = 0x54 → exec (.nsInfo path) s = .next (sirAnswer path st d [] s)) ∧
    (op = 0x61 → exec (.homeRead path) s = .next (sirAnswer path st d [] s)) ∧ (op = 0x80 →
    exec (.fwDownload path) s = .next (sirAnswer path st d [] s)) ∧ (op = 0x81 → exec (.fwCommit path) s = .next (sirAnswer path st d [] s)) ∧
    (op = 0x82 → exec (.protSet path) s = .next (sirAnswer path st d [] s))) ∧
  (∀ (s : State) (path : Nat) (q : Packet), sirRuns s path 0x01 q = true →
    exec (.nop path) s = .next (sirAnswer path 0 0 (leBytes 4 (readReg s 0x10) ++ revField s.mgc.revision) s)) ∧
  (∀ (s : State) (path : Nat) (q : Packet) (as : List Nat), sirRuns s path 0x10 q = true →
    as = (List.range (par q.params 4 2)).map (fun i => (par q.params 0 4 + i * par q.params 6 2) % 2 ^ 32) → unaligned as = none → ∃ vs e t,
    sirReads as 0 [] none s = (vs, e, t) ∧ exec (.regRead path) s = .next (sirAccessed path (vs.flatMap (leBytes 4)) e t)) ∧
  (∀ (s : State) (path : Nat) (q : Packet) (i : Nat), sirRuns s path 0x10 q = true →
    unaligned ((List.range (par q.params 4 2)).map (fun i => (par q.params 0 4 + i * par q.params 6 2) % 2 ^ 32)) = some i →
    exec (.regRead path) s = .next (sirAnswer path 6 i [] s)) ∧
  (∀ (s : State) (path : Nat) (q : Packet) (l : List (Nat × Nat)), sirRuns s path 0x11 q = true →
    l = (List.range (par q.params 0 2)).map (fun i => (par q.params (4 + 8 * i) 4, par q.params (8 + 8 * i) 4)) → unaligned (l.map Prod.fst) = none →
    ∃ e t, sirWrites path l 0 none s = (e, t) ∧ exec (.regWrite path) s = .next (sirAccessed path [] e t)) ∧
  (∀ (s : State) (path : Nat) (q : Packet) (a m : Nat), sirRuns s path 0x12 q = true → a = par q.params 0 4 → m = par q.params 4 4 → a % 4 = 0 → ∃ old u,
    old = (regReadAt a s).1 ∧ u = (regReadAt a s).2 ∧
    exec (.regRmw path) s = .next (sirAccessed path (leBytes 4 old) (firstFail none (accessStatus s a) 0) (regWriteAt .operator a ((old - (old &&& m)) ||| (par q.params 8 4 &&& m)) u))) ∧
  (∀ (s : State) (path : Nat) (q : Packet), sirRuns s path 0x20 q = true → ∃ t, t = stateRequest (par q.params 0 1) s ∧
    exec (.stateReq path) s = .next (sirAnswer path 0 0 [t.top.result, 0, 0, 0] t)) ∧
  (∀ (s : State) (path : Nat) (q : Packet), sirRuns s path 0x21 q = true →
    exec (.devReset path) s = .next (sirAnswer path 0 0 [] (updMgc (fun m => { m with resetPending := true }) s))) ∧
  (∀ (s : State), s.mgc.resetPending = true → (getPath s 0).ready = none → exec .devResetDelayExpire s = .next (deviceReset 1 s)) ∧
  (∀ (s : State), s.mgc.resetPending = false → exec .devResetDelayExpire s = .next s)

/-- TIME_SET sets the time and Carried; a valid shelf-climate record replaces the earlier one; MODEL_LOAD makes the model the origin of the die and drops learned values; PORT_CFG and PORT_READ write and return address entries; ACL_ADD, ACL_REMOVE and ACL_LIST keep the access list; FW_DOWNLOAD, FW_COMMIT and PROT_SET act on the store; HB_READ and HEALTH_READ reply. Where the spec leaves a choice the clauses follow the model's: log entries 43, 46, 69, 76. -/
def Obligations.SirsisManagement : Prop :=
  (∀ (s : State) (path : Nat) (q : Packet), sirRuns s path 0x22 q = true →
    exec (.timeSet path) s = .next (sirAnswer path 0 0 [] (tuEnter 1 (updTu (fun x => { x with t := (par q.params 0 8 * 1000000000 + par q.params 8 4) * 2 ^ 48, stepTick := x.ticks }) s)))) ∧
  (∀ (s : State) (path : Nat) (q : Packet), sirRuns s path 0x70 q = true → climateError q.params = none →
    exec (.shelfClimate path) s = .next (sirAnswer path 0 0 [] (darkRecompute (updRcu (fun r => { r with climate := some ⟨par q.params 4 4, par q.params 8 2, par q.params 10 2, climateSamples q.params (par q.params 2 2)⟩ }) s)))) ∧
  (∀ (s : State) (path : Nat) (q : Packet) (st d : Nat), sirRuns s path 0x70 q = true → climateError q.params = some (st, d) →
    exec (.shelfClimate path) s = .next (sirAnswer path st d [] s)) ∧
  (∀ (s : State) (path : Nat) (q : Packet) (d : Nat), sirRecords s path 0x71 q = true → d = par q.params 0 2 → ∃ l u,
    l = (if par q.params 2 1 = 1 then none else some (⟨(List.range 31).map (fun i => toSigned 16 (par q.params (12 + 2 * i) 2)), par q.params 4 4,
    par q.params 8 2⟩ : Model)) ∧
    u = updRcu (fun r => { r with ckptLearned := mapDel r.ckptLearned d, imgLearned := mapDel r.imgLearned d }) (updAge d (fun a => { a with loaded := l, learned := none }) s) ∧
    exec (.modelLoad path) s = .next (sirAnswer path 0 0 [] (issue 0x1D 80 [d, par q.params 4 4, par q.params 8 2, par q.params 2 1] [] .nothing u))) ∧
  (∀ (s : State) (path : Nat) (q : Packet) (p k : Nat) (old : AddrEntry), sirRuns s path 0x30 q = true → p = par q.params 0 1 → k = par q.params 1 1 →
    old = mapGet addr0 s.hfe.addrs (p * 8 + k) → old.valid = false → ∃ new u, new = cfgEntry q.params ∧
    u = saveSetting (addrSetting p k) [bitOf new.valid, bitOf new.tagged, new.pfx, new.vlan,
    new.addr] (updHfe (fun h => { h with addrs := mapSet addr0 h.addrs (p * 8 + k) new }) s) ∧
    exec (.portCfg path) s = .next (sirAnswer path 0 0 [] (if old = new then u else discChanged u))) ∧
  (∀ (s : State) (path : Nat) (q : Packet), sirRuns s path 0x31 q = true →
    exec (.portRead path) s = .next (sirAnswer path 0 0 ((List.range 8).flatMap (fun k => entryBytes k (mapGet addr0 s.hfe.addrs (par q.params 0 1 * 8 + k)))) s)) ∧
  (∀ (s : State) (path : Nat) (q : Packet) (l : List Nat), sirRuns s path 0x40 q = true → l = (getTenant s q.scope).acl →
    l.contains (aclNqn q.params) = false →
    exec (.aclAdd path) s = .next (if 256 ≤ l.length then sirAnswer path 0xE 0 [] s else sirAnswer path 0 0 [] (setAcl q.scope (l ++ [aclNqn q.params]) s))) ∧
  (∀ (s : State) (path : Nat) (q : Packet) (l : List Nat), sirRuns s path 0x41 q = true → l = (getTenant s q.scope).acl →
    l.contains (aclNqn q.params) = true → ∃ u cs, u = setAcl q.scope (l.filter (· != aclNqn q.params)) s ∧
    cs = mapKeysWhere (fun k c => c.live && k / 0x100 == q.scope && c.host == aclNqn q.params) u.qe.ctls ∧
    exec (.aclRemove path) s = .next (sirAnswer path 0 0 [] (cs.foldl (fun s k => tearCtl q.scope (k % 0x100) s) u))) ∧
  (∀ (s : State) (path : Nat) (q : Packet), sirRuns s path 0x41 q = true → (getTenant s q.scope).acl.contains (aclNqn q.params) = false →
    exec (.aclRemove path) s = .next (sirAnswer path 0xD 0 [] s)) ∧
  (∀ (s : State) (path : Nat) (q : Packet) (l : List Nat), sirRuns s path 0x42 q = true → l = (getTenant s q.scope).acl → ∃ x,
    x = (l.drop (par q.params 0 2)).take 16 ∧
    exec (.aclList path) s = .next (sirAnswer path 0 0 (leBytes 2 l.length ++ leBytes 2 x.length ++ x.flatMap (fun n => [(textBytes 223 n).length] ++ padTo 223 0 (textBytes 223 n))) s)) ∧
  (∀ (s : State) (path : Nat) (q : Packet), sirRuns s path 0x80 q = true → s.fws.job = none →
    exec (.fwDownload path) s = .next (sirAnswer path 0 0 [] (stageBytes (par q.params 0 4) (q.params.drop 4) s))) ∧
  (∀ (s : State) (path : Nat) (q : Packet), sirRuns s path 0x81 q = true → s.fws.job = none →
    exec (.fwCommit path) s = .next (commitStart (par q.params 0 1) (par q.params 1 1) none (some path) (fun d s => sirAnswer path 2 d [] s) s)) ∧
  (∀ (s : State) (path : Nat) (q : Packet), sirRuns s path 0x82 q = true → ∃ r, r = protSet (par q.params 0 1) (par q.params 4 4) s ∧
    exec (.protSet path) s = .next (sirAnswer path r.1 r.2.1 [] r.2.2)) ∧
  (∀ (s : State) (path : Nat) (q : Packet), sirRuns s path 0x90 q = true →
    exec (.hbRead path) s = .next (sirAnswer path 0 0 (hbReply (par q.params 0 8) (par q.params 8 1) s) s)) ∧
  (∀ (s : State) (path : Nat) (q : Packet), sirRuns s path 0x91 q = true → exec (.healthRead path) s = .next (sirAnswer path 0 0 (healthReply s) s))

/-- NS_CREATE takes the lowest free index or the one asked for and replies it with the NSID, or answers LIMIT, CONFLICT or CAPACITY; NS_DELETE, NS_MOVE, NS_RESIZE change the namespace with one NSCFG record; NS_INFO and HOME_READ reply; ZONE_HINT stores the hint of a range of zones; an index that names no namespace is NOT_FOUND. Where the spec leaves a choice the clauses follow the model's: log entries 68, 69. -/
def Obligations.SirsisNamespaces : Prop :=
  (∀ (s : State) (path : Nat) (q : Packet) (n : Nat) (x : Ns), sirRecords s path 0x50 q = true →
    n = (if par q.params 2 2 = 0xFFFF then ((List.range 8192).find? (fun n => !(nsTaken s n))).getD 8192 else par q.params 2 2) →
    x = { ns0 with valid := true, tenant := q.scope, nsid := freeNsid s q.scope, conv := par q.params 0 1 == 1, size := par q.params 4 8 } →
    nssOf s q.scope < 16 → mapCount (fun _ x => x.valid) s.tabs.nss < 8192 → n ≠ 8192 → nsTaken s n = false → tenantState s q.scope ≠ 0 →
    nsNoRoom s (par q.params 0 1 == 1) (par q.params 4 8) = false → exec (.nsCreate path) s = .next (sirAnswer path 0 0 (leBytes 2 n ++ [0,
    0] ++ leBytes 4 x.nsid) (zmSettle s (nsRecord 0 n [.ns n x] .nothing (updNs n (fun _ => x) s))))) ∧
  (∀ (s : State) (path : Nat) (q : Packet), sirRecords s path 0x50 q = true → 16 ≤ nssOf s q.scope →
    exec (.nsCreate path) s = .next (sirAnswer path 0xE 0 [] s)) ∧
  (∀ (s : State) (path : Nat) (q : Packet) (n : Nat) (x : Ns), sirRecords s path 0x51 q = true → n = par q.params 0 2 → x = getNs s n → x.valid = true →
    x.attached = [] →
    exec (.nsDelete path) s = .next (sirAnswer path 0 0 [] (zmSettle s (updNs n (fun x => { x with valid := false }) (nsRecord 1 n [] (.wipe ⟨x.tenant,
    [n], 3, san0⟩) s))))) ∧
  (∀ (s : State) (path : Nat) (q : Packet), getNs s (par q.params 0 2) = ns0 → sirState s q.opcode = none → (getPath s path).packet = some q →
    s.top.readsOk = true → bufFull s = false → (q.opcode = 0x51 → exec (.nsDelete path) s = .next (sirAnswer path 0xD 0 [] s)) ∧ (q.opcode = 0x52 →
    exec (.nsMove path) s = .next (sirAnswer path 0xD 0 [] s)) ∧ (q.opcode = 0x53 → exec (.nsResize path) s = .next (sirAnswer path 0xD 0 [] s)) ∧
    (q.opcode = 0x54 → exec (.nsInfo path) s = .next (sirAnswer path 0xD 0 [] s)) ∧ (q.opcode = 0x60 →
    exec (.zoneHint path) s = .next (sirAnswer path 0xD 0 [] s))) ∧
  (∀ (s : State) (path : Nat) (q : Packet) (n : Nat) (x : Ns), sirRecords s path 0x52 q = true → n = par q.params 0 2 → x = getNs s n → x.valid = true →
    x.attached = [] → tenantState s (par q.params 2 2) ≠ 0 → nssOf s (par q.params 2 2) < 16 → ∃ t k u, t = par q.params 2 2 ∧
    k = (if t = x.tenant then x.nsid else freeNsid s t) ∧ u = moveStripes n t (updNs n (fun x => { x with tenant := t, nsid := k }) s) ∧
    exec (.nsMove path) s = .next (sirAnswer path 0 0 (leBytes 4 k) (zmSettle s (nsRecord 2 n (movePatches n u) .nothing u)))) ∧
  (∀ (s : State) (path : Nat) (q : Packet) (n : Nat) (x : Ns), sirRecords s path 0x53 q = true → n = par q.params 0 2 → x = getNs s n → x.valid = true →
    x.conv = true → x.size ≤ par q.params 8 8 → 0 < par q.params 8 8 → par q.params 8 8 ≤ 2684354560 →
    lbasMade s - x.size + par q.params 8 8 ≤ lbasMax s → ∃ u, u = updNs n (fun x => { x with size := par q.params 8 8 }) s ∧
    exec (.nsResize path) s = .next (sirAnswer path 0 0 [] (nsChanged n (nsRecord 3 n [.ns n (getNs u n)] .nothing u)))) ∧
  (∀ (s : State) (path : Nat) (q : Packet) (n : Nat) (x : Ns), sirRuns s path 0x54 q = true → n = par q.params 0 2 → x = getNs s n → x.valid = true →
    ∃ live, live = (if x.conv then 0 else zonesIn s n (fun z => z.st != .offline)) ∧
    exec (.nsInfo path) s = .next (sirAnswer path 0 0 (leBytes 2 x.tenant ++ [bitOf x.conv,
    bitOf (x.conv && s.mme.convWp)] ++ leBytes 4 x.nsid ++ leBytes 8 x.size ++ leBytes 4 live ++ leBytes 4 x.attached.length) s)) ∧
  (∀ (s : State) (path : Nat) (q : Packet) (n : Nat) (x : Ns) (first count hint : Nat), sirRecords s path 0x60 q = true → n = par q.params 0 2 →
    x = getNs s n → x.valid = true → x.conv = false → first = par q.params 4 4 → count = par q.params 8 4 → hint = par q.params 12 4 →
    first + count ≤ x.size → first < x.size → natBits hint 12 2 ≠ 1 → ∃ u, u = issue 0x1A 24 [n, 0, first, count,
    hint] [.hints n first count hint] .nothing (updTabs (fun t => { t with zones := setHints n first count hint t.zones }) s) ∧
    exec (.zoneHint path) s = .next (sirAnswer path 0 0 [] ((idleHomes u).foldl (fun s g => issue 0x1A 24 [g,
    0] [.home g 0] .nothing (forgetHome s g)) u))) ∧
  (∀ (s : State) (path : Nat) (q : Packet), sirRuns s path 0x61 q = true → ∃ g v, g = par q.params 0 2 ∧ v = mapGet 0 s.tabs.homes g ∧
    exec (.homeRead path) s = .next (sirAnswer path 0 0 (leBytes 2 (v / 2) ++ [v % 2,
    0] ++ leBytes 4 (mapCount (fun _ z => z.stripe.isSome && natBits z.hint 0 12 == g) s.tabs.zones)) s))

/-- When a command answers a next state, the device state, the held request, the cause and result registers, the quiesce progress, PWRWARN, the Skim age, the serving flags and the life counters are unchanged unless the command is one of those named for that part (or, where fewer are named, unchanged by each command named). Where the spec leaves a choice the clauses follow the model's: log entries 2. -/
def Obligations.FrameOfPowerState : Prop :=
  ∀ (c : Instr) (s t : State), exec c s = .next t →
    (match c with | .porstNAssert .. | .porstNRelease .. | .railFail .. | .adminServedPoint .. | .openRowReplayDone .. | .quiesceRequest .. | .retainedRequest .. | .resumeRequest .. | .retainedEntry .. | .retainedResumeDone .. | .pwrwarnStuck .. | .deviceReset .. | .scWatchdogExpire .. | .regWrite .. | .regRmw .. | .stateReq .. | .devResetDelayExpire .. | .protectionEraseDone .. | .activationPause .. | .activationAbandon .. | .inputTransition .. | .inputFilterChange .. | .thermalSample .. | .regPairHighWrite .. | .regPairLowWrite .. | .w1cWrite .. | .registerWrite .. => True | _ => t.top.dev = s.top.dev) ∧
    (match c with | .porstNAssert .. | .railFail .. | .quiesceRequest .. | .retainedRequest .. | .resumeRequest .. | .quiesceComplete .. | .retainedEntry .. | .retainedResumeDone .. | .deviceReset .. | .scWatchdogExpire .. | .regWrite .. | .regRmw .. | .stateReq .. | .devResetDelayExpire .. | .protectionEraseDone .. | .activationPause .. | .activationAbandon .. | .inputFilterChange .. | .thermalSample .. | .regPairHighWrite .. | .regPairLowWrite .. | .w1cWrite .. | .registerWrite .. => True | _ => t.top.req = s.top.req) ∧
    (match c with | .porstNAssert .. | .porstNRelease .. | .railFail .. | .adminServedPoint .. | .openRowReplayDone .. | .quiesceRequest .. | .retainedRequest .. | .resumeRequest .. | .retainedEntry .. | .retainedResumeDone .. | .pwrwarnStuck .. | .deviceReset .. | .scWatchdogExpire .. | .regWrite .. | .regRmw .. | .stateReq .. | .devResetDelayExpire .. | .protectionEraseDone .. | .activationPause .. | .activationAbandon .. | .inputTransition .. | .inputFilterChange .. | .thermalSample .. | .regPairHighWrite .. | .regPairLowWrite .. | .w1cWrite .. | .registerWrite .. => True | _ => t.top.lastCause = s.top.lastCause) ∧
    (match c with | .porstNAssert .. | .railFail .. | .quiesceRequest .. | .retainedRequest .. | .resumeRequest .. | .deviceReset .. | .scWatchdogExpire .. | .regWrite .. | .regRmw .. | .stateReq .. | .devResetDelayExpire .. | .protectionEraseDone .. | .activationPause .. | .activationAbandon .. | .thermalSample .. | .regPairHighWrite .. | .regPairLowWrite .. | .w1cWrite .. | .registerWrite .. => True | _ => t.top.result = s.top.result) ∧
    (match c with | .porstNAssert .. | .railFail .. | .quiesceRequest .. | .retainedRequest .. | .resumeRequest .. | .quiesceComplete .. | .retainedEntry .. | .deviceReset .. | .scWatchdogExpire .. | .regWrite .. | .regRmw .. | .stateReq .. | .devResetDelayExpire .. | .protectionEraseDone .. | .activationPause .. | .activationAbandon .. | .inputFilterChange .. | .thermalSample .. | .regPairHighWrite .. | .regPairLowWrite .. | .w1cWrite .. | .registerWrite .. => True | _ => (t.top.quiesceDone,
    t.top.retainedAfter, t.top.reqTick) = (s.top.quiesceDone, s.top.retainedAfter, s.top.reqTick)) ∧
    (match c with | .porstNAssert .. | .railFail .. | .pwrwarnStuck .. | .pwrwarnUnstick .. | .deviceReset .. | .scWatchdogExpire .. | .regWrite .. | .regRmw .. | .devResetDelayExpire .. | .protectionEraseDone .. | .inputTransition .. | .inputFilterChange .. | .thermalSample .. | .regPairHighWrite .. | .regPairLowWrite .. | .w1cWrite .. | .registerWrite .. => True | _ => (t.top.pwrActive,
    t.top.pwrStuck, t.top.pwrFrom) = (s.top.pwrActive, s.top.pwrStuck, s.top.pwrFrom)) ∧
    (match c with | .porstNAssert .. | .railFail .. | .quiesceRequest .. | .retainedRequest .. | .resumeRequest .. | .quiesceDrainExpire .. | .quiesceComplete .. | .journalPageAccept .. | .checkpointComplete .. | .deviceReset .. | .scWatchdogExpire .. | .regWrite .. | .regRmw .. | .stateReq .. | .devResetDelayExpire .. | .protectionEraseDone .. | .activationPause .. | .activationAbandon .. | .thermalSample .. | .regPairHighWrite .. | .regPairLowWrite .. | .w1cWrite .. | .registerWrite .. => True | _ => (t.top.drained,
    t.top.cleanAccepted, t.top.ckptAccepted, t.top.markAccepted) = (s.top.drained, s.top.cleanAccepted, s.top.ckptAccepted, s.top.markAccepted)) ∧
    (match c with | .porstNAssert .. | .railFail .. | .readsServedPoint .. | .openRowReplayDone .. | .quiesceRequest .. | .retainedRequest .. | .resumeRequest .. | .skimDueWrite .. | .ageTick .. | .darkRecompute .. | .probeResult .. | .refreshRemap .. | .refreshPassComplete .. | .deviceReset .. | .scWatchdogExpire .. | .regWrite .. | .regRmw .. | .stateReq .. | .devResetDelayExpire .. | .shelfClimate .. | .protectionEraseDone .. | .activationPause .. | .activationAbandon .. | .thermalSample .. | .regPairHighWrite .. | .regPairLowWrite .. | .w1cWrite .. | .registerWrite .. => True | _ => (t.top.skimAge,
    t.top.skimSoon, t.top.skimOverdue) = (s.top.skimAge, s.top.skimSoon, s.top.skimOverdue)) ∧
    (match c with | .porstNAssert .. | .railFail .. | .adminServedPoint .. | .readsServedPoint .. | .deviceReset .. | .scWatchdogExpire .. | .regWrite .. | .regRmw .. | .devResetDelayExpire .. | .protectionEraseDone .. | .thermalSample .. | .regPairHighWrite .. | .regPairLowWrite .. | .w1cWrite .. | .registerWrite .. => True | _ => (t.top.adminOk,
    t.top.readsOk) = (s.top.adminOk, s.top.readsOk)) ∧
    (match c with | .porstNAssert .. | .railFail .. | .bootSlotSelect .. | .readsServedPoint .. | .ageTick .. | .deviceReset .. | .scWatchdogExpire .. | .regWrite .. | .regRmw .. | .devResetDelayExpire .. | .protectionEraseDone .. | .thermalSample .. | .regPairHighWrite .. | .regPairLowWrite .. | .w1cWrite .. | .registerWrite .. => True | _ => (t.top.powerCycles,
    t.top.poweredSec, t.top.unsafeCount, t.top.unsafeLast) = (s.top.powerCycles, s.top.poweredSec, s.top.unsafeCount, s.top.unsafeLast))

/-- When a command answers a next state, the reset unit, the Time Unit, the pins, the fuses, the split registers, the settings, the firmware store and the event collector are unchanged unless the command is one of those named for that part (or, where fewer are named, unchanged by each command named). Where the spec leaves a choice the clauses follow the model's: log entries 2. -/
def Obligations.FrameOfClocksPinsAndStore : Prop :=
  ∀ (c : Instr) (s t : State), exec c s = .next t →
    (match c with | .porstNAssert .. | .porstNRelease .. | .railFail .. | .signatureCheckDone .. | .dramTrainingDone .. | .adminServedPoint .. | .monitorWindow .. | .referenceGood .. | .stoppedClockTrip .. | .pllLockLoss .. | .rcCheckWindow .. | .rcReady .. | .rcTrimWrite .. | .switchRetry .. | .clockSwitchDone .. | .rootPllLock .. | .accPllRelock .. | .clockSwitchRequest .. | .deviceReset .. | .scWatchdogExpire .. | .regWrite .. | .regRmw .. | .devResetDelayExpire .. | .protectionEraseDone .. | .thermalSample .. | .regPairHighWrite .. | .regPairLowWrite .. | .w1cWrite .. | .registerWrite .. | .railsGood .. => True | _ => t.cru = s.cru) ∧
    (match c with | .porstNAssert .. | .railFail .. | .signatureCheckDone .. | .readsServedPoint .. | .quiesceRequest .. | .retainedRequest .. | .resumeRequest .. | .quiesceComplete .. | .retainedResumeDone .. | .modeApply .. | .laneLossOfLockTimeout .. | .laneUncorrInterval .. | .portTrainingDone .. | .narrowCandidateTimeout .. | .portRetrainTimer .. | .portWiden .. | .autoWidenTimer .. | .ptpMessageReceive .. | .monitorWindow .. | .referenceGood .. | .stoppedClockTrip .. | .pllLockLoss .. | .tuStep .. | .tuNowRead .. | .ptpServoUpdate .. | .ptpSyncTimeout .. | .holdoverExpire .. | .regRead .. | .regWrite .. | .regRmw .. | .stateReq .. | .timeSet .. | .activationPause .. | .activationAbandon .. | .thermalSample .. | .regPairLowRead .. | .regPairHighRead .. | .regPairHighWrite .. | .regPairLowWrite .. | .rcRead .. | .w1cWrite .. | .registerWrite .. => True | _ => t.tu = s.tu) ∧
    (match c with | .porstNAssert .. | .porstNRelease .. | .railFail .. | .bootSlotSelect .. | .pwrwarnStuck .. | .pwrwarnUnstick .. | .trstAssert .. | .inputTransition .. | .chatterMaskEnd .. | .chatterWindowEnd .. | .inputFilterChange .. | .thermalSample .. | .extest .. | .idcode .. | .samplePreload .. | .clamp .. | .highz .. | .bypass .. | .manufacturingTest .. | .railsGood .. => True | _ => t.pad = s.pad) ∧
    (match c with | .protSet .. => True | _ => t.fuse = s.fuse) ∧
    (match c with | .porstNAssert .. | .railFail .. | .deviceReset .. | .scWatchdogExpire .. | .regRead .. | .regWrite .. | .regRmw .. | .devResetDelayExpire .. | .protectionEraseDone .. | .thermalSample .. | .regPairLowRead .. | .regPairHighRead .. | .regPairHighWrite .. | .regPairLowWrite .. | .rcRead .. | .w1cWrite .. | .registerWrite .. => True | _ => (t.shadows,
    t.heldHigh) = (s.shadows, s.heldHigh)) ∧
    (match c with | .porstNAssert .. | .railFail .. | .dramTrainingDone .. | .readsServedPoint .. | .skimDueWrite .. | .modeSave .. | .modeForget .. | .tenantCtlWrite .. | .taskQuotaWrite .. | .zoneQuotaWrite .. | .connQuotaWrite .. | .diesetWrite .. | .linkTrainingDone .. | .powerBudgetWrite .. | .arrheniusConstantWrite .. | .shelfTempWrite .. | .mmeFloorWrite .. | .checkpointStartWrite .. | .keyCommit .. | .keyActivate .. | .keyClear .. | .keyActionResult .. | .deviceReset .. | .scWatchdogExpire .. | .regWrite .. | .regRmw .. | .devResetDelayExpire .. | .portCfg .. | .aclAdd .. | .aclRemove .. | .protectionEraseDone .. | .sectorErase .. | .settingsCompact .. | .settingsPageProgram .. | .thermalSample .. | .regPairHighWrite .. | .regPairLowWrite .. | .w1cWrite .. | .registerWrite .. => True | _ => (t.fws.dirty,
    t.fws.saved, t.fws.settingsSeq, t.fws.settingsSector) = (s.fws.dirty, s.fws.saved, s.fws.settingsSeq, s.fws.settingsSector)) ∧
    (match c with | .porstNAssert .. | .railFail .. | .bootSlotSelect .. | .pwrwarnStuck .. | .firmwareImageDownload .. | .firmwareCommit .. | .deviceReset .. | .scWatchdogExpire .. | .regRead .. | .regWrite .. | .regRmw .. | .devResetDelayExpire .. | .fwDownload .. | .fwCommit .. | .protSet .. | .protectionEraseDone .. | .activationPause .. | .activationAbandon .. | .probationEnd .. | .sectorErase .. | .pageProgram .. | .sectorEraseDone .. | .pageProgramDone .. | .storeEraseResume .. | .continuousRead .. | .settingsCompact .. | .settingsPageProgram .. | .herdbookPageProgram .. | .herdbookSectorFail .. | .inputTransition .. | .inputFilterChange .. | .thermalSample .. | .regPairLowRead .. | .regPairHighRead .. | .regPairHighWrite .. | .regPairLowWrite .. | .rcRead .. | .w1cWrite .. | .registerWrite .. | .storeEraseSuspend .. => True | _ => (t.fws.sectors,
    t.fws.pages, t.fws.op, t.fws.suspended, t.fws.result, t.fws.pulses, t.fws.lastSector, t.fws.recovery, t.fws.unsigned, t.fws.bootSlot, t.fws.rowLevel,
    t.fws.erasePending, t.fws.record, t.fws.staging, t.fws.granules, t.fws.job, t.fws.prefetch, t.fws.branch) = (s.fws.sectors, s.fws.pages, s.fws.op,
    s.fws.suspended, s.fws.result, s.fws.pulses, s.fws.lastSector, s.fws.recovery, s.fws.unsigned, s.fws.bootSlot, s.fws.rowLevel, s.fws.erasePending,
    s.fws.record, s.fws.staging, s.fws.granules, s.fws.job, s.fws.prefetch, s.fws.branch)) ∧
    (match c with | .pwrwarnUnstick .. | .timeMark .. | .modeSave .. | .modeForget .. | .nextHopResolved .. | .frameReceive .. | .pfcXoffRepeat .. | .pfcXon .. | .pfcFrameReceive .. | .pfcStormEnd .. | .cnpReceive .. | .rateRecoverTimer .. | .tcpRetransmitTimeout .. | .ptpTsRead .. | .portCntClear .. | .taskQuotaWrite .. | .zoneQuotaWrite .. | .connQuotaWrite .. | .diesetWrite .. | .connBucketRefill .. | .bwInterval .. | .powerEntitlementRecompute .. | .commandFetch .. | .getLogPage .. | .identify .. | .getFeatures .. | .asyncEventRequest .. | .asyncEventRaise .. | .firmwareImageDownload .. | .namespaceAttachment .. | .keepAlive .. | .formatNvm .. | .sanitize .. | .sanitizeExitFailure .. | .sirsisInbandSubmit .. | .sirsisInbandFetch .. | .invalidAdminOpcode .. | .connect .. | .propertySet .. | .propertyGet .. | .datasetManagement .. | .reportZones .. | .invalidIoOpcode .. | .readTransferDone .. | .readyListRefill .. | .rehome .. | .linkRetryTimer .. | .linkEnable .. | .linkFullTrainRequest .. | .maintFrameSend .. | .suspendDone .. | .readDefectsDone .. | .echoDone .. | .suspendDeferred .. | .groupWake .. | .groupWakeWrite .. | .l5Reconstruct .. | .exitCntClear .. | .arrheniusConstantWrite .. | .shelfTempWrite .. | .shelfTempExpire .. | .learnResetDie .. | .learnResetAll .. | .rowComplete .. | .parkTimeout .. | .unitRemap .. | .scanProbe .. | .refreshStart .. | .wearLevelCheck .. | .mmeRateWindow .. | .mmeFloorWrite .. | .journalPageSeal .. | .checkpointStart .. | .checkpointStartWrite .. | .rebaseCopyRow .. | .keyWordWrite .. | .bpmCntClear .. | .dramRefresh .. | .refreshRatePoll .. | .activationWindowEnd .. | .throttleExpire .. | .panicAssert .. | .panicRelease .. | .rowCloseTimer .. | .dqsTracking .. | .zqCalibration .. | .rcReady .. | .rcTrimWrite .. | .switchRetry .. | .accPllRelock .. | .doubleFaultSelfRefresh .. | .trstAssert .. | .tuNowRead .. | .mgmtPortWrite .. | .taskGo .. | .taskReplyDone .. | .entdaa .. | .setdasa .. | .rstdaa .. | .enec .. | .disec .. | .getpid .. | .getbcr .. | .getdcr .. | .getstatus .. | .getmwl .. | .nvmeMiBasicRead .. | .nop .. | .regRead .. | .devReset .. | .portRead .. | .aclAdd .. | .aclList .. | .nsResize .. | .nsInfo .. | .zoneHint .. | .homeRead .. | .modelLoad .. | .fwDownload .. | .hbRead .. | .healthRead .. | .probationEnd .. | .pageProgram .. | .storeEraseResume .. | .continuousRead .. | .settingsCompact .. | .settingsPageProgram .. | .chatterMaskEnd .. | .chatterWindowEnd .. | .extest .. | .idcode .. | .samplePreload .. | .clamp .. | .highz .. | .bypass .. | .manufacturingTest .. | .regPairLowRead .. | .regPairHighRead .. | .rcRead .. | .railsGood .. | .syncCandidateOpen .. | .pfcPauseExpire .. | .tcpCapsuleCmd .. | .invalidFabricsCommand .. | .zoneSendInvalidAction .. | .hdrEntry .. | .hdrExitPattern .. | .unsupportedCcc .. | .storeEraseSuspend .. => t.evc = s.evc | _ => True)

/-- When a command answers a next state, connections, ports, lanes, counters, the rest of the front end, task slots, controllers, tenants and the rest of the queue engine are unchanged unless the command is one of those named for that part (or, where fewer are named, unchanged by each command named). Where the spec leaves a choice the clauses follow the model's: log entries 2. -/
def Obligations.FrameOfHostSide : Prop :=
  ∀ (c : Instr) (s t : State), exec c s = .next t →
    (match c with | .porstNAssert .. | .railFail .. | .readsServedPoint .. | .openRowReplayDone .. | .quiesceRequest .. | .retainedRequest .. | .resumeRequest .. | .quiesceDrainExpire .. | .quiesceComplete .. | .retainedResumeDone .. | .skimDueWrite .. | .modeApply .. | .portTrainingDone .. | .nextHopResolved .. | .nextHopTimeout .. | .rocePacketReceive .. | .cnpReceive .. | .rateRecoverTimer .. | .rdmaAckTimeout .. | .rdmaConnectRequest .. | .tcpSyn .. | .tcpIcreq .. | .h2cDataPdu .. | .tcpFatalPdu .. | .tenantCtlWrite .. | .commandFetch .. | .getLogPage .. | .identify .. | .abort .. | .setFeatures .. | .getFeatures .. | .asyncEventRequest .. | .asyncEventRaise .. | .firmwareImageDownload .. | .firmwareCommit .. | .namespaceAttachment .. | .keepAlive .. | .keepAliveTimeout .. | .formatNvm .. | .sanitize .. | .sanitizeBlockDone .. | .sanitizeExitFailure .. | .sirsisInbandSubmit .. | .sirsisInbandFetch .. | .invalidAdminOpcode .. | .connect .. | .propertySet .. | .propertyGet .. | .disconnect .. | .flush .. | .write .. | .read .. | .writeZeroes .. | .datasetManagement .. | .verify .. | .zoneAppend .. | .zoneOpen .. | .zoneClose .. | .zoneFinish .. | .zoneReset .. | .zoneOffline .. | .reportZones .. | .invalidIoOpcode .. | .dataPhaseStart .. | .writeCommit .. | .readTransferStart .. | .readTransferDone .. | .dataPhaseTimeout .. | .connectionLoss .. | .shrinkFinish .. | .memberLoss .. | .spareReplenish .. | .reservationReplace .. | .linkTrainingDone .. | .storedTrainingFallback .. | .retrainTimeout .. | .linkFail .. | .linkGraceExpire .. | .linkDisable .. | .maintFrameReceive .. | .dieLoss .. | .dieOpTimeout .. | .readPageDone .. | .readLevelDone .. | .programFoggyDone .. | .programFineDone .. | .programOneDone .. | .eraseDone .. | .eraseVerifyDone .. | .resumeDone .. | .identifyDone .. | .dieStatusDone .. | .standbyDone .. | .resetDieDone .. | .groupDrainStart .. | .groupWakeTimeout .. | .codewordDecodeDone .. | .ageTick .. | .darkRecompute .. | .probeResult .. | .programFailure .. | .dramCrcMismatch .. | .eraseBegin .. | .blockFree .. | .refreshRemap .. | .refreshPassComplete .. | .rebuildReplacementRetry .. | .journalPageAccept .. | .tagCompute .. | .deviceReset .. | .scWatchdogExpire .. | .mgmtPortWrite .. | .taskGo .. | .nop .. | .regRead .. | .regWrite .. | .regRmw .. | .stateReq .. | .devReset .. | .devResetDelayExpire .. | .timeSet .. | .portCfg .. | .portRead .. | .aclAdd .. | .aclRemove .. | .aclList .. | .nsCreate .. | .nsDelete .. | .nsMove .. | .nsResize .. | .nsInfo .. | .zoneHint .. | .homeRead .. | .shelfClimate .. | .modelLoad .. | .fwDownload .. | .fwCommit .. | .protSet .. | .protectionEraseDone .. | .hbRead .. | .healthRead .. | .activationPause .. | .activationAbandon .. | .sectorEraseDone .. | .pageProgramDone .. | .eventFifoDrain .. | .inputFilterChange .. | .thermalSample .. | .regPairHighWrite .. | .regPairLowWrite .. | .w1cWrite .. | .registerWrite .. | .tcpCapsuleCmd .. | .invalidFabricsCommand .. | .zoneSendInvalidAction .. | .rnrRetryTimer .. => True | _ => (t.hfe.conns,
    t.hfe.nextConn) = (s.hfe.conns, s.hfe.nextConn)) ∧
    (match c with | .bootSlotSelect .. | .dramTrainingDone .. | .adminServedPoint .. | .retainedEntry .. | .pwrwarnStuck .. | .pwrwarnUnstick .. | .timeMark .. | .modeSave .. | .modeForget .. | .nextHopResolved .. | .pfcXoffRepeat .. | .cnpReceive .. | .rateRecoverTimer .. | .rdmaConnectRequest .. | .tcpSyn .. | .tcpRetransmitTimeout .. | .ptpMessageReceive .. | .ptpTsRead .. | .portCntClear .. | .taskQuotaWrite .. | .zoneQuotaWrite .. | .connQuotaWrite .. | .diesetWrite .. | .connBucketRefill .. | .bwInterval .. | .powerEntitlementRecompute .. | .powerTokenGrant .. | .shutdownNotification .. | .readyListRefill .. | .rehome .. | .logStripeAssemble .. | .lockLossTimeout .. | .linkRetryTimer .. | .linkEnable .. | .linkRetrainRequest .. | .linkFullTrainRequest .. | .flashFrameReceive .. | .flashNakReceive .. | .flashReplayTimeout .. | .maintFrameSend .. | .suspendDone .. | .readCalDone .. | .readDefectsDone .. | .echoDone .. | .suspendDeferred .. | .groupWake .. | .groupWakeWrite .. | .powerBudgetWrite .. | .l5Reconstruct .. | .sampleHoldExpire .. | .exitCntClear .. | .arrheniusConstantWrite .. | .shelfTempWrite .. | .shelfTempExpire .. | .pilotReport .. | .learnResetDie .. | .learnResetAll .. | .rowComplete .. | .parkTimeout .. | .stageHorizon .. | .horizonMiss .. | .coolerBlockReclaim .. | .churnStart .. | .unitRemap .. | .blockRelease .. | .scanProbe .. | .refreshStart .. | .wearLevelCheck .. | .rebuildRow .. | .mmeRateWindow .. | .mmeFloorWrite .. | .journalPageSeal .. | .journalCopyFail .. | .checkpointStart .. | .checkpointStartWrite .. | .checkpointComplete .. | .rebaseCopyRow .. | .tagCheck .. | .keyWordWrite .. | .keyCommit .. | .keyActivate .. | .keyClear .. | .keyActionResult .. | .bufferAllocate .. | .bufferRelease .. | .bufferHandOver .. | .bufferReference .. | .bufferCancel .. | .freeListRebuildDone .. | .bpmCntClear .. | .dramRefresh .. | .refreshRatePoll .. | .rowHammerRfm .. | .activationWindowEnd .. | .throttleExpire .. | .panicAssert .. | .panicRelease .. | .panicLong .. | .rowCloseTimer .. | .dqsTracking .. | .zqCalibration .. | .referenceGood .. | .rcReady .. | .rcTrimWrite .. | .switchRetry .. | .clockSwitchDone .. | .rootPllLock .. | .accPllRelock .. | .doubleFaultSelfRefresh .. | .clockSwitchRequest .. | .ccWatchdogExpire .. | .trstAssert .. | .tuStep .. | .tuNowRead .. | .ptpServoUpdate .. | .ptpSyncTimeout .. | .holdoverExpire .. | .loadWindow .. | .taskReplyDone .. | .entdaa .. | .setdasa .. | .rstdaa .. | .enec .. | .disec .. | .getpid .. | .getbcr .. | .getdcr .. | .getstatus .. | .getmwl .. | .nvmeMiBasicRead .. | .probationEnd .. | .sectorErase .. | .pageProgram .. | .storeEraseResume .. | .continuousRead .. | .settingsCompact .. | .settingsPageProgram .. | .eventFire .. | .eventTokenRefill .. | .summaryEnter .. | .herdbookPageProgram .. | .herdbookSectorFail .. | .mirrorProgram .. | .swRaise .. | .inputTransition .. | .chatterMaskEnd .. | .chatterWindowEnd .. | .extest .. | .idcode .. | .samplePreload .. | .clamp .. | .highz .. | .bypass .. | .manufacturingTest .. | .regPairLowRead .. | .regPairHighRead .. | .rcRead .. | .railsGood .. | .syncCandidateOpen .. | .ptpDelayReqSend .. | .hdrEntry .. | .hdrExitPattern .. | .unsupportedCcc .. | .storeEraseSuspend .. => t.hfe.ports = s.hfe.ports | _ => True) ∧
    (match c with | .porstNAssert .. | .porstNRelease .. | .railFail .. | .signatureCheckDone .. | .quiesceRequest .. | .retainedRequest .. | .resumeRequest .. | .quiesceComplete .. | .retainedResumeDone .. | .modeApply .. | .laneLossOfLockTimeout .. | .laneUncorrInterval .. | .portTrainingDone .. | .narrowCandidateTimeout .. | .portRetrainTimer .. | .portWiden .. | .autoWidenTimer .. | .monitorWindow .. | .stoppedClockTrip .. | .pllLockLoss .. | .rcCheckWindow .. | .deviceReset .. | .scWatchdogExpire .. | .regWrite .. | .regRmw .. | .stateReq .. | .devResetDelayExpire .. | .protectionEraseDone .. | .activationPause .. | .activationAbandon .. | .thermalSample .. | .regPairHighWrite .. | .regPairLowWrite .. | .w1cWrite .. | .registerWrite .. => True | _ => t.hfe.lanes = s.hfe.lanes) ∧
    (match c with | .porstNAssert .. | .railFail .. | .readsServedPoint .. | .openRowReplayDone .. | .quiesceRequest .. | .retainedRequest .. | .resumeRequest .. | .quiesceDrainExpire .. | .quiesceComplete .. | .retainedResumeDone .. | .skimDueWrite .. | .modeApply .. | .laneUncorrInterval .. | .portTrainingDone .. | .nextHopTimeout .. | .frameReceive .. | .pfcXoffRepeat .. | .pfcXon .. | .pfcFrameReceive .. | .pfcStormDetect .. | .rocePacketReceive .. | .cnpReceive .. | .rdmaAckTimeout .. | .tcpIcreq .. | .h2cDataPdu .. | .tcpFatalPdu .. | .tcpRetransmitTimeout .. | .portCntClear .. | .tenantCtlWrite .. | .commandFetch .. | .getLogPage .. | .identify .. | .abort .. | .setFeatures .. | .getFeatures .. | .asyncEventRequest .. | .asyncEventRaise .. | .firmwareImageDownload .. | .firmwareCommit .. | .namespaceAttachment .. | .keepAlive .. | .keepAliveTimeout .. | .formatNvm .. | .sanitize .. | .sanitizeBlockDone .. | .sanitizeExitFailure .. | .sirsisInbandSubmit .. | .sirsisInbandFetch .. | .invalidAdminOpcode .. | .connect .. | .propertySet .. | .propertyGet .. | .disconnect .. | .flush .. | .write .. | .read .. | .writeZeroes .. | .datasetManagement .. | .verify .. | .zoneAppend .. | .zoneOpen .. | .zoneClose .. | .zoneFinish .. | .zoneReset .. | .zoneOffline .. | .reportZones .. | .invalidIoOpcode .. | .dataPhaseStart .. | .writeCommit .. | .readTransferStart .. | .readTransferDone .. | .dataPhaseTimeout .. | .connectionLoss .. | .shrinkFinish .. | .memberLoss .. | .spareReplenish .. | .reservationReplace .. | .linkTrainingDone .. | .storedTrainingFallback .. | .retrainTimeout .. | .linkFail .. | .linkGraceExpire .. | .linkDisable .. | .maintFrameReceive .. | .dieLoss .. | .dieOpTimeout .. | .readPageDone .. | .readLevelDone .. | .programFoggyDone .. | .programFineDone .. | .programOneDone .. | .eraseDone .. | .eraseVerifyDone .. | .resumeDone .. | .identifyDone .. | .dieStatusDone .. | .standbyDone .. | .resetDieDone .. | .groupDrainStart .. | .groupWakeTimeout .. | .codewordDecodeDone .. | .ageTick .. | .darkRecompute .. | .probeResult .. | .programFailure .. | .dramCrcMismatch .. | .eraseBegin .. | .blockFree .. | .refreshRemap .. | .refreshPassComplete .. | .rebuildReplacementRetry .. | .journalPageAccept .. | .tagCompute .. | .deviceReset .. | .scWatchdogExpire .. | .mgmtPortWrite .. | .taskGo .. | .nop .. | .regRead .. | .regWrite .. | .regRmw .. | .stateReq .. | .devReset .. | .devResetDelayExpire .. | .timeSet .. | .portCfg .. | .portRead .. | .aclAdd .. | .aclRemove .. | .aclList .. | .nsCreate .. | .nsDelete .. | .nsMove .. | .nsResize .. | .nsInfo .. | .zoneHint .. | .homeRead .. | .shelfClimate .. | .modelLoad .. | .fwDownload .. | .fwCommit .. | .protSet .. | .protectionEraseDone .. | .hbRead .. | .healthRead .. | .activationPause .. | .activationAbandon .. | .sectorEraseDone .. | .pageProgramDone .. | .eventFifoDrain .. | .inputFilterChange .. | .thermalSample .. | .regPairHighWrite .. | .regPairLowWrite .. | .w1cWrite .. | .registerWrite .. | .pfcPauseExpire .. | .tcpCapsuleCmd .. | .invalidFabricsCommand .. | .zoneSendInvalidAction .. | .rnrRetryTimer .. => True | _ => t.hfe.counters = s.hfe.counters) ∧
    (match c with | .porstNAssert .. | .porstNRelease .. | .railFail .. | .bootSlotSelect .. | .modeApply .. | .laneLossOfLockTimeout .. | .laneUncorrInterval .. | .portTrainingDone .. | .narrowCandidateTimeout .. | .nextHopResolved .. | .ptpMessageReceive .. | .ptpTsRead .. | .tenantCtlWrite .. | .bwInterval .. | .deviceReset .. | .scWatchdogExpire .. | .regRead .. | .regWrite .. | .regRmw .. | .devResetDelayExpire .. | .portCfg .. | .aclAdd .. | .aclRemove .. | .protectionEraseDone .. | .thermalSample .. | .regPairLowRead .. | .regPairHighRead .. | .regPairHighWrite .. | .regPairLowWrite .. | .rcRead .. | .w1cWrite .. | .registerWrite .. | .ptpDelayReqSend .. => True | _ => (t.hfe.mode,
    t.hfe.training, t.hfe.strapBad, t.hfe.savedMode, t.hfe.addrs, t.hfe.neigh, t.hfe.fifo, t.hfe.lastTs, t.hfe.masters, t.hfe.carry,
    t.hfe.discGen) = (s.hfe.mode, s.hfe.training, s.hfe.strapBad, s.hfe.savedMode, s.hfe.addrs, s.hfe.neigh, s.hfe.fifo, s.hfe.lastTs, s.hfe.masters,
    s.hfe.carry, s.hfe.discGen)) ∧
    (match c with | .porstNAssert .. | .railFail .. | .readsServedPoint .. | .openRowReplayDone .. | .quiesceRequest .. | .retainedRequest .. | .resumeRequest .. | .quiesceDrainExpire .. | .quiesceComplete .. | .retainedResumeDone .. | .skimDueWrite .. | .modeApply .. | .portTrainingDone .. | .nextHopTimeout .. | .rocePacketReceive .. | .rdmaAckTimeout .. | .tcpIcreq .. | .h2cDataPdu .. | .tcpFatalPdu .. | .tenantCtlWrite .. | .commandFetch .. | .getLogPage .. | .identify .. | .abort .. | .setFeatures .. | .getFeatures .. | .asyncEventRequest .. | .asyncEventRaise .. | .firmwareImageDownload .. | .firmwareCommit .. | .namespaceAttachment .. | .keepAlive .. | .keepAliveTimeout .. | .formatNvm .. | .sanitize .. | .sanitizeBlockDone .. | .sanitizeExitFailure .. | .sirsisInbandSubmit .. | .sirsisInbandFetch .. | .invalidAdminOpcode .. | .connect .. | .propertySet .. | .propertyGet .. | .disconnect .. | .flush .. | .write .. | .read .. | .writeZeroes .. | .datasetManagement .. | .verify .. | .zoneAppend .. | .zoneOpen .. | .zoneClose .. | .zoneFinish .. | .zoneReset .. | .zoneOffline .. | .reportZones .. | .invalidIoOpcode .. | .dataPhaseStart .. | .writeCommit .. | .readTransferStart .. | .readTransferDone .. | .dataPhaseTimeout .. | .connectionLoss .. | .shrinkFinish .. | .memberLoss .. | .spareReplenish .. | .reservationReplace .. | .linkTrainingDone .. | .storedTrainingFallback .. | .retrainTimeout .. | .linkFail .. | .linkGraceExpire .. | .linkDisable .. | .maintFrameReceive .. | .dieLoss .. | .dieOpTimeout .. | .readPageDone .. | .readLevelDone .. | .programFoggyDone .. | .programFineDone .. | .programOneDone .. | .eraseDone .. | .eraseVerifyDone .. | .resumeDone .. | .identifyDone .. | .dieStatusDone .. | .standbyDone .. | .resetDieDone .. | .groupDrainStart .. | .groupWakeTimeout .. | .codewordDecodeDone .. | .ageTick .. | .darkRecompute .. | .probeResult .. | .programFailure .. | .dramCrcMismatch .. | .eraseBegin .. | .blockFree .. | .refreshRemap .. | .refreshPassComplete .. | .rebuildReplacementRetry .. | .journalPageAccept .. | .tagCompute .. | .tagCheck .. | .deviceReset .. | .scWatchdogExpire .. | .mgmtPortWrite .. | .taskGo .. | .nop .. | .regRead .. | .regWrite .. | .regRmw .. | .stateReq .. | .devReset .. | .devResetDelayExpire .. | .timeSet .. | .portCfg .. | .portRead .. | .aclAdd .. | .aclRemove .. | .aclList .. | .nsCreate .. | .nsDelete .. | .nsMove .. | .nsResize .. | .nsInfo .. | .zoneHint .. | .homeRead .. | .shelfClimate .. | .modelLoad .. | .fwDownload .. | .fwCommit .. | .protSet .. | .protectionEraseDone .. | .hbRead .. | .healthRead .. | .activationPause .. | .activationAbandon .. | .sectorEraseDone .. | .pageProgramDone .. | .eventFifoDrain .. | .inputFilterChange .. | .thermalSample .. | .regPairHighWrite .. | .regPairLowWrite .. | .w1cWrite .. | .registerWrite .. | .invalidFabricsCommand .. | .zoneSendInvalidAction .. | .rnrRetryTimer .. => True | _ => t.qe.tasks = s.qe.tasks) ∧
    (match c with | .porstNAssert .. | .railFail .. | .readsServedPoint .. | .openRowReplayDone .. | .quiesceRequest .. | .retainedRequest .. | .resumeRequest .. | .quiesceComplete .. | .retainedResumeDone .. | .skimDueWrite .. | .modeApply .. | .portTrainingDone .. | .nextHopTimeout .. | .rocePacketReceive .. | .rdmaAckTimeout .. | .tcpIcreq .. | .tcpFatalPdu .. | .tenantCtlWrite .. | .getLogPage .. | .abort .. | .setFeatures .. | .asyncEventRequest .. | .asyncEventRaise .. | .firmwareCommit .. | .namespaceAttachment .. | .keepAlive .. | .keepAliveTimeout .. | .sanitizeBlockDone .. | .connect .. | .propertySet .. | .shutdownNotification .. | .disconnect .. | .write .. | .writeZeroes .. | .zoneAppend .. | .zoneOpen .. | .zoneClose .. | .zoneFinish .. | .zoneReset .. | .zoneOffline .. | .writeCommit .. | .readTransferStart .. | .connectionLoss .. | .shrinkFinish .. | .memberLoss .. | .spareReplenish .. | .reservationReplace .. | .linkTrainingDone .. | .storedTrainingFallback .. | .retrainTimeout .. | .linkFail .. | .linkGraceExpire .. | .linkDisable .. | .maintFrameReceive .. | .dieLoss .. | .dieOpTimeout .. | .readPageDone .. | .readLevelDone .. | .programFoggyDone .. | .programFineDone .. | .programOneDone .. | .eraseDone .. | .eraseVerifyDone .. | .resumeDone .. | .identifyDone .. | .dieStatusDone .. | .standbyDone .. | .resetDieDone .. | .groupDrainStart .. | .groupWakeTimeout .. | .codewordDecodeDone .. | .ageTick .. | .darkRecompute .. | .probeResult .. | .programFailure .. | .dramCrcMismatch .. | .eraseBegin .. | .blockFree .. | .refreshRemap .. | .refreshPassComplete .. | .rebuildReplacementRetry .. | .journalPageAccept .. | .deviceReset .. | .scWatchdogExpire .. | .regWrite .. | .regRmw .. | .stateReq .. | .devResetDelayExpire .. | .portCfg .. | .aclAdd .. | .aclRemove .. | .nsCreate .. | .nsDelete .. | .nsMove .. | .nsResize .. | .shelfClimate .. | .fwCommit .. | .protectionEraseDone .. | .activationPause .. | .activationAbandon .. | .sectorEraseDone .. | .pageProgramDone .. | .eventFifoDrain .. | .thermalSample .. | .regPairHighWrite .. | .regPairLowWrite .. | .w1cWrite .. | .registerWrite .. | .rnrRetryTimer .. => True | _ => t.qe.ctls = s.qe.ctls) ∧
    (match c with | .porstNAssert .. | .railFail .. | .bootSlotSelect .. | .readsServedPoint .. | .openRowReplayDone .. | .retainedResumeDone .. | .rdmaConnectRequest .. | .tcpSyn .. | .tenantCtlWrite .. | .connQuotaWrite .. | .diesetWrite .. | .connBucketRefill .. | .bwInterval .. | .powerEntitlementRecompute .. | .commandFetch .. | .sanitizeBlockDone .. | .write .. | .writeZeroes .. | .zoneAppend .. | .zoneOpen .. | .zoneClose .. | .zoneFinish .. | .zoneReset .. | .zoneOffline .. | .dataPhaseStart .. | .writeCommit .. | .readTransferStart .. | .readTransferDone .. | .shrinkFinish .. | .memberLoss .. | .spareReplenish .. | .reservationReplace .. | .linkTrainingDone .. | .storedTrainingFallback .. | .retrainTimeout .. | .linkFail .. | .linkGraceExpire .. | .linkDisable .. | .maintFrameReceive .. | .dieLoss .. | .dieOpTimeout .. | .readPageDone .. | .readLevelDone .. | .programFoggyDone .. | .programFineDone .. | .programOneDone .. | .eraseDone .. | .eraseVerifyDone .. | .resumeDone .. | .identifyDone .. | .dieStatusDone .. | .standbyDone .. | .resetDieDone .. | .groupDrainStart .. | .groupWakeTimeout .. | .codewordDecodeDone .. | .programFailure .. | .eraseBegin .. | .blockFree .. | .refreshRemap .. | .rebuildReplacementRetry .. | .journalPageAccept .. | .deviceReset .. | .scWatchdogExpire .. | .regWrite .. | .regRmw .. | .devResetDelayExpire .. | .aclAdd .. | .aclRemove .. | .nsCreate .. | .nsDelete .. | .nsMove .. | .protectionEraseDone .. | .thermalSample .. | .regPairHighWrite .. | .regPairLowWrite .. | .w1cWrite .. | .registerWrite .. => True | _ => t.qe.tenants = s.qe.tenants) ∧
    (match c with | .porstNAssert .. | .railFail .. | .tenantCtlWrite .. | .taskQuotaWrite .. | .zoneQuotaWrite .. | .connQuotaWrite .. | .diesetWrite .. | .write .. | .writeZeroes .. | .zoneAppend .. | .zoneOpen .. | .zoneClose .. | .zoneFinish .. | .zoneReset .. | .zoneOffline .. | .deviceReset .. | .scWatchdogExpire .. | .regWrite .. | .regRmw .. | .devResetDelayExpire .. | .protectionEraseDone .. | .thermalSample .. | .regPairHighWrite .. | .regPairLowWrite .. | .w1cWrite .. | .registerWrite .. => True | _ => (t.qe.cfgCode,
    t.qe.cfgTenant, t.qe.order) = (s.qe.cfgCode, s.qe.cfgTenant, s.qe.order))

/-- When a command answers a next state, the Sirsis paths, the admissions, the activation, the rest of the management complex, the stored registers, the outputs and the count of free values are unchanged unless the command is one of those named for that part (or, where fewer are named, unchanged by each command named). Where the spec leaves a choice the clauses follow the model's: log entries 2. -/
def Obligations.FrameOfManagementAndRegisters : Prop :=
  ∀ (c : Instr) (s t : State), exec c s = .next t →
    (match c with | .porstNAssert .. | .porstNRelease .. | .railFail .. | .adminServedPoint .. | .openRowReplayDone .. | .quiesceRequest .. | .retainedRequest .. | .resumeRequest .. | .retainedEntry .. | .retainedResumeDone .. | .pwrwarnStuck .. | .modeApply .. | .nextHopTimeout .. | .rocePacketReceive .. | .rdmaAckTimeout .. | .tcpIcreq .. | .tcpFatalPdu .. | .tenantCtlWrite .. | .firmwareCommit .. | .keepAliveTimeout .. | .sirsisInbandSubmit .. | .disconnect .. | .connectionLoss .. | .dramCrcMismatch .. | .deviceReset .. | .scWatchdogExpire .. | .mgmtPortWrite .. | .taskGo .. | .taskReplyDone .. | .nop .. | .regRead .. | .regWrite .. | .regRmw .. | .stateReq .. | .devReset .. | .devResetDelayExpire .. | .timeSet .. | .portCfg .. | .portRead .. | .aclAdd .. | .aclRemove .. | .aclList .. | .nsCreate .. | .nsDelete .. | .nsMove .. | .nsResize .. | .nsInfo .. | .zoneHint .. | .homeRead .. | .shelfClimate .. | .modelLoad .. | .fwDownload .. | .fwCommit .. | .protSet .. | .protectionEraseDone .. | .hbRead .. | .healthRead .. | .activationPause .. | .activationAbandon .. | .sectorEraseDone .. | .pageProgramDone .. | .inputTransition .. | .inputFilterChange .. | .thermalSample .. | .regPairHighWrite .. | .regPairLowWrite .. | .w1cWrite .. | .registerWrite .. | .rnrRetryTimer .. => True | _ => t.mgc.paths = s.mgc.paths) ∧
    (match c with | .porstNAssert .. | .railFail .. | .readsServedPoint .. | .openRowReplayDone .. | .quiesceRequest .. | .retainedRequest .. | .resumeRequest .. | .quiesceDrainExpire .. | .quiesceComplete .. | .retainedResumeDone .. | .skimDueWrite .. | .modeApply .. | .portTrainingDone .. | .nextHopTimeout .. | .rocePacketReceive .. | .rdmaAckTimeout .. | .tcpIcreq .. | .h2cDataPdu .. | .tcpFatalPdu .. | .tenantCtlWrite .. | .commandFetch .. | .getLogPage .. | .identify .. | .abort .. | .setFeatures .. | .getFeatures .. | .asyncEventRequest .. | .asyncEventRaise .. | .firmwareImageDownload .. | .firmwareCommit .. | .namespaceAttachment .. | .keepAlive .. | .keepAliveTimeout .. | .formatNvm .. | .sanitize .. | .sanitizeBlockDone .. | .sanitizeExitFailure .. | .sirsisInbandSubmit .. | .sirsisInbandFetch .. | .invalidAdminOpcode .. | .connect .. | .propertySet .. | .propertyGet .. | .disconnect .. | .flush .. | .write .. | .read .. | .writeZeroes .. | .datasetManagement .. | .verify .. | .zoneAppend .. | .zoneOpen .. | .zoneClose .. | .zoneFinish .. | .zoneReset .. | .zoneOffline .. | .reportZones .. | .invalidIoOpcode .. | .writeCommit .. | .readTransferStart .. | .readTransferDone .. | .dataPhaseTimeout .. | .connectionLoss .. | .shrinkFinish .. | .memberLoss .. | .spareReplenish .. | .reservationReplace .. | .linkTrainingDone .. | .storedTrainingFallback .. | .retrainTimeout .. | .linkFail .. | .linkGraceExpire .. | .linkDisable .. | .maintFrameReceive .. | .dieLoss .. | .dieOpTimeout .. | .readPageDone .. | .readLevelDone .. | .programFoggyDone .. | .programFineDone .. | .programOneDone .. | .eraseDone .. | .eraseVerifyDone .. | .resumeDone .. | .identifyDone .. | .dieStatusDone .. | .standbyDone .. | .resetDieDone .. | .groupDrainStart .. | .groupWakeTimeout .. | .codewordDecodeDone .. | .ageTick .. | .darkRecompute .. | .probeResult .. | .programFailure .. | .dramCrcMismatch .. | .eraseBegin .. | .blockFree .. | .refreshRemap .. | .refreshPassComplete .. | .rebuildReplacementRetry .. | .journalPageAccept .. | .tagCompute .. | .deviceReset .. | .scWatchdogExpire .. | .mgmtPortWrite .. | .taskGo .. | .nop .. | .regRead .. | .regWrite .. | .regRmw .. | .stateReq .. | .devReset .. | .devResetDelayExpire .. | .timeSet .. | .portCfg .. | .portRead .. | .aclAdd .. | .aclRemove .. | .aclList .. | .nsCreate .. | .nsDelete .. | .nsMove .. | .nsResize .. | .nsInfo .. | .zoneHint .. | .homeRead .. | .shelfClimate .. | .modelLoad .. | .fwDownload .. | .fwCommit .. | .protSet .. | .protectionEraseDone .. | .hbRead .. | .healthRead .. | .activationPause .. | .activationAbandon .. | .sectorEraseDone .. | .pageProgramDone .. | .eventFifoDrain .. | .inputFilterChange .. | .thermalSample .. | .regPairHighWrite .. | .regPairLowWrite .. | .w1cWrite .. | .registerWrite .. | .invalidFabricsCommand .. | .zoneSendInvalidAction .. | .rnrRetryTimer .. => True | _ => (t.mgc.admitted,
    t.mgc.admittedAll) = (s.mgc.admitted, s.mgc.admittedAll)) ∧
    (match c with | .porstNAssert .. | .railFail .. | .bootSlotSelect .. | .quiesceRequest .. | .retainedRequest .. | .resumeRequest .. | .firmwareCommit .. | .deviceReset .. | .scWatchdogExpire .. | .regWrite .. | .regRmw .. | .stateReq .. | .devReset .. | .devResetDelayExpire .. | .fwCommit .. | .protectionEraseDone .. | .activationPause .. | .activationAbandon .. | .probationEnd .. | .sectorEraseDone .. | .pageProgramDone .. | .inputFilterChange .. | .thermalSample .. | .regPairHighWrite .. | .regPairLowWrite .. | .w1cWrite .. | .registerWrite .. => True | _ => (t.mgc.actPhase,
    t.mgc.actFailed, t.mgc.actSlot, t.mgc.pauseUs, t.mgc.resetPending, t.mgc.actHeld) = (s.mgc.actPhase, s.mgc.actFailed, s.mgc.actSlot, s.mgc.pauseUs,
    s.mgc.resetPending, s.mgc.actHeld)) ∧
    (match c with | .porstNAssert .. | .railFail .. | .bootSlotSelect .. | .deviceReset .. | .scWatchdogExpire .. | .loadWindow .. | .mgmtPortWrite .. | .taskGo .. | .taskReplyDone .. | .entdaa .. | .setdasa .. | .rstdaa .. | .enec .. | .disec .. | .regWrite .. | .regRmw .. | .devResetDelayExpire .. | .protectionEraseDone .. | .activationPause .. | .thermalSample .. | .regPairHighWrite .. | .regPairLowWrite .. | .w1cWrite .. | .registerWrite .. | .hdrEntry .. | .hdrExitPattern .. => True | _ => (t.mgc.activeBank,
    t.mgc.buf, t.mgc.portOff, t.mgc.taskSt, t.mgc.overrun, t.mgc.ibiEn, t.mgc.replyLen, t.mgc.dynAddr, t.mgc.ibiAllowed, t.mgc.hdrIgnore, t.mgc.loads,
    t.mgc.scLoad, t.mgc.shed, t.mgc.lowRun, t.mgc.svcSum, t.mgc.svcCount, t.mgc.revision, t.mgc.hoOwn) = (s.mgc.activeBank, s.mgc.buf, s.mgc.portOff,
    s.mgc.taskSt, s.mgc.overrun, s.mgc.ibiEn, s.mgc.replyLen, s.mgc.dynAddr, s.mgc.ibiAllowed, s.mgc.hdrIgnore, s.mgc.loads, s.mgc.scLoad, s.mgc.shed,
    s.mgc.lowRun, s.mgc.svcSum, s.mgc.svcCount, s.mgc.revision, s.mgc.hoOwn)) ∧
    (match c with | .pwrwarnUnstick .. | .timeMark .. | .modeSave .. | .modeForget .. | .nextHopResolved .. | .frameReceive .. | .pfcXoffRepeat .. | .pfcXon .. | .pfcFrameReceive .. | .pfcStormEnd .. | .cnpReceive .. | .rateRecoverTimer .. | .tcpRetransmitTimeout .. | .ptpTsRead .. | .portCntClear .. | .connBucketRefill .. | .bwInterval .. | .powerEntitlementRecompute .. | .getLogPage .. | .identify .. | .getFeatures .. | .asyncEventRequest .. | .asyncEventRaise .. | .firmwareImageDownload .. | .namespaceAttachment .. | .keepAlive .. | .formatNvm .. | .sanitize .. | .sanitizeExitFailure .. | .sirsisInbandFetch .. | .invalidAdminOpcode .. | .connect .. | .propertySet .. | .propertyGet .. | .datasetManagement .. | .reportZones .. | .invalidIoOpcode .. | .readTransferDone .. | .readyListRefill .. | .rehome .. | .linkRetryTimer .. | .linkFullTrainRequest .. | .maintFrameSend .. | .suspendDone .. | .readDefectsDone .. | .echoDone .. | .suspendDeferred .. | .groupWake .. | .l5Reconstruct .. | .shelfTempExpire .. | .learnResetDie .. | .learnResetAll .. | .rowComplete .. | .parkTimeout .. | .unitRemap .. | .scanProbe .. | .refreshStart .. | .wearLevelCheck .. | .mmeRateWindow .. | .journalPageSeal .. | .checkpointStart .. | .rebaseCopyRow .. | .keyWordWrite .. | .dramRefresh .. | .refreshRatePoll .. | .activationWindowEnd .. | .throttleExpire .. | .panicAssert .. | .panicRelease .. | .rowCloseTimer .. | .dqsTracking .. | .zqCalibration .. | .rcReady .. | .accPllRelock .. | .doubleFaultSelfRefresh .. | .trstAssert .. | .tuNowRead .. | .taskReplyDone .. | .entdaa .. | .setdasa .. | .rstdaa .. | .enec .. | .disec .. | .getpid .. | .getbcr .. | .getdcr .. | .getstatus .. | .getmwl .. | .nvmeMiBasicRead .. | .nop .. | .devReset .. | .portRead .. | .aclAdd .. | .aclList .. | .nsResize .. | .nsInfo .. | .zoneHint .. | .homeRead .. | .modelLoad .. | .fwDownload .. | .hbRead .. | .healthRead .. | .probationEnd .. | .sectorErase .. | .pageProgram .. | .storeEraseResume .. | .settingsCompact .. | .settingsPageProgram .. | .eventTokenRefill .. | .summaryEnter .. | .herdbookPageProgram .. | .chatterMaskEnd .. | .chatterWindowEnd .. | .extest .. | .idcode .. | .samplePreload .. | .clamp .. | .highz .. | .bypass .. | .manufacturingTest .. | .railsGood .. | .syncCandidateOpen .. | .pfcPauseExpire .. | .tcpCapsuleCmd .. | .invalidFabricsCommand .. | .zoneSendInvalidAction .. | .hdrEntry .. | .hdrExitPattern .. | .unsupportedCcc .. | .storeEraseSuspend .. => t.regs = s.regs | _ => True) ∧
    (match c with | .porstNAssert .. | .railFail .. | .pwrwarnUnstick .. | .timeMark .. | .modeSave .. | .modeForget .. | .pfcFrameReceive .. | .pfcStormEnd .. | .cnpReceive .. | .rateRecoverTimer .. | .tcpRetransmitTimeout .. | .portCntClear .. | .taskQuotaWrite .. | .zoneQuotaWrite .. | .connQuotaWrite .. | .diesetWrite .. | .connBucketRefill .. | .bwInterval .. | .powerEntitlementRecompute .. | .readyListRefill .. | .rehome .. | .linkRetryTimer .. | .linkEnable .. | .linkFullTrainRequest .. | .readDefectsDone .. | .echoDone .. | .groupWake .. | .groupWakeWrite .. | .l5Reconstruct .. | .exitCntClear .. | .arrheniusConstantWrite .. | .shelfTempWrite .. | .shelfTempExpire .. | .learnResetDie .. | .learnResetAll .. | .rowComplete .. | .unitRemap .. | .refreshStart .. | .wearLevelCheck .. | .mmeRateWindow .. | .mmeFloorWrite .. | .checkpointStart .. | .checkpointStartWrite .. | .rebaseCopyRow .. | .keyWordWrite .. | .bpmCntClear .. | .dramRefresh .. | .refreshRatePoll .. | .activationWindowEnd .. | .throttleExpire .. | .panicAssert .. | .panicRelease .. | .rowCloseTimer .. | .dqsTracking .. | .zqCalibration .. | .rcReady .. | .rcTrimWrite .. | .switchRetry .. | .accPllRelock .. | .doubleFaultSelfRefresh .. | .trstAssert .. | .entdaa .. | .setdasa .. | .rstdaa .. | .enec .. | .disec .. | .probationEnd .. | .sectorErase .. | .pageProgram .. | .storeEraseResume .. | .settingsCompact .. | .settingsPageProgram .. | .eventTokenRefill .. | .summaryEnter .. | .herdbookPageProgram .. | .chatterMaskEnd .. | .chatterWindowEnd .. | .extest .. | .samplePreload .. | .clamp .. | .highz .. | .bypass .. | .manufacturingTest .. | .railsGood .. | .syncCandidateOpen .. | .pfcPauseExpire .. | .hdrEntry .. | .hdrExitPattern .. | .storeEraseSuspend .. => t.out = s.out | _ => True) ∧
    (match c with | .porstNAssert .. | .railFail .. | .pwrwarnUnstick .. | .timeMark .. | .modeSave .. | .modeForget .. | .nextHopResolved .. | .frameReceive .. | .pfcXoffRepeat .. | .pfcXon .. | .pfcFrameReceive .. | .pfcStormEnd .. | .cnpReceive .. | .rateRecoverTimer .. | .tcpRetransmitTimeout .. | .ptpTsRead .. | .portCntClear .. | .taskQuotaWrite .. | .zoneQuotaWrite .. | .connQuotaWrite .. | .diesetWrite .. | .connBucketRefill .. | .bwInterval .. | .powerEntitlementRecompute .. | .commandFetch .. | .identify .. | .asyncEventRequest .. | .asyncEventRaise .. | .firmwareImageDownload .. | .namespaceAttachment .. | .keepAlive .. | .formatNvm .. | .sanitize .. | .sanitizeExitFailure .. | .sirsisInbandSubmit .. | .sirsisInbandFetch .. | .invalidAdminOpcode .. | .connect .. | .propertySet .. | .propertyGet .. | .datasetManagement .. | .reportZones .. | .invalidIoOpcode .. | .readTransferDone .. | .readyListRefill .. | .rehome .. | .linkRetryTimer .. | .linkEnable .. | .linkFullTrainRequest .. | .maintFrameSend .. | .suspendDone .. | .readDefectsDone .. | .echoDone .. | .suspendDeferred .. | .groupWake .. | .groupWakeWrite .. | .l5Reconstruct .. | .exitCntClear .. | .arrheniusConstantWrite .. | .shelfTempWrite .. | .shelfTempExpire .. | .learnResetDie .. | .learnResetAll .. | .rowComplete .. | .parkTimeout .. | .unitRemap .. | .scanProbe .. | .refreshStart .. | .wearLevelCheck .. | .mmeRateWindow .. | .mmeFloorWrite .. | .journalPageSeal .. | .checkpointStart .. | .checkpointStartWrite .. | .rebaseCopyRow .. | .keyWordWrite .. | .bpmCntClear .. | .refreshRatePoll .. | .activationWindowEnd .. | .throttleExpire .. | .panicAssert .. | .panicRelease .. | .rowCloseTimer .. | .dqsTracking .. | .zqCalibration .. | .rcReady .. | .rcTrimWrite .. | .switchRetry .. | .accPllRelock .. | .doubleFaultSelfRefresh .. | .trstAssert .. | .tuNowRead .. | .mgmtPortWrite .. | .taskGo .. | .taskReplyDone .. | .entdaa .. | .setdasa .. | .rstdaa .. | .enec .. | .disec .. | .getpid .. | .getbcr .. | .getdcr .. | .getmwl .. | .nvmeMiBasicRead .. | .nop .. | .devReset .. | .portRead .. | .aclAdd .. | .aclList .. | .nsResize .. | .nsInfo .. | .zoneHint .. | .homeRead .. | .modelLoad .. | .fwDownload .. | .hbRead .. | .healthRead .. | .sectorErase .. | .storeEraseResume .. | .eventTokenRefill .. | .summaryEnter .. | .eventFifoDrain .. | .swRaise .. | .chatterMaskEnd .. | .chatterWindowEnd .. | .extest .. | .idcode .. | .samplePreload .. | .clamp .. | .highz .. | .bypass .. | .manufacturingTest .. | .railsGood .. | .syncCandidateOpen .. | .pfcPauseExpire .. | .tcpCapsuleCmd .. | .invalidFabricsCommand .. | .zoneSendInvalidAction .. | .hdrEntry .. | .hdrExitPattern .. | .unsupportedCcc .. | .storeEraseSuspend .. => t.drawn = s.drawn | _ => True)

/-- When a command answers a next state, namespaces, zones, stripes, die-blocks, slices, Sanitize, the other tables, the durable copy and the data units are unchanged unless the command is one of those named for that part (or, where fewer are named, unchanged by each command named). Where the spec leaves a choice the clauses follow the model's: log entries 2. -/
def Obligations.FrameOfTables : Prop :=
  ∀ (c : Instr) (s t : State), exec c s = .next t →
    (match c with | .porstNAssert .. | .railFail .. | .readsServedPoint .. | .namespaceAttachment .. | .sanitizeBlockDone .. | .shutdownNotification .. | .flush .. | .read .. | .datasetManagement .. | .verify .. | .zoneOpen .. | .zoneClose .. | .zoneFinish .. | .zoneReset .. | .zoneOffline .. | .writeCommit .. | .journalPageAccept .. | .deviceReset .. | .scWatchdogExpire .. | .regWrite .. | .regRmw .. | .devResetDelayExpire .. | .nsCreate .. | .nsDelete .. | .nsMove .. | .nsResize .. | .protectionEraseDone .. | .thermalSample .. | .regPairHighWrite .. | .regPairLowWrite .. | .w1cWrite .. | .registerWrite .. => True | _ => t.tabs.nss = s.tabs.nss) ∧
    (match c with | .porstNAssert .. | .railFail .. | .readsServedPoint .. | .openRowReplayDone .. | .quiesceRequest .. | .retainedRequest .. | .resumeRequest .. | .quiesceDrainExpire .. | .quiesceComplete .. | .retainedResumeDone .. | .modeApply .. | .nextHopTimeout .. | .rocePacketReceive .. | .rdmaAckTimeout .. | .tcpIcreq .. | .h2cDataPdu .. | .tcpFatalPdu .. | .tenantCtlWrite .. | .abort .. | .keepAliveTimeout .. | .disconnect .. | .write .. | .writeZeroes .. | .zoneAppend .. | .zoneOpen .. | .zoneClose .. | .zoneFinish .. | .zoneReset .. | .zoneOffline .. | .writeCommit .. | .dataPhaseTimeout .. | .connectionLoss .. | .shrinkFinish .. | .memberLoss .. | .spareReplenish .. | .reservationReplace .. | .linkTrainingDone .. | .storedTrainingFallback .. | .retrainTimeout .. | .linkFail .. | .linkGraceExpire .. | .linkDisable .. | .maintFrameReceive .. | .dieLoss .. | .dieOpTimeout .. | .readPageDone .. | .readLevelDone .. | .programFoggyDone .. | .programFineDone .. | .programOneDone .. | .eraseDone .. | .eraseVerifyDone .. | .resumeDone .. | .identifyDone .. | .dieStatusDone .. | .resetDieDone .. | .groupWakeTimeout .. | .codewordDecodeDone .. | .programFailure .. | .dramCrcMismatch .. | .refreshStart .. | .refreshRemap .. | .rebuildReplacementRetry .. | .journalPageAccept .. | .rebaseCopyRow .. | .tagCompute .. | .deviceReset .. | .scWatchdogExpire .. | .regWrite .. | .regRmw .. | .stateReq .. | .devResetDelayExpire .. | .portCfg .. | .aclRemove .. | .zoneHint .. | .protectionEraseDone .. | .activationPause .. | .activationAbandon .. | .inputFilterChange .. | .thermalSample .. | .regPairHighWrite .. | .regPairLowWrite .. | .w1cWrite .. | .registerWrite .. | .rnrRetryTimer .. => True | _ => t.tabs.zones = s.tabs.zones) ∧
    (match c with | .porstNAssert .. | .railFail .. | .readsServedPoint .. | .openRowReplayDone .. | .retainedResumeDone .. | .write .. | .writeZeroes .. | .zoneAppend .. | .zoneOpen .. | .zoneClose .. | .zoneFinish .. | .zoneReset .. | .zoneOffline .. | .writeCommit .. | .memberLoss .. | .logStripeAssemble .. | .linkTrainingDone .. | .storedTrainingFallback .. | .retrainTimeout .. | .linkFail .. | .linkGraceExpire .. | .linkDisable .. | .maintFrameReceive .. | .dieLoss .. | .dieOpTimeout .. | .readPageDone .. | .readLevelDone .. | .programFoggyDone .. | .programFineDone .. | .programOneDone .. | .eraseDone .. | .eraseVerifyDone .. | .resumeDone .. | .identifyDone .. | .dieStatusDone .. | .resetDieDone .. | .groupWakeTimeout .. | .codewordDecodeDone .. | .rowComplete .. | .programFailure .. | .churnStart .. | .blockRelease .. | .refreshStart .. | .refreshRemap .. | .rebuildRow .. | .rebuildReplacementRetry .. | .journalPageAccept .. | .rebaseCopyRow .. | .deviceReset .. | .scWatchdogExpire .. | .regWrite .. | .regRmw .. | .devResetDelayExpire .. | .nsMove .. | .protectionEraseDone .. | .thermalSample .. | .regPairHighWrite .. | .regPairLowWrite .. | .w1cWrite .. | .registerWrite .. => True | _ => t.tabs.stripes = s.tabs.stripes) ∧
    (match c with | .porstNAssert .. | .railFail .. | .readsServedPoint .. | .openRowReplayDone .. | .quiesceRequest .. | .retainedRequest .. | .resumeRequest .. | .quiesceDrainExpire .. | .quiesceComplete .. | .retainedResumeDone .. | .pwrwarnStuck .. | .powerTokenGrant .. | .sanitizeBlockDone .. | .shutdownNotification .. | .flush .. | .write .. | .read .. | .writeZeroes .. | .verify .. | .zoneAppend .. | .zoneOpen .. | .zoneClose .. | .zoneFinish .. | .zoneReset .. | .zoneOffline .. | .writeCommit .. | .shrinkFinish .. | .memberLoss .. | .readyListRefill .. | .reservationReplace .. | .logStripeAssemble .. | .linkTrainingDone .. | .storedTrainingFallback .. | .retrainTimeout .. | .linkFail .. | .linkGraceExpire .. | .linkDisable .. | .maintFrameReceive .. | .dieLoss .. | .dieOpTimeout .. | .readPageDone .. | .readLevelDone .. | .programFoggyDone .. | .programFineDone .. | .programOneDone .. | .eraseDone .. | .eraseVerifyDone .. | .resumeDone .. | .identifyDone .. | .dieStatusDone .. | .standbyDone .. | .resetDieDone .. | .groupDrainStart .. | .groupWakeTimeout .. | .codewordDecodeDone .. | .darkRecompute .. | .probeResult .. | .stageHorizon .. | .coolerBlockReclaim .. | .programFailure .. | .blockRelease .. | .eraseBegin .. | .blockFree .. | .refreshStart .. | .refreshRemap .. | .rebuildRow .. | .rebuildReplacementRetry .. | .journalPageSeal .. | .journalPageAccept .. | .journalCopyFail .. | .checkpointComplete .. | .rebaseCopyRow .. | .deviceReset .. | .scWatchdogExpire .. | .regWrite .. | .regRmw .. | .stateReq .. | .devResetDelayExpire .. | .nsMove .. | .shelfClimate .. | .protectionEraseDone .. | .activationPause .. | .activationAbandon .. | .inputTransition .. | .inputFilterChange .. | .thermalSample .. | .regPairHighWrite .. | .regPairLowWrite .. | .w1cWrite .. | .registerWrite .. => True | _ => t.tabs.blocks = s.tabs.blocks) ∧
    (match c with | .porstNAssert .. | .railFail .. | .readsServedPoint .. | .quiesceRequest .. | .retainedRequest .. | .resumeRequest .. | .quiesceDrainExpire .. | .quiesceComplete .. | .shutdownNotification .. | .flush .. | .write .. | .read .. | .writeZeroes .. | .verify .. | .zoneAppend .. | .zoneOpen .. | .zoneClose .. | .zoneFinish .. | .zoneReset .. | .zoneOffline .. | .writeCommit .. | .stageHorizon .. | .coolerBlockReclaim .. | .journalPageAccept .. | .deviceReset .. | .scWatchdogExpire .. | .regWrite .. | .regRmw .. | .stateReq .. | .devResetDelayExpire .. | .protectionEraseDone .. | .activationPause .. | .activationAbandon .. | .thermalSample .. | .regPairHighWrite .. | .regPairLowWrite .. | .w1cWrite .. | .registerWrite .. => True | _ => t.tabs.slices = s.tabs.slices) ∧
    (match c with | .porstNAssert .. | .railFail .. | .readsServedPoint .. | .sanitizeBlockDone .. | .sanitizeExitFailure .. | .journalPageAccept .. | .deviceReset .. | .scWatchdogExpire .. | .regWrite .. | .regRmw .. | .devResetDelayExpire .. | .protectionEraseDone .. | .thermalSample .. | .regPairHighWrite .. | .regPairLowWrite .. | .w1cWrite .. | .registerWrite .. => True | _ => (t.tabs.san,
    t.tabs.sanLog) = (s.tabs.san, s.tabs.sanLog)) ∧
    (match c with | .porstNAssert .. | .railFail .. | .readsServedPoint .. | .rehome .. | .linkTrainingDone .. | .maintFrameReceive .. | .dieLoss .. | .dieOpTimeout .. | .readPageDone .. | .readLevelDone .. | .programFoggyDone .. | .programFineDone .. | .programOneDone .. | .eraseDone .. | .eraseVerifyDone .. | .resumeDone .. | .identifyDone .. | .readDefectsDone .. | .dieStatusDone .. | .codewordDecodeDone .. | .churnStart .. | .rebuildRow .. | .journalPageAccept .. | .deviceReset .. | .scWatchdogExpire .. | .regWrite .. | .regRmw .. | .devResetDelayExpire .. | .zoneHint .. | .protectionEraseDone .. | .thermalSample .. | .regPairHighWrite .. | .regPairLowWrite .. | .w1cWrite .. | .registerWrite .. => True | _ => (t.tabs.homes,
    t.tabs.skips, t.tabs.grown, t.tabs.lostDies, t.tabs.lostUnits) = (s.tabs.homes, s.tabs.skips, s.tabs.grown, s.tabs.lostDies, s.tabs.lostUnits)) ∧
    (match c with | .readsServedPoint .. | .linkTrainingDone .. | .identifyDone .. | .readDefectsDone .. | .journalPageAccept .. | .checkpointComplete .. => True | _ => t.dur = s.dur) ∧
    (match c with | .readsServedPoint .. | .openRowReplayDone .. | .quiesceRequest .. | .retainedRequest .. | .resumeRequest .. | .quiesceDrainExpire .. | .quiesceComplete .. | .retainedResumeDone .. | .powerTokenGrant .. | .shutdownNotification .. | .flush .. | .write .. | .read .. | .writeZeroes .. | .datasetManagement .. | .verify .. | .zoneAppend .. | .zoneOpen .. | .zoneClose .. | .zoneFinish .. | .zoneReset .. | .zoneOffline .. | .dataPhaseStart .. | .writeCommit .. | .logStripeAssemble .. | .linkTrainingDone .. | .storedTrainingFallback .. | .retrainTimeout .. | .linkFail .. | .linkGraceExpire .. | .linkDisable .. | .maintFrameReceive .. | .dieLoss .. | .dieOpTimeout .. | .readPageDone .. | .readLevelDone .. | .programFoggyDone .. | .programFineDone .. | .programOneDone .. | .eraseDone .. | .eraseVerifyDone .. | .resumeDone .. | .identifyDone .. | .dieStatusDone .. | .resetDieDone .. | .groupWakeTimeout .. | .codewordDecodeDone .. | .rowComplete .. | .stageHorizon .. | .coolerBlockReclaim .. | .programFailure .. | .churnStart .. | .unitRemap .. | .blockRelease .. | .refreshRemap .. | .rebuildRow .. | .journalPageAccept .. | .regWrite .. | .regRmw .. | .stateReq .. | .nsResize .. | .activationPause .. | .activationAbandon .. | .regPairHighWrite .. | .regPairLowWrite .. | .w1cWrite .. | .registerWrite .. => True | _ => t.units = s.units)

/-- When a command answers a next state, links, dies, groups and power, codewords, ages and the rest of retention are unchanged unless the command is one of those named for that part (or, where fewer are named, unchanged by each command named). Where the spec leaves a choice the clauses follow the model's: log entries 2. -/
def Obligations.FrameOfFlashSide : Prop :=
  ∀ (c : Instr) (s t : State), exec c s = .next t →
    (match c with | .porstNAssert .. | .railFail .. | .bootSlotSelect .. | .signatureCheckDone .. | .readsServedPoint .. | .quiesceRequest .. | .retainedRequest .. | .resumeRequest .. | .quiesceDrainExpire .. | .quiesceComplete .. | .retainedEntry .. | .retainedResumeDone .. | .pwrwarnStuck .. | .powerTokenGrant .. | .shutdownNotification .. | .flush .. | .read .. | .verify .. | .writeCommit .. | .linkTrainingDone .. | .storedTrainingFallback .. | .lockLossTimeout .. | .retrainTimeout .. | .linkRetryTimer .. | .linkFail .. | .linkGraceExpire .. | .linkDisable .. | .linkEnable .. | .linkRetrainRequest .. | .linkFullTrainRequest .. | .flashFrameReceive .. | .flashNakReceive .. | .flashReplayTimeout .. | .maintFrameReceive .. | .dieLoss .. | .dieOpTimeout .. | .readPageDone .. | .readLevelDone .. | .programFoggyDone .. | .programFineDone .. | .programOneDone .. | .eraseDone .. | .eraseVerifyDone .. | .suspendDone .. | .resumeDone .. | .identifyDone .. | .readCalDone .. | .dieStatusDone .. | .standbyDone .. | .resetDieDone .. | .suspendDeferred .. | .groupDrainStart .. | .groupWake .. | .groupWakeWrite .. | .groupWakeTimeout .. | .codewordDecodeDone .. | .parkTimeout .. | .programFailure .. | .dramCrcMismatch .. | .scanProbe .. | .rebuildRow .. | .journalPageSeal .. | .journalPageAccept .. | .journalCopyFail .. | .tagCheck .. | .referenceGood .. | .deviceReset .. | .scWatchdogExpire .. | .regWrite .. | .regRmw .. | .stateReq .. | .devResetDelayExpire .. | .protectionEraseDone .. | .activationPause .. | .activationAbandon .. | .inputTransition .. | .inputFilterChange .. | .thermalSample .. | .regPairHighWrite .. | .regPairLowWrite .. | .w1cWrite .. | .registerWrite .. | .syncCandidateOpen .. => True | _ => t.flc.links = s.flc.links) ∧
    (match c with | .porstNAssert .. | .railFail .. | .readsServedPoint .. | .quiesceRequest .. | .retainedRequest .. | .resumeRequest .. | .quiesceDrainExpire .. | .quiesceComplete .. | .retainedResumeDone .. | .pwrwarnStuck .. | .modeApply .. | .nextHopTimeout .. | .rocePacketReceive .. | .rdmaAckTimeout .. | .tcpIcreq .. | .tcpFatalPdu .. | .tenantCtlWrite .. | .powerTokenGrant .. | .abort .. | .keepAliveTimeout .. | .shutdownNotification .. | .disconnect .. | .flush .. | .write .. | .read .. | .writeZeroes .. | .verify .. | .zoneAppend .. | .zoneOpen .. | .zoneClose .. | .zoneFinish .. | .zoneReset .. | .zoneOffline .. | .writeCommit .. | .connectionLoss .. | .memberLoss .. | .linkTrainingDone .. | .storedTrainingFallback .. | .retrainTimeout .. | .linkFail .. | .linkGraceExpire .. | .linkDisable .. | .maintFrameReceive .. | .dieLoss .. | .dieOpTimeout .. | .readPageDone .. | .readLevelDone .. | .programFoggyDone .. | .programFineDone .. | .programOneDone .. | .eraseDone .. | .eraseVerifyDone .. | .suspendDone .. | .resumeDone .. | .identifyDone .. | .readCalDone .. | .readDefectsDone .. | .dieStatusDone .. | .resetDieDone .. | .suspendDeferred .. | .groupWakeTimeout .. | .codewordDecodeDone .. | .parkTimeout .. | .programFailure .. | .dramCrcMismatch .. | .blockRelease .. | .scanProbe .. | .rebuildRow .. | .journalPageSeal .. | .journalPageAccept .. | .journalCopyFail .. | .tagCheck .. | .deviceReset .. | .scWatchdogExpire .. | .regWrite .. | .regRmw .. | .stateReq .. | .devResetDelayExpire .. | .portCfg .. | .aclRemove .. | .protectionEraseDone .. | .activationPause .. | .activationAbandon .. | .inputTransition .. | .inputFilterChange .. | .thermalSample .. | .regPairHighWrite .. | .regPairLowWrite .. | .w1cWrite .. | .registerWrite .. | .rnrRetryTimer .. => True | _ => t.flc.dies = s.flc.dies) ∧
    (match c with | .porstNAssert .. | .railFail .. | .readsServedPoint .. | .quiesceRequest .. | .retainedRequest .. | .resumeRequest .. | .quiesceDrainExpire .. | .quiesceComplete .. | .retainedEntry .. | .retainedResumeDone .. | .setFeatures .. | .shutdownNotification .. | .flush .. | .read .. | .verify .. | .writeCommit .. | .linkTrainingDone .. | .storedTrainingFallback .. | .retrainTimeout .. | .linkFail .. | .linkGraceExpire .. | .linkDisable .. | .maintFrameReceive .. | .dieLoss .. | .dieOpTimeout .. | .readPageDone .. | .readLevelDone .. | .programFoggyDone .. | .programFineDone .. | .programOneDone .. | .eraseDone .. | .eraseVerifyDone .. | .resumeDone .. | .identifyDone .. | .dieStatusDone .. | .standbyDone .. | .resetDieDone .. | .groupDrainStart .. | .groupWake .. | .groupWakeWrite .. | .groupWakeTimeout .. | .codewordDecodeDone .. | .parkTimeout .. | .programFailure .. | .dramCrcMismatch .. | .scanProbe .. | .rebuildRow .. | .journalPageSeal .. | .journalPageAccept .. | .journalCopyFail .. | .tagCheck .. | .deviceReset .. | .scWatchdogExpire .. | .regWrite .. | .regRmw .. | .stateReq .. | .devResetDelayExpire .. | .protectionEraseDone .. | .activationPause .. | .activationAbandon .. | .inputFilterChange .. | .thermalSample .. | .regPairHighWrite .. | .regPairLowWrite .. | .w1cWrite .. | .registerWrite .. => True | _ => (t.flc.groups,
    t.flc.standbySent, t.flc.ps, t.flc.order) = (s.flc.groups, s.flc.standbySent, s.flc.ps, s.flc.order)) ∧
    (match c with | .porstNAssert .. | .railFail .. | .readsServedPoint .. | .quiesceRequest .. | .retainedRequest .. | .resumeRequest .. | .quiesceComplete .. | .retainedResumeDone .. | .modeApply .. | .nextHopTimeout .. | .rocePacketReceive .. | .rdmaAckTimeout .. | .tcpIcreq .. | .tcpFatalPdu .. | .tenantCtlWrite .. | .abort .. | .keepAliveTimeout .. | .disconnect .. | .flush .. | .read .. | .verify .. | .connectionLoss .. | .linkTrainingDone .. | .storedTrainingFallback .. | .retrainTimeout .. | .linkFail .. | .linkGraceExpire .. | .linkDisable .. | .maintFrameReceive .. | .dieLoss .. | .dieOpTimeout .. | .readPageDone .. | .readLevelDone .. | .programFoggyDone .. | .programFineDone .. | .programOneDone .. | .eraseDone .. | .eraseVerifyDone .. | .resumeDone .. | .identifyDone .. | .dieStatusDone .. | .resetDieDone .. | .groupWakeTimeout .. | .codewordDecodeDone .. | .l5Reconstruct .. | .sampleHoldExpire .. | .exitCntClear .. | .probeResult .. | .pilotReport .. | .programFailure .. | .dramCrcMismatch .. | .scanProbe .. | .rebuildRow .. | .journalPageAccept .. | .tagCheck .. | .deviceReset .. | .scWatchdogExpire .. | .regWrite .. | .regRmw .. | .stateReq .. | .devResetDelayExpire .. | .portCfg .. | .aclRemove .. | .protectionEraseDone .. | .activationPause .. | .activationAbandon .. | .thermalSample .. | .regPairHighWrite .. | .regPairLowWrite .. | .w1cWrite .. | .registerWrite .. | .rnrRetryTimer .. => True | _ => t.clc = s.clc) ∧
    (match c with | .porstNAssert .. | .railFail .. | .readsServedPoint .. | .openRowReplayDone .. | .quiesceRequest .. | .retainedRequest .. | .resumeRequest .. | .retainedEntry .. | .retainedResumeDone .. | .linkTrainingDone .. | .storedTrainingFallback .. | .retrainTimeout .. | .linkFail .. | .linkGraceExpire .. | .linkDisable .. | .maintFrameReceive .. | .dieLoss .. | .dieOpTimeout .. | .readPageDone .. | .readLevelDone .. | .programFoggyDone .. | .programFineDone .. | .programOneDone .. | .eraseDone .. | .eraseVerifyDone .. | .resumeDone .. | .identifyDone .. | .readCalDone .. | .dieStatusDone .. | .groupWakeTimeout .. | .ageTick .. | .darkRecompute .. | .probeResult .. | .pilotReport .. | .learnResetDie .. | .learnResetAll .. | .refreshPassComplete .. | .deviceReset .. | .scWatchdogExpire .. | .regWrite .. | .regRmw .. | .stateReq .. | .devResetDelayExpire .. | .shelfClimate .. | .modelLoad .. | .protectionEraseDone .. | .activationPause .. | .activationAbandon .. | .thermalSample .. | .regPairHighWrite .. | .regPairLowWrite .. | .w1cWrite .. | .registerWrite .. => True | _ => t.rcu.dies = s.rcu.dies) ∧
    (match c with | .porstNAssert .. | .railFail .. | .bootSlotSelect .. | .readsServedPoint .. | .openRowReplayDone .. | .quiesceRequest .. | .retainedRequest .. | .resumeRequest .. | .quiesceDrainExpire .. | .quiesceComplete .. | .retainedEntry .. | .retainedResumeDone .. | .linkTrainingDone .. | .storedTrainingFallback .. | .retrainTimeout .. | .linkFail .. | .linkGraceExpire .. | .linkDisable .. | .maintFrameReceive .. | .dieLoss .. | .dieOpTimeout .. | .readPageDone .. | .readLevelDone .. | .programFoggyDone .. | .programFineDone .. | .programOneDone .. | .eraseDone .. | .eraseVerifyDone .. | .resumeDone .. | .identifyDone .. | .dieStatusDone .. | .groupWakeTimeout .. | .arrheniusConstantWrite .. | .shelfTempWrite .. | .shelfTempExpire .. | .darkRecompute .. | .probeResult .. | .journalPageAccept .. | .checkpointStart .. | .checkpointStartWrite .. | .checkpointComplete .. | .deviceReset .. | .scWatchdogExpire .. | .ptpServoUpdate .. | .regWrite .. | .regRmw .. | .stateReq .. | .devResetDelayExpire .. | .shelfClimate .. | .modelLoad .. | .protectionEraseDone .. | .activationPause .. | .activationAbandon .. | .thermalSample .. | .regPairHighWrite .. | .regPairLowWrite .. | .w1cWrite .. | .registerWrite .. => True | _ => (t.rcu.b,
    t.rcu.shelfValid, t.rcu.source, t.rcu.climate, t.rcu.sealed, t.rcu.lockLate, t.rcu.clockBack, t.rcu.probesDone, t.rcu.lockedAtSeal, t.rcu.darkMin,
    t.rcu.lastMark, t.rcu.marks, t.rcu.ckptAges, t.rcu.ckptRefreshed, t.rcu.ckptLearned, t.rcu.imgAges, t.rcu.imgRefreshed, t.rcu.imgLearned,
    t.rcu.imgMarks, t.rcu.preseal) = (s.rcu.b, s.rcu.shelfValid, s.rcu.source, s.rcu.climate, s.rcu.sealed, s.rcu.lockLate, s.rcu.clockBack,
    s.rcu.probesDone, s.rcu.lockedAtSeal, s.rcu.darkMin, s.rcu.lastMark, s.rcu.marks, s.rcu.ckptAges, s.rcu.ckptRefreshed, s.rcu.ckptLearned,
    s.rcu.imgAges, s.rcu.imgRefreshed, s.rcu.imgLearned, s.rcu.imgMarks, s.rcu.preseal))

/-- When a command answers a next state, the write path, media management, the journal buffer, the commits, the page pairs, the rest of the journal, the tag engine, the buffer pools and the memory controller are unchanged unless the command is one of those named for that part (or, where fewer are named, unchanged by each command named). Where the spec leaves a choice the clauses follow the model's: log entries 2. -/
def Obligations.FrameOfMediaAndBuffers : Prop :=
  ∀ (c : Instr) (s t : State), exec c s = .next t →
    (match c with | .porstNAssert .. | .railFail .. | .readsServedPoint .. | .openRowReplayDone .. | .quiesceRequest .. | .retainedRequest .. | .resumeRequest .. | .quiesceDrainExpire .. | .quiesceComplete .. | .retainedResumeDone .. | .modeApply .. | .nextHopTimeout .. | .rocePacketReceive .. | .rdmaAckTimeout .. | .tcpIcreq .. | .h2cDataPdu .. | .tcpFatalPdu .. | .tenantCtlWrite .. | .powerTokenGrant .. | .abort .. | .keepAliveTimeout .. | .shutdownNotification .. | .disconnect .. | .flush .. | .write .. | .read .. | .writeZeroes .. | .verify .. | .zoneAppend .. | .zoneOpen .. | .zoneClose .. | .zoneFinish .. | .zoneReset .. | .zoneOffline .. | .dataPhaseStart .. | .writeCommit .. | .dataPhaseTimeout .. | .connectionLoss .. | .memberLoss .. | .logStripeAssemble .. | .linkTrainingDone .. | .storedTrainingFallback .. | .retrainTimeout .. | .linkFail .. | .linkGraceExpire .. | .linkDisable .. | .maintFrameReceive .. | .dieLoss .. | .dieOpTimeout .. | .readPageDone .. | .readLevelDone .. | .programFoggyDone .. | .programFineDone .. | .programOneDone .. | .eraseDone .. | .eraseVerifyDone .. | .resumeDone .. | .identifyDone .. | .dieStatusDone .. | .standbyDone .. | .resetDieDone .. | .groupDrainStart .. | .groupWakeTimeout .. | .codewordDecodeDone .. | .rowComplete .. | .stageHorizon .. | .coolerBlockReclaim .. | .programFailure .. | .dramCrcMismatch .. | .blockRelease .. | .blockFree .. | .rebuildRow .. | .journalPageAccept .. | .tagCompute .. | .deviceReset .. | .scWatchdogExpire .. | .regWrite .. | .regRmw .. | .stateReq .. | .devResetDelayExpire .. | .portCfg .. | .aclRemove .. | .protectionEraseDone .. | .activationPause .. | .activationAbandon .. | .inputFilterChange .. | .thermalSample .. | .regPairHighWrite .. | .regPairLowWrite .. | .w1cWrite .. | .registerWrite .. | .rnrRetryTimer .. => True | _ => t.wpe = s.wpe) ∧
    (match c with | .porstNAssert .. | .railFail .. | .readsServedPoint .. | .openRowReplayDone .. | .quiesceRequest .. | .retainedRequest .. | .resumeRequest .. | .quiesceDrainExpire .. | .quiesceComplete .. | .retainedResumeDone .. | .powerTokenGrant .. | .sanitizeBlockDone .. | .write .. | .writeZeroes .. | .zoneAppend .. | .zoneOpen .. | .zoneClose .. | .zoneFinish .. | .zoneReset .. | .zoneOffline .. | .writeCommit .. | .shrinkFinish .. | .memberLoss .. | .spareReplenish .. | .readyListRefill .. | .reservationReplace .. | .rehome .. | .linkTrainingDone .. | .storedTrainingFallback .. | .retrainTimeout .. | .linkFail .. | .linkGraceExpire .. | .linkDisable .. | .maintFrameReceive .. | .dieLoss .. | .dieOpTimeout .. | .readPageDone .. | .readLevelDone .. | .programFoggyDone .. | .programFineDone .. | .programOneDone .. | .eraseDone .. | .eraseVerifyDone .. | .resumeDone .. | .identifyDone .. | .dieStatusDone .. | .standbyDone .. | .resetDieDone .. | .groupDrainStart .. | .groupWakeTimeout .. | .codewordDecodeDone .. | .programFailure .. | .churnStart .. | .unitRemap .. | .blockRelease .. | .eraseBegin .. | .blockFree .. | .scanProbe .. | .refreshStart .. | .refreshRemap .. | .refreshPassComplete .. | .wearLevelCheck .. | .rebuildRow .. | .rebuildReplacementRetry .. | .mmeRateWindow .. | .journalPageAccept .. | .checkpointStart .. | .checkpointStartWrite .. | .checkpointComplete .. | .deviceReset .. | .scWatchdogExpire .. | .regWrite .. | .regRmw .. | .stateReq .. | .devResetDelayExpire .. | .nsCreate .. | .nsDelete .. | .nsMove .. | .zoneHint .. | .protectionEraseDone .. | .activationPause .. | .activationAbandon .. | .thermalSample .. | .regPairHighWrite .. | .regPairLowWrite .. | .w1cWrite .. | .registerWrite .. => True | _ => t.mme = s.mme) ∧
    (match c with | .porstNAssert .. | .railFail .. | .readsServedPoint .. | .openRowReplayDone .. | .quiesceRequest .. | .retainedRequest .. | .resumeRequest .. | .quiesceDrainExpire .. | .quiesceComplete .. | .retainedResumeDone .. | .pwrwarnStuck .. | .timeMark .. | .formatNvm .. | .sanitize .. | .sanitizeBlockDone .. | .shutdownNotification .. | .flush .. | .write .. | .read .. | .writeZeroes .. | .datasetManagement .. | .verify .. | .zoneAppend .. | .zoneOpen .. | .zoneClose .. | .zoneFinish .. | .zoneReset .. | .zoneOffline .. | .writeCommit .. | .shrinkFinish .. | .memberLoss .. | .spareReplenish .. | .reservationReplace .. | .rehome .. | .logStripeAssemble .. | .linkTrainingDone .. | .storedTrainingFallback .. | .retrainTimeout .. | .linkFail .. | .linkGraceExpire .. | .linkDisable .. | .maintFrameReceive .. | .dieLoss .. | .dieOpTimeout .. | .readPageDone .. | .readLevelDone .. | .programFoggyDone .. | .programFineDone .. | .programOneDone .. | .eraseDone .. | .eraseVerifyDone .. | .resumeDone .. | .identifyDone .. | .readDefectsDone .. | .dieStatusDone .. | .standbyDone .. | .resetDieDone .. | .groupDrainStart .. | .groupWakeTimeout .. | .codewordDecodeDone .. | .rowComplete .. | .stageHorizon .. | .coolerBlockReclaim .. | .programFailure .. | .churnStart .. | .unitRemap .. | .blockRelease .. | .eraseBegin .. | .refreshStart .. | .refreshRemap .. | .rebuildRow .. | .rebuildReplacementRetry .. | .journalPageSeal .. | .journalPageAccept .. | .journalCopyFail .. | .checkpointStart .. | .checkpointStartWrite .. | .checkpointComplete .. | .rebaseCopyRow .. | .deviceReset .. | .scWatchdogExpire .. | .regWrite .. | .regRmw .. | .stateReq .. | .devResetDelayExpire .. | .nsCreate .. | .nsDelete .. | .nsMove .. | .nsResize .. | .zoneHint .. | .modelLoad .. | .protectionEraseDone .. | .activationPause .. | .activationAbandon .. | .inputTransition .. | .inputFilterChange .. | .thermalSample .. | .regPairHighWrite .. | .regPairLowWrite .. | .w1cWrite .. | .registerWrite .. => True | _ => (t.jnl.buffer,
    t.jnl.nextJsn, t.jnl.nextSeq, t.jnl.pages, t.jnl.volume) = (s.jnl.buffer, s.jnl.nextJsn, s.jnl.nextSeq, s.jnl.pages, s.jnl.volume)) ∧
    (match c with | .porstNAssert .. | .railFail .. | .readsServedPoint .. | .flush .. | .writeCommit .. | .horizonMiss .. | .journalPageAccept .. | .deviceReset .. | .scWatchdogExpire .. | .regWrite .. | .regRmw .. | .devResetDelayExpire .. | .protectionEraseDone .. | .thermalSample .. | .regPairHighWrite .. | .regPairLowWrite .. | .w1cWrite .. | .registerWrite .. => True | _ => t.jnl.commits = s.jnl.commits) ∧
    (match c with | .porstNAssert .. | .railFail .. | .readsServedPoint .. | .retainedResumeDone .. | .pwrwarnStuck .. | .linkTrainingDone .. | .storedTrainingFallback .. | .retrainTimeout .. | .linkFail .. | .linkGraceExpire .. | .linkDisable .. | .maintFrameReceive .. | .dieLoss .. | .dieOpTimeout .. | .readPageDone .. | .readLevelDone .. | .programFoggyDone .. | .programFineDone .. | .programOneDone .. | .eraseDone .. | .eraseVerifyDone .. | .resumeDone .. | .identifyDone .. | .dieStatusDone .. | .standbyDone .. | .resetDieDone .. | .groupDrainStart .. | .groupWakeTimeout .. | .journalPageAccept .. | .journalCopyFail .. | .checkpointComplete .. | .deviceReset .. | .scWatchdogExpire .. | .regWrite .. | .regRmw .. | .devResetDelayExpire .. | .protectionEraseDone .. | .inputTransition .. | .inputFilterChange .. | .thermalSample .. | .regPairHighWrite .. | .regPairLowWrite .. | .w1cWrite .. | .registerWrite .. => True | _ => (t.jnl.pairs,
    t.jnl.emergency, t.jnl.old) = (s.jnl.pairs, s.jnl.emergency, s.jnl.old)) ∧
    (match c with | .porstNAssert .. | .railFail .. | .adminServedPoint .. | .readsServedPoint .. | .openRowReplayDone .. | .quiesceRequest .. | .retainedRequest .. | .resumeRequest .. | .quiesceDrainExpire .. | .quiesceComplete .. | .pwrwarnStuck .. | .journalPageAccept .. | .checkpointStart .. | .checkpointStartWrite .. | .checkpointComplete .. | .deviceReset .. | .scWatchdogExpire .. | .regWrite .. | .regRmw .. | .stateReq .. | .devResetDelayExpire .. | .protectionEraseDone .. | .activationPause .. | .activationAbandon .. | .inputTransition .. | .inputFilterChange .. | .thermalSample .. | .regPairHighWrite .. | .regPairLowWrite .. | .w1cWrite .. | .registerWrite .. => True | _ => (t.jnl.accJsn,
    t.jnl.accSeq, t.jnl.lastType, t.jnl.ckptActive, t.jnl.ckptJsn, t.jnl.ckptHeld, t.jnl.ckptForQuiesce, t.jnl.imageSeq, t.jnl.lastSeq, t.jnl.fromVol,
    t.jnl.ckptFrom, t.jnl.endAccepted, t.jnl.lastStart, t.jnl.anchors, t.jnl.phase, t.jnl.anchorFew, t.jnl.gap, t.jnl.unsafeLast, t.jnl.phase1Tick,
    t.jnl.phase1Ms, t.jnl.phase2Ms, t.jnl.rebased, t.jnl.sealedLog, t.jnl.anchorTower, t.jnl.emergencyMode, t.jnl.pairsN, t.jnl.wipes) = (s.jnl.accJsn,
    s.jnl.accSeq, s.jnl.lastType, s.jnl.ckptActive, s.jnl.ckptJsn, s.jnl.ckptHeld, s.jnl.ckptForQuiesce, s.jnl.imageSeq, s.jnl.lastSeq, s.jnl.fromVol,
    s.jnl.ckptFrom, s.jnl.endAccepted, s.jnl.lastStart, s.jnl.anchors, s.jnl.phase, s.jnl.anchorFew, s.jnl.gap, s.jnl.unsafeLast, s.jnl.phase1Tick,
    s.jnl.phase1Ms, s.jnl.phase2Ms, s.jnl.rebased, s.jnl.sealedLog, s.jnl.anchorTower, s.jnl.emergencyMode, s.jnl.pairsN, s.jnl.wipes)) ∧
    (match c with | .porstNAssert .. | .railFail .. | .bootSlotSelect .. | .tenantCtlWrite .. | .tagCompute .. | .tagCheck .. | .keyWordWrite .. | .keyCommit .. | .keyActivate .. | .keyClear .. | .keyActionResult .. | .deviceReset .. | .scWatchdogExpire .. | .regWrite .. | .regRmw .. | .devResetDelayExpire .. | .protectionEraseDone .. | .thermalSample .. | .regPairHighWrite .. | .regPairLowWrite .. | .w1cWrite .. | .registerWrite .. => True | _ => t.ite = s.ite) ∧
    (match c with | .porstNAssert .. | .railFail .. | .dramTrainingDone .. | .readsServedPoint .. | .openRowReplayDone .. | .quiesceRequest .. | .retainedRequest .. | .resumeRequest .. | .quiesceDrainExpire .. | .quiesceComplete .. | .retainedResumeDone .. | .modeApply .. | .nextHopTimeout .. | .rocePacketReceive .. | .rdmaAckTimeout .. | .tcpIcreq .. | .h2cDataPdu .. | .tcpFatalPdu .. | .tenantCtlWrite .. | .powerTokenGrant .. | .abort .. | .keepAliveTimeout .. | .disconnect .. | .write .. | .writeZeroes .. | .zoneAppend .. | .zoneOpen .. | .zoneClose .. | .zoneFinish .. | .zoneReset .. | .zoneOffline .. | .dataPhaseStart .. | .writeCommit .. | .dataPhaseTimeout .. | .connectionLoss .. | .memberLoss .. | .logStripeAssemble .. | .linkTrainingDone .. | .storedTrainingFallback .. | .retrainTimeout .. | .linkFail .. | .linkGraceExpire .. | .linkDisable .. | .maintFrameReceive .. | .dieLoss .. | .dieOpTimeout .. | .readPageDone .. | .readLevelDone .. | .programFoggyDone .. | .programFineDone .. | .programOneDone .. | .eraseDone .. | .eraseVerifyDone .. | .resumeDone .. | .identifyDone .. | .dieStatusDone .. | .resetDieDone .. | .groupWakeTimeout .. | .codewordDecodeDone .. | .sampleHoldExpire .. | .programFailure .. | .dramCrcMismatch .. | .blockRelease .. | .rebuildRow .. | .journalPageAccept .. | .tagCompute .. | .bufferAllocate .. | .bufferRelease .. | .bufferHandOver .. | .bufferReference .. | .bufferCancel .. | .freeListRebuildDone .. | .bpmCntClear .. | .deviceReset .. | .scWatchdogExpire .. | .regRead .. | .regWrite .. | .regRmw .. | .stateReq .. | .devResetDelayExpire .. | .portCfg .. | .aclRemove .. | .protectionEraseDone .. | .activationPause .. | .activationAbandon .. | .inputFilterChange .. | .thermalSample .. | .regPairLowRead .. | .regPairHighRead .. | .regPairHighWrite .. | .regPairLowWrite .. | .rcRead .. | .w1cWrite .. | .registerWrite .. | .rnrRetryTimer .. => True | _ => t.bpm = s.bpm) ∧
    (match c with | .porstNAssert .. | .railFail .. | .dramTrainingDone .. | .retainedEntry .. | .retainedResumeDone .. | .dramCrcMismatch .. | .dramRefresh .. | .refreshRatePoll .. | .rowHammerRfm .. | .activationWindowEnd .. | .throttleExpire .. | .panicAssert .. | .panicRelease .. | .rowCloseTimer .. | .dqsTracking .. | .zqCalibration .. | .referenceGood .. | .accPllRelock .. | .doubleFaultSelfRefresh .. | .deviceReset .. | .scWatchdogExpire .. | .regWrite .. | .regRmw .. | .devResetDelayExpire .. | .protectionEraseDone .. | .thermalSample .. | .regPairHighWrite .. | .regPairLowWrite .. | .w1cWrite .. | .registerWrite .. => True | _ => t.dmc = s.dmc)
end

