-- ==== Sys2Proof/Laws/Maps.lean ====
section
/-! SUPPORT. The laws of the sparse collections: what a write reads back as, and that every operation keeps the canonical form. -/

namespace Sys2Proof.Machine

variable {α : Type}

/-- Every key of a collection lies above `k`. -/
def keysAbove (k : Nat) (m : SMap α) : Prop := ∀ p ∈ m, k < p.1

theorem mapWf_cons [DecidableEq α] {d : α} {k : Nat} {v : α} {m : SMap α} :
    mapWf d ((k, v) :: m) = true ↔ v ≠ d ∧ keysAbove k m ∧ mapWf d m = true := by
  simp only [mapWf, keysAbove, Bool.and_eq_true, decide_eq_true_eq, List.all_eq_true, and_assoc]

@[simp] theorem mapWf_nil [DecidableEq α] {d : α} : mapWf d ([] : SMap α) = true := rfl

theorem mapGet_above {d : α} {m : SMap α} {k : Nat} (h : keysAbove k m) : mapGet d m k = d := by
  induction m with
  | nil => rfl
  | cons p m ih =>
    have hp : k < p.1 := h p (List.mem_cons_self ..)
    simp only [mapGet, Nat.ne_of_lt hp, if_false]
    exact ih (fun q hq => h q (List.mem_cons_of_mem _ hq))

theorem keysAbove_mono {m : SMap α} {j k : Nat} (hjk : j ≤ k) (h : keysAbove k m) : keysAbove j m :=
  fun p hp => Nat.lt_of_le_of_lt hjk (h p hp)

theorem keysAbove_put {m : SMap α} {j k : Nat} {v : α} (hjk : j < k) (h : keysAbove j m) : keysAbove j (mapPut m k v) := by
  induction m with
  | nil => intro p hp; simp only [mapPut, List.mem_singleton] at hp; subst hp; exact hjk
  | cons q m ih =>
    have hq : j < q.1 := h q (List.mem_cons_self ..)
    have hm : keysAbove j m := fun p hp => h p (List.mem_cons_of_mem _ hp)
    intro p hp
    unfold mapPut at hp
    split at hp
    · rcases List.mem_cons.1 hp with rfl | hp
      · exact hjk
      · exact h p hp
    · split at hp
      · rcases List.mem_cons.1 hp with rfl | hp
        · exact hjk
        · exact hm p hp
      · rcases List.mem_cons.1 hp with rfl | hp
        · exact hq
        · exact ih hm p hp

theorem mapDel_mem {m : SMap α} {k : Nat} {p : Nat × α} (hp : p ∈ mapDel m k) : p ∈ m := by
  induction m with
  | nil => exact hp
  | cons q m ih =>
    unfold mapDel at hp
    split at hp
    · exact List.mem_cons_of_mem _ (ih hp)
    · rcases List.mem_cons.1 hp with rfl | hp
      · exact List.mem_cons_self ..
      · exact List.mem_cons_of_mem _ (ih hp)

theorem mapPut_wf [DecidableEq α] {d : α} {m : SMap α} {k : Nat} {v : α} (hv : v ≠ d) (h : mapWf d m = true) :
    mapWf d (mapPut m k v) = true := by
  induction m with
  | nil => exact mapWf_cons.2 ⟨hv, fun p hp => absurd hp (by simp), rfl⟩
  | cons q m ih =>
    obtain ⟨hq, ha, hm⟩ := mapWf_cons.1 h
    unfold mapPut
    split
    · rename_i hk
      exact mapWf_cons.2 ⟨hv, fun p hp => by
        rcases List.mem_cons.1 hp with rfl | hp
        · exact hk
        · exact Nat.lt_trans hk (ha p hp), h⟩
    · split
      · rename_i hk; subst hk; exact mapWf_cons.2 ⟨hv, ha, hm⟩
      · rename_i h1 h2
        exact mapWf_cons.2 ⟨hq, keysAbove_put (by omega) ha, ih hm⟩

theorem mapDel_wf [DecidableEq α] {d : α} {m : SMap α} {k : Nat} (h : mapWf d m = true) : mapWf d (mapDel m k) = true := by
  induction m with
  | nil => rfl
  | cons q m ih =>
    obtain ⟨hq, ha, hm⟩ := mapWf_cons.1 h
    unfold mapDel
    split
    · exact ih hm
    · exact mapWf_cons.2 ⟨hq, fun p hp => ha p (mapDel_mem hp), ih hm⟩

/-- A write keeps the canonical form. -/
theorem mapSet_wf [DecidableEq α] {d : α} {m : SMap α} {k : Nat} {v : α} (h : mapWf d m = true) : mapWf d (mapSet d m k v) = true := by
  unfold mapSet
  split
  · exact mapDel_wf h
  · rename_i hv; exact mapPut_wf hv h

theorem mapUpd_wf [DecidableEq α] {d : α} {m : SMap α} {k : Nat} {f : α → α} (h : mapWf d m = true) :
    mapWf d (mapUpd d m k f) = true := mapSet_wf h

theorem filter_wf [DecidableEq α] {d : α} {m : SMap α} {p : Nat × α → Bool} (h : mapWf d m = true) :
    mapWf d (m.filter p) = true := by
  induction m with
  | nil => rfl
  | cons q m ih =>
    obtain ⟨hq, ha, hm⟩ := mapWf_cons.1 h
    by_cases hp : p (q.1, q.2) = true
    · rw [show q = (q.1, q.2) from rfl, List.filter_cons_of_pos hp]
      exact mapWf_cons.2 ⟨hq, fun r hr => ha r (List.mem_filter.1 hr).1, ih hm⟩
    · rw [show q = (q.1, q.2) from rfl, List.filter_cons_of_neg hp]
      exact ih hm

theorem mapMapVals_mem [DecidableEq α] {d : α} {f : Nat → α → α} {m : SMap α} {p : Nat × α} (hp : p ∈ mapMapVals d f m) :
    ∃ q ∈ m, q.1 = p.1 := by
  obtain ⟨q, hq, h⟩ := List.mem_filterMap.1 hp
  refine ⟨q, hq, ?_⟩
  split at h
  · cases h
  · cases h; rfl

theorem mapMapVals_wf [DecidableEq α] {d : α} {f : Nat → α → α} {m : SMap α} (h : mapWf d m = true) :
    mapWf d (mapMapVals d f m) = true := by
  induction m with
  | nil => rfl
  | cons q m ih =>
    obtain ⟨hq, ha, hm⟩ := mapWf_cons.1 h
    have e : mapMapVals d f (q :: m) = if f q.1 q.2 = d then mapMapVals d f m else (q.1, f q.1 q.2) :: mapMapVals d f m := by
      unfold mapMapVals
      rw [List.filterMap_cons]
      split <;> simp_all
    rw [e]
    split
    · exact ih hm
    · rename_i hv
      refine mapWf_cons.2 ⟨hv, fun p hp => ?_, ih hm⟩
      obtain ⟨r, hr, hrp⟩ := mapMapVals_mem hp
      exact hrp ▸ ha r hr

/-! ## Reading back -/

@[simp] theorem mapGet_nil (d : α) (k : Nat) : mapGet d ([] : SMap α) k = d := rfl

theorem mapGet_mapPut_self (d : α) (m : SMap α) (k : Nat) (v : α) : mapGet d (mapPut m k v) k = v := by
  induction m with
  | nil => simp [mapPut, mapGet]
  | cons q m ih =>
    unfold mapPut
    split
    · simp [mapGet]
    · split
      · simp [mapGet]
      · rename_i h1 h2; simp [mapGet, h2, ih]

theorem mapGet_mapPut_ne (d : α) (m : SMap α) {j k : Nat} (v : α) (h : j ≠ k) : mapGet d (mapPut m k v) j = mapGet d m j := by
  induction m with
  | nil => simp [mapPut, mapGet, h]
  | cons q m ih =>
    unfold mapPut
    split
    · simp [mapGet, h]
    · split
      · rename_i h1 h2; subst h2; simp [mapGet, h]
      · simp [mapGet, ih]

theorem mapGet_mapDel_ne (d : α) (m : SMap α) {j k : Nat} (h : j ≠ k) : mapGet d (mapDel m k) j = mapGet d m j := by
  induction m with
  | nil => rfl
  | cons q m ih =>
    unfold mapDel
    split
    · rename_i hk; subst hk; simp [mapGet, h, ih]
    · simp [mapGet, ih]

theorem mapGet_mapDel_self (d : α) (m : SMap α) (k : Nat) : mapGet d (mapDel m k) k = d := by
  induction m with
  | nil => rfl
  | cons q m ih =>
    unfold mapDel
    split
    · exact ih
    · rename_i hk; simp [mapGet, hk, ih]

/-- A read after a write of another key. -/
theorem mapGet_mapSet_ne [DecidableEq α] (d : α) (m : SMap α) {j k : Nat} (v : α) (h : j ≠ k) :
    mapGet d (mapSet d m k v) j = mapGet d m j := by
  unfold mapSet
  split
  · exact mapGet_mapDel_ne d m h
  · exact mapGet_mapPut_ne d m v h

/-- A read after a write of the same key. -/
@[simp] theorem mapGet_mapSet_self [DecidableEq α] (d : α) (m : SMap α) (k : Nat) (v : α) : mapGet d (mapSet d m k v) k = v := by
  unfold mapSet
  split
  · rename_i hv; rw [mapGet_mapDel_self, hv]
  · exact mapGet_mapPut_self d m k v

@[simp] theorem mapGet_mapUpd_self [DecidableEq α] (d : α) (m : SMap α) (k : Nat) (f : α → α) :
    mapGet d (mapUpd d m k f) k = f (mapGet d m k) := mapGet_mapSet_self _ _ _ _

theorem mapGet_mapUpd_ne [DecidableEq α] (d : α) (m : SMap α) (k : Nat) (f : α → α) {j : Nat} (h : j ≠ k) :
    mapGet d (mapUpd d m k f) j = mapGet d m j := mapGet_mapSet_ne d m _ h

end Sys2Proof.Machine
end

