-- ==== Sys2Proof/Laws/State.lean ====
section
/-! SUPPORT. What each update of the state leaves in each field, by definition; and the reading back of what was stored. -/

namespace Sys2Proof.Machine

/-! ## Registers and the model's own fields -/

@[simp] theorem setReg_regs (a v : Nat) (s : State) : (setReg a v s).regs = mapSet 0 s.regs a (v ^^^ regReset a) := rfl
@[simp] theorem setReg_shadows (a v : Nat) (s : State) : (setReg a v s).shadows = s.shadows := rfl
@[simp] theorem setReg_heldHigh (a v : Nat) (s : State) : (setReg a v s).heldHigh = s.heldHigh := rfl
@[simp] theorem setReg_fuse (a v : Nat) (s : State) : (setReg a v s).fuse = s.fuse := rfl
@[simp] theorem setReg_top (a v : Nat) (s : State) : (setReg a v s).top = s.top := rfl
@[simp] theorem setReg_cru (a v : Nat) (s : State) : (setReg a v s).cru = s.cru := rfl
@[simp] theorem setReg_tu (a v : Nat) (s : State) : (setReg a v s).tu = s.tu := rfl
@[simp] theorem setReg_pad (a v : Nat) (s : State) : (setReg a v s).pad = s.pad := rfl
@[simp] theorem setReg_fws (a v : Nat) (s : State) : (setReg a v s).fws = s.fws := rfl
@[simp] theorem setReg_evc (a v : Nat) (s : State) : (setReg a v s).evc = s.evc := rfl
@[simp] theorem setReg_hfe (a v : Nat) (s : State) : (setReg a v s).hfe = s.hfe := rfl
@[simp] theorem setReg_qe (a v : Nat) (s : State) : (setReg a v s).qe = s.qe := rfl
@[simp] theorem setReg_mgc (a v : Nat) (s : State) : (setReg a v s).mgc = s.mgc := rfl
@[simp] theorem setReg_tabs (a v : Nat) (s : State) : (setReg a v s).tabs = s.tabs := rfl
@[simp] theorem setReg_dur (a v : Nat) (s : State) : (setReg a v s).dur = s.dur := rfl
@[simp] theorem setReg_units (a v : Nat) (s : State) : (setReg a v s).units = s.units := rfl
@[simp] theorem setReg_flc (a v : Nat) (s : State) : (setReg a v s).flc = s.flc := rfl
@[simp] theorem setReg_clc (a v : Nat) (s : State) : (setReg a v s).clc = s.clc := rfl
@[simp] theorem setReg_rcu (a v : Nat) (s : State) : (setReg a v s).rcu = s.rcu := rfl
@[simp] theorem setReg_wpe (a v : Nat) (s : State) : (setReg a v s).wpe = s.wpe := rfl
@[simp] theorem setReg_mme (a v : Nat) (s : State) : (setReg a v s).mme = s.mme := rfl
@[simp] theorem setReg_jnl (a v : Nat) (s : State) : (setReg a v s).jnl = s.jnl := rfl
@[simp] theorem setReg_ite (a v : Nat) (s : State) : (setReg a v s).ite = s.ite := rfl
@[simp] theorem setReg_bpm (a v : Nat) (s : State) : (setReg a v s).bpm = s.bpm := rfl
@[simp] theorem setReg_dmc (a v : Nat) (s : State) : (setReg a v s).dmc = s.dmc := rfl
@[simp] theorem setReg_drawn (a v : Nat) (s : State) : (setReg a v s).drawn = s.drawn := rfl
@[simp] theorem setReg_out (a v : Nat) (s : State) : (setReg a v s).out = s.out := rfl
@[simp] theorem setReg_pending (a v : Nat) (s : State) : (setReg a v s).pending = s.pending := rfl
@[simp] theorem setF_shadows (f : Fld) (v : Nat) (s : State) : (setF f v s).shadows = s.shadows := rfl
@[simp] theorem setF_heldHigh (f : Fld) (v : Nat) (s : State) : (setF f v s).heldHigh = s.heldHigh := rfl
@[simp] theorem setF_fuse (f : Fld) (v : Nat) (s : State) : (setF f v s).fuse = s.fuse := rfl
@[simp] theorem setF_top (f : Fld) (v : Nat) (s : State) : (setF f v s).top = s.top := rfl
@[simp] theorem setF_cru (f : Fld) (v : Nat) (s : State) : (setF f v s).cru = s.cru := rfl
@[simp] theorem setF_tu (f : Fld) (v : Nat) (s : State) : (setF f v s).tu = s.tu := rfl
@[simp] theorem setF_pad (f : Fld) (v : Nat) (s : State) : (setF f v s).pad = s.pad := rfl
@[simp] theorem setF_fws (f : Fld) (v : Nat) (s : State) : (setF f v s).fws = s.fws := rfl
@[simp] theorem setF_evc (f : Fld) (v : Nat) (s : State) : (setF f v s).evc = s.evc := rfl
@[simp] theorem setF_hfe (f : Fld) (v : Nat) (s : State) : (setF f v s).hfe = s.hfe := rfl
@[simp] theorem setF_qe (f : Fld) (v : Nat) (s : State) : (setF f v s).qe = s.qe := rfl
@[simp] theorem setF_mgc (f : Fld) (v : Nat) (s : State) : (setF f v s).mgc = s.mgc := rfl
@[simp] theorem setF_tabs (f : Fld) (v : Nat) (s : State) : (setF f v s).tabs = s.tabs := rfl
@[simp] theorem setF_dur (f : Fld) (v : Nat) (s : State) : (setF f v s).dur = s.dur := rfl
@[simp] theorem setF_units (f : Fld) (v : Nat) (s : State) : (setF f v s).units = s.units := rfl
@[simp] theorem setF_flc (f : Fld) (v : Nat) (s : State) : (setF f v s).flc = s.flc := rfl
@[simp] theorem setF_clc (f : Fld) (v : Nat) (s : State) : (setF f v s).clc = s.clc := rfl
@[simp] theorem setF_rcu (f : Fld) (v : Nat) (s : State) : (setF f v s).rcu = s.rcu := rfl
@[simp] theorem setF_wpe (f : Fld) (v : Nat) (s : State) : (setF f v s).wpe = s.wpe := rfl
@[simp] theorem setF_mme (f : Fld) (v : Nat) (s : State) : (setF f v s).mme = s.mme := rfl
@[simp] theorem setF_jnl (f : Fld) (v : Nat) (s : State) : (setF f v s).jnl = s.jnl := rfl
@[simp] theorem setF_ite (f : Fld) (v : Nat) (s : State) : (setF f v s).ite = s.ite := rfl
@[simp] theorem setF_bpm (f : Fld) (v : Nat) (s : State) : (setF f v s).bpm = s.bpm := rfl
@[simp] theorem setF_dmc (f : Fld) (v : Nat) (s : State) : (setF f v s).dmc = s.dmc := rfl
@[simp] theorem setF_drawn (f : Fld) (v : Nat) (s : State) : (setF f v s).drawn = s.drawn := rfl
@[simp] theorem setF_out (f : Fld) (v : Nat) (s : State) : (setF f v s).out = s.out := rfl
@[simp] theorem setF_pending (f : Fld) (v : Nat) (s : State) : (setF f v s).pending = s.pending := rfl
@[simp] theorem bumpF_shadows (f : Fld) (n : Nat) (s : State) : (bumpF f n s).shadows = s.shadows := rfl
@[simp] theorem bumpF_heldHigh (f : Fld) (n : Nat) (s : State) : (bumpF f n s).heldHigh = s.heldHigh := rfl
@[simp] theorem bumpF_fuse (f : Fld) (n : Nat) (s : State) : (bumpF f n s).fuse = s.fuse := rfl
@[simp] theorem bumpF_top (f : Fld) (n : Nat) (s : State) : (bumpF f n s).top = s.top := rfl
@[simp] theorem bumpF_cru (f : Fld) (n : Nat) (s : State) : (bumpF f n s).cru = s.cru := rfl
@[simp] theorem bumpF_tu (f : Fld) (n : Nat) (s : State) : (bumpF f n s).tu = s.tu := rfl
@[simp] theorem bumpF_pad (f : Fld) (n : Nat) (s : State) : (bumpF f n s).pad = s.pad := rfl
@[simp] theorem bumpF_fws (f : Fld) (n : Nat) (s : State) : (bumpF f n s).fws = s.fws := rfl
@[simp] theorem bumpF_evc (f : Fld) (n : Nat) (s : State) : (bumpF f n s).evc = s.evc := rfl
@[simp] theorem bumpF_hfe (f : Fld) (n : Nat) (s : State) : (bumpF f n s).hfe = s.hfe := rfl
@[simp] theorem bumpF_qe (f : Fld) (n : Nat) (s : State) : (bumpF f n s).qe = s.qe := rfl
@[simp] theorem bumpF_mgc (f : Fld) (n : Nat) (s : State) : (bumpF f n s).mgc = s.mgc := rfl
@[simp] theorem bumpF_tabs (f : Fld) (n : Nat) (s : State) : (bumpF f n s).tabs = s.tabs := rfl
@[simp] theorem bumpF_dur (f : Fld) (n : Nat) (s : State) : (bumpF f n s).dur = s.dur := rfl
@[simp] theorem bumpF_units (f : Fld) (n : Nat) (s : State) : (bumpF f n s).units = s.units := rfl
@[simp] theorem bumpF_flc (f : Fld) (n : Nat) (s : State) : (bumpF f n s).flc = s.flc := rfl
@[simp] theorem bumpF_clc (f : Fld) (n : Nat) (s : State) : (bumpF f n s).clc = s.clc := rfl
@[simp] theorem bumpF_rcu (f : Fld) (n : Nat) (s : State) : (bumpF f n s).rcu = s.rcu := rfl
@[simp] theorem bumpF_wpe (f : Fld) (n : Nat) (s : State) : (bumpF f n s).wpe = s.wpe := rfl
@[simp] theorem bumpF_mme (f : Fld) (n : Nat) (s : State) : (bumpF f n s).mme = s.mme := rfl
@[simp] theorem bumpF_jnl (f : Fld) (n : Nat) (s : State) : (bumpF f n s).jnl = s.jnl := rfl
@[simp] theorem bumpF_ite (f : Fld) (n : Nat) (s : State) : (bumpF f n s).ite = s.ite := rfl
@[simp] theorem bumpF_bpm (f : Fld) (n : Nat) (s : State) : (bumpF f n s).bpm = s.bpm := rfl
@[simp] theorem bumpF_dmc (f : Fld) (n : Nat) (s : State) : (bumpF f n s).dmc = s.dmc := rfl
@[simp] theorem bumpF_drawn (f : Fld) (n : Nat) (s : State) : (bumpF f n s).drawn = s.drawn := rfl
@[simp] theorem bumpF_out (f : Fld) (n : Nat) (s : State) : (bumpF f n s).out = s.out := rfl
@[simp] theorem bumpF_pending (f : Fld) (n : Nat) (s : State) : (bumpF f n s).pending = s.pending := rfl
@[simp] theorem emit_regs (o : Out) (s : State) : (emit o s).regs = s.regs := rfl
@[simp] theorem emit_shadows (o : Out) (s : State) : (emit o s).shadows = s.shadows := rfl
@[simp] theorem emit_heldHigh (o : Out) (s : State) : (emit o s).heldHigh = s.heldHigh := rfl
@[simp] theorem emit_fuse (o : Out) (s : State) : (emit o s).fuse = s.fuse := rfl
@[simp] theorem emit_top (o : Out) (s : State) : (emit o s).top = s.top := rfl
@[simp] theorem emit_cru (o : Out) (s : State) : (emit o s).cru = s.cru := rfl
@[simp] theorem emit_tu (o : Out) (s : State) : (emit o s).tu = s.tu := rfl
@[simp] theorem emit_pad (o : Out) (s : State) : (emit o s).pad = s.pad := rfl
@[simp] theorem emit_fws (o : Out) (s : State) : (emit o s).fws = s.fws := rfl
@[simp] theorem emit_evc (o : Out) (s : State) : (emit o s).evc = s.evc := rfl
@[simp] theorem emit_hfe (o : Out) (s : State) : (emit o s).hfe = s.hfe := rfl
@[simp] theorem emit_qe (o : Out) (s : State) : (emit o s).qe = s.qe := rfl
@[simp] theorem emit_mgc (o : Out) (s : State) : (emit o s).mgc = s.mgc := rfl
@[simp] theorem emit_tabs (o : Out) (s : State) : (emit o s).tabs = s.tabs := rfl
@[simp] theorem emit_dur (o : Out) (s : State) : (emit o s).dur = s.dur := rfl
@[simp] theorem emit_units (o : Out) (s : State) : (emit o s).units = s.units := rfl
@[simp] theorem emit_flc (o : Out) (s : State) : (emit o s).flc = s.flc := rfl
@[simp] theorem emit_clc (o : Out) (s : State) : (emit o s).clc = s.clc := rfl
@[simp] theorem emit_rcu (o : Out) (s : State) : (emit o s).rcu = s.rcu := rfl
@[simp] theorem emit_wpe (o : Out) (s : State) : (emit o s).wpe = s.wpe := rfl
@[simp] theorem emit_mme (o : Out) (s : State) : (emit o s).mme = s.mme := rfl
@[simp] theorem emit_jnl (o : Out) (s : State) : (emit o s).jnl = s.jnl := rfl
@[simp] theorem emit_ite (o : Out) (s : State) : (emit o s).ite = s.ite := rfl
@[simp] theorem emit_bpm (o : Out) (s : State) : (emit o s).bpm = s.bpm := rfl
@[simp] theorem emit_dmc (o : Out) (s : State) : (emit o s).dmc = s.dmc := rfl
@[simp] theorem emit_drawn (o : Out) (s : State) : (emit o s).drawn = s.drawn := rfl
@[simp] theorem emit_out (o : Out) (s : State) : (emit o s).out = o :: s.out := rfl
@[simp] theorem emit_pending (o : Out) (s : State) : (emit o s).pending = s.pending := rfl

/-! ## One component -/

@[simp] theorem updDmc_regs (f : Dmc → Dmc) (s : State) : (updDmc f s).regs = s.regs := rfl
@[simp] theorem updDmc_shadows (f : Dmc → Dmc) (s : State) : (updDmc f s).shadows = s.shadows := rfl
@[simp] theorem updDmc_heldHigh (f : Dmc → Dmc) (s : State) : (updDmc f s).heldHigh = s.heldHigh := rfl
@[simp] theorem updDmc_fuse (f : Dmc → Dmc) (s : State) : (updDmc f s).fuse = s.fuse := rfl
@[simp] theorem updDmc_top (f : Dmc → Dmc) (s : State) : (updDmc f s).top = s.top := rfl
@[simp] theorem updDmc_cru (f : Dmc → Dmc) (s : State) : (updDmc f s).cru = s.cru := rfl
@[simp] theorem updDmc_tu (f : Dmc → Dmc) (s : State) : (updDmc f s).tu = s.tu := rfl
@[simp] theorem updDmc_pad (f : Dmc → Dmc) (s : State) : (updDmc f s).pad = s.pad := rfl
@[simp] theorem updDmc_fws (f : Dmc → Dmc) (s : State) : (updDmc f s).fws = s.fws := rfl
@[simp] theorem updDmc_evc (f : Dmc → Dmc) (s : State) : (updDmc f s).evc = s.evc := rfl
@[simp] theorem updDmc_hfe (f : Dmc → Dmc) (s : State) : (updDmc f s).hfe = s.hfe := rfl
@[simp] theorem updDmc_qe (f : Dmc → Dmc) (s : State) : (updDmc f s).qe = s.qe := rfl
@[simp] theorem updDmc_mgc (f : Dmc → Dmc) (s : State) : (updDmc f s).mgc = s.mgc := rfl
@[simp] theorem updDmc_tabs (f : Dmc → Dmc) (s : State) : (updDmc f s).tabs = s.tabs := rfl
@[simp] theorem updDmc_dur (f : Dmc → Dmc) (s : State) : (updDmc f s).dur = s.dur := rfl
@[simp] theorem updDmc_units (f : Dmc → Dmc) (s : State) : (updDmc f s).units = s.units := rfl
@[simp] theorem updDmc_flc (f : Dmc → Dmc) (s : State) : (updDmc f s).flc = s.flc := rfl
@[simp] theorem updDmc_clc (f : Dmc → Dmc) (s : State) : (updDmc f s).clc = s.clc := rfl
@[simp] theorem updDmc_rcu (f : Dmc → Dmc) (s : State) : (updDmc f s).rcu = s.rcu := rfl
@[simp] theorem updDmc_wpe (f : Dmc → Dmc) (s : State) : (updDmc f s).wpe = s.wpe := rfl
@[simp] theorem updDmc_mme (f : Dmc → Dmc) (s : State) : (updDmc f s).mme = s.mme := rfl
@[simp] theorem updDmc_jnl (f : Dmc → Dmc) (s : State) : (updDmc f s).jnl = s.jnl := rfl
@[simp] theorem updDmc_ite (f : Dmc → Dmc) (s : State) : (updDmc f s).ite = s.ite := rfl
@[simp] theorem updDmc_bpm (f : Dmc → Dmc) (s : State) : (updDmc f s).bpm = s.bpm := rfl
@[simp] theorem updDmc_dmc (f : Dmc → Dmc) (s : State) : (updDmc f s).dmc = f s.dmc := rfl
@[simp] theorem updDmc_drawn (f : Dmc → Dmc) (s : State) : (updDmc f s).drawn = s.drawn := rfl
@[simp] theorem updDmc_out (f : Dmc → Dmc) (s : State) : (updDmc f s).out = s.out := rfl
@[simp] theorem updDmc_pending (f : Dmc → Dmc) (s : State) : (updDmc f s).pending = s.pending := rfl
@[simp] theorem updTabs_regs (f : Tables → Tables) (s : State) : (updTabs f s).regs = s.regs := rfl
@[simp] theorem updTabs_shadows (f : Tables → Tables) (s : State) : (updTabs f s).shadows = s.shadows := rfl
@[simp] theorem updTabs_heldHigh (f : Tables → Tables) (s : State) : (updTabs f s).heldHigh = s.heldHigh := rfl
@[simp] theorem updTabs_fuse (f : Tables → Tables) (s : State) : (updTabs f s).fuse = s.fuse := rfl
@[simp] theorem updTabs_top (f : Tables → Tables) (s : State) : (updTabs f s).top = s.top := rfl
@[simp] theorem updTabs_cru (f : Tables → Tables) (s : State) : (updTabs f s).cru = s.cru := rfl
@[simp] theorem updTabs_tu (f : Tables → Tables) (s : State) : (updTabs f s).tu = s.tu := rfl
@[simp] theorem updTabs_pad (f : Tables → Tables) (s : State) : (updTabs f s).pad = s.pad := rfl
@[simp] theorem updTabs_fws (f : Tables → Tables) (s : State) : (updTabs f s).fws = s.fws := rfl
@[simp] theorem updTabs_evc (f : Tables → Tables) (s : State) : (updTabs f s).evc = s.evc := rfl
@[simp] theorem updTabs_hfe (f : Tables → Tables) (s : State) : (updTabs f s).hfe = s.hfe := rfl
@[simp] theorem updTabs_qe (f : Tables → Tables) (s : State) : (updTabs f s).qe = s.qe := rfl
@[simp] theorem updTabs_mgc (f : Tables → Tables) (s : State) : (updTabs f s).mgc = s.mgc := rfl
@[simp] theorem updTabs_tabs (f : Tables → Tables) (s : State) : (updTabs f s).tabs = f s.tabs := rfl
@[simp] theorem updTabs_dur (f : Tables → Tables) (s : State) : (updTabs f s).dur = s.dur := rfl
@[simp] theorem updTabs_units (f : Tables → Tables) (s : State) : (updTabs f s).units = s.units := rfl
@[simp] theorem updTabs_flc (f : Tables → Tables) (s : State) : (updTabs f s).flc = s.flc := rfl
@[simp] theorem updTabs_clc (f : Tables → Tables) (s : State) : (updTabs f s).clc = s.clc := rfl
@[simp] theorem updTabs_rcu (f : Tables → Tables) (s : State) : (updTabs f s).rcu = s.rcu := rfl
@[simp] theorem updTabs_wpe (f : Tables → Tables) (s : State) : (updTabs f s).wpe = s.wpe := rfl
@[simp] theorem updTabs_mme (f : Tables → Tables) (s : State) : (updTabs f s).mme = s.mme := rfl
@[simp] theorem updTabs_jnl (f : Tables → Tables) (s : State) : (updTabs f s).jnl = s.jnl := rfl
@[simp] theorem updTabs_ite (f : Tables → Tables) (s : State) : (updTabs f s).ite = s.ite := rfl
@[simp] theorem updTabs_bpm (f : Tables → Tables) (s : State) : (updTabs f s).bpm = s.bpm := rfl
@[simp] theorem updTabs_dmc (f : Tables → Tables) (s : State) : (updTabs f s).dmc = s.dmc := rfl
@[simp] theorem updTabs_drawn (f : Tables → Tables) (s : State) : (updTabs f s).drawn = s.drawn := rfl
@[simp] theorem updTabs_out (f : Tables → Tables) (s : State) : (updTabs f s).out = s.out := rfl
@[simp] theorem updTabs_pending (f : Tables → Tables) (s : State) : (updTabs f s).pending = s.pending := rfl
@[simp] theorem updFlc_regs (f : Flc → Flc) (s : State) : (updFlc f s).regs = s.regs := rfl
@[simp] theorem updFlc_shadows (f : Flc → Flc) (s : State) : (updFlc f s).shadows = s.shadows := rfl
@[simp] theorem updFlc_heldHigh (f : Flc → Flc) (s : State) : (updFlc f s).heldHigh = s.heldHigh := rfl
@[simp] theorem updFlc_fuse (f : Flc → Flc) (s : State) : (updFlc f s).fuse = s.fuse := rfl
@[simp] theorem updFlc_top (f : Flc → Flc) (s : State) : (updFlc f s).top = s.top := rfl
@[simp] theorem updFlc_cru (f : Flc → Flc) (s : State) : (updFlc f s).cru = s.cru := rfl
@[simp] theorem updFlc_tu (f : Flc → Flc) (s : State) : (updFlc f s).tu = s.tu := rfl
@[simp] theorem updFlc_pad (f : Flc → Flc) (s : State) : (updFlc f s).pad = s.pad := rfl
@[simp] theorem updFlc_fws (f : Flc → Flc) (s : State) : (updFlc f s).fws = s.fws := rfl
@[simp] theorem updFlc_evc (f : Flc → Flc) (s : State) : (updFlc f s).evc = s.evc := rfl
@[simp] theorem updFlc_hfe (f : Flc → Flc) (s : State) : (updFlc f s).hfe = s.hfe := rfl
@[simp] theorem updFlc_qe (f : Flc → Flc) (s : State) : (updFlc f s).qe = s.qe := rfl
@[simp] theorem updFlc_mgc (f : Flc → Flc) (s : State) : (updFlc f s).mgc = s.mgc := rfl
@[simp] theorem updFlc_tabs (f : Flc → Flc) (s : State) : (updFlc f s).tabs = s.tabs := rfl
@[simp] theorem updFlc_dur (f : Flc → Flc) (s : State) : (updFlc f s).dur = s.dur := rfl
@[simp] theorem updFlc_units (f : Flc → Flc) (s : State) : (updFlc f s).units = s.units := rfl
@[simp] theorem updFlc_flc (f : Flc → Flc) (s : State) : (updFlc f s).flc = f s.flc := rfl
@[simp] theorem updFlc_clc (f : Flc → Flc) (s : State) : (updFlc f s).clc = s.clc := rfl
@[simp] theorem updFlc_rcu (f : Flc → Flc) (s : State) : (updFlc f s).rcu = s.rcu := rfl
@[simp] theorem updFlc_wpe (f : Flc → Flc) (s : State) : (updFlc f s).wpe = s.wpe := rfl
@[simp] theorem updFlc_mme (f : Flc → Flc) (s : State) : (updFlc f s).mme = s.mme := rfl
@[simp] theorem updFlc_jnl (f : Flc → Flc) (s : State) : (updFlc f s).jnl = s.jnl := rfl
@[simp] theorem updFlc_ite (f : Flc → Flc) (s : State) : (updFlc f s).ite = s.ite := rfl
@[simp] theorem updFlc_bpm (f : Flc → Flc) (s : State) : (updFlc f s).bpm = s.bpm := rfl
@[simp] theorem updFlc_dmc (f : Flc → Flc) (s : State) : (updFlc f s).dmc = s.dmc := rfl
@[simp] theorem updFlc_drawn (f : Flc → Flc) (s : State) : (updFlc f s).drawn = s.drawn := rfl
@[simp] theorem updFlc_out (f : Flc → Flc) (s : State) : (updFlc f s).out = s.out := rfl
@[simp] theorem updFlc_pending (f : Flc → Flc) (s : State) : (updFlc f s).pending = s.pending := rfl
@[simp] theorem updClc_regs (f : Clc → Clc) (s : State) : (updClc f s).regs = s.regs := rfl
@[simp] theorem updClc_shadows (f : Clc → Clc) (s : State) : (updClc f s).shadows = s.shadows := rfl
@[simp] theorem updClc_heldHigh (f : Clc → Clc) (s : State) : (updClc f s).heldHigh = s.heldHigh := rfl
@[simp] theorem updClc_fuse (f : Clc → Clc) (s : State) : (updClc f s).fuse = s.fuse := rfl
@[simp] theorem updClc_top (f : Clc → Clc) (s : State) : (updClc f s).top = s.top := rfl
@[simp] theorem updClc_cru (f : Clc → Clc) (s : State) : (updClc f s).cru = s.cru := rfl
@[simp] theorem updClc_tu (f : Clc → Clc) (s : State) : (updClc f s).tu = s.tu := rfl
@[simp] theorem updClc_pad (f : Clc → Clc) (s : State) : (updClc f s).pad = s.pad := rfl
@[simp] theorem updClc_fws (f : Clc → Clc) (s : State) : (updClc f s).fws = s.fws := rfl
@[simp] theorem updClc_evc (f : Clc → Clc) (s : State) : (updClc f s).evc = s.evc := rfl
@[simp] theorem updClc_hfe (f : Clc → Clc) (s : State) : (updClc f s).hfe = s.hfe := rfl
@[simp] theorem updClc_qe (f : Clc → Clc) (s : State) : (updClc f s).qe = s.qe := rfl
@[simp] theorem updClc_mgc (f : Clc → Clc) (s : State) : (updClc f s).mgc = s.mgc := rfl
@[simp] theorem updClc_tabs (f : Clc → Clc) (s : State) : (updClc f s).tabs = s.tabs := rfl
@[simp] theorem updClc_dur (f : Clc → Clc) (s : State) : (updClc f s).dur = s.dur := rfl
@[simp] theorem updClc_units (f : Clc → Clc) (s : State) : (updClc f s).units = s.units := rfl
@[simp] theorem updClc_flc (f : Clc → Clc) (s : State) : (updClc f s).flc = s.flc := rfl
@[simp] theorem updClc_clc (f : Clc → Clc) (s : State) : (updClc f s).clc = f s.clc := rfl
@[simp] theorem updClc_rcu (f : Clc → Clc) (s : State) : (updClc f s).rcu = s.rcu := rfl
@[simp] theorem updClc_wpe (f : Clc → Clc) (s : State) : (updClc f s).wpe = s.wpe := rfl
@[simp] theorem updClc_mme (f : Clc → Clc) (s : State) : (updClc f s).mme = s.mme := rfl
@[simp] theorem updClc_jnl (f : Clc → Clc) (s : State) : (updClc f s).jnl = s.jnl := rfl
@[simp] theorem updClc_ite (f : Clc → Clc) (s : State) : (updClc f s).ite = s.ite := rfl
@[simp] theorem updClc_bpm (f : Clc → Clc) (s : State) : (updClc f s).bpm = s.bpm := rfl
@[simp] theorem updClc_dmc (f : Clc → Clc) (s : State) : (updClc f s).dmc = s.dmc := rfl
@[simp] theorem updClc_drawn (f : Clc → Clc) (s : State) : (updClc f s).drawn = s.drawn := rfl
@[simp] theorem updClc_out (f : Clc → Clc) (s : State) : (updClc f s).out = s.out := rfl
@[simp] theorem updClc_pending (f : Clc → Clc) (s : State) : (updClc f s).pending = s.pending := rfl
@[simp] theorem updRcu_regs (f : Rcu → Rcu) (s : State) : (updRcu f s).regs = s.regs := rfl
@[simp] theorem updRcu_shadows (f : Rcu → Rcu) (s : State) : (updRcu f s).shadows = s.shadows := rfl
@[simp] theorem updRcu_heldHigh (f : Rcu → Rcu) (s : State) : (updRcu f s).heldHigh = s.heldHigh := rfl
@[simp] theorem updRcu_fuse (f : Rcu → Rcu) (s : State) : (updRcu f s).fuse = s.fuse := rfl
@[simp] theorem updRcu_top (f : Rcu → Rcu) (s : State) : (updRcu f s).top = s.top := rfl
@[simp] theorem updRcu_cru (f : Rcu → Rcu) (s : State) : (updRcu f s).cru = s.cru := rfl
@[simp] theorem updRcu_tu (f : Rcu → Rcu) (s : State) : (updRcu f s).tu = s.tu := rfl
@[simp] theorem updRcu_pad (f : Rcu → Rcu) (s : State) : (updRcu f s).pad = s.pad := rfl
@[simp] theorem updRcu_fws (f : Rcu → Rcu) (s : State) : (updRcu f s).fws = s.fws := rfl
@[simp] theorem updRcu_evc (f : Rcu → Rcu) (s : State) : (updRcu f s).evc = s.evc := rfl
@[simp] theorem updRcu_hfe (f : Rcu → Rcu) (s : State) : (updRcu f s).hfe = s.hfe := rfl
@[simp] theorem updRcu_qe (f : Rcu → Rcu) (s : State) : (updRcu f s).qe = s.qe := rfl
@[simp] theorem updRcu_mgc (f : Rcu → Rcu) (s : State) : (updRcu f s).mgc = s.mgc := rfl
@[simp] theorem updRcu_tabs (f : Rcu → Rcu) (s : State) : (updRcu f s).tabs = s.tabs := rfl
@[simp] theorem updRcu_dur (f : Rcu → Rcu) (s : State) : (updRcu f s).dur = s.dur := rfl
@[simp] theorem updRcu_units (f : Rcu → Rcu) (s : State) : (updRcu f s).units = s.units := rfl
@[simp] theorem updRcu_flc (f : Rcu → Rcu) (s : State) : (updRcu f s).flc = s.flc := rfl
@[simp] theorem updRcu_clc (f : Rcu → Rcu) (s : State) : (updRcu f s).clc = s.clc := rfl
@[simp] theorem updRcu_rcu (f : Rcu → Rcu) (s : State) : (updRcu f s).rcu = f s.rcu := rfl
@[simp] theorem updRcu_wpe (f : Rcu → Rcu) (s : State) : (updRcu f s).wpe = s.wpe := rfl
@[simp] theorem updRcu_mme (f : Rcu → Rcu) (s : State) : (updRcu f s).mme = s.mme := rfl
@[simp] theorem updRcu_jnl (f : Rcu → Rcu) (s : State) : (updRcu f s).jnl = s.jnl := rfl
@[simp] theorem updRcu_ite (f : Rcu → Rcu) (s : State) : (updRcu f s).ite = s.ite := rfl
@[simp] theorem updRcu_bpm (f : Rcu → Rcu) (s : State) : (updRcu f s).bpm = s.bpm := rfl
@[simp] theorem updRcu_dmc (f : Rcu → Rcu) (s : State) : (updRcu f s).dmc = s.dmc := rfl
@[simp] theorem updRcu_drawn (f : Rcu → Rcu) (s : State) : (updRcu f s).drawn = s.drawn := rfl
@[simp] theorem updRcu_out (f : Rcu → Rcu) (s : State) : (updRcu f s).out = s.out := rfl
@[simp] theorem updRcu_pending (f : Rcu → Rcu) (s : State) : (updRcu f s).pending = s.pending := rfl
@[simp] theorem updWpe_regs (f : Wpe → Wpe) (s : State) : (updWpe f s).regs = s.regs := rfl
@[simp] theorem updWpe_shadows (f : Wpe → Wpe) (s : State) : (updWpe f s).shadows = s.shadows := rfl
@[simp] theorem updWpe_heldHigh (f : Wpe → Wpe) (s : State) : (updWpe f s).heldHigh = s.heldHigh := rfl
@[simp] theorem updWpe_fuse (f : Wpe → Wpe) (s : State) : (updWpe f s).fuse = s.fuse := rfl
@[simp] theorem updWpe_top (f : Wpe → Wpe) (s : State) : (updWpe f s).top = s.top := rfl
@[simp] theorem updWpe_cru (f : Wpe → Wpe) (s : State) : (updWpe f s).cru = s.cru := rfl
@[simp] theorem updWpe_tu (f : Wpe → Wpe) (s : State) : (updWpe f s).tu = s.tu := rfl
@[simp] theorem updWpe_pad (f : Wpe → Wpe) (s : State) : (updWpe f s).pad = s.pad := rfl
@[simp] theorem updWpe_fws (f : Wpe → Wpe) (s : State) : (updWpe f s).fws = s.fws := rfl
@[simp] theorem updWpe_evc (f : Wpe → Wpe) (s : State) : (updWpe f s).evc = s.evc := rfl
@[simp] theorem updWpe_hfe (f : Wpe → Wpe) (s : State) : (updWpe f s).hfe = s.hfe := rfl
@[simp] theorem updWpe_qe (f : Wpe → Wpe) (s : State) : (updWpe f s).qe = s.qe := rfl
@[simp] theorem updWpe_mgc (f : Wpe → Wpe) (s : State) : (updWpe f s).mgc = s.mgc := rfl
@[simp] theorem updWpe_tabs (f : Wpe → Wpe) (s : State) : (updWpe f s).tabs = s.tabs := rfl
@[simp] theorem updWpe_dur (f : Wpe → Wpe) (s : State) : (updWpe f s).dur = s.dur := rfl
@[simp] theorem updWpe_units (f : Wpe → Wpe) (s : State) : (updWpe f s).units = s.units := rfl
@[simp] theorem updWpe_flc (f : Wpe → Wpe) (s : State) : (updWpe f s).flc = s.flc := rfl
@[simp] theorem updWpe_clc (f : Wpe → Wpe) (s : State) : (updWpe f s).clc = s.clc := rfl
@[simp] theorem updWpe_rcu (f : Wpe → Wpe) (s : State) : (updWpe f s).rcu = s.rcu := rfl
@[simp] theorem updWpe_wpe (f : Wpe → Wpe) (s : State) : (updWpe f s).wpe = f s.wpe := rfl
@[simp] theorem updWpe_mme (f : Wpe → Wpe) (s : State) : (updWpe f s).mme = s.mme := rfl
@[simp] theorem updWpe_jnl (f : Wpe → Wpe) (s : State) : (updWpe f s).jnl = s.jnl := rfl
@[simp] theorem updWpe_ite (f : Wpe → Wpe) (s : State) : (updWpe f s).ite = s.ite := rfl
@[simp] theorem updWpe_bpm (f : Wpe → Wpe) (s : State) : (updWpe f s).bpm = s.bpm := rfl
@[simp] theorem updWpe_dmc (f : Wpe → Wpe) (s : State) : (updWpe f s).dmc = s.dmc := rfl
@[simp] theorem updWpe_drawn (f : Wpe → Wpe) (s : State) : (updWpe f s).drawn = s.drawn := rfl
@[simp] theorem updWpe_out (f : Wpe → Wpe) (s : State) : (updWpe f s).out = s.out := rfl
@[simp] theorem updWpe_pending (f : Wpe → Wpe) (s : State) : (updWpe f s).pending = s.pending := rfl
@[simp] theorem updMme_regs (f : Mme → Mme) (s : State) : (updMme f s).regs = s.regs := rfl
@[simp] theorem updMme_shadows (f : Mme → Mme) (s : State) : (updMme f s).shadows = s.shadows := rfl
@[simp] theorem updMme_heldHigh (f : Mme → Mme) (s : State) : (updMme f s).heldHigh = s.heldHigh := rfl
@[simp] theorem updMme_fuse (f : Mme → Mme) (s : State) : (updMme f s).fuse = s.fuse := rfl
@[simp] theorem updMme_top (f : Mme → Mme) (s : State) : (updMme f s).top = s.top := rfl
@[simp] theorem updMme_cru (f : Mme → Mme) (s : State) : (updMme f s).cru = s.cru := rfl
@[simp] theorem updMme_tu (f : Mme → Mme) (s : State) : (updMme f s).tu = s.tu := rfl
@[simp] theorem updMme_pad (f : Mme → Mme) (s : State) : (updMme f s).pad = s.pad := rfl
@[simp] theorem updMme_fws (f : Mme → Mme) (s : State) : (updMme f s).fws = s.fws := rfl
@[simp] theorem updMme_evc (f : Mme → Mme) (s : State) : (updMme f s).evc = s.evc := rfl
@[simp] theorem updMme_hfe (f : Mme → Mme) (s : State) : (updMme f s).hfe = s.hfe := rfl
@[simp] theorem updMme_qe (f : Mme → Mme) (s : State) : (updMme f s).qe = s.qe := rfl
@[simp] theorem updMme_mgc (f : Mme → Mme) (s : State) : (updMme f s).mgc = s.mgc := rfl
@[simp] theorem updMme_tabs (f : Mme → Mme) (s : State) : (updMme f s).tabs = s.tabs := rfl
@[simp] theorem updMme_dur (f : Mme → Mme) (s : State) : (updMme f s).dur = s.dur := rfl
@[simp] theorem updMme_units (f : Mme → Mme) (s : State) : (updMme f s).units = s.units := rfl
@[simp] theorem updMme_flc (f : Mme → Mme) (s : State) : (updMme f s).flc = s.flc := rfl
@[simp] theorem updMme_clc (f : Mme → Mme) (s : State) : (updMme f s).clc = s.clc := rfl
@[simp] theorem updMme_rcu (f : Mme → Mme) (s : State) : (updMme f s).rcu = s.rcu := rfl
@[simp] theorem updMme_wpe (f : Mme → Mme) (s : State) : (updMme f s).wpe = s.wpe := rfl
@[simp] theorem updMme_mme (f : Mme → Mme) (s : State) : (updMme f s).mme = f s.mme := rfl
@[simp] theorem updMme_jnl (f : Mme → Mme) (s : State) : (updMme f s).jnl = s.jnl := rfl
@[simp] theorem updMme_ite (f : Mme → Mme) (s : State) : (updMme f s).ite = s.ite := rfl
@[simp] theorem updMme_bpm (f : Mme → Mme) (s : State) : (updMme f s).bpm = s.bpm := rfl
@[simp] theorem updMme_dmc (f : Mme → Mme) (s : State) : (updMme f s).dmc = s.dmc := rfl
@[simp] theorem updMme_drawn (f : Mme → Mme) (s : State) : (updMme f s).drawn = s.drawn := rfl
@[simp] theorem updMme_out (f : Mme → Mme) (s : State) : (updMme f s).out = s.out := rfl
@[simp] theorem updMme_pending (f : Mme → Mme) (s : State) : (updMme f s).pending = s.pending := rfl
@[simp] theorem updJnl_regs (f : Jnl → Jnl) (s : State) : (updJnl f s).regs = s.regs := rfl
@[simp] theorem updJnl_shadows (f : Jnl → Jnl) (s : State) : (updJnl f s).shadows = s.shadows := rfl
@[simp] theorem updJnl_heldHigh (f : Jnl → Jnl) (s : State) : (updJnl f s).heldHigh = s.heldHigh := rfl
@[simp] theorem updJnl_fuse (f : Jnl → Jnl) (s : State) : (updJnl f s).fuse = s.fuse := rfl
@[simp] theorem updJnl_top (f : Jnl → Jnl) (s : State) : (updJnl f s).top = s.top := rfl
@[simp] theorem updJnl_cru (f : Jnl → Jnl) (s : State) : (updJnl f s).cru = s.cru := rfl
@[simp] theorem updJnl_tu (f : Jnl → Jnl) (s : State) : (updJnl f s).tu = s.tu := rfl
@[simp] theorem updJnl_pad (f : Jnl → Jnl) (s : State) : (updJnl f s).pad = s.pad := rfl
@[simp] theorem updJnl_fws (f : Jnl → Jnl) (s : State) : (updJnl f s).fws = s.fws := rfl
@[simp] theorem updJnl_evc (f : Jnl → Jnl) (s : State) : (updJnl f s).evc = s.evc := rfl
@[simp] theorem updJnl_hfe (f : Jnl → Jnl) (s : State) : (updJnl f s).hfe = s.hfe := rfl
@[simp] theorem updJnl_qe (f : Jnl → Jnl) (s : State) : (updJnl f s).qe = s.qe := rfl
@[simp] theorem updJnl_mgc (f : Jnl → Jnl) (s : State) : (updJnl f s).mgc = s.mgc := rfl
@[simp] theorem updJnl_tabs (f : Jnl → Jnl) (s : State) : (updJnl f s).tabs = s.tabs := rfl
@[simp] theorem updJnl_dur (f : Jnl → Jnl) (s : State) : (updJnl f s).dur = s.dur := rfl
@[simp] theorem updJnl_units (f : Jnl → Jnl) (s : State) : (updJnl f s).units = s.units := rfl
@[simp] theorem updJnl_flc (f : Jnl → Jnl) (s : State) : (updJnl f s).flc = s.flc := rfl
@[simp] theorem updJnl_clc (f : Jnl → Jnl) (s : State) : (updJnl f s).clc = s.clc := rfl
@[simp] theorem updJnl_rcu (f : Jnl → Jnl) (s : State) : (updJnl f s).rcu = s.rcu := rfl
@[simp] theorem updJnl_wpe (f : Jnl → Jnl) (s : State) : (updJnl f s).wpe = s.wpe := rfl
@[simp] theorem updJnl_mme (f : Jnl → Jnl) (s : State) : (updJnl f s).mme = s.mme := rfl
@[simp] theorem updJnl_jnl (f : Jnl → Jnl) (s : State) : (updJnl f s).jnl = f s.jnl := rfl
@[simp] theorem updJnl_ite (f : Jnl → Jnl) (s : State) : (updJnl f s).ite = s.ite := rfl
@[simp] theorem updJnl_bpm (f : Jnl → Jnl) (s : State) : (updJnl f s).bpm = s.bpm := rfl
@[simp] theorem updJnl_dmc (f : Jnl → Jnl) (s : State) : (updJnl f s).dmc = s.dmc := rfl
@[simp] theorem updJnl_drawn (f : Jnl → Jnl) (s : State) : (updJnl f s).drawn = s.drawn := rfl
@[simp] theorem updJnl_out (f : Jnl → Jnl) (s : State) : (updJnl f s).out = s.out := rfl
@[simp] theorem updJnl_pending (f : Jnl → Jnl) (s : State) : (updJnl f s).pending = s.pending := rfl
@[simp] theorem updBpm_regs (f : Bpm → Bpm) (s : State) : (updBpm f s).regs = s.regs := rfl
@[simp] theorem updBpm_shadows (f : Bpm → Bpm) (s : State) : (updBpm f s).shadows = s.shadows := rfl
@[simp] theorem updBpm_heldHigh (f : Bpm → Bpm) (s : State) : (updBpm f s).heldHigh = s.heldHigh := rfl
@[simp] theorem updBpm_fuse (f : Bpm → Bpm) (s : State) : (updBpm f s).fuse = s.fuse := rfl
@[simp] theorem updBpm_top (f : Bpm → Bpm) (s : State) : (updBpm f s).top = s.top := rfl
@[simp] theorem updBpm_cru (f : Bpm → Bpm) (s : State) : (updBpm f s).cru = s.cru := rfl
@[simp] theorem updBpm_tu (f : Bpm → Bpm) (s : State) : (updBpm f s).tu = s.tu := rfl
@[simp] theorem updBpm_pad (f : Bpm → Bpm) (s : State) : (updBpm f s).pad = s.pad := rfl
@[simp] theorem updBpm_fws (f : Bpm → Bpm) (s : State) : (updBpm f s).fws = s.fws := rfl
@[simp] theorem updBpm_evc (f : Bpm → Bpm) (s : State) : (updBpm f s).evc = s.evc := rfl
@[simp] theorem updBpm_hfe (f : Bpm → Bpm) (s : State) : (updBpm f s).hfe = s.hfe := rfl
@[simp] theorem updBpm_qe (f : Bpm → Bpm) (s : State) : (updBpm f s).qe = s.qe := rfl
@[simp] theorem updBpm_mgc (f : Bpm → Bpm) (s : State) : (updBpm f s).mgc = s.mgc := rfl
@[simp] theorem updBpm_tabs (f : Bpm → Bpm) (s : State) : (updBpm f s).tabs = s.tabs := rfl
@[simp] theorem updBpm_dur (f : Bpm → Bpm) (s : State) : (updBpm f s).dur = s.dur := rfl
@[simp] theorem updBpm_units (f : Bpm → Bpm) (s : State) : (updBpm f s).units = s.units := rfl
@[simp] theorem updBpm_flc (f : Bpm → Bpm) (s : State) : (updBpm f s).flc = s.flc := rfl
@[simp] theorem updBpm_clc (f : Bpm → Bpm) (s : State) : (updBpm f s).clc = s.clc := rfl
@[simp] theorem updBpm_rcu (f : Bpm → Bpm) (s : State) : (updBpm f s).rcu = s.rcu := rfl
@[simp] theorem updBpm_wpe (f : Bpm → Bpm) (s : State) : (updBpm f s).wpe = s.wpe := rfl
@[simp] theorem updBpm_mme (f : Bpm → Bpm) (s : State) : (updBpm f s).mme = s.mme := rfl
@[simp] theorem updBpm_jnl (f : Bpm → Bpm) (s : State) : (updBpm f s).jnl = s.jnl := rfl
@[simp] theorem updBpm_ite (f : Bpm → Bpm) (s : State) : (updBpm f s).ite = s.ite := rfl
@[simp] theorem updBpm_bpm (f : Bpm → Bpm) (s : State) : (updBpm f s).bpm = f s.bpm := rfl
@[simp] theorem updBpm_dmc (f : Bpm → Bpm) (s : State) : (updBpm f s).dmc = s.dmc := rfl
@[simp] theorem updBpm_drawn (f : Bpm → Bpm) (s : State) : (updBpm f s).drawn = s.drawn := rfl
@[simp] theorem updBpm_out (f : Bpm → Bpm) (s : State) : (updBpm f s).out = s.out := rfl
@[simp] theorem updBpm_pending (f : Bpm → Bpm) (s : State) : (updBpm f s).pending = s.pending := rfl
@[simp] theorem updHfe_regs (f : Hfe → Hfe) (s : State) : (updHfe f s).regs = s.regs := rfl
@[simp] theorem updHfe_shadows (f : Hfe → Hfe) (s : State) : (updHfe f s).shadows = s.shadows := rfl
@[simp] theorem updHfe_heldHigh (f : Hfe → Hfe) (s : State) : (updHfe f s).heldHigh = s.heldHigh := rfl
@[simp] theorem updHfe_fuse (f : Hfe → Hfe) (s : State) : (updHfe f s).fuse = s.fuse := rfl
@[simp] theorem updHfe_top (f : Hfe → Hfe) (s : State) : (updHfe f s).top = s.top := rfl
@[simp] theorem updHfe_cru (f : Hfe → Hfe) (s : State) : (updHfe f s).cru = s.cru := rfl
@[simp] theorem updHfe_tu (f : Hfe → Hfe) (s : State) : (updHfe f s).tu = s.tu := rfl
@[simp] theorem updHfe_pad (f : Hfe → Hfe) (s : State) : (updHfe f s).pad = s.pad := rfl
@[simp] theorem updHfe_fws (f : Hfe → Hfe) (s : State) : (updHfe f s).fws = s.fws := rfl
@[simp] theorem updHfe_evc (f : Hfe → Hfe) (s : State) : (updHfe f s).evc = s.evc := rfl
@[simp] theorem updHfe_hfe (f : Hfe → Hfe) (s : State) : (updHfe f s).hfe = f s.hfe := rfl
@[simp] theorem updHfe_qe (f : Hfe → Hfe) (s : State) : (updHfe f s).qe = s.qe := rfl
@[simp] theorem updHfe_mgc (f : Hfe → Hfe) (s : State) : (updHfe f s).mgc = s.mgc := rfl
@[simp] theorem updHfe_tabs (f : Hfe → Hfe) (s : State) : (updHfe f s).tabs = s.tabs := rfl
@[simp] theorem updHfe_dur (f : Hfe → Hfe) (s : State) : (updHfe f s).dur = s.dur := rfl
@[simp] theorem updHfe_units (f : Hfe → Hfe) (s : State) : (updHfe f s).units = s.units := rfl
@[simp] theorem updHfe_flc (f : Hfe → Hfe) (s : State) : (updHfe f s).flc = s.flc := rfl
@[simp] theorem updHfe_clc (f : Hfe → Hfe) (s : State) : (updHfe f s).clc = s.clc := rfl
@[simp] theorem updHfe_rcu (f : Hfe → Hfe) (s : State) : (updHfe f s).rcu = s.rcu := rfl
@[simp] theorem updHfe_wpe (f : Hfe → Hfe) (s : State) : (updHfe f s).wpe = s.wpe := rfl
@[simp] theorem updHfe_mme (f : Hfe → Hfe) (s : State) : (updHfe f s).mme = s.mme := rfl
@[simp] theorem updHfe_jnl (f : Hfe → Hfe) (s : State) : (updHfe f s).jnl = s.jnl := rfl
@[simp] theorem updHfe_ite (f : Hfe → Hfe) (s : State) : (updHfe f s).ite = s.ite := rfl
@[simp] theorem updHfe_bpm (f : Hfe → Hfe) (s : State) : (updHfe f s).bpm = s.bpm := rfl
@[simp] theorem updHfe_dmc (f : Hfe → Hfe) (s : State) : (updHfe f s).dmc = s.dmc := rfl
@[simp] theorem updHfe_drawn (f : Hfe → Hfe) (s : State) : (updHfe f s).drawn = s.drawn := rfl
@[simp] theorem updHfe_out (f : Hfe → Hfe) (s : State) : (updHfe f s).out = s.out := rfl
@[simp] theorem updHfe_pending (f : Hfe → Hfe) (s : State) : (updHfe f s).pending = s.pending := rfl
@[simp] theorem updIte_regs (f : Ite → Ite) (s : State) : (updIte f s).regs = s.regs := rfl
@[simp] theorem updIte_shadows (f : Ite → Ite) (s : State) : (updIte f s).shadows = s.shadows := rfl
@[simp] theorem updIte_heldHigh (f : Ite → Ite) (s : State) : (updIte f s).heldHigh = s.heldHigh := rfl
@[simp] theorem updIte_fuse (f : Ite → Ite) (s : State) : (updIte f s).fuse = s.fuse := rfl
@[simp] theorem updIte_top (f : Ite → Ite) (s : State) : (updIte f s).top = s.top := rfl
@[simp] theorem updIte_cru (f : Ite → Ite) (s : State) : (updIte f s).cru = s.cru := rfl
@[simp] theorem updIte_tu (f : Ite → Ite) (s : State) : (updIte f s).tu = s.tu := rfl
@[simp] theorem updIte_pad (f : Ite → Ite) (s : State) : (updIte f s).pad = s.pad := rfl
@[simp] theorem updIte_fws (f : Ite → Ite) (s : State) : (updIte f s).fws = s.fws := rfl
@[simp] theorem updIte_evc (f : Ite → Ite) (s : State) : (updIte f s).evc = s.evc := rfl
@[simp] theorem updIte_hfe (f : Ite → Ite) (s : State) : (updIte f s).hfe = s.hfe := rfl
@[simp] theorem updIte_qe (f : Ite → Ite) (s : State) : (updIte f s).qe = s.qe := rfl
@[simp] theorem updIte_mgc (f : Ite → Ite) (s : State) : (updIte f s).mgc = s.mgc := rfl
@[simp] theorem updIte_tabs (f : Ite → Ite) (s : State) : (updIte f s).tabs = s.tabs := rfl
@[simp] theorem updIte_dur (f : Ite → Ite) (s : State) : (updIte f s).dur = s.dur := rfl
@[simp] theorem updIte_units (f : Ite → Ite) (s : State) : (updIte f s).units = s.units := rfl
@[simp] theorem updIte_flc (f : Ite → Ite) (s : State) : (updIte f s).flc = s.flc := rfl
@[simp] theorem updIte_clc (f : Ite → Ite) (s : State) : (updIte f s).clc = s.clc := rfl
@[simp] theorem updIte_rcu (f : Ite → Ite) (s : State) : (updIte f s).rcu = s.rcu := rfl
@[simp] theorem updIte_wpe (f : Ite → Ite) (s : State) : (updIte f s).wpe = s.wpe := rfl
@[simp] theorem updIte_mme (f : Ite → Ite) (s : State) : (updIte f s).mme = s.mme := rfl
@[simp] theorem updIte_jnl (f : Ite → Ite) (s : State) : (updIte f s).jnl = s.jnl := rfl
@[simp] theorem updIte_ite (f : Ite → Ite) (s : State) : (updIte f s).ite = f s.ite := rfl
@[simp] theorem updIte_bpm (f : Ite → Ite) (s : State) : (updIte f s).bpm = s.bpm := rfl
@[simp] theorem updIte_dmc (f : Ite → Ite) (s : State) : (updIte f s).dmc = s.dmc := rfl
@[simp] theorem updIte_drawn (f : Ite → Ite) (s : State) : (updIte f s).drawn = s.drawn := rfl
@[simp] theorem updIte_out (f : Ite → Ite) (s : State) : (updIte f s).out = s.out := rfl
@[simp] theorem updIte_pending (f : Ite → Ite) (s : State) : (updIte f s).pending = s.pending := rfl
@[simp] theorem updTop_regs (f : Top → Top) (s : State) : (updTop f s).regs = s.regs := rfl
@[simp] theorem updTop_shadows (f : Top → Top) (s : State) : (updTop f s).shadows = s.shadows := rfl
@[simp] theorem updTop_heldHigh (f : Top → Top) (s : State) : (updTop f s).heldHigh = s.heldHigh := rfl
@[simp] theorem updTop_fuse (f : Top → Top) (s : State) : (updTop f s).fuse = s.fuse := rfl
@[simp] theorem updTop_top (f : Top → Top) (s : State) : (updTop f s).top = f s.top := rfl
@[simp] theorem updTop_cru (f : Top → Top) (s : State) : (updTop f s).cru = s.cru := rfl
@[simp] theorem updTop_tu (f : Top → Top) (s : State) : (updTop f s).tu = s.tu := rfl
@[simp] theorem updTop_pad (f : Top → Top) (s : State) : (updTop f s).pad = s.pad := rfl
@[simp] theorem updTop_fws (f : Top → Top) (s : State) : (updTop f s).fws = s.fws := rfl
@[simp] theorem updTop_evc (f : Top → Top) (s : State) : (updTop f s).evc = s.evc := rfl
@[simp] theorem updTop_hfe (f : Top → Top) (s : State) : (updTop f s).hfe = s.hfe := rfl
@[simp] theorem updTop_qe (f : Top → Top) (s : State) : (updTop f s).qe = s.qe := rfl
@[simp] theorem updTop_mgc (f : Top → Top) (s : State) : (updTop f s).mgc = s.mgc := rfl
@[simp] theorem updTop_tabs (f : Top → Top) (s : State) : (updTop f s).tabs = s.tabs := rfl
@[simp] theorem updTop_dur (f : Top → Top) (s : State) : (updTop f s).dur = s.dur := rfl
@[simp] theorem updTop_units (f : Top → Top) (s : State) : (updTop f s).units = s.units := rfl
@[simp] theorem updTop_flc (f : Top → Top) (s : State) : (updTop f s).flc = s.flc := rfl
@[simp] theorem updTop_clc (f : Top → Top) (s : State) : (updTop f s).clc = s.clc := rfl
@[simp] theorem updTop_rcu (f : Top → Top) (s : State) : (updTop f s).rcu = s.rcu := rfl
@[simp] theorem updTop_wpe (f : Top → Top) (s : State) : (updTop f s).wpe = s.wpe := rfl
@[simp] theorem updTop_mme (f : Top → Top) (s : State) : (updTop f s).mme = s.mme := rfl
@[simp] theorem updTop_jnl (f : Top → Top) (s : State) : (updTop f s).jnl = s.jnl := rfl
@[simp] theorem updTop_ite (f : Top → Top) (s : State) : (updTop f s).ite = s.ite := rfl
@[simp] theorem updTop_bpm (f : Top → Top) (s : State) : (updTop f s).bpm = s.bpm := rfl
@[simp] theorem updTop_dmc (f : Top → Top) (s : State) : (updTop f s).dmc = s.dmc := rfl
@[simp] theorem updTop_drawn (f : Top → Top) (s : State) : (updTop f s).drawn = s.drawn := rfl
@[simp] theorem updTop_out (f : Top → Top) (s : State) : (updTop f s).out = s.out := rfl
@[simp] theorem updTop_pending (f : Top → Top) (s : State) : (updTop f s).pending = s.pending := rfl
@[simp] theorem updFws_regs (f : Fws → Fws) (s : State) : (updFws f s).regs = s.regs := rfl
@[simp] theorem updFws_shadows (f : Fws → Fws) (s : State) : (updFws f s).shadows = s.shadows := rfl
@[simp] theorem updFws_heldHigh (f : Fws → Fws) (s : State) : (updFws f s).heldHigh = s.heldHigh := rfl
@[simp] theorem updFws_fuse (f : Fws → Fws) (s : State) : (updFws f s).fuse = s.fuse := rfl
@[simp] theorem updFws_top (f : Fws → Fws) (s : State) : (updFws f s).top = s.top := rfl
@[simp] theorem updFws_cru (f : Fws → Fws) (s : State) : (updFws f s).cru = s.cru := rfl
@[simp] theorem updFws_tu (f : Fws → Fws) (s : State) : (updFws f s).tu = s.tu := rfl
@[simp] theorem updFws_pad (f : Fws → Fws) (s : State) : (updFws f s).pad = s.pad := rfl
@[simp] theorem updFws_fws (f : Fws → Fws) (s : State) : (updFws f s).fws = f s.fws := rfl
@[simp] theorem updFws_evc (f : Fws → Fws) (s : State) : (updFws f s).evc = s.evc := rfl
@[simp] theorem updFws_hfe (f : Fws → Fws) (s : State) : (updFws f s).hfe = s.hfe := rfl
@[simp] theorem updFws_qe (f : Fws → Fws) (s : State) : (updFws f s).qe = s.qe := rfl
@[simp] theorem updFws_mgc (f : Fws → Fws) (s : State) : (updFws f s).mgc = s.mgc := rfl
@[simp] theorem updFws_tabs (f : Fws → Fws) (s : State) : (updFws f s).tabs = s.tabs := rfl
@[simp] theorem updFws_dur (f : Fws → Fws) (s : State) : (updFws f s).dur = s.dur := rfl
@[simp] theorem updFws_units (f : Fws → Fws) (s : State) : (updFws f s).units = s.units := rfl
@[simp] theorem updFws_flc (f : Fws → Fws) (s : State) : (updFws f s).flc = s.flc := rfl
@[simp] theorem updFws_clc (f : Fws → Fws) (s : State) : (updFws f s).clc = s.clc := rfl
@[simp] theorem updFws_rcu (f : Fws → Fws) (s : State) : (updFws f s).rcu = s.rcu := rfl
@[simp] theorem updFws_wpe (f : Fws → Fws) (s : State) : (updFws f s).wpe = s.wpe := rfl
@[simp] theorem updFws_mme (f : Fws → Fws) (s : State) : (updFws f s).mme = s.mme := rfl
@[simp] theorem updFws_jnl (f : Fws → Fws) (s : State) : (updFws f s).jnl = s.jnl := rfl
@[simp] theorem updFws_ite (f : Fws → Fws) (s : State) : (updFws f s).ite = s.ite := rfl
@[simp] theorem updFws_bpm (f : Fws → Fws) (s : State) : (updFws f s).bpm = s.bpm := rfl
@[simp] theorem updFws_dmc (f : Fws → Fws) (s : State) : (updFws f s).dmc = s.dmc := rfl
@[simp] theorem updFws_drawn (f : Fws → Fws) (s : State) : (updFws f s).drawn = s.drawn := rfl
@[simp] theorem updFws_out (f : Fws → Fws) (s : State) : (updFws f s).out = s.out := rfl
@[simp] theorem updFws_pending (f : Fws → Fws) (s : State) : (updFws f s).pending = s.pending := rfl
@[simp] theorem updEvc_regs (f : Evc → Evc) (s : State) : (updEvc f s).regs = s.regs := rfl
@[simp] theorem updEvc_shadows (f : Evc → Evc) (s : State) : (updEvc f s).shadows = s.shadows := rfl
@[simp] theorem updEvc_heldHigh (f : Evc → Evc) (s : State) : (updEvc f s).heldHigh = s.heldHigh := rfl
@[simp] theorem updEvc_fuse (f : Evc → Evc) (s : State) : (updEvc f s).fuse = s.fuse := rfl
@[simp] theorem updEvc_top (f : Evc → Evc) (s : State) : (updEvc f s).top = s.top := rfl
@[simp] theorem updEvc_cru (f : Evc → Evc) (s : State) : (updEvc f s).cru = s.cru := rfl
@[simp] theorem updEvc_tu (f : Evc → Evc) (s : State) : (updEvc f s).tu = s.tu := rfl
@[simp] theorem updEvc_pad (f : Evc → Evc) (s : State) : (updEvc f s).pad = s.pad := rfl
@[simp] theorem updEvc_fws (f : Evc → Evc) (s : State) : (updEvc f s).fws = s.fws := rfl
@[simp] theorem updEvc_evc (f : Evc → Evc) (s : State) : (updEvc f s).evc = f s.evc := rfl
@[simp] theorem updEvc_hfe (f : Evc → Evc) (s : State) : (updEvc f s).hfe = s.hfe := rfl
@[simp] theorem updEvc_qe (f : Evc → Evc) (s : State) : (updEvc f s).qe = s.qe := rfl
@[simp] theorem updEvc_mgc (f : Evc → Evc) (s : State) : (updEvc f s).mgc = s.mgc := rfl
@[simp] theorem updEvc_tabs (f : Evc → Evc) (s : State) : (updEvc f s).tabs = s.tabs := rfl
@[simp] theorem updEvc_dur (f : Evc → Evc) (s : State) : (updEvc f s).dur = s.dur := rfl
@[simp] theorem updEvc_units (f : Evc → Evc) (s : State) : (updEvc f s).units = s.units := rfl
@[simp] theorem updEvc_flc (f : Evc → Evc) (s : State) : (updEvc f s).flc = s.flc := rfl
@[simp] theorem updEvc_clc (f : Evc → Evc) (s : State) : (updEvc f s).clc = s.clc := rfl
@[simp] theorem updEvc_rcu (f : Evc → Evc) (s : State) : (updEvc f s).rcu = s.rcu := rfl
@[simp] theorem updEvc_wpe (f : Evc → Evc) (s : State) : (updEvc f s).wpe = s.wpe := rfl
@[simp] theorem updEvc_mme (f : Evc → Evc) (s : State) : (updEvc f s).mme = s.mme := rfl
@[simp] theorem updEvc_jnl (f : Evc → Evc) (s : State) : (updEvc f s).jnl = s.jnl := rfl
@[simp] theorem updEvc_ite (f : Evc → Evc) (s : State) : (updEvc f s).ite = s.ite := rfl
@[simp] theorem updEvc_bpm (f : Evc → Evc) (s : State) : (updEvc f s).bpm = s.bpm := rfl
@[simp] theorem updEvc_dmc (f : Evc → Evc) (s : State) : (updEvc f s).dmc = s.dmc := rfl
@[simp] theorem updEvc_drawn (f : Evc → Evc) (s : State) : (updEvc f s).drawn = s.drawn := rfl
@[simp] theorem updEvc_out (f : Evc → Evc) (s : State) : (updEvc f s).out = s.out := rfl
@[simp] theorem updEvc_pending (f : Evc → Evc) (s : State) : (updEvc f s).pending = s.pending := rfl
@[simp] theorem updPad_regs (f : Pad → Pad) (s : State) : (updPad f s).regs = s.regs := rfl
@[simp] theorem updPad_shadows (f : Pad → Pad) (s : State) : (updPad f s).shadows = s.shadows := rfl
@[simp] theorem updPad_heldHigh (f : Pad → Pad) (s : State) : (updPad f s).heldHigh = s.heldHigh := rfl
@[simp] theorem updPad_fuse (f : Pad → Pad) (s : State) : (updPad f s).fuse = s.fuse := rfl
@[simp] theorem updPad_top (f : Pad → Pad) (s : State) : (updPad f s).top = s.top := rfl
@[simp] theorem updPad_cru (f : Pad → Pad) (s : State) : (updPad f s).cru = s.cru := rfl
@[simp] theorem updPad_tu (f : Pad → Pad) (s : State) : (updPad f s).tu = s.tu := rfl
@[simp] theorem updPad_pad (f : Pad → Pad) (s : State) : (updPad f s).pad = f s.pad := rfl
@[simp] theorem updPad_fws (f : Pad → Pad) (s : State) : (updPad f s).fws = s.fws := rfl
@[simp] theorem updPad_evc (f : Pad → Pad) (s : State) : (updPad f s).evc = s.evc := rfl
@[simp] theorem updPad_hfe (f : Pad → Pad) (s : State) : (updPad f s).hfe = s.hfe := rfl
@[simp] theorem updPad_qe (f : Pad → Pad) (s : State) : (updPad f s).qe = s.qe := rfl
@[simp] theorem updPad_mgc (f : Pad → Pad) (s : State) : (updPad f s).mgc = s.mgc := rfl
@[simp] theorem updPad_tabs (f : Pad → Pad) (s : State) : (updPad f s).tabs = s.tabs := rfl
@[simp] theorem updPad_dur (f : Pad → Pad) (s : State) : (updPad f s).dur = s.dur := rfl
@[simp] theorem updPad_units (f : Pad → Pad) (s : State) : (updPad f s).units = s.units := rfl
@[simp] theorem updPad_flc (f : Pad → Pad) (s : State) : (updPad f s).flc = s.flc := rfl
@[simp] theorem updPad_clc (f : Pad → Pad) (s : State) : (updPad f s).clc = s.clc := rfl
@[simp] theorem updPad_rcu (f : Pad → Pad) (s : State) : (updPad f s).rcu = s.rcu := rfl
@[simp] theorem updPad_wpe (f : Pad → Pad) (s : State) : (updPad f s).wpe = s.wpe := rfl
@[simp] theorem updPad_mme (f : Pad → Pad) (s : State) : (updPad f s).mme = s.mme := rfl
@[simp] theorem updPad_jnl (f : Pad → Pad) (s : State) : (updPad f s).jnl = s.jnl := rfl
@[simp] theorem updPad_ite (f : Pad → Pad) (s : State) : (updPad f s).ite = s.ite := rfl
@[simp] theorem updPad_bpm (f : Pad → Pad) (s : State) : (updPad f s).bpm = s.bpm := rfl
@[simp] theorem updPad_dmc (f : Pad → Pad) (s : State) : (updPad f s).dmc = s.dmc := rfl
@[simp] theorem updPad_drawn (f : Pad → Pad) (s : State) : (updPad f s).drawn = s.drawn := rfl
@[simp] theorem updPad_out (f : Pad → Pad) (s : State) : (updPad f s).out = s.out := rfl
@[simp] theorem updPad_pending (f : Pad → Pad) (s : State) : (updPad f s).pending = s.pending := rfl
@[simp] theorem updMgc_regs (f : Mgc → Mgc) (s : State) : (updMgc f s).regs = s.regs := rfl
@[simp] theorem updMgc_shadows (f : Mgc → Mgc) (s : State) : (updMgc f s).shadows = s.shadows := rfl
@[simp] theorem updMgc_heldHigh (f : Mgc → Mgc) (s : State) : (updMgc f s).heldHigh = s.heldHigh := rfl
@[simp] theorem updMgc_fuse (f : Mgc → Mgc) (s : State) : (updMgc f s).fuse = s.fuse := rfl
@[simp] theorem updMgc_top (f : Mgc → Mgc) (s : State) : (updMgc f s).top = s.top := rfl
@[simp] theorem updMgc_cru (f : Mgc → Mgc) (s : State) : (updMgc f s).cru = s.cru := rfl
@[simp] theorem updMgc_tu (f : Mgc → Mgc) (s : State) : (updMgc f s).tu = s.tu := rfl
@[simp] theorem updMgc_pad (f : Mgc → Mgc) (s : State) : (updMgc f s).pad = s.pad := rfl
@[simp] theorem updMgc_fws (f : Mgc → Mgc) (s : State) : (updMgc f s).fws = s.fws := rfl
@[simp] theorem updMgc_evc (f : Mgc → Mgc) (s : State) : (updMgc f s).evc = s.evc := rfl
@[simp] theorem updMgc_hfe (f : Mgc → Mgc) (s : State) : (updMgc f s).hfe = s.hfe := rfl
@[simp] theorem updMgc_qe (f : Mgc → Mgc) (s : State) : (updMgc f s).qe = s.qe := rfl
@[simp] theorem updMgc_mgc (f : Mgc → Mgc) (s : State) : (updMgc f s).mgc = f s.mgc := rfl
@[simp] theorem updMgc_tabs (f : Mgc → Mgc) (s : State) : (updMgc f s).tabs = s.tabs := rfl
@[simp] theorem updMgc_dur (f : Mgc → Mgc) (s : State) : (updMgc f s).dur = s.dur := rfl
@[simp] theorem updMgc_units (f : Mgc → Mgc) (s : State) : (updMgc f s).units = s.units := rfl
@[simp] theorem updMgc_flc (f : Mgc → Mgc) (s : State) : (updMgc f s).flc = s.flc := rfl
@[simp] theorem updMgc_clc (f : Mgc → Mgc) (s : State) : (updMgc f s).clc = s.clc := rfl
@[simp] theorem updMgc_rcu (f : Mgc → Mgc) (s : State) : (updMgc f s).rcu = s.rcu := rfl
@[simp] theorem updMgc_wpe (f : Mgc → Mgc) (s : State) : (updMgc f s).wpe = s.wpe := rfl
@[simp] theorem updMgc_mme (f : Mgc → Mgc) (s : State) : (updMgc f s).mme = s.mme := rfl
@[simp] theorem updMgc_jnl (f : Mgc → Mgc) (s : State) : (updMgc f s).jnl = s.jnl := rfl
@[simp] theorem updMgc_ite (f : Mgc → Mgc) (s : State) : (updMgc f s).ite = s.ite := rfl
@[simp] theorem updMgc_bpm (f : Mgc → Mgc) (s : State) : (updMgc f s).bpm = s.bpm := rfl
@[simp] theorem updMgc_dmc (f : Mgc → Mgc) (s : State) : (updMgc f s).dmc = s.dmc := rfl
@[simp] theorem updMgc_drawn (f : Mgc → Mgc) (s : State) : (updMgc f s).drawn = s.drawn := rfl
@[simp] theorem updMgc_out (f : Mgc → Mgc) (s : State) : (updMgc f s).out = s.out := rfl
@[simp] theorem updMgc_pending (f : Mgc → Mgc) (s : State) : (updMgc f s).pending = s.pending := rfl
@[simp] theorem updQe_regs (f : Qe → Qe) (s : State) : (updQe f s).regs = s.regs := rfl
@[simp] theorem updQe_shadows (f : Qe → Qe) (s : State) : (updQe f s).shadows = s.shadows := rfl
@[simp] theorem updQe_heldHigh (f : Qe → Qe) (s : State) : (updQe f s).heldHigh = s.heldHigh := rfl
@[simp] theorem updQe_fuse (f : Qe → Qe) (s : State) : (updQe f s).fuse = s.fuse := rfl
@[simp] theorem updQe_top (f : Qe → Qe) (s : State) : (updQe f s).top = s.top := rfl
@[simp] theorem updQe_cru (f : Qe → Qe) (s : State) : (updQe f s).cru = s.cru := rfl
@[simp] theorem updQe_tu (f : Qe → Qe) (s : State) : (updQe f s).tu = s.tu := rfl
@[simp] theorem updQe_pad (f : Qe → Qe) (s : State) : (updQe f s).pad = s.pad := rfl
@[simp] theorem updQe_fws (f : Qe → Qe) (s : State) : (updQe f s).fws = s.fws := rfl
@[simp] theorem updQe_evc (f : Qe → Qe) (s : State) : (updQe f s).evc = s.evc := rfl
@[simp] theorem updQe_hfe (f : Qe → Qe) (s : State) : (updQe f s).hfe = s.hfe := rfl
@[simp] theorem updQe_qe (f : Qe → Qe) (s : State) : (updQe f s).qe = f s.qe := rfl
@[simp] theorem updQe_mgc (f : Qe → Qe) (s : State) : (updQe f s).mgc = s.mgc := rfl
@[simp] theorem updQe_tabs (f : Qe → Qe) (s : State) : (updQe f s).tabs = s.tabs := rfl
@[simp] theorem updQe_dur (f : Qe → Qe) (s : State) : (updQe f s).dur = s.dur := rfl
@[simp] theorem updQe_units (f : Qe → Qe) (s : State) : (updQe f s).units = s.units := rfl
@[simp] theorem updQe_flc (f : Qe → Qe) (s : State) : (updQe f s).flc = s.flc := rfl
@[simp] theorem updQe_clc (f : Qe → Qe) (s : State) : (updQe f s).clc = s.clc := rfl
@[simp] theorem updQe_rcu (f : Qe → Qe) (s : State) : (updQe f s).rcu = s.rcu := rfl
@[simp] theorem updQe_wpe (f : Qe → Qe) (s : State) : (updQe f s).wpe = s.wpe := rfl
@[simp] theorem updQe_mme (f : Qe → Qe) (s : State) : (updQe f s).mme = s.mme := rfl
@[simp] theorem updQe_jnl (f : Qe → Qe) (s : State) : (updQe f s).jnl = s.jnl := rfl
@[simp] theorem updQe_ite (f : Qe → Qe) (s : State) : (updQe f s).ite = s.ite := rfl
@[simp] theorem updQe_bpm (f : Qe → Qe) (s : State) : (updQe f s).bpm = s.bpm := rfl
@[simp] theorem updQe_dmc (f : Qe → Qe) (s : State) : (updQe f s).dmc = s.dmc := rfl
@[simp] theorem updQe_drawn (f : Qe → Qe) (s : State) : (updQe f s).drawn = s.drawn := rfl
@[simp] theorem updQe_out (f : Qe → Qe) (s : State) : (updQe f s).out = s.out := rfl
@[simp] theorem updQe_pending (f : Qe → Qe) (s : State) : (updQe f s).pending = s.pending := rfl
@[simp] theorem updCru_regs (f : Cru → Cru) (s : State) : (updCru f s).regs = s.regs := rfl
@[simp] theorem updCru_shadows (f : Cru → Cru) (s : State) : (updCru f s).shadows = s.shadows := rfl
@[simp] theorem updCru_heldHigh (f : Cru → Cru) (s : State) : (updCru f s).heldHigh = s.heldHigh := rfl
@[simp] theorem updCru_fuse (f : Cru → Cru) (s : State) : (updCru f s).fuse = s.fuse := rfl
@[simp] theorem updCru_top (f : Cru → Cru) (s : State) : (updCru f s).top = s.top := rfl
@[simp] theorem updCru_cru (f : Cru → Cru) (s : State) : (updCru f s).cru = f s.cru := rfl
@[simp] theorem updCru_tu (f : Cru → Cru) (s : State) : (updCru f s).tu = s.tu := rfl
@[simp] theorem updCru_pad (f : Cru → Cru) (s : State) : (updCru f s).pad = s.pad := rfl
@[simp] theorem updCru_fws (f : Cru → Cru) (s : State) : (updCru f s).fws = s.fws := rfl
@[simp] theorem updCru_evc (f : Cru → Cru) (s : State) : (updCru f s).evc = s.evc := rfl
@[simp] theorem updCru_hfe (f : Cru → Cru) (s : State) : (updCru f s).hfe = s.hfe := rfl
@[simp] theorem updCru_qe (f : Cru → Cru) (s : State) : (updCru f s).qe = s.qe := rfl
@[simp] theorem updCru_mgc (f : Cru → Cru) (s : State) : (updCru f s).mgc = s.mgc := rfl
@[simp] theorem updCru_tabs (f : Cru → Cru) (s : State) : (updCru f s).tabs = s.tabs := rfl
@[simp] theorem updCru_dur (f : Cru → Cru) (s : State) : (updCru f s).dur = s.dur := rfl
@[simp] theorem updCru_units (f : Cru → Cru) (s : State) : (updCru f s).units = s.units := rfl
@[simp] theorem updCru_flc (f : Cru → Cru) (s : State) : (updCru f s).flc = s.flc := rfl
@[simp] theorem updCru_clc (f : Cru → Cru) (s : State) : (updCru f s).clc = s.clc := rfl
@[simp] theorem updCru_rcu (f : Cru → Cru) (s : State) : (updCru f s).rcu = s.rcu := rfl
@[simp] theorem updCru_wpe (f : Cru → Cru) (s : State) : (updCru f s).wpe = s.wpe := rfl
@[simp] theorem updCru_mme (f : Cru → Cru) (s : State) : (updCru f s).mme = s.mme := rfl
@[simp] theorem updCru_jnl (f : Cru → Cru) (s : State) : (updCru f s).jnl = s.jnl := rfl
@[simp] theorem updCru_ite (f : Cru → Cru) (s : State) : (updCru f s).ite = s.ite := rfl
@[simp] theorem updCru_bpm (f : Cru → Cru) (s : State) : (updCru f s).bpm = s.bpm := rfl
@[simp] theorem updCru_dmc (f : Cru → Cru) (s : State) : (updCru f s).dmc = s.dmc := rfl
@[simp] theorem updCru_drawn (f : Cru → Cru) (s : State) : (updCru f s).drawn = s.drawn := rfl
@[simp] theorem updCru_out (f : Cru → Cru) (s : State) : (updCru f s).out = s.out := rfl
@[simp] theorem updCru_pending (f : Cru → Cru) (s : State) : (updCru f s).pending = s.pending := rfl
@[simp] theorem updTu_regs (f : Tu → Tu) (s : State) : (updTu f s).regs = s.regs := rfl
@[simp] theorem updTu_shadows (f : Tu → Tu) (s : State) : (updTu f s).shadows = s.shadows := rfl
@[simp] theorem updTu_heldHigh (f : Tu → Tu) (s : State) : (updTu f s).heldHigh = s.heldHigh := rfl
@[simp] theorem updTu_fuse (f : Tu → Tu) (s : State) : (updTu f s).fuse = s.fuse := rfl
@[simp] theorem updTu_top (f : Tu → Tu) (s : State) : (updTu f s).top = s.top := rfl
@[simp] theorem updTu_cru (f : Tu → Tu) (s : State) : (updTu f s).cru = s.cru := rfl
@[simp] theorem updTu_tu (f : Tu → Tu) (s : State) : (updTu f s).tu = f s.tu := rfl
@[simp] theorem updTu_pad (f : Tu → Tu) (s : State) : (updTu f s).pad = s.pad := rfl
@[simp] theorem updTu_fws (f : Tu → Tu) (s : State) : (updTu f s).fws = s.fws := rfl
@[simp] theorem updTu_evc (f : Tu → Tu) (s : State) : (updTu f s).evc = s.evc := rfl
@[simp] theorem updTu_hfe (f : Tu → Tu) (s : State) : (updTu f s).hfe = s.hfe := rfl
@[simp] theorem updTu_qe (f : Tu → Tu) (s : State) : (updTu f s).qe = s.qe := rfl
@[simp] theorem updTu_mgc (f : Tu → Tu) (s : State) : (updTu f s).mgc = s.mgc := rfl
@[simp] theorem updTu_tabs (f : Tu → Tu) (s : State) : (updTu f s).tabs = s.tabs := rfl
@[simp] theorem updTu_dur (f : Tu → Tu) (s : State) : (updTu f s).dur = s.dur := rfl
@[simp] theorem updTu_units (f : Tu → Tu) (s : State) : (updTu f s).units = s.units := rfl
@[simp] theorem updTu_flc (f : Tu → Tu) (s : State) : (updTu f s).flc = s.flc := rfl
@[simp] theorem updTu_clc (f : Tu → Tu) (s : State) : (updTu f s).clc = s.clc := rfl
@[simp] theorem updTu_rcu (f : Tu → Tu) (s : State) : (updTu f s).rcu = s.rcu := rfl
@[simp] theorem updTu_wpe (f : Tu → Tu) (s : State) : (updTu f s).wpe = s.wpe := rfl
@[simp] theorem updTu_mme (f : Tu → Tu) (s : State) : (updTu f s).mme = s.mme := rfl
@[simp] theorem updTu_jnl (f : Tu → Tu) (s : State) : (updTu f s).jnl = s.jnl := rfl
@[simp] theorem updTu_ite (f : Tu → Tu) (s : State) : (updTu f s).ite = s.ite := rfl
@[simp] theorem updTu_bpm (f : Tu → Tu) (s : State) : (updTu f s).bpm = s.bpm := rfl
@[simp] theorem updTu_dmc (f : Tu → Tu) (s : State) : (updTu f s).dmc = s.dmc := rfl
@[simp] theorem updTu_drawn (f : Tu → Tu) (s : State) : (updTu f s).drawn = s.drawn := rfl
@[simp] theorem updTu_out (f : Tu → Tu) (s : State) : (updTu f s).out = s.out := rfl
@[simp] theorem updTu_pending (f : Tu → Tu) (s : State) : (updTu f s).pending = s.pending := rfl

/-! ## One entry of a component -/

@[simp] theorem updBank_regs (k : Nat) (f : Bank → Bank) (s : State) : (updBank k f s).regs = s.regs := rfl
@[simp] theorem updBank_shadows (k : Nat) (f : Bank → Bank) (s : State) : (updBank k f s).shadows = s.shadows := rfl
@[simp] theorem updBank_heldHigh (k : Nat) (f : Bank → Bank) (s : State) : (updBank k f s).heldHigh = s.heldHigh := rfl
@[simp] theorem updBank_fuse (k : Nat) (f : Bank → Bank) (s : State) : (updBank k f s).fuse = s.fuse := rfl
@[simp] theorem updBank_top (k : Nat) (f : Bank → Bank) (s : State) : (updBank k f s).top = s.top := rfl
@[simp] theorem updBank_cru (k : Nat) (f : Bank → Bank) (s : State) : (updBank k f s).cru = s.cru := rfl
@[simp] theorem updBank_tu (k : Nat) (f : Bank → Bank) (s : State) : (updBank k f s).tu = s.tu := rfl
@[simp] theorem updBank_pad (k : Nat) (f : Bank → Bank) (s : State) : (updBank k f s).pad = s.pad := rfl
@[simp] theorem updBank_fws (k : Nat) (f : Bank → Bank) (s : State) : (updBank k f s).fws = s.fws := rfl
@[simp] theorem updBank_evc (k : Nat) (f : Bank → Bank) (s : State) : (updBank k f s).evc = s.evc := rfl
@[simp] theorem updBank_hfe (k : Nat) (f : Bank → Bank) (s : State) : (updBank k f s).hfe = s.hfe := rfl
@[simp] theorem updBank_qe (k : Nat) (f : Bank → Bank) (s : State) : (updBank k f s).qe = s.qe := rfl
@[simp] theorem updBank_mgc (k : Nat) (f : Bank → Bank) (s : State) : (updBank k f s).mgc = s.mgc := rfl
@[simp] theorem updBank_tabs (k : Nat) (f : Bank → Bank) (s : State) : (updBank k f s).tabs = s.tabs := rfl
@[simp] theorem updBank_dur (k : Nat) (f : Bank → Bank) (s : State) : (updBank k f s).dur = s.dur := rfl
@[simp] theorem updBank_units (k : Nat) (f : Bank → Bank) (s : State) : (updBank k f s).units = s.units := rfl
@[simp] theorem updBank_flc (k : Nat) (f : Bank → Bank) (s : State) : (updBank k f s).flc = s.flc := rfl
@[simp] theorem updBank_clc (k : Nat) (f : Bank → Bank) (s : State) : (updBank k f s).clc = s.clc := rfl
@[simp] theorem updBank_rcu (k : Nat) (f : Bank → Bank) (s : State) : (updBank k f s).rcu = s.rcu := rfl
@[simp] theorem updBank_wpe (k : Nat) (f : Bank → Bank) (s : State) : (updBank k f s).wpe = s.wpe := rfl
@[simp] theorem updBank_mme (k : Nat) (f : Bank → Bank) (s : State) : (updBank k f s).mme = s.mme := rfl
@[simp] theorem updBank_jnl (k : Nat) (f : Bank → Bank) (s : State) : (updBank k f s).jnl = s.jnl := rfl
@[simp] theorem updBank_ite (k : Nat) (f : Bank → Bank) (s : State) : (updBank k f s).ite = s.ite := rfl
@[simp] theorem updBank_bpm (k : Nat) (f : Bank → Bank) (s : State) : (updBank k f s).bpm = s.bpm := rfl
@[simp] theorem updBank_drawn (k : Nat) (f : Bank → Bank) (s : State) : (updBank k f s).drawn = s.drawn := rfl
@[simp] theorem updBank_out (k : Nat) (f : Bank → Bank) (s : State) : (updBank k f s).out = s.out := rfl
@[simp] theorem updBank_pending (k : Nat) (f : Bank → Bank) (s : State) : (updBank k f s).pending = s.pending := rfl
@[simp] theorem updNs_regs (n : Nat) (f : Ns → Ns) (s : State) : (updNs n f s).regs = s.regs := rfl
@[simp] theorem updNs_shadows (n : Nat) (f : Ns → Ns) (s : State) : (updNs n f s).shadows = s.shadows := rfl
@[simp] theorem updNs_heldHigh (n : Nat) (f : Ns → Ns) (s : State) : (updNs n f s).heldHigh = s.heldHigh := rfl
@[simp] theorem updNs_fuse (n : Nat) (f : Ns → Ns) (s : State) : (updNs n f s).fuse = s.fuse := rfl
@[simp] theorem updNs_top (n : Nat) (f : Ns → Ns) (s : State) : (updNs n f s).top = s.top := rfl
@[simp] theorem updNs_cru (n : Nat) (f : Ns → Ns) (s : State) : (updNs n f s).cru = s.cru := rfl
@[simp] theorem updNs_tu (n : Nat) (f : Ns → Ns) (s : State) : (updNs n f s).tu = s.tu := rfl
@[simp] theorem updNs_pad (n : Nat) (f : Ns → Ns) (s : State) : (updNs n f s).pad = s.pad := rfl
@[simp] theorem updNs_fws (n : Nat) (f : Ns → Ns) (s : State) : (updNs n f s).fws = s.fws := rfl
@[simp] theorem updNs_evc (n : Nat) (f : Ns → Ns) (s : State) : (updNs n f s).evc = s.evc := rfl
@[simp] theorem updNs_hfe (n : Nat) (f : Ns → Ns) (s : State) : (updNs n f s).hfe = s.hfe := rfl
@[simp] theorem updNs_qe (n : Nat) (f : Ns → Ns) (s : State) : (updNs n f s).qe = s.qe := rfl
@[simp] theorem updNs_mgc (n : Nat) (f : Ns → Ns) (s : State) : (updNs n f s).mgc = s.mgc := rfl
@[simp] theorem updNs_dur (n : Nat) (f : Ns → Ns) (s : State) : (updNs n f s).dur = s.dur := rfl
@[simp] theorem updNs_units (n : Nat) (f : Ns → Ns) (s : State) : (updNs n f s).units = s.units := rfl
@[simp] theorem updNs_flc (n : Nat) (f : Ns → Ns) (s : State) : (updNs n f s).flc = s.flc := rfl
@[simp] theorem updNs_clc (n : Nat) (f : Ns → Ns) (s : State) : (updNs n f s).clc = s.clc := rfl
@[simp] theorem updNs_rcu (n : Nat) (f : Ns → Ns) (s : State) : (updNs n f s).rcu = s.rcu := rfl
@[simp] theorem updNs_wpe (n : Nat) (f : Ns → Ns) (s : State) : (updNs n f s).wpe = s.wpe := rfl
@[simp] theorem updNs_mme (n : Nat) (f : Ns → Ns) (s : State) : (updNs n f s).mme = s.mme := rfl
@[simp] theorem updNs_jnl (n : Nat) (f : Ns → Ns) (s : State) : (updNs n f s).jnl = s.jnl := rfl
@[simp] theorem updNs_ite (n : Nat) (f : Ns → Ns) (s : State) : (updNs n f s).ite = s.ite := rfl
@[simp] theorem updNs_bpm (n : Nat) (f : Ns → Ns) (s : State) : (updNs n f s).bpm = s.bpm := rfl
@[simp] theorem updNs_dmc (n : Nat) (f : Ns → Ns) (s : State) : (updNs n f s).dmc = s.dmc := rfl
@[simp] theorem updNs_drawn (n : Nat) (f : Ns → Ns) (s : State) : (updNs n f s).drawn = s.drawn := rfl
@[simp] theorem updNs_out (n : Nat) (f : Ns → Ns) (s : State) : (updNs n f s).out = s.out := rfl
@[simp] theorem updNs_pending (n : Nat) (f : Ns → Ns) (s : State) : (updNs n f s).pending = s.pending := rfl
@[simp] theorem updZone_regs (z : Nat) (f : Zone → Zone) (s : State) : (updZone z f s).regs = s.regs := rfl
@[simp] theorem updZone_shadows (z : Nat) (f : Zone → Zone) (s : State) : (updZone z f s).shadows = s.shadows := rfl
@[simp] theorem updZone_heldHigh (z : Nat) (f : Zone → Zone) (s : State) : (updZone z f s).heldHigh = s.heldHigh := rfl
@[simp] theorem updZone_fuse (z : Nat) (f : Zone → Zone) (s : State) : (updZone z f s).fuse = s.fuse := rfl
@[simp] theorem updZone_top (z : Nat) (f : Zone → Zone) (s : State) : (updZone z f s).top = s.top := rfl
@[simp] theorem updZone_cru (z : Nat) (f : Zone → Zone) (s : State) : (updZone z f s).cru = s.cru := rfl
@[simp] theorem updZone_tu (z : Nat) (f : Zone → Zone) (s : State) : (updZone z f s).tu = s.tu := rfl
@[simp] theorem updZone_pad (z : Nat) (f : Zone → Zone) (s : State) : (updZone z f s).pad = s.pad := rfl
@[simp] theorem updZone_fws (z : Nat) (f : Zone → Zone) (s : State) : (updZone z f s).fws = s.fws := rfl
@[simp] theorem updZone_evc (z : Nat) (f : Zone → Zone) (s : State) : (updZone z f s).evc = s.evc := rfl
@[simp] theorem updZone_hfe (z : Nat) (f : Zone → Zone) (s : State) : (updZone z f s).hfe = s.hfe := rfl
@[simp] theorem updZone_qe (z : Nat) (f : Zone → Zone) (s : State) : (updZone z f s).qe = s.qe := rfl
@[simp] theorem updZone_mgc (z : Nat) (f : Zone → Zone) (s : State) : (updZone z f s).mgc = s.mgc := rfl
@[simp] theorem updZone_dur (z : Nat) (f : Zone → Zone) (s : State) : (updZone z f s).dur = s.dur := rfl
@[simp] theorem updZone_units (z : Nat) (f : Zone → Zone) (s : State) : (updZone z f s).units = s.units := rfl
@[simp] theorem updZone_flc (z : Nat) (f : Zone → Zone) (s : State) : (updZone z f s).flc = s.flc := rfl
@[simp] theorem updZone_clc (z : Nat) (f : Zone → Zone) (s : State) : (updZone z f s).clc = s.clc := rfl
@[simp] theorem updZone_rcu (z : Nat) (f : Zone → Zone) (s : State) : (updZone z f s).rcu = s.rcu := rfl
@[simp] theorem updZone_wpe (z : Nat) (f : Zone → Zone) (s : State) : (updZone z f s).wpe = s.wpe := rfl
@[simp] theorem updZone_mme (z : Nat) (f : Zone → Zone) (s : State) : (updZone z f s).mme = s.mme := rfl
@[simp] theorem updZone_jnl (z : Nat) (f : Zone → Zone) (s : State) : (updZone z f s).jnl = s.jnl := rfl
@[simp] theorem updZone_ite (z : Nat) (f : Zone → Zone) (s : State) : (updZone z f s).ite = s.ite := rfl
@[simp] theorem updZone_bpm (z : Nat) (f : Zone → Zone) (s : State) : (updZone z f s).bpm = s.bpm := rfl
@[simp] theorem updZone_dmc (z : Nat) (f : Zone → Zone) (s : State) : (updZone z f s).dmc = s.dmc := rfl
@[simp] theorem updZone_drawn (z : Nat) (f : Zone → Zone) (s : State) : (updZone z f s).drawn = s.drawn := rfl
@[simp] theorem updZone_out (z : Nat) (f : Zone → Zone) (s : State) : (updZone z f s).out = s.out := rfl
@[simp] theorem updZone_pending (z : Nat) (f : Zone → Zone) (s : State) : (updZone z f s).pending = s.pending := rfl
@[simp] theorem updStripe_regs (k : Nat) (f : Stripe → Stripe) (s : State) : (updStripe k f s).regs = s.regs := rfl
@[simp] theorem updStripe_shadows (k : Nat) (f : Stripe → Stripe) (s : State) : (updStripe k f s).shadows = s.shadows := rfl
@[simp] theorem updStripe_heldHigh (k : Nat) (f : Stripe → Stripe) (s : State) : (updStripe k f s).heldHigh = s.heldHigh := rfl
@[simp] theorem updStripe_fuse (k : Nat) (f : Stripe → Stripe) (s : State) : (updStripe k f s).fuse = s.fuse := rfl
@[simp] theorem updStripe_top (k : Nat) (f : Stripe → Stripe) (s : State) : (updStripe k f s).top = s.top := rfl
@[simp] theorem updStripe_cru (k : Nat) (f : Stripe → Stripe) (s : State) : (updStripe k f s).cru = s.cru := rfl
@[simp] theorem updStripe_tu (k : Nat) (f : Stripe → Stripe) (s : State) : (updStripe k f s).tu = s.tu := rfl
@[simp] theorem updStripe_pad (k : Nat) (f : Stripe → Stripe) (s : State) : (updStripe k f s).pad = s.pad := rfl
@[simp] theorem updStripe_fws (k : Nat) (f : Stripe → Stripe) (s : State) : (updStripe k f s).fws = s.fws := rfl
@[simp] theorem updStripe_evc (k : Nat) (f : Stripe → Stripe) (s : State) : (updStripe k f s).evc = s.evc := rfl
@[simp] theorem updStripe_hfe (k : Nat) (f : Stripe → Stripe) (s : State) : (updStripe k f s).hfe = s.hfe := rfl
@[simp] theorem updStripe_qe (k : Nat) (f : Stripe → Stripe) (s : State) : (updStripe k f s).qe = s.qe := rfl
@[simp] theorem updStripe_mgc (k : Nat) (f : Stripe → Stripe) (s : State) : (updStripe k f s).mgc = s.mgc := rfl
@[simp] theorem updStripe_dur (k : Nat) (f : Stripe → Stripe) (s : State) : (updStripe k f s).dur = s.dur := rfl
@[simp] theorem updStripe_units (k : Nat) (f : Stripe → Stripe) (s : State) : (updStripe k f s).units = s.units := rfl
@[simp] theorem updStripe_flc (k : Nat) (f : Stripe → Stripe) (s : State) : (updStripe k f s).flc = s.flc := rfl
@[simp] theorem updStripe_clc (k : Nat) (f : Stripe → Stripe) (s : State) : (updStripe k f s).clc = s.clc := rfl
@[simp] theorem updStripe_rcu (k : Nat) (f : Stripe → Stripe) (s : State) : (updStripe k f s).rcu = s.rcu := rfl
@[simp] theorem updStripe_wpe (k : Nat) (f : Stripe → Stripe) (s : State) : (updStripe k f s).wpe = s.wpe := rfl
@[simp] theorem updStripe_mme (k : Nat) (f : Stripe → Stripe) (s : State) : (updStripe k f s).mme = s.mme := rfl
@[simp] theorem updStripe_jnl (k : Nat) (f : Stripe → Stripe) (s : State) : (updStripe k f s).jnl = s.jnl := rfl
@[simp] theorem updStripe_ite (k : Nat) (f : Stripe → Stripe) (s : State) : (updStripe k f s).ite = s.ite := rfl
@[simp] theorem updStripe_bpm (k : Nat) (f : Stripe → Stripe) (s : State) : (updStripe k f s).bpm = s.bpm := rfl
@[simp] theorem updStripe_dmc (k : Nat) (f : Stripe → Stripe) (s : State) : (updStripe k f s).dmc = s.dmc := rfl
@[simp] theorem updStripe_drawn (k : Nat) (f : Stripe → Stripe) (s : State) : (updStripe k f s).drawn = s.drawn := rfl
@[simp] theorem updStripe_out (k : Nat) (f : Stripe → Stripe) (s : State) : (updStripe k f s).out = s.out := rfl
@[simp] theorem updStripe_pending (k : Nat) (f : Stripe → Stripe) (s : State) : (updStripe k f s).pending = s.pending := rfl
@[simp] theorem updBlock_regs (r : Nat) (f : Block → Block) (s : State) : (updBlock r f s).regs = s.regs := rfl
@[simp] theorem updBlock_shadows (r : Nat) (f : Block → Block) (s : State) : (updBlock r f s).shadows = s.shadows := rfl
@[simp] theorem updBlock_heldHigh (r : Nat) (f : Block → Block) (s : State) : (updBlock r f s).heldHigh = s.heldHigh := rfl
@[simp] theorem updBlock_fuse (r : Nat) (f : Block → Block) (s : State) : (updBlock r f s).fuse = s.fuse := rfl
@[simp] theorem updBlock_top (r : Nat) (f : Block → Block) (s : State) : (updBlock r f s).top = s.top := rfl
@[simp] theorem updBlock_cru (r : Nat) (f : Block → Block) (s : State) : (updBlock r f s).cru = s.cru := rfl
@[simp] theorem updBlock_tu (r : Nat) (f : Block → Block) (s : State) : (updBlock r f s).tu = s.tu := rfl
@[simp] theorem updBlock_pad (r : Nat) (f : Block → Block) (s : State) : (updBlock r f s).pad = s.pad := rfl
@[simp] theorem updBlock_fws (r : Nat) (f : Block → Block) (s : State) : (updBlock r f s).fws = s.fws := rfl
@[simp] theorem updBlock_evc (r : Nat) (f : Block → Block) (s : State) : (updBlock r f s).evc = s.evc := rfl
@[simp] theorem updBlock_hfe (r : Nat) (f : Block → Block) (s : State) : (updBlock r f s).hfe = s.hfe := rfl
@[simp] theorem updBlock_qe (r : Nat) (f : Block → Block) (s : State) : (updBlock r f s).qe = s.qe := rfl
@[simp] theorem updBlock_mgc (r : Nat) (f : Block → Block) (s : State) : (updBlock r f s).mgc = s.mgc := rfl
@[simp] theorem updBlock_dur (r : Nat) (f : Block → Block) (s : State) : (updBlock r f s).dur = s.dur := rfl
@[simp] theorem updBlock_units (r : Nat) (f : Block → Block) (s : State) : (updBlock r f s).units = s.units := rfl
@[simp] theorem updBlock_flc (r : Nat) (f : Block → Block) (s : State) : (updBlock r f s).flc = s.flc := rfl
@[simp] theorem updBlock_clc (r : Nat) (f : Block → Block) (s : State) : (updBlock r f s).clc = s.clc := rfl
@[simp] theorem updBlock_rcu (r : Nat) (f : Block → Block) (s : State) : (updBlock r f s).rcu = s.rcu := rfl
@[simp] theorem updBlock_wpe (r : Nat) (f : Block → Block) (s : State) : (updBlock r f s).wpe = s.wpe := rfl
@[simp] theorem updBlock_mme (r : Nat) (f : Block → Block) (s : State) : (updBlock r f s).mme = s.mme := rfl
@[simp] theorem updBlock_jnl (r : Nat) (f : Block → Block) (s : State) : (updBlock r f s).jnl = s.jnl := rfl
@[simp] theorem updBlock_ite (r : Nat) (f : Block → Block) (s : State) : (updBlock r f s).ite = s.ite := rfl
@[simp] theorem updBlock_bpm (r : Nat) (f : Block → Block) (s : State) : (updBlock r f s).bpm = s.bpm := rfl
@[simp] theorem updBlock_dmc (r : Nat) (f : Block → Block) (s : State) : (updBlock r f s).dmc = s.dmc := rfl
@[simp] theorem updBlock_drawn (r : Nat) (f : Block → Block) (s : State) : (updBlock r f s).drawn = s.drawn := rfl
@[simp] theorem updBlock_out (r : Nat) (f : Block → Block) (s : State) : (updBlock r f s).out = s.out := rfl
@[simp] theorem updBlock_pending (r : Nat) (f : Block → Block) (s : State) : (updBlock r f s).pending = s.pending := rfl
@[simp] theorem updDie_regs (d : Nat) (f : Die → Die) (s : State) : (updDie d f s).regs = s.regs := rfl
@[simp] theorem updDie_shadows (d : Nat) (f : Die → Die) (s : State) : (updDie d f s).shadows = s.shadows := rfl
@[simp] theorem updDie_heldHigh (d : Nat) (f : Die → Die) (s : State) : (updDie d f s).heldHigh = s.heldHigh := rfl
@[simp] theorem updDie_fuse (d : Nat) (f : Die → Die) (s : State) : (updDie d f s).fuse = s.fuse := rfl
@[simp] theorem updDie_top (d : Nat) (f : Die → Die) (s : State) : (updDie d f s).top = s.top := rfl
@[simp] theorem updDie_cru (d : Nat) (f : Die → Die) (s : State) : (updDie d f s).cru = s.cru := rfl
@[simp] theorem updDie_tu (d : Nat) (f : Die → Die) (s : State) : (updDie d f s).tu = s.tu := rfl
@[simp] theorem updDie_pad (d : Nat) (f : Die → Die) (s : State) : (updDie d f s).pad = s.pad := rfl
@[simp] theorem updDie_fws (d : Nat) (f : Die → Die) (s : State) : (updDie d f s).fws = s.fws := rfl
@[simp] theorem updDie_evc (d : Nat) (f : Die → Die) (s : State) : (updDie d f s).evc = s.evc := rfl
@[simp] theorem updDie_hfe (d : Nat) (f : Die → Die) (s : State) : (updDie d f s).hfe = s.hfe := rfl
@[simp] theorem updDie_qe (d : Nat) (f : Die → Die) (s : State) : (updDie d f s).qe = s.qe := rfl
@[simp] theorem updDie_mgc (d : Nat) (f : Die → Die) (s : State) : (updDie d f s).mgc = s.mgc := rfl
@[simp] theorem updDie_tabs (d : Nat) (f : Die → Die) (s : State) : (updDie d f s).tabs = s.tabs := rfl
@[simp] theorem updDie_dur (d : Nat) (f : Die → Die) (s : State) : (updDie d f s).dur = s.dur := rfl
@[simp] theorem updDie_units (d : Nat) (f : Die → Die) (s : State) : (updDie d f s).units = s.units := rfl
@[simp] theorem updDie_clc (d : Nat) (f : Die → Die) (s : State) : (updDie d f s).clc = s.clc := rfl
@[simp] theorem updDie_rcu (d : Nat) (f : Die → Die) (s : State) : (updDie d f s).rcu = s.rcu := rfl
@[simp] theorem updDie_wpe (d : Nat) (f : Die → Die) (s : State) : (updDie d f s).wpe = s.wpe := rfl
@[simp] theorem updDie_mme (d : Nat) (f : Die → Die) (s : State) : (updDie d f s).mme = s.mme := rfl
@[simp] theorem updDie_jnl (d : Nat) (f : Die → Die) (s : State) : (updDie d f s).jnl = s.jnl := rfl
@[simp] theorem updDie_ite (d : Nat) (f : Die → Die) (s : State) : (updDie d f s).ite = s.ite := rfl
@[simp] theorem updDie_bpm (d : Nat) (f : Die → Die) (s : State) : (updDie d f s).bpm = s.bpm := rfl
@[simp] theorem updDie_dmc (d : Nat) (f : Die → Die) (s : State) : (updDie d f s).dmc = s.dmc := rfl
@[simp] theorem updDie_drawn (d : Nat) (f : Die → Die) (s : State) : (updDie d f s).drawn = s.drawn := rfl
@[simp] theorem updDie_out (d : Nat) (f : Die → Die) (s : State) : (updDie d f s).out = s.out := rfl
@[simp] theorem updDie_pending (d : Nat) (f : Die → Die) (s : State) : (updDie d f s).pending = s.pending := rfl
@[simp] theorem updLink_regs (k : Nat) (f : Link → Link) (s : State) : (updLink k f s).regs = s.regs := rfl
@[simp] theorem updLink_shadows (k : Nat) (f : Link → Link) (s : State) : (updLink k f s).shadows = s.shadows := rfl
@[simp] theorem updLink_heldHigh (k : Nat) (f : Link → Link) (s : State) : (updLink k f s).heldHigh = s.heldHigh := rfl
@[simp] theorem updLink_fuse (k : Nat) (f : Link → Link) (s : State) : (updLink k f s).fuse = s.fuse := rfl
@[simp] theorem updLink_top (k : Nat) (f : Link → Link) (s : State) : (updLink k f s).top = s.top := rfl
@[simp] theorem updLink_cru (k : Nat) (f : Link → Link) (s : State) : (updLink k f s).cru = s.cru := rfl
@[simp] theorem updLink_tu (k : Nat) (f : Link → Link) (s : State) : (updLink k f s).tu = s.tu := rfl
@[simp] theorem updLink_pad (k : Nat) (f : Link → Link) (s : State) : (updLink k f s).pad = s.pad := rfl
@[simp] theorem updLink_fws (k : Nat) (f : Link → Link) (s : State) : (updLink k f s).fws = s.fws := rfl
@[simp] theorem updLink_evc (k : Nat) (f : Link → Link) (s : State) : (updLink k f s).evc = s.evc := rfl
@[simp] theorem updLink_hfe (k : Nat) (f : Link → Link) (s : State) : (updLink k f s).hfe = s.hfe := rfl
@[simp] theorem updLink_qe (k : Nat) (f : Link → Link) (s : State) : (updLink k f s).qe = s.qe := rfl
@[simp] theorem updLink_mgc (k : Nat) (f : Link → Link) (s : State) : (updLink k f s).mgc = s.mgc := rfl
@[simp] theorem updLink_tabs (k : Nat) (f : Link → Link) (s : State) : (updLink k f s).tabs = s.tabs := rfl
@[simp] theorem updLink_dur (k : Nat) (f : Link → Link) (s : State) : (updLink k f s).dur = s.dur := rfl
@[simp] theorem updLink_units (k : Nat) (f : Link → Link) (s : State) : (updLink k f s).units = s.units := rfl
@[simp] theorem updLink_clc (k : Nat) (f : Link → Link) (s : State) : (updLink k f s).clc = s.clc := rfl
@[simp] theorem updLink_rcu (k : Nat) (f : Link → Link) (s : State) : (updLink k f s).rcu = s.rcu := rfl
@[simp] theorem updLink_wpe (k : Nat) (f : Link → Link) (s : State) : (updLink k f s).wpe = s.wpe := rfl
@[simp] theorem updLink_mme (k : Nat) (f : Link → Link) (s : State) : (updLink k f s).mme = s.mme := rfl
@[simp] theorem updLink_jnl (k : Nat) (f : Link → Link) (s : State) : (updLink k f s).jnl = s.jnl := rfl
@[simp] theorem updLink_ite (k : Nat) (f : Link → Link) (s : State) : (updLink k f s).ite = s.ite := rfl
@[simp] theorem updLink_bpm (k : Nat) (f : Link → Link) (s : State) : (updLink k f s).bpm = s.bpm := rfl
@[simp] theorem updLink_dmc (k : Nat) (f : Link → Link) (s : State) : (updLink k f s).dmc = s.dmc := rfl
@[simp] theorem updLink_drawn (k : Nat) (f : Link → Link) (s : State) : (updLink k f s).drawn = s.drawn := rfl
@[simp] theorem updLink_out (k : Nat) (f : Link → Link) (s : State) : (updLink k f s).out = s.out := rfl
@[simp] theorem updLink_pending (k : Nat) (f : Link → Link) (s : State) : (updLink k f s).pending = s.pending := rfl
@[simp] theorem updTask_regs (k : Nat) (f : Task → Task) (s : State) : (updTask k f s).regs = s.regs := rfl
@[simp] theorem updTask_shadows (k : Nat) (f : Task → Task) (s : State) : (updTask k f s).shadows = s.shadows := rfl
@[simp] theorem updTask_heldHigh (k : Nat) (f : Task → Task) (s : State) : (updTask k f s).heldHigh = s.heldHigh := rfl
@[simp] theorem updTask_fuse (k : Nat) (f : Task → Task) (s : State) : (updTask k f s).fuse = s.fuse := rfl
@[simp] theorem updTask_top (k : Nat) (f : Task → Task) (s : State) : (updTask k f s).top = s.top := rfl
@[simp] theorem updTask_cru (k : Nat) (f : Task → Task) (s : State) : (updTask k f s).cru = s.cru := rfl
@[simp] theorem updTask_tu (k : Nat) (f : Task → Task) (s : State) : (updTask k f s).tu = s.tu := rfl
@[simp] theorem updTask_pad (k : Nat) (f : Task → Task) (s : State) : (updTask k f s).pad = s.pad := rfl
@[simp] theorem updTask_fws (k : Nat) (f : Task → Task) (s : State) : (updTask k f s).fws = s.fws := rfl
@[simp] theorem updTask_evc (k : Nat) (f : Task → Task) (s : State) : (updTask k f s).evc = s.evc := rfl
@[simp] theorem updTask_hfe (k : Nat) (f : Task → Task) (s : State) : (updTask k f s).hfe = s.hfe := rfl
@[simp] theorem updTask_mgc (k : Nat) (f : Task → Task) (s : State) : (updTask k f s).mgc = s.mgc := rfl
@[simp] theorem updTask_tabs (k : Nat) (f : Task → Task) (s : State) : (updTask k f s).tabs = s.tabs := rfl
@[simp] theorem updTask_dur (k : Nat) (f : Task → Task) (s : State) : (updTask k f s).dur = s.dur := rfl
@[simp] theorem updTask_units (k : Nat) (f : Task → Task) (s : State) : (updTask k f s).units = s.units := rfl
@[simp] theorem updTask_flc (k : Nat) (f : Task → Task) (s : State) : (updTask k f s).flc = s.flc := rfl
@[simp] theorem updTask_clc (k : Nat) (f : Task → Task) (s : State) : (updTask k f s).clc = s.clc := rfl
@[simp] theorem updTask_rcu (k : Nat) (f : Task → Task) (s : State) : (updTask k f s).rcu = s.rcu := rfl
@[simp] theorem updTask_wpe (k : Nat) (f : Task → Task) (s : State) : (updTask k f s).wpe = s.wpe := rfl
@[simp] theorem updTask_mme (k : Nat) (f : Task → Task) (s : State) : (updTask k f s).mme = s.mme := rfl
@[simp] theorem updTask_jnl (k : Nat) (f : Task → Task) (s : State) : (updTask k f s).jnl = s.jnl := rfl
@[simp] theorem updTask_ite (k : Nat) (f : Task → Task) (s : State) : (updTask k f s).ite = s.ite := rfl
@[simp] theorem updTask_bpm (k : Nat) (f : Task → Task) (s : State) : (updTask k f s).bpm = s.bpm := rfl
@[simp] theorem updTask_dmc (k : Nat) (f : Task → Task) (s : State) : (updTask k f s).dmc = s.dmc := rfl
@[simp] theorem updTask_drawn (k : Nat) (f : Task → Task) (s : State) : (updTask k f s).drawn = s.drawn := rfl
@[simp] theorem updTask_out (k : Nat) (f : Task → Task) (s : State) : (updTask k f s).out = s.out := rfl
@[simp] theorem updTask_pending (k : Nat) (f : Task → Task) (s : State) : (updTask k f s).pending = s.pending := rfl
@[simp] theorem updAge_regs (d : Nat) (f : DieAge → DieAge) (s : State) : (updAge d f s).regs = s.regs := rfl
@[simp] theorem updAge_shadows (d : Nat) (f : DieAge → DieAge) (s : State) : (updAge d f s).shadows = s.shadows := rfl
@[simp] theorem updAge_heldHigh (d : Nat) (f : DieAge → DieAge) (s : State) : (updAge d f s).heldHigh = s.heldHigh := rfl
@[simp] theorem updAge_fuse (d : Nat) (f : DieAge → DieAge) (s : State) : (updAge d f s).fuse = s.fuse := rfl
@[simp] theorem updAge_top (d : Nat) (f : DieAge → DieAge) (s : State) : (updAge d f s).top = s.top := rfl
@[simp] theorem updAge_cru (d : Nat) (f : DieAge → DieAge) (s : State) : (updAge d f s).cru = s.cru := rfl
@[simp] theorem updAge_tu (d : Nat) (f : DieAge → DieAge) (s : State) : (updAge d f s).tu = s.tu := rfl
@[simp] theorem updAge_pad (d : Nat) (f : DieAge → DieAge) (s : State) : (updAge d f s).pad = s.pad := rfl
@[simp] theorem updAge_fws (d : Nat) (f : DieAge → DieAge) (s : State) : (updAge d f s).fws = s.fws := rfl
@[simp] theorem updAge_evc (d : Nat) (f : DieAge → DieAge) (s : State) : (updAge d f s).evc = s.evc := rfl
@[simp] theorem updAge_hfe (d : Nat) (f : DieAge → DieAge) (s : State) : (updAge d f s).hfe = s.hfe := rfl
@[simp] theorem updAge_qe (d : Nat) (f : DieAge → DieAge) (s : State) : (updAge d f s).qe = s.qe := rfl
@[simp] theorem updAge_mgc (d : Nat) (f : DieAge → DieAge) (s : State) : (updAge d f s).mgc = s.mgc := rfl
@[simp] theorem updAge_tabs (d : Nat) (f : DieAge → DieAge) (s : State) : (updAge d f s).tabs = s.tabs := rfl
@[simp] theorem updAge_dur (d : Nat) (f : DieAge → DieAge) (s : State) : (updAge d f s).dur = s.dur := rfl
@[simp] theorem updAge_units (d : Nat) (f : DieAge → DieAge) (s : State) : (updAge d f s).units = s.units := rfl
@[simp] theorem updAge_flc (d : Nat) (f : DieAge → DieAge) (s : State) : (updAge d f s).flc = s.flc := rfl
@[simp] theorem updAge_clc (d : Nat) (f : DieAge → DieAge) (s : State) : (updAge d f s).clc = s.clc := rfl
@[simp] theorem updAge_wpe (d : Nat) (f : DieAge → DieAge) (s : State) : (updAge d f s).wpe = s.wpe := rfl
@[simp] theorem updAge_mme (d : Nat) (f : DieAge → DieAge) (s : State) : (updAge d f s).mme = s.mme := rfl
@[simp] theorem updAge_jnl (d : Nat) (f : DieAge → DieAge) (s : State) : (updAge d f s).jnl = s.jnl := rfl
@[simp] theorem updAge_ite (d : Nat) (f : DieAge → DieAge) (s : State) : (updAge d f s).ite = s.ite := rfl
@[simp] theorem updAge_bpm (d : Nat) (f : DieAge → DieAge) (s : State) : (updAge d f s).bpm = s.bpm := rfl
@[simp] theorem updAge_dmc (d : Nat) (f : DieAge → DieAge) (s : State) : (updAge d f s).dmc = s.dmc := rfl
@[simp] theorem updAge_drawn (d : Nat) (f : DieAge → DieAge) (s : State) : (updAge d f s).drawn = s.drawn := rfl
@[simp] theorem updAge_out (d : Nat) (f : DieAge → DieAge) (s : State) : (updAge d f s).out = s.out := rfl
@[simp] theorem updAge_pending (d : Nat) (f : DieAge → DieAge) (s : State) : (updAge d f s).pending = s.pending := rfl
@[simp] theorem updPool_regs (p : Nat) (f : Pool → Pool) (s : State) : (updPool p f s).regs = s.regs := rfl
@[simp] theorem updPool_shadows (p : Nat) (f : Pool → Pool) (s : State) : (updPool p f s).shadows = s.shadows := rfl
@[simp] theorem updPool_heldHigh (p : Nat) (f : Pool → Pool) (s : State) : (updPool p f s).heldHigh = s.heldHigh := rfl
@[simp] theorem updPool_fuse (p : Nat) (f : Pool → Pool) (s : State) : (updPool p f s).fuse = s.fuse := rfl
@[simp] theorem updPool_top (p : Nat) (f : Pool → Pool) (s : State) : (updPool p f s).top = s.top := rfl
@[simp] theorem updPool_cru (p : Nat) (f : Pool → Pool) (s : State) : (updPool p f s).cru = s.cru := rfl
@[simp] theorem updPool_tu (p : Nat) (f : Pool → Pool) (s : State) : (updPool p f s).tu = s.tu := rfl
@[simp] theorem updPool_pad (p : Nat) (f : Pool → Pool) (s : State) : (updPool p f s).pad = s.pad := rfl
@[simp] theorem updPool_fws (p : Nat) (f : Pool → Pool) (s : State) : (updPool p f s).fws = s.fws := rfl
@[simp] theorem updPool_evc (p : Nat) (f : Pool → Pool) (s : State) : (updPool p f s).evc = s.evc := rfl
@[simp] theorem updPool_hfe (p : Nat) (f : Pool → Pool) (s : State) : (updPool p f s).hfe = s.hfe := rfl
@[simp] theorem updPool_qe (p : Nat) (f : Pool → Pool) (s : State) : (updPool p f s).qe = s.qe := rfl
@[simp] theorem updPool_mgc (p : Nat) (f : Pool → Pool) (s : State) : (updPool p f s).mgc = s.mgc := rfl
@[simp] theorem updPool_tabs (p : Nat) (f : Pool → Pool) (s : State) : (updPool p f s).tabs = s.tabs := rfl
@[simp] theorem updPool_dur (p : Nat) (f : Pool → Pool) (s : State) : (updPool p f s).dur = s.dur := rfl
@[simp] theorem updPool_units (p : Nat) (f : Pool → Pool) (s : State) : (updPool p f s).units = s.units := rfl
@[simp] theorem updPool_flc (p : Nat) (f : Pool → Pool) (s : State) : (updPool p f s).flc = s.flc := rfl
@[simp] theorem updPool_clc (p : Nat) (f : Pool → Pool) (s : State) : (updPool p f s).clc = s.clc := rfl
@[simp] theorem updPool_rcu (p : Nat) (f : Pool → Pool) (s : State) : (updPool p f s).rcu = s.rcu := rfl
@[simp] theorem updPool_wpe (p : Nat) (f : Pool → Pool) (s : State) : (updPool p f s).wpe = s.wpe := rfl
@[simp] theorem updPool_mme (p : Nat) (f : Pool → Pool) (s : State) : (updPool p f s).mme = s.mme := rfl
@[simp] theorem updPool_jnl (p : Nat) (f : Pool → Pool) (s : State) : (updPool p f s).jnl = s.jnl := rfl
@[simp] theorem updPool_ite (p : Nat) (f : Pool → Pool) (s : State) : (updPool p f s).ite = s.ite := rfl
@[simp] theorem updPool_dmc (p : Nat) (f : Pool → Pool) (s : State) : (updPool p f s).dmc = s.dmc := rfl
@[simp] theorem updPool_drawn (p : Nat) (f : Pool → Pool) (s : State) : (updPool p f s).drawn = s.drawn := rfl
@[simp] theorem updPool_out (p : Nat) (f : Pool → Pool) (s : State) : (updPool p f s).out = s.out := rfl
@[simp] theorem updPool_pending (p : Nat) (f : Pool → Pool) (s : State) : (updPool p f s).pending = s.pending := rfl
@[simp] theorem updPath_regs (p : Nat) (f : SirPath → SirPath) (s : State) : (updPath p f s).regs = s.regs := rfl
@[simp] theorem updPath_shadows (p : Nat) (f : SirPath → SirPath) (s : State) : (updPath p f s).shadows = s.shadows := rfl
@[simp] theorem updPath_heldHigh (p : Nat) (f : SirPath → SirPath) (s : State) : (updPath p f s).heldHigh = s.heldHigh := rfl
@[simp] theorem updPath_fuse (p : Nat) (f : SirPath → SirPath) (s : State) : (updPath p f s).fuse = s.fuse := rfl
@[simp] theorem updPath_top (p : Nat) (f : SirPath → SirPath) (s : State) : (updPath p f s).top = s.top := rfl
@[simp] theorem updPath_cru (p : Nat) (f : SirPath → SirPath) (s : State) : (updPath p f s).cru = s.cru := rfl
@[simp] theorem updPath_tu (p : Nat) (f : SirPath → SirPath) (s : State) : (updPath p f s).tu = s.tu := rfl
@[simp] theorem updPath_pad (p : Nat) (f : SirPath → SirPath) (s : State) : (updPath p f s).pad = s.pad := rfl
@[simp] theorem updPath_fws (p : Nat) (f : SirPath → SirPath) (s : State) : (updPath p f s).fws = s.fws := rfl
@[simp] theorem updPath_evc (p : Nat) (f : SirPath → SirPath) (s : State) : (updPath p f s).evc = s.evc := rfl
@[simp] theorem updPath_hfe (p : Nat) (f : SirPath → SirPath) (s : State) : (updPath p f s).hfe = s.hfe := rfl
@[simp] theorem updPath_qe (p : Nat) (f : SirPath → SirPath) (s : State) : (updPath p f s).qe = s.qe := rfl
@[simp] theorem updPath_tabs (p : Nat) (f : SirPath → SirPath) (s : State) : (updPath p f s).tabs = s.tabs := rfl
@[simp] theorem updPath_dur (p : Nat) (f : SirPath → SirPath) (s : State) : (updPath p f s).dur = s.dur := rfl
@[simp] theorem updPath_units (p : Nat) (f : SirPath → SirPath) (s : State) : (updPath p f s).units = s.units := rfl
@[simp] theorem updPath_flc (p : Nat) (f : SirPath → SirPath) (s : State) : (updPath p f s).flc = s.flc := rfl
@[simp] theorem updPath_clc (p : Nat) (f : SirPath → SirPath) (s : State) : (updPath p f s).clc = s.clc := rfl
@[simp] theorem updPath_rcu (p : Nat) (f : SirPath → SirPath) (s : State) : (updPath p f s).rcu = s.rcu := rfl
@[simp] theorem updPath_wpe (p : Nat) (f : SirPath → SirPath) (s : State) : (updPath p f s).wpe = s.wpe := rfl
@[simp] theorem updPath_mme (p : Nat) (f : SirPath → SirPath) (s : State) : (updPath p f s).mme = s.mme := rfl
@[simp] theorem updPath_jnl (p : Nat) (f : SirPath → SirPath) (s : State) : (updPath p f s).jnl = s.jnl := rfl
@[simp] theorem updPath_ite (p : Nat) (f : SirPath → SirPath) (s : State) : (updPath p f s).ite = s.ite := rfl
@[simp] theorem updPath_bpm (p : Nat) (f : SirPath → SirPath) (s : State) : (updPath p f s).bpm = s.bpm := rfl
@[simp] theorem updPath_dmc (p : Nat) (f : SirPath → SirPath) (s : State) : (updPath p f s).dmc = s.dmc := rfl
@[simp] theorem updPath_drawn (p : Nat) (f : SirPath → SirPath) (s : State) : (updPath p f s).drawn = s.drawn := rfl
@[simp] theorem updPath_out (p : Nat) (f : SirPath → SirPath) (s : State) : (updPath p f s).out = s.out := rfl
@[simp] theorem updPath_pending (p : Nat) (f : SirPath → SirPath) (s : State) : (updPath p f s).pending = s.pending := rfl
@[simp] theorem updTenant_regs (t : Nat) (f : Tenant → Tenant) (s : State) : (updTenant t f s).regs = s.regs := rfl
@[simp] theorem updTenant_shadows (t : Nat) (f : Tenant → Tenant) (s : State) : (updTenant t f s).shadows = s.shadows := rfl
@[simp] theorem updTenant_heldHigh (t : Nat) (f : Tenant → Tenant) (s : State) : (updTenant t f s).heldHigh = s.heldHigh := rfl
@[simp] theorem updTenant_fuse (t : Nat) (f : Tenant → Tenant) (s : State) : (updTenant t f s).fuse = s.fuse := rfl
@[simp] theorem updTenant_top (t : Nat) (f : Tenant → Tenant) (s : State) : (updTenant t f s).top = s.top := rfl
@[simp] theorem updTenant_cru (t : Nat) (f : Tenant → Tenant) (s : State) : (updTenant t f s).cru = s.cru := rfl
@[simp] theorem updTenant_tu (t : Nat) (f : Tenant → Tenant) (s : State) : (updTenant t f s).tu = s.tu := rfl
@[simp] theorem updTenant_pad (t : Nat) (f : Tenant → Tenant) (s : State) : (updTenant t f s).pad = s.pad := rfl
@[simp] theorem updTenant_fws (t : Nat) (f : Tenant → Tenant) (s : State) : (updTenant t f s).fws = s.fws := rfl
@[simp] theorem updTenant_evc (t : Nat) (f : Tenant → Tenant) (s : State) : (updTenant t f s).evc = s.evc := rfl
@[simp] theorem updTenant_hfe (t : Nat) (f : Tenant → Tenant) (s : State) : (updTenant t f s).hfe = s.hfe := rfl
@[simp] theorem updTenant_mgc (t : Nat) (f : Tenant → Tenant) (s : State) : (updTenant t f s).mgc = s.mgc := rfl
@[simp] theorem updTenant_tabs (t : Nat) (f : Tenant → Tenant) (s : State) : (updTenant t f s).tabs = s.tabs := rfl
@[simp] theorem updTenant_dur (t : Nat) (f : Tenant → Tenant) (s : State) : (updTenant t f s).dur = s.dur := rfl
@[simp] theorem updTenant_units (t : Nat) (f : Tenant → Tenant) (s : State) : (updTenant t f s).units = s.units := rfl
@[simp] theorem updTenant_flc (t : Nat) (f : Tenant → Tenant) (s : State) : (updTenant t f s).flc = s.flc := rfl
@[simp] theorem updTenant_clc (t : Nat) (f : Tenant → Tenant) (s : State) : (updTenant t f s).clc = s.clc := rfl
@[simp] theorem updTenant_rcu (t : Nat) (f : Tenant → Tenant) (s : State) : (updTenant t f s).rcu = s.rcu := rfl
@[simp] theorem updTenant_wpe (t : Nat) (f : Tenant → Tenant) (s : State) : (updTenant t f s).wpe = s.wpe := rfl
@[simp] theorem updTenant_mme (t : Nat) (f : Tenant → Tenant) (s : State) : (updTenant t f s).mme = s.mme := rfl
@[simp] theorem updTenant_jnl (t : Nat) (f : Tenant → Tenant) (s : State) : (updTenant t f s).jnl = s.jnl := rfl
@[simp] theorem updTenant_ite (t : Nat) (f : Tenant → Tenant) (s : State) : (updTenant t f s).ite = s.ite := rfl
@[simp] theorem updTenant_bpm (t : Nat) (f : Tenant → Tenant) (s : State) : (updTenant t f s).bpm = s.bpm := rfl
@[simp] theorem updTenant_dmc (t : Nat) (f : Tenant → Tenant) (s : State) : (updTenant t f s).dmc = s.dmc := rfl
@[simp] theorem updTenant_drawn (t : Nat) (f : Tenant → Tenant) (s : State) : (updTenant t f s).drawn = s.drawn := rfl
@[simp] theorem updTenant_out (t : Nat) (f : Tenant → Tenant) (s : State) : (updTenant t f s).out = s.out := rfl
@[simp] theorem updTenant_pending (t : Nat) (f : Tenant → Tenant) (s : State) : (updTenant t f s).pending = s.pending := rfl
@[simp] theorem updConn_regs (c : Nat) (f : Conn → Conn) (s : State) : (updConn c f s).regs = s.regs := rfl
@[simp] theorem updConn_shadows (c : Nat) (f : Conn → Conn) (s : State) : (updConn c f s).shadows = s.shadows := rfl
@[simp] theorem updConn_heldHigh (c : Nat) (f : Conn → Conn) (s : State) : (updConn c f s).heldHigh = s.heldHigh := rfl
@[simp] theorem updConn_fuse (c : Nat) (f : Conn → Conn) (s : State) : (updConn c f s).fuse = s.fuse := rfl
@[simp] theorem updConn_top (c : Nat) (f : Conn → Conn) (s : State) : (updConn c f s).top = s.top := rfl
@[simp] theorem updConn_cru (c : Nat) (f : Conn → Conn) (s : State) : (updConn c f s).cru = s.cru := rfl
@[simp] theorem updConn_tu (c : Nat) (f : Conn → Conn) (s : State) : (updConn c f s).tu = s.tu := rfl
@[simp] theorem updConn_pad (c : Nat) (f : Conn → Conn) (s : State) : (updConn c f s).pad = s.pad := rfl
@[simp] theorem updConn_fws (c : Nat) (f : Conn → Conn) (s : State) : (updConn c f s).fws = s.fws := rfl
@[simp] theorem updConn_evc (c : Nat) (f : Conn → Conn) (s : State) : (updConn c f s).evc = s.evc := rfl
@[simp] theorem updConn_qe (c : Nat) (f : Conn → Conn) (s : State) : (updConn c f s).qe = s.qe := rfl
@[simp] theorem updConn_mgc (c : Nat) (f : Conn → Conn) (s : State) : (updConn c f s).mgc = s.mgc := rfl
@[simp] theorem updConn_tabs (c : Nat) (f : Conn → Conn) (s : State) : (updConn c f s).tabs = s.tabs := rfl
@[simp] theorem updConn_dur (c : Nat) (f : Conn → Conn) (s : State) : (updConn c f s).dur = s.dur := rfl
@[simp] theorem updConn_units (c : Nat) (f : Conn → Conn) (s : State) : (updConn c f s).units = s.units := rfl
@[simp] theorem updConn_flc (c : Nat) (f : Conn → Conn) (s : State) : (updConn c f s).flc = s.flc := rfl
@[simp] theorem updConn_clc (c : Nat) (f : Conn → Conn) (s : State) : (updConn c f s).clc = s.clc := rfl
@[simp] theorem updConn_rcu (c : Nat) (f : Conn → Conn) (s : State) : (updConn c f s).rcu = s.rcu := rfl
@[simp] theorem updConn_wpe (c : Nat) (f : Conn → Conn) (s : State) : (updConn c f s).wpe = s.wpe := rfl
@[simp] theorem updConn_mme (c : Nat) (f : Conn → Conn) (s : State) : (updConn c f s).mme = s.mme := rfl
@[simp] theorem updConn_jnl (c : Nat) (f : Conn → Conn) (s : State) : (updConn c f s).jnl = s.jnl := rfl
@[simp] theorem updConn_ite (c : Nat) (f : Conn → Conn) (s : State) : (updConn c f s).ite = s.ite := rfl
@[simp] theorem updConn_bpm (c : Nat) (f : Conn → Conn) (s : State) : (updConn c f s).bpm = s.bpm := rfl
@[simp] theorem updConn_dmc (c : Nat) (f : Conn → Conn) (s : State) : (updConn c f s).dmc = s.dmc := rfl
@[simp] theorem updConn_drawn (c : Nat) (f : Conn → Conn) (s : State) : (updConn c f s).drawn = s.drawn := rfl
@[simp] theorem updConn_out (c : Nat) (f : Conn → Conn) (s : State) : (updConn c f s).out = s.out := rfl
@[simp] theorem updConn_pending (c : Nat) (f : Conn → Conn) (s : State) : (updConn c f s).pending = s.pending := rfl
@[simp] theorem updPort_regs (p : Nat) (f : Port → Port) (s : State) : (updPort p f s).regs = s.regs := rfl
@[simp] theorem updPort_shadows (p : Nat) (f : Port → Port) (s : State) : (updPort p f s).shadows = s.shadows := rfl
@[simp] theorem updPort_heldHigh (p : Nat) (f : Port → Port) (s : State) : (updPort p f s).heldHigh = s.heldHigh := rfl
@[simp] theorem updPort_fuse (p : Nat) (f : Port → Port) (s : State) : (updPort p f s).fuse = s.fuse := rfl
@[simp] theorem updPort_top (p : Nat) (f : Port → Port) (s : State) : (updPort p f s).top = s.top := rfl
@[simp] theorem updPort_cru (p : Nat) (f : Port → Port) (s : State) : (updPort p f s).cru = s.cru := rfl
@[simp] theorem updPort_tu (p : Nat) (f : Port → Port) (s : State) : (updPort p f s).tu = s.tu := rfl
@[simp] theorem updPort_pad (p : Nat) (f : Port → Port) (s : State) : (updPort p f s).pad = s.pad := rfl
@[simp] theorem updPort_fws (p : Nat) (f : Port → Port) (s : State) : (updPort p f s).fws = s.fws := rfl
@[simp] theorem updPort_evc (p : Nat) (f : Port → Port) (s : State) : (updPort p f s).evc = s.evc := rfl
@[simp] theorem updPort_qe (p : Nat) (f : Port → Port) (s : State) : (updPort p f s).qe = s.qe := rfl
@[simp] theorem updPort_mgc (p : Nat) (f : Port → Port) (s : State) : (updPort p f s).mgc = s.mgc := rfl
@[simp] theorem updPort_tabs (p : Nat) (f : Port → Port) (s : State) : (updPort p f s).tabs = s.tabs := rfl
@[simp] theorem updPort_dur (p : Nat) (f : Port → Port) (s : State) : (updPort p f s).dur = s.dur := rfl
@[simp] theorem updPort_units (p : Nat) (f : Port → Port) (s : State) : (updPort p f s).units = s.units := rfl
@[simp] theorem updPort_flc (p : Nat) (f : Port → Port) (s : State) : (updPort p f s).flc = s.flc := rfl
@[simp] theorem updPort_clc (p : Nat) (f : Port → Port) (s : State) : (updPort p f s).clc = s.clc := rfl
@[simp] theorem updPort_rcu (p : Nat) (f : Port → Port) (s : State) : (updPort p f s).rcu = s.rcu := rfl
@[simp] theorem updPort_wpe (p : Nat) (f : Port → Port) (s : State) : (updPort p f s).wpe = s.wpe := rfl
@[simp] theorem updPort_mme (p : Nat) (f : Port → Port) (s : State) : (updPort p f s).mme = s.mme := rfl
@[simp] theorem updPort_jnl (p : Nat) (f : Port → Port) (s : State) : (updPort p f s).jnl = s.jnl := rfl
@[simp] theorem updPort_ite (p : Nat) (f : Port → Port) (s : State) : (updPort p f s).ite = s.ite := rfl
@[simp] theorem updPort_bpm (p : Nat) (f : Port → Port) (s : State) : (updPort p f s).bpm = s.bpm := rfl
@[simp] theorem updPort_dmc (p : Nat) (f : Port → Port) (s : State) : (updPort p f s).dmc = s.dmc := rfl
@[simp] theorem updPort_drawn (p : Nat) (f : Port → Port) (s : State) : (updPort p f s).drawn = s.drawn := rfl
@[simp] theorem updPort_out (p : Nat) (f : Port → Port) (s : State) : (updPort p f s).out = s.out := rfl
@[simp] theorem updPort_pending (p : Nat) (f : Port → Port) (s : State) : (updPort p f s).pending = s.pending := rfl
@[simp] theorem updLane_regs (l : Nat) (f : Lane → Lane) (s : State) : (updLane l f s).regs = s.regs := rfl
@[simp] theorem updLane_shadows (l : Nat) (f : Lane → Lane) (s : State) : (updLane l f s).shadows = s.shadows := rfl
@[simp] theorem updLane_heldHigh (l : Nat) (f : Lane → Lane) (s : State) : (updLane l f s).heldHigh = s.heldHigh := rfl
@[simp] theorem updLane_fuse (l : Nat) (f : Lane → Lane) (s : State) : (updLane l f s).fuse = s.fuse := rfl
@[simp] theorem updLane_top (l : Nat) (f : Lane → Lane) (s : State) : (updLane l f s).top = s.top := rfl
@[simp] theorem updLane_cru (l : Nat) (f : Lane → Lane) (s : State) : (updLane l f s).cru = s.cru := rfl
@[simp] theorem updLane_tu (l : Nat) (f : Lane → Lane) (s : State) : (updLane l f s).tu = s.tu := rfl
@[simp] theorem updLane_pad (l : Nat) (f : Lane → Lane) (s : State) : (updLane l f s).pad = s.pad := rfl
@[simp] theorem updLane_fws (l : Nat) (f : Lane → Lane) (s : State) : (updLane l f s).fws = s.fws := rfl
@[simp] theorem updLane_evc (l : Nat) (f : Lane → Lane) (s : State) : (updLane l f s).evc = s.evc := rfl
@[simp] theorem updLane_qe (l : Nat) (f : Lane → Lane) (s : State) : (updLane l f s).qe = s.qe := rfl
@[simp] theorem updLane_mgc (l : Nat) (f : Lane → Lane) (s : State) : (updLane l f s).mgc = s.mgc := rfl
@[simp] theorem updLane_tabs (l : Nat) (f : Lane → Lane) (s : State) : (updLane l f s).tabs = s.tabs := rfl
@[simp] theorem updLane_dur (l : Nat) (f : Lane → Lane) (s : State) : (updLane l f s).dur = s.dur := rfl
@[simp] theorem updLane_units (l : Nat) (f : Lane → Lane) (s : State) : (updLane l f s).units = s.units := rfl
@[simp] theorem updLane_flc (l : Nat) (f : Lane → Lane) (s : State) : (updLane l f s).flc = s.flc := rfl
@[simp] theorem updLane_clc (l : Nat) (f : Lane → Lane) (s : State) : (updLane l f s).clc = s.clc := rfl
@[simp] theorem updLane_rcu (l : Nat) (f : Lane → Lane) (s : State) : (updLane l f s).rcu = s.rcu := rfl
@[simp] theorem updLane_wpe (l : Nat) (f : Lane → Lane) (s : State) : (updLane l f s).wpe = s.wpe := rfl
@[simp] theorem updLane_mme (l : Nat) (f : Lane → Lane) (s : State) : (updLane l f s).mme = s.mme := rfl
@[simp] theorem updLane_jnl (l : Nat) (f : Lane → Lane) (s : State) : (updLane l f s).jnl = s.jnl := rfl
@[simp] theorem updLane_ite (l : Nat) (f : Lane → Lane) (s : State) : (updLane l f s).ite = s.ite := rfl
@[simp] theorem updLane_bpm (l : Nat) (f : Lane → Lane) (s : State) : (updLane l f s).bpm = s.bpm := rfl
@[simp] theorem updLane_dmc (l : Nat) (f : Lane → Lane) (s : State) : (updLane l f s).dmc = s.dmc := rfl
@[simp] theorem updLane_drawn (l : Nat) (f : Lane → Lane) (s : State) : (updLane l f s).drawn = s.drawn := rfl
@[simp] theorem updLane_out (l : Nat) (f : Lane → Lane) (s : State) : (updLane l f s).out = s.out := rfl
@[simp] theorem updLane_pending (l : Nat) (f : Lane → Lane) (s : State) : (updLane l f s).pending = s.pending := rfl
@[simp] theorem updCtl_regs (k : Nat) (f : Ctl → Ctl) (s : State) : (updCtl k f s).regs = s.regs := rfl
@[simp] theorem updCtl_shadows (k : Nat) (f : Ctl → Ctl) (s : State) : (updCtl k f s).shadows = s.shadows := rfl
@[simp] theorem updCtl_heldHigh (k : Nat) (f : Ctl → Ctl) (s : State) : (updCtl k f s).heldHigh = s.heldHigh := rfl
@[simp] theorem updCtl_fuse (k : Nat) (f : Ctl → Ctl) (s : State) : (updCtl k f s).fuse = s.fuse := rfl
@[simp] theorem updCtl_top (k : Nat) (f : Ctl → Ctl) (s : State) : (updCtl k f s).top = s.top := rfl
@[simp] theorem updCtl_cru (k : Nat) (f : Ctl → Ctl) (s : State) : (updCtl k f s).cru = s.cru := rfl
@[simp] theorem updCtl_tu (k : Nat) (f : Ctl → Ctl) (s : State) : (updCtl k f s).tu = s.tu := rfl
@[simp] theorem updCtl_pad (k : Nat) (f : Ctl → Ctl) (s : State) : (updCtl k f s).pad = s.pad := rfl
@[simp] theorem updCtl_fws (k : Nat) (f : Ctl → Ctl) (s : State) : (updCtl k f s).fws = s.fws := rfl
@[simp] theorem updCtl_evc (k : Nat) (f : Ctl → Ctl) (s : State) : (updCtl k f s).evc = s.evc := rfl
@[simp] theorem updCtl_hfe (k : Nat) (f : Ctl → Ctl) (s : State) : (updCtl k f s).hfe = s.hfe := rfl
@[simp] theorem updCtl_mgc (k : Nat) (f : Ctl → Ctl) (s : State) : (updCtl k f s).mgc = s.mgc := rfl
@[simp] theorem updCtl_tabs (k : Nat) (f : Ctl → Ctl) (s : State) : (updCtl k f s).tabs = s.tabs := rfl
@[simp] theorem updCtl_dur (k : Nat) (f : Ctl → Ctl) (s : State) : (updCtl k f s).dur = s.dur := rfl
@[simp] theorem updCtl_units (k : Nat) (f : Ctl → Ctl) (s : State) : (updCtl k f s).units = s.units := rfl
@[simp] theorem updCtl_flc (k : Nat) (f : Ctl → Ctl) (s : State) : (updCtl k f s).flc = s.flc := rfl
@[simp] theorem updCtl_clc (k : Nat) (f : Ctl → Ctl) (s : State) : (updCtl k f s).clc = s.clc := rfl
@[simp] theorem updCtl_rcu (k : Nat) (f : Ctl → Ctl) (s : State) : (updCtl k f s).rcu = s.rcu := rfl
@[simp] theorem updCtl_wpe (k : Nat) (f : Ctl → Ctl) (s : State) : (updCtl k f s).wpe = s.wpe := rfl
@[simp] theorem updCtl_mme (k : Nat) (f : Ctl → Ctl) (s : State) : (updCtl k f s).mme = s.mme := rfl
@[simp] theorem updCtl_jnl (k : Nat) (f : Ctl → Ctl) (s : State) : (updCtl k f s).jnl = s.jnl := rfl
@[simp] theorem updCtl_ite (k : Nat) (f : Ctl → Ctl) (s : State) : (updCtl k f s).ite = s.ite := rfl
@[simp] theorem updCtl_bpm (k : Nat) (f : Ctl → Ctl) (s : State) : (updCtl k f s).bpm = s.bpm := rfl
@[simp] theorem updCtl_dmc (k : Nat) (f : Ctl → Ctl) (s : State) : (updCtl k f s).dmc = s.dmc := rfl
@[simp] theorem updCtl_drawn (k : Nat) (f : Ctl → Ctl) (s : State) : (updCtl k f s).drawn = s.drawn := rfl
@[simp] theorem updCtl_out (k : Nat) (f : Ctl → Ctl) (s : State) : (updCtl k f s).out = s.out := rfl
@[simp] theorem updCtl_pending (k : Nat) (f : Ctl → Ctl) (s : State) : (updCtl k f s).pending = s.pending := rfl
@[simp] theorem updSrc_regs (n : Nat) (f : EvcSrc → EvcSrc) (s : State) : (updSrc n f s).regs = s.regs := rfl
@[simp] theorem updSrc_shadows (n : Nat) (f : EvcSrc → EvcSrc) (s : State) : (updSrc n f s).shadows = s.shadows := rfl
@[simp] theorem updSrc_heldHigh (n : Nat) (f : EvcSrc → EvcSrc) (s : State) : (updSrc n f s).heldHigh = s.heldHigh := rfl
@[simp] theorem updSrc_fuse (n : Nat) (f : EvcSrc → EvcSrc) (s : State) : (updSrc n f s).fuse = s.fuse := rfl
@[simp] theorem updSrc_top (n : Nat) (f : EvcSrc → EvcSrc) (s : State) : (updSrc n f s).top = s.top := rfl
@[simp] theorem updSrc_cru (n : Nat) (f : EvcSrc → EvcSrc) (s : State) : (updSrc n f s).cru = s.cru := rfl
@[simp] theorem updSrc_tu (n : Nat) (f : EvcSrc → EvcSrc) (s : State) : (updSrc n f s).tu = s.tu := rfl
@[simp] theorem updSrc_pad (n : Nat) (f : EvcSrc → EvcSrc) (s : State) : (updSrc n f s).pad = s.pad := rfl
@[simp] theorem updSrc_fws (n : Nat) (f : EvcSrc → EvcSrc) (s : State) : (updSrc n f s).fws = s.fws := rfl
@[simp] theorem updSrc_hfe (n : Nat) (f : EvcSrc → EvcSrc) (s : State) : (updSrc n f s).hfe = s.hfe := rfl
@[simp] theorem updSrc_qe (n : Nat) (f : EvcSrc → EvcSrc) (s : State) : (updSrc n f s).qe = s.qe := rfl
@[simp] theorem updSrc_mgc (n : Nat) (f : EvcSrc → EvcSrc) (s : State) : (updSrc n f s).mgc = s.mgc := rfl
@[simp] theorem updSrc_tabs (n : Nat) (f : EvcSrc → EvcSrc) (s : State) : (updSrc n f s).tabs = s.tabs := rfl
@[simp] theorem updSrc_dur (n : Nat) (f : EvcSrc → EvcSrc) (s : State) : (updSrc n f s).dur = s.dur := rfl
@[simp] theorem updSrc_units (n : Nat) (f : EvcSrc → EvcSrc) (s : State) : (updSrc n f s).units = s.units := rfl
@[simp] theorem updSrc_flc (n : Nat) (f : EvcSrc → EvcSrc) (s : State) : (updSrc n f s).flc = s.flc := rfl
@[simp] theorem updSrc_clc (n : Nat) (f : EvcSrc → EvcSrc) (s : State) : (updSrc n f s).clc = s.clc := rfl
@[simp] theorem updSrc_rcu (n : Nat) (f : EvcSrc → EvcSrc) (s : State) : (updSrc n f s).rcu = s.rcu := rfl
@[simp] theorem updSrc_wpe (n : Nat) (f : EvcSrc → EvcSrc) (s : State) : (updSrc n f s).wpe = s.wpe := rfl
@[simp] theorem updSrc_mme (n : Nat) (f : EvcSrc → EvcSrc) (s : State) : (updSrc n f s).mme = s.mme := rfl
@[simp] theorem updSrc_jnl (n : Nat) (f : EvcSrc → EvcSrc) (s : State) : (updSrc n f s).jnl = s.jnl := rfl
@[simp] theorem updSrc_ite (n : Nat) (f : EvcSrc → EvcSrc) (s : State) : (updSrc n f s).ite = s.ite := rfl
@[simp] theorem updSrc_bpm (n : Nat) (f : EvcSrc → EvcSrc) (s : State) : (updSrc n f s).bpm = s.bpm := rfl
@[simp] theorem updSrc_dmc (n : Nat) (f : EvcSrc → EvcSrc) (s : State) : (updSrc n f s).dmc = s.dmc := rfl
@[simp] theorem updSrc_drawn (n : Nat) (f : EvcSrc → EvcSrc) (s : State) : (updSrc n f s).drawn = s.drawn := rfl
@[simp] theorem updSrc_out (n : Nat) (f : EvcSrc → EvcSrc) (s : State) : (updSrc n f s).out = s.out := rfl
@[simp] theorem updSrc_pending (n : Nat) (f : EvcSrc → EvcSrc) (s : State) : (updSrc n f s).pending = s.pending := rfl
@[simp] theorem updCw_regs (i : Nat) (f : Cw → Cw) (s : State) : (updCw i f s).regs = s.regs := rfl
@[simp] theorem updCw_shadows (i : Nat) (f : Cw → Cw) (s : State) : (updCw i f s).shadows = s.shadows := rfl
@[simp] theorem updCw_heldHigh (i : Nat) (f : Cw → Cw) (s : State) : (updCw i f s).heldHigh = s.heldHigh := rfl
@[simp] theorem updCw_fuse (i : Nat) (f : Cw → Cw) (s : State) : (updCw i f s).fuse = s.fuse := rfl
@[simp] theorem updCw_top (i : Nat) (f : Cw → Cw) (s : State) : (updCw i f s).top = s.top := rfl
@[simp] theorem updCw_cru (i : Nat) (f : Cw → Cw) (s : State) : (updCw i f s).cru = s.cru := rfl
@[simp] theorem updCw_tu (i : Nat) (f : Cw → Cw) (s : State) : (updCw i f s).tu = s.tu := rfl
@[simp] theorem updCw_pad (i : Nat) (f : Cw → Cw) (s : State) : (updCw i f s).pad = s.pad := rfl
@[simp] theorem updCw_fws (i : Nat) (f : Cw → Cw) (s : State) : (updCw i f s).fws = s.fws := rfl
@[simp] theorem updCw_evc (i : Nat) (f : Cw → Cw) (s : State) : (updCw i f s).evc = s.evc := rfl
@[simp] theorem updCw_hfe (i : Nat) (f : Cw → Cw) (s : State) : (updCw i f s).hfe = s.hfe := rfl
@[simp] theorem updCw_qe (i : Nat) (f : Cw → Cw) (s : State) : (updCw i f s).qe = s.qe := rfl
@[simp] theorem updCw_mgc (i : Nat) (f : Cw → Cw) (s : State) : (updCw i f s).mgc = s.mgc := rfl
@[simp] theorem updCw_tabs (i : Nat) (f : Cw → Cw) (s : State) : (updCw i f s).tabs = s.tabs := rfl
@[simp] theorem updCw_dur (i : Nat) (f : Cw → Cw) (s : State) : (updCw i f s).dur = s.dur := rfl
@[simp] theorem updCw_units (i : Nat) (f : Cw → Cw) (s : State) : (updCw i f s).units = s.units := rfl
@[simp] theorem updCw_flc (i : Nat) (f : Cw → Cw) (s : State) : (updCw i f s).flc = s.flc := rfl
@[simp] theorem updCw_rcu (i : Nat) (f : Cw → Cw) (s : State) : (updCw i f s).rcu = s.rcu := rfl
@[simp] theorem updCw_wpe (i : Nat) (f : Cw → Cw) (s : State) : (updCw i f s).wpe = s.wpe := rfl
@[simp] theorem updCw_mme (i : Nat) (f : Cw → Cw) (s : State) : (updCw i f s).mme = s.mme := rfl
@[simp] theorem updCw_jnl (i : Nat) (f : Cw → Cw) (s : State) : (updCw i f s).jnl = s.jnl := rfl
@[simp] theorem updCw_ite (i : Nat) (f : Cw → Cw) (s : State) : (updCw i f s).ite = s.ite := rfl
@[simp] theorem updCw_bpm (i : Nat) (f : Cw → Cw) (s : State) : (updCw i f s).bpm = s.bpm := rfl
@[simp] theorem updCw_dmc (i : Nat) (f : Cw → Cw) (s : State) : (updCw i f s).dmc = s.dmc := rfl
@[simp] theorem updCw_drawn (i : Nat) (f : Cw → Cw) (s : State) : (updCw i f s).drawn = s.drawn := rfl
@[simp] theorem updCw_out (i : Nat) (f : Cw → Cw) (s : State) : (updCw i f s).out = s.out := rfl
@[simp] theorem updCw_pending (i : Nat) (f : Cw → Cw) (s : State) : (updCw i f s).pending = s.pending := rfl
@[simp] theorem updKeys_regs (t : Nat) (f : TenKeys → TenKeys) (s : State) : (updKeys t f s).regs = s.regs := rfl
@[simp] theorem updKeys_shadows (t : Nat) (f : TenKeys → TenKeys) (s : State) : (updKeys t f s).shadows = s.shadows := rfl
@[simp] theorem updKeys_heldHigh (t : Nat) (f : TenKeys → TenKeys) (s : State) : (updKeys t f s).heldHigh = s.heldHigh := rfl
@[simp] theorem updKeys_fuse (t : Nat) (f : TenKeys → TenKeys) (s : State) : (updKeys t f s).fuse = s.fuse := rfl
@[simp] theorem updKeys_top (t : Nat) (f : TenKeys → TenKeys) (s : State) : (updKeys t f s).top = s.top := rfl
@[simp] theorem updKeys_cru (t : Nat) (f : TenKeys → TenKeys) (s : State) : (updKeys t f s).cru = s.cru := rfl
@[simp] theorem updKeys_tu (t : Nat) (f : TenKeys → TenKeys) (s : State) : (updKeys t f s).tu = s.tu := rfl
@[simp] theorem updKeys_pad (t : Nat) (f : TenKeys → TenKeys) (s : State) : (updKeys t f s).pad = s.pad := rfl
@[simp] theorem updKeys_fws (t : Nat) (f : TenKeys → TenKeys) (s : State) : (updKeys t f s).fws = s.fws := rfl
@[simp] theorem updKeys_evc (t : Nat) (f : TenKeys → TenKeys) (s : State) : (updKeys t f s).evc = s.evc := rfl
@[simp] theorem updKeys_hfe (t : Nat) (f : TenKeys → TenKeys) (s : State) : (updKeys t f s).hfe = s.hfe := rfl
@[simp] theorem updKeys_qe (t : Nat) (f : TenKeys → TenKeys) (s : State) : (updKeys t f s).qe = s.qe := rfl
@[simp] theorem updKeys_mgc (t : Nat) (f : TenKeys → TenKeys) (s : State) : (updKeys t f s).mgc = s.mgc := rfl
@[simp] theorem updKeys_tabs (t : Nat) (f : TenKeys → TenKeys) (s : State) : (updKeys t f s).tabs = s.tabs := rfl
@[simp] theorem updKeys_dur (t : Nat) (f : TenKeys → TenKeys) (s : State) : (updKeys t f s).dur = s.dur := rfl
@[simp] theorem updKeys_units (t : Nat) (f : TenKeys → TenKeys) (s : State) : (updKeys t f s).units = s.units := rfl
@[simp] theorem updKeys_flc (t : Nat) (f : TenKeys → TenKeys) (s : State) : (updKeys t f s).flc = s.flc := rfl
@[simp] theorem updKeys_clc (t : Nat) (f : TenKeys → TenKeys) (s : State) : (updKeys t f s).clc = s.clc := rfl
@[simp] theorem updKeys_rcu (t : Nat) (f : TenKeys → TenKeys) (s : State) : (updKeys t f s).rcu = s.rcu := rfl
@[simp] theorem updKeys_wpe (t : Nat) (f : TenKeys → TenKeys) (s : State) : (updKeys t f s).wpe = s.wpe := rfl
@[simp] theorem updKeys_mme (t : Nat) (f : TenKeys → TenKeys) (s : State) : (updKeys t f s).mme = s.mme := rfl
@[simp] theorem updKeys_jnl (t : Nat) (f : TenKeys → TenKeys) (s : State) : (updKeys t f s).jnl = s.jnl := rfl
@[simp] theorem updKeys_bpm (t : Nat) (f : TenKeys → TenKeys) (s : State) : (updKeys t f s).bpm = s.bpm := rfl
@[simp] theorem updKeys_dmc (t : Nat) (f : TenKeys → TenKeys) (s : State) : (updKeys t f s).dmc = s.dmc := rfl
@[simp] theorem updKeys_drawn (t : Nat) (f : TenKeys → TenKeys) (s : State) : (updKeys t f s).drawn = s.drawn := rfl
@[simp] theorem updKeys_out (t : Nat) (f : TenKeys → TenKeys) (s : State) : (updKeys t f s).out = s.out := rfl
@[simp] theorem updKeys_pending (t : Nat) (f : TenKeys → TenKeys) (s : State) : (updKeys t f s).pending = s.pending := rfl
@[simp] theorem updSector_regs (n : Nat) (f : Sector → Sector) (s : State) : (updSector n f s).regs = s.regs := rfl
@[simp] theorem updSector_shadows (n : Nat) (f : Sector → Sector) (s : State) : (updSector n f s).shadows = s.shadows := rfl
@[simp] theorem updSector_heldHigh (n : Nat) (f : Sector → Sector) (s : State) : (updSector n f s).heldHigh = s.heldHigh := rfl
@[simp] theorem updSector_fuse (n : Nat) (f : Sector → Sector) (s : State) : (updSector n f s).fuse = s.fuse := rfl
@[simp] theorem updSector_top (n : Nat) (f : Sector → Sector) (s : State) : (updSector n f s).top = s.top := rfl
@[simp] theorem updSector_cru (n : Nat) (f : Sector → Sector) (s : State) : (updSector n f s).cru = s.cru := rfl
@[simp] theorem updSector_tu (n : Nat) (f : Sector → Sector) (s : State) : (updSector n f s).tu = s.tu := rfl
@[simp] theorem updSector_pad (n : Nat) (f : Sector → Sector) (s : State) : (updSector n f s).pad = s.pad := rfl
@[simp] theorem updSector_evc (n : Nat) (f : Sector → Sector) (s : State) : (updSector n f s).evc = s.evc := rfl
@[simp] theorem updSector_hfe (n : Nat) (f : Sector → Sector) (s : State) : (updSector n f s).hfe = s.hfe := rfl
@[simp] theorem updSector_qe (n : Nat) (f : Sector → Sector) (s : State) : (updSector n f s).qe = s.qe := rfl
@[simp] theorem updSector_mgc (n : Nat) (f : Sector → Sector) (s : State) : (updSector n f s).mgc = s.mgc := rfl
@[simp] theorem updSector_tabs (n : Nat) (f : Sector → Sector) (s : State) : (updSector n f s).tabs = s.tabs := rfl
@[simp] theorem updSector_dur (n : Nat) (f : Sector → Sector) (s : State) : (updSector n f s).dur = s.dur := rfl
@[simp] theorem updSector_units (n : Nat) (f : Sector → Sector) (s : State) : (updSector n f s).units = s.units := rfl
@[simp] theorem updSector_flc (n : Nat) (f : Sector → Sector) (s : State) : (updSector n f s).flc = s.flc := rfl
@[simp] theorem updSector_clc (n : Nat) (f : Sector → Sector) (s : State) : (updSector n f s).clc = s.clc := rfl
@[simp] theorem updSector_rcu (n : Nat) (f : Sector → Sector) (s : State) : (updSector n f s).rcu = s.rcu := rfl
@[simp] theorem updSector_wpe (n : Nat) (f : Sector → Sector) (s : State) : (updSector n f s).wpe = s.wpe := rfl
@[simp] theorem updSector_mme (n : Nat) (f : Sector → Sector) (s : State) : (updSector n f s).mme = s.mme := rfl
@[simp] theorem updSector_jnl (n : Nat) (f : Sector → Sector) (s : State) : (updSector n f s).jnl = s.jnl := rfl
@[simp] theorem updSector_ite (n : Nat) (f : Sector → Sector) (s : State) : (updSector n f s).ite = s.ite := rfl
@[simp] theorem updSector_bpm (n : Nat) (f : Sector → Sector) (s : State) : (updSector n f s).bpm = s.bpm := rfl
@[simp] theorem updSector_dmc (n : Nat) (f : Sector → Sector) (s : State) : (updSector n f s).dmc = s.dmc := rfl
@[simp] theorem updSector_drawn (n : Nat) (f : Sector → Sector) (s : State) : (updSector n f s).drawn = s.drawn := rfl
@[simp] theorem updSector_out (n : Nat) (f : Sector → Sector) (s : State) : (updSector n f s).out = s.out := rfl
@[simp] theorem updSector_pending (n : Nat) (f : Sector → Sector) (s : State) : (updSector n f s).pending = s.pending := rfl
@[simp] theorem updRow_regs (k r : Nat) (f : RowSt → RowSt) (s : State) : (updRow k r f s).regs = s.regs := rfl
@[simp] theorem updRow_shadows (k r : Nat) (f : RowSt → RowSt) (s : State) : (updRow k r f s).shadows = s.shadows := rfl
@[simp] theorem updRow_heldHigh (k r : Nat) (f : RowSt → RowSt) (s : State) : (updRow k r f s).heldHigh = s.heldHigh := rfl
@[simp] theorem updRow_fuse (k r : Nat) (f : RowSt → RowSt) (s : State) : (updRow k r f s).fuse = s.fuse := rfl
@[simp] theorem updRow_top (k r : Nat) (f : RowSt → RowSt) (s : State) : (updRow k r f s).top = s.top := rfl
@[simp] theorem updRow_cru (k r : Nat) (f : RowSt → RowSt) (s : State) : (updRow k r f s).cru = s.cru := rfl
@[simp] theorem updRow_tu (k r : Nat) (f : RowSt → RowSt) (s : State) : (updRow k r f s).tu = s.tu := rfl
@[simp] theorem updRow_pad (k r : Nat) (f : RowSt → RowSt) (s : State) : (updRow k r f s).pad = s.pad := rfl
@[simp] theorem updRow_fws (k r : Nat) (f : RowSt → RowSt) (s : State) : (updRow k r f s).fws = s.fws := rfl
@[simp] theorem updRow_evc (k r : Nat) (f : RowSt → RowSt) (s : State) : (updRow k r f s).evc = s.evc := rfl
@[simp] theorem updRow_hfe (k r : Nat) (f : RowSt → RowSt) (s : State) : (updRow k r f s).hfe = s.hfe := rfl
@[simp] theorem updRow_qe (k r : Nat) (f : RowSt → RowSt) (s : State) : (updRow k r f s).qe = s.qe := rfl
@[simp] theorem updRow_mgc (k r : Nat) (f : RowSt → RowSt) (s : State) : (updRow k r f s).mgc = s.mgc := rfl
@[simp] theorem updRow_tabs (k r : Nat) (f : RowSt → RowSt) (s : State) : (updRow k r f s).tabs = s.tabs := rfl
@[simp] theorem updRow_dur (k r : Nat) (f : RowSt → RowSt) (s : State) : (updRow k r f s).dur = s.dur := rfl
@[simp] theorem updRow_units (k r : Nat) (f : RowSt → RowSt) (s : State) : (updRow k r f s).units = s.units := rfl
@[simp] theorem updRow_flc (k r : Nat) (f : RowSt → RowSt) (s : State) : (updRow k r f s).flc = s.flc := rfl
@[simp] theorem updRow_clc (k r : Nat) (f : RowSt → RowSt) (s : State) : (updRow k r f s).clc = s.clc := rfl
@[simp] theorem updRow_rcu (k r : Nat) (f : RowSt → RowSt) (s : State) : (updRow k r f s).rcu = s.rcu := rfl
@[simp] theorem updRow_mme (k r : Nat) (f : RowSt → RowSt) (s : State) : (updRow k r f s).mme = s.mme := rfl
@[simp] theorem updRow_jnl (k r : Nat) (f : RowSt → RowSt) (s : State) : (updRow k r f s).jnl = s.jnl := rfl
@[simp] theorem updRow_ite (k r : Nat) (f : RowSt → RowSt) (s : State) : (updRow k r f s).ite = s.ite := rfl
@[simp] theorem updRow_bpm (k r : Nat) (f : RowSt → RowSt) (s : State) : (updRow k r f s).bpm = s.bpm := rfl
@[simp] theorem updRow_dmc (k r : Nat) (f : RowSt → RowSt) (s : State) : (updRow k r f s).dmc = s.dmc := rfl
@[simp] theorem updRow_drawn (k r : Nat) (f : RowSt → RowSt) (s : State) : (updRow k r f s).drawn = s.drawn := rfl
@[simp] theorem updRow_out (k r : Nat) (f : RowSt → RowSt) (s : State) : (updRow k r f s).out = s.out := rfl
@[simp] theorem updRow_pending (k r : Nat) (f : RowSt → RowSt) (s : State) : (updRow k r f s).pending = s.pending := rfl
@[simp] theorem updUnit_regs (k : Nat) (f : List UnitV → List UnitV) (s : State) : (updUnit k f s).regs = s.regs := rfl
@[simp] theorem updUnit_shadows (k : Nat) (f : List UnitV → List UnitV) (s : State) : (updUnit k f s).shadows = s.shadows := rfl
@[simp] theorem updUnit_heldHigh (k : Nat) (f : List UnitV → List UnitV) (s : State) : (updUnit k f s).heldHigh = s.heldHigh := rfl
@[simp] theorem updUnit_fuse (k : Nat) (f : List UnitV → List UnitV) (s : State) : (updUnit k f s).fuse = s.fuse := rfl
@[simp] theorem updUnit_top (k : Nat) (f : List UnitV → List UnitV) (s : State) : (updUnit k f s).top = s.top := rfl
@[simp] theorem updUnit_cru (k : Nat) (f : List UnitV → List UnitV) (s : State) : (updUnit k f s).cru = s.cru := rfl
@[simp] theorem updUnit_tu (k : Nat) (f : List UnitV → List UnitV) (s : State) : (updUnit k f s).tu = s.tu := rfl
@[simp] theorem updUnit_pad (k : Nat) (f : List UnitV → List UnitV) (s : State) : (updUnit k f s).pad = s.pad := rfl
@[simp] theorem updUnit_fws (k : Nat) (f : List UnitV → List UnitV) (s : State) : (updUnit k f s).fws = s.fws := rfl
@[simp] theorem updUnit_evc (k : Nat) (f : List UnitV → List UnitV) (s : State) : (updUnit k f s).evc = s.evc := rfl
@[simp] theorem updUnit_hfe (k : Nat) (f : List UnitV → List UnitV) (s : State) : (updUnit k f s).hfe = s.hfe := rfl
@[simp] theorem updUnit_qe (k : Nat) (f : List UnitV → List UnitV) (s : State) : (updUnit k f s).qe = s.qe := rfl
@[simp] theorem updUnit_mgc (k : Nat) (f : List UnitV → List UnitV) (s : State) : (updUnit k f s).mgc = s.mgc := rfl
@[simp] theorem updUnit_tabs (k : Nat) (f : List UnitV → List UnitV) (s : State) : (updUnit k f s).tabs = s.tabs := rfl
@[simp] theorem updUnit_dur (k : Nat) (f : List UnitV → List UnitV) (s : State) : (updUnit k f s).dur = s.dur := rfl
@[simp] theorem updUnit_flc (k : Nat) (f : List UnitV → List UnitV) (s : State) : (updUnit k f s).flc = s.flc := rfl
@[simp] theorem updUnit_clc (k : Nat) (f : List UnitV → List UnitV) (s : State) : (updUnit k f s).clc = s.clc := rfl
@[simp] theorem updUnit_rcu (k : Nat) (f : List UnitV → List UnitV) (s : State) : (updUnit k f s).rcu = s.rcu := rfl
@[simp] theorem updUnit_wpe (k : Nat) (f : List UnitV → List UnitV) (s : State) : (updUnit k f s).wpe = s.wpe := rfl
@[simp] theorem updUnit_mme (k : Nat) (f : List UnitV → List UnitV) (s : State) : (updUnit k f s).mme = s.mme := rfl
@[simp] theorem updUnit_jnl (k : Nat) (f : List UnitV → List UnitV) (s : State) : (updUnit k f s).jnl = s.jnl := rfl
@[simp] theorem updUnit_ite (k : Nat) (f : List UnitV → List UnitV) (s : State) : (updUnit k f s).ite = s.ite := rfl
@[simp] theorem updUnit_bpm (k : Nat) (f : List UnitV → List UnitV) (s : State) : (updUnit k f s).bpm = s.bpm := rfl
@[simp] theorem updUnit_dmc (k : Nat) (f : List UnitV → List UnitV) (s : State) : (updUnit k f s).dmc = s.dmc := rfl
@[simp] theorem updUnit_drawn (k : Nat) (f : List UnitV → List UnitV) (s : State) : (updUnit k f s).drawn = s.drawn := rfl
@[simp] theorem updUnit_out (k : Nat) (f : List UnitV → List UnitV) (s : State) : (updUnit k f s).out = s.out := rfl
@[simp] theorem updUnit_pending (k : Nat) (f : List UnitV → List UnitV) (s : State) : (updUnit k f s).pending = s.pending := rfl

/-! ## Reading an entry back -/

@[simp] theorem getTask_updTask (k : Nat) (f : Task → Task) (s : State) : getTask (updTask k f s) k = f (getTask s k) := mapGet_mapUpd_self _ _ _ _
theorem getTask_updTask_ne (k : Nat) (f : Task → Task) (s : State) (b : Nat) (h : b ≠ k) : getTask (updTask k f s) b = getTask s b := mapGet_mapUpd_ne _ _ _ _ h
@[simp] theorem getNs_updNs (n : Nat) (f : Ns → Ns) (s : State) : getNs (updNs n f s) n = f (getNs s n) := mapGet_mapUpd_self _ _ _ _
theorem getNs_updNs_ne (n : Nat) (f : Ns → Ns) (s : State) (b : Nat) (h : b ≠ n) : getNs (updNs n f s) b = getNs s b := mapGet_mapUpd_ne _ _ _ _ h
@[simp] theorem getZone_updZone (z : Nat) (f : Zone → Zone) (s : State) : getZone (updZone z f s) z = f (getZone s z) := mapGet_mapUpd_self _ _ _ _
theorem getZone_updZone_ne (z : Nat) (f : Zone → Zone) (s : State) (b : Nat) (h : b ≠ z) : getZone (updZone z f s) b = getZone s b := mapGet_mapUpd_ne _ _ _ _ h
@[simp] theorem getStripe_updStripe (k : Nat) (f : Stripe → Stripe) (s : State) : getStripe (updStripe k f s) k = f (getStripe s k) := mapGet_mapUpd_self _ _ _ _
theorem getStripe_updStripe_ne (k : Nat) (f : Stripe → Stripe) (s : State) (b : Nat) (h : b ≠ k) : getStripe (updStripe k f s) b = getStripe s b := mapGet_mapUpd_ne _ _ _ _ h
@[simp] theorem getBlock_updBlock (r : Nat) (f : Block → Block) (s : State) : getBlock (updBlock r f s) r = f (getBlock s r) := mapGet_mapUpd_self _ _ _ _
theorem getBlock_updBlock_ne (r : Nat) (f : Block → Block) (s : State) (b : Nat) (h : b ≠ r) : getBlock (updBlock r f s) b = getBlock s b := mapGet_mapUpd_ne _ _ _ _ h
@[simp] theorem getDie_updDie (d : Nat) (f : Die → Die) (s : State) : getDie (updDie d f s) d = f (getDie s d) := mapGet_mapUpd_self _ _ _ _
theorem getDie_updDie_ne (d : Nat) (f : Die → Die) (s : State) (b : Nat) (h : b ≠ d) : getDie (updDie d f s) b = getDie s b := mapGet_mapUpd_ne _ _ _ _ h
@[simp] theorem getLink_updLink (k : Nat) (f : Link → Link) (s : State) : getLink (updLink k f s) k = f (getLink s k) := mapGet_mapUpd_self _ _ _ _
theorem getLink_updLink_ne (k : Nat) (f : Link → Link) (s : State) (b : Nat) (h : b ≠ k) : getLink (updLink k f s) b = getLink s b := mapGet_mapUpd_ne _ _ _ _ h
@[simp] theorem getAge_updAge (d : Nat) (f : DieAge → DieAge) (s : State) : getAge (updAge d f s) d = f (getAge s d) := mapGet_mapUpd_self _ _ _ _
theorem getAge_updAge_ne (d : Nat) (f : DieAge → DieAge) (s : State) (b : Nat) (h : b ≠ d) : getAge (updAge d f s) b = getAge s b := mapGet_mapUpd_ne _ _ _ _ h
@[simp] theorem getPath_updPath (p : Nat) (f : SirPath → SirPath) (s : State) : getPath (updPath p f s) p = f (getPath s p) := mapGet_mapUpd_self _ _ _ _
theorem getPath_updPath_ne (p : Nat) (f : SirPath → SirPath) (s : State) (b : Nat) (h : b ≠ p) : getPath (updPath p f s) b = getPath s b := mapGet_mapUpd_ne _ _ _ _ h
@[simp] theorem getTenant_updTenant (t : Nat) (f : Tenant → Tenant) (s : State) : getTenant (updTenant t f s) t = f (getTenant s t) := mapGet_mapUpd_self _ _ _ _
theorem getTenant_updTenant_ne (t : Nat) (f : Tenant → Tenant) (s : State) (b : Nat) (h : b ≠ t) : getTenant (updTenant t f s) b = getTenant s b := mapGet_mapUpd_ne _ _ _ _ h
@[simp] theorem getConn_updConn (c : Nat) (f : Conn → Conn) (s : State) : getConn (updConn c f s) c = f (getConn s c) := mapGet_mapUpd_self _ _ _ _
theorem getConn_updConn_ne (c : Nat) (f : Conn → Conn) (s : State) (b : Nat) (h : b ≠ c) : getConn (updConn c f s) b = getConn s b := mapGet_mapUpd_ne _ _ _ _ h
@[simp] theorem getPort_updPort (p : Nat) (f : Port → Port) (s : State) : getPort (updPort p f s) p = f (getPort s p) := mapGet_mapUpd_self _ _ _ _
theorem getPort_updPort_ne (p : Nat) (f : Port → Port) (s : State) (b : Nat) (h : b ≠ p) : getPort (updPort p f s) b = getPort s b := mapGet_mapUpd_ne _ _ _ _ h
@[simp] theorem getLane_updLane (l : Nat) (f : Lane → Lane) (s : State) : getLane (updLane l f s) l = f (getLane s l) := mapGet_mapUpd_self _ _ _ _
theorem getLane_updLane_ne (l : Nat) (f : Lane → Lane) (s : State) (b : Nat) (h : b ≠ l) : getLane (updLane l f s) b = getLane s b := mapGet_mapUpd_ne _ _ _ _ h
@[simp] theorem getKeys_updKeys (t : Nat) (f : TenKeys → TenKeys) (s : State) : getKeys (updKeys t f s) t = f (getKeys s t) := mapGet_mapUpd_self _ _ _ _
theorem getKeys_updKeys_ne (t : Nat) (f : TenKeys → TenKeys) (s : State) (b : Nat) (h : b ≠ t) : getKeys (updKeys t f s) b = getKeys s b := mapGet_mapUpd_ne _ _ _ _ h
@[simp] theorem getSector_updSector (n : Nat) (f : Sector → Sector) (s : State) : getSector (updSector n f s) n = f (getSector s n) := mapGet_mapUpd_self _ _ _ _
theorem getSector_updSector_ne (n : Nat) (f : Sector → Sector) (s : State) (b : Nat) (h : b ≠ n) : getSector (updSector n f s) b = getSector s b := mapGet_mapUpd_ne _ _ _ _ h

end Sys2Proof.Machine
end

