-- ==== Sys2Proof/Laws/Keeps.lean ====
section
/-! SUPPORT. What every operation leaves alone, stated once as a relation between the state before and after. `Keeps m s t`: the parts of
the state whose bit is 0 in the mask `m` are equal; the queue and every fuse but PL2 stay, PL2 stays blown, the outbox and the count of
free values only grow, the stored registers and the two byte buffers keep their canonical form, and the event FIFO, the SRAM ring and the
task status keep their bounds. -/

namespace Sys2Proof.Machine

/-- The part of the state that the unconditional rules speak of. -/
structure Core where
  pending : List Instr
  fuse : Fuses
  drawn : Nat
  out : List Out
  regs : SMap Nat
  buf : SMap Byte
  taskSt : Nat
  staging : SMap Byte
  fifo : List HbRec
  sram : List HbRec

abbrev State.core (s : State) : Core :=
  ⟨s.pending, s.fuse, s.drawn, s.out, s.regs, s.mgc.buf, s.mgc.taskSt, s.fws.staging, s.evc.fifo, s.evc.sramRing⟩

/-- The unconditional rules, on the two parts. -/
structure Core.Keeps (s t : Core) : Prop where
  pending : t.pending = s.pending
  fuse : { t.fuse with pl2 := s.fuse.pl2 } = s.fuse
  pl2 : s.fuse.pl2 = true → t.fuse.pl2 = true
  drawn : s.drawn ≤ t.drawn
  out : s.out <:+ t.out
  regs : mapWf 0 s.regs = true → mapWf 0 t.regs = true
  buf : mapWf 0 s.buf = true → mapWf 0 t.buf = true
  taskSt : s.taskSt ≤ 2 → t.taskSt ≤ 2
  staging : mapWf 0 s.staging = true → mapWf 0 t.staging = true
  fifo : s.fifo.length ≤ 64 → t.fifo.length ≤ 64
  sram : s.sram.length ≤ 1024 → t.sram.length ≤ 1024

/-- The parts outside a mask are equal. -/
structure Same (m : Nat) (s t : State) : Prop where
  regs : m.testBit 0 = false → t.regs = s.regs
  held : m.testBit 1 = false → (t.shadows, t.heldHigh) = (s.shadows, s.heldHigh)
  drawn : m.testBit 2 = false → t.drawn = s.drawn
  out : m.testBit 3 = false → t.out = s.out
  fuse : m.testBit 4 = false → t.fuse = s.fuse
  dev : m.testBit 5 = false → t.top.dev = s.top.dev
  req : m.testBit 6 = false → t.top.req = s.top.req
  lastCause : m.testBit 7 = false → t.top.lastCause = s.top.lastCause
  result : m.testBit 8 = false → t.top.result = s.top.result
  quiesce : m.testBit 9 = false → (t.top.quiesceDone, t.top.retainedAfter, t.top.reqTick) = (s.top.quiesceDone, s.top.retainedAfter, s.top.reqTick)
  pwr : m.testBit 10 = false → (t.top.pwrActive, t.top.pwrStuck, t.top.pwrFrom) = (s.top.pwrActive, s.top.pwrStuck, s.top.pwrFrom)
  drain : m.testBit 11 = false → (t.top.drained, t.top.cleanAccepted, t.top.ckptAccepted, t.top.markAccepted) = (s.top.drained, s.top.cleanAccepted, s.top.ckptAccepted, s.top.markAccepted)
  skim : m.testBit 12 = false → (t.top.skimAge, t.top.skimSoon, t.top.skimOverdue) = (s.top.skimAge, s.top.skimSoon, s.top.skimOverdue)
  served : m.testBit 13 = false → (t.top.adminOk, t.top.readsOk) = (s.top.adminOk, s.top.readsOk)
  life : m.testBit 14 = false → (t.top.powerCycles, t.top.poweredSec, t.top.unsafeCount, t.top.unsafeLast) = (s.top.powerCycles, s.top.poweredSec, s.top.unsafeCount, s.top.unsafeLast)
  cru : m.testBit 15 = false → t.cru = s.cru
  tu : m.testBit 16 = false → t.tu = s.tu
  pad : m.testBit 17 = false → t.pad = s.pad
  settings : m.testBit 18 = false → (t.fws.dirty, t.fws.saved, t.fws.settingsSeq, t.fws.settingsSector) = (s.fws.dirty, s.fws.saved, s.fws.settingsSeq, s.fws.settingsSector)
  fws : m.testBit 19 = false → (t.fws.sectors, t.fws.pages, t.fws.op, t.fws.suspended, t.fws.result, t.fws.pulses, t.fws.lastSector, t.fws.recovery, t.fws.unsigned, t.fws.bootSlot, t.fws.rowLevel, t.fws.erasePending, t.fws.record, t.fws.staging, t.fws.granules, t.fws.job, t.fws.prefetch, t.fws.branch) = (s.fws.sectors, s.fws.pages, s.fws.op, s.fws.suspended, s.fws.result, s.fws.pulses, s.fws.lastSector, s.fws.recovery, s.fws.unsigned, s.fws.bootSlot, s.fws.rowLevel, s.fws.erasePending, s.fws.record, s.fws.staging, s.fws.granules, s.fws.job, s.fws.prefetch, s.fws.branch)
  evc : m.testBit 20 = false → t.evc = s.evc
  conns : m.testBit 21 = false → (t.hfe.conns, t.hfe.nextConn) = (s.hfe.conns, s.hfe.nextConn)
  ports : m.testBit 22 = false → t.hfe.ports = s.hfe.ports
  lanes : m.testBit 23 = false → t.hfe.lanes = s.hfe.lanes
  counters : m.testBit 24 = false → t.hfe.counters = s.hfe.counters
  hfe : m.testBit 25 = false → (t.hfe.mode, t.hfe.training, t.hfe.strapBad, t.hfe.savedMode, t.hfe.addrs, t.hfe.neigh, t.hfe.fifo, t.hfe.lastTs, t.hfe.masters, t.hfe.carry, t.hfe.discGen) = (s.hfe.mode, s.hfe.training, s.hfe.strapBad, s.hfe.savedMode, s.hfe.addrs, s.hfe.neigh, s.hfe.fifo, s.hfe.lastTs, s.hfe.masters, s.hfe.carry, s.hfe.discGen)
  tasks : m.testBit 26 = false → t.qe.tasks = s.qe.tasks
  ctls : m.testBit 27 = false → t.qe.ctls = s.qe.ctls
  tenants : m.testBit 28 = false → t.qe.tenants = s.qe.tenants
  qe : m.testBit 29 = false → (t.qe.cfgCode, t.qe.cfgTenant, t.qe.order) = (s.qe.cfgCode, s.qe.cfgTenant, s.qe.order)
  paths : m.testBit 30 = false → t.mgc.paths = s.mgc.paths
  admitted : m.testBit 31 = false → (t.mgc.admitted, t.mgc.admittedAll) = (s.mgc.admitted, s.mgc.admittedAll)
  act : m.testBit 32 = false → (t.mgc.actPhase, t.mgc.actFailed, t.mgc.actSlot, t.mgc.pauseUs, t.mgc.resetPending, t.mgc.actHeld) = (s.mgc.actPhase, s.mgc.actFailed, s.mgc.actSlot, s.mgc.pauseUs, s.mgc.resetPending, s.mgc.actHeld)
  mgc : m.testBit 33 = false → (t.mgc.activeBank, t.mgc.buf, t.mgc.portOff, t.mgc.taskSt, t.mgc.overrun, t.mgc.ibiEn, t.mgc.replyLen, t.mgc.dynAddr, t.mgc.ibiAllowed, t.mgc.hdrIgnore, t.mgc.loads, t.mgc.scLoad, t.mgc.shed, t.mgc.lowRun, t.mgc.svcSum, t.mgc.svcCount, t.mgc.revision, t.mgc.hoOwn) = (s.mgc.activeBank, s.mgc.buf, s.mgc.portOff, s.mgc.taskSt, s.mgc.overrun, s.mgc.ibiEn, s.mgc.replyLen, s.mgc.dynAddr, s.mgc.ibiAllowed, s.mgc.hdrIgnore, s.mgc.loads, s.mgc.scLoad, s.mgc.shed, s.mgc.lowRun, s.mgc.svcSum, s.mgc.svcCount, s.mgc.revision, s.mgc.hoOwn)
  nss : m.testBit 34 = false → t.tabs.nss = s.tabs.nss
  zones : m.testBit 35 = false → t.tabs.zones = s.tabs.zones
  stripes : m.testBit 36 = false → t.tabs.stripes = s.tabs.stripes
  blocks : m.testBit 37 = false → t.tabs.blocks = s.tabs.blocks
  slices : m.testBit 38 = false → t.tabs.slices = s.tabs.slices
  san : m.testBit 39 = false → (t.tabs.san, t.tabs.sanLog) = (s.tabs.san, s.tabs.sanLog)
  tabs : m.testBit 40 = false → (t.tabs.homes, t.tabs.skips, t.tabs.grown, t.tabs.lostDies, t.tabs.lostUnits) = (s.tabs.homes, s.tabs.skips, s.tabs.grown, s.tabs.lostDies, s.tabs.lostUnits)
  dur : m.testBit 41 = false → t.dur = s.dur
  units : m.testBit 42 = false → t.units = s.units
  links : m.testBit 43 = false → t.flc.links = s.flc.links
  dies : m.testBit 44 = false → t.flc.dies = s.flc.dies
  flc : m.testBit 45 = false → (t.flc.groups, t.flc.standbySent, t.flc.ps, t.flc.order) = (s.flc.groups, s.flc.standbySent, s.flc.ps, s.flc.order)
  clc : m.testBit 46 = false → t.clc = s.clc
  ages : m.testBit 47 = false → t.rcu.dies = s.rcu.dies
  rcu : m.testBit 48 = false → (t.rcu.b, t.rcu.shelfValid, t.rcu.source, t.rcu.climate, t.rcu.sealed, t.rcu.lockLate, t.rcu.clockBack, t.rcu.probesDone, t.rcu.lockedAtSeal, t.rcu.darkMin, t.rcu.lastMark, t.rcu.marks, t.rcu.ckptAges, t.rcu.ckptRefreshed, t.rcu.ckptLearned, t.rcu.imgAges, t.rcu.imgRefreshed, t.rcu.imgLearned, t.rcu.imgMarks, t.rcu.preseal) = (s.rcu.b, s.rcu.shelfValid, s.rcu.source, s.rcu.climate, s.rcu.sealed, s.rcu.lockLate, s.rcu.clockBack, s.rcu.probesDone, s.rcu.lockedAtSeal, s.rcu.darkMin, s.rcu.lastMark, s.rcu.marks, s.rcu.ckptAges, s.rcu.ckptRefreshed, s.rcu.ckptLearned, s.rcu.imgAges, s.rcu.imgRefreshed, s.rcu.imgLearned, s.rcu.imgMarks, s.rcu.preseal)
  wpe : m.testBit 49 = false → t.wpe = s.wpe
  mme : m.testBit 50 = false → t.mme = s.mme
  buffer : m.testBit 51 = false → (t.jnl.buffer, t.jnl.nextJsn, t.jnl.nextSeq, t.jnl.pages, t.jnl.volume) = (s.jnl.buffer, s.jnl.nextJsn, s.jnl.nextSeq, s.jnl.pages, s.jnl.volume)
  commits : m.testBit 52 = false → t.jnl.commits = s.jnl.commits
  pairs : m.testBit 53 = false → (t.jnl.pairs, t.jnl.emergency, t.jnl.old) = (s.jnl.pairs, s.jnl.emergency, s.jnl.old)
  jnl : m.testBit 54 = false → (t.jnl.accJsn, t.jnl.accSeq, t.jnl.lastType, t.jnl.ckptActive, t.jnl.ckptJsn, t.jnl.ckptHeld, t.jnl.ckptForQuiesce, t.jnl.imageSeq, t.jnl.lastSeq, t.jnl.fromVol, t.jnl.ckptFrom, t.jnl.endAccepted, t.jnl.lastStart, t.jnl.anchors, t.jnl.phase, t.jnl.anchorFew, t.jnl.gap, t.jnl.unsafeLast, t.jnl.phase1Tick, t.jnl.phase1Ms, t.jnl.phase2Ms, t.jnl.rebased, t.jnl.sealedLog, t.jnl.anchorTower, t.jnl.emergencyMode, t.jnl.pairsN, t.jnl.wipes) = (s.jnl.accJsn, s.jnl.accSeq, s.jnl.lastType, s.jnl.ckptActive, s.jnl.ckptJsn, s.jnl.ckptHeld, s.jnl.ckptForQuiesce, s.jnl.imageSeq, s.jnl.lastSeq, s.jnl.fromVol, s.jnl.ckptFrom, s.jnl.endAccepted, s.jnl.lastStart, s.jnl.anchors, s.jnl.phase, s.jnl.anchorFew, s.jnl.gap, s.jnl.unsafeLast, s.jnl.phase1Tick, s.jnl.phase1Ms, s.jnl.phase2Ms, s.jnl.rebased, s.jnl.sealedLog, s.jnl.anchorTower, s.jnl.emergencyMode, s.jnl.pairsN, s.jnl.wipes)
  ite : m.testBit 55 = false → t.ite = s.ite
  bpm : m.testBit 56 = false → t.bpm = s.bpm
  dmc : m.testBit 57 = false → t.dmc = s.dmc

/-- The parts of one component outside a mask are equal. -/
structure SameTop (m : Nat) (x y : Top) : Prop where
  dev : m.testBit 5 = false → y.dev = x.dev
  req : m.testBit 6 = false → y.req = x.req
  lastCause : m.testBit 7 = false → y.lastCause = x.lastCause
  result : m.testBit 8 = false → y.result = x.result
  quiesce : m.testBit 9 = false → (y.quiesceDone, y.retainedAfter, y.reqTick) = (x.quiesceDone, x.retainedAfter, x.reqTick)
  pwr : m.testBit 10 = false → (y.pwrActive, y.pwrStuck, y.pwrFrom) = (x.pwrActive, x.pwrStuck, x.pwrFrom)
  drain : m.testBit 11 = false → (y.drained, y.cleanAccepted, y.ckptAccepted, y.markAccepted) = (x.drained, x.cleanAccepted, x.ckptAccepted, x.markAccepted)
  skim : m.testBit 12 = false → (y.skimAge, y.skimSoon, y.skimOverdue) = (x.skimAge, x.skimSoon, x.skimOverdue)
  served : m.testBit 13 = false → (y.adminOk, y.readsOk) = (x.adminOk, x.readsOk)
  life : m.testBit 14 = false → (y.powerCycles, y.poweredSec, y.unsafeCount, y.unsafeLast) = (x.powerCycles, x.poweredSec, x.unsafeCount, x.unsafeLast)

/-- The parts of one component outside a mask are equal. -/
structure SameHfe (m : Nat) (x y : Hfe) : Prop where
  conns : m.testBit 21 = false → (y.conns, y.nextConn) = (x.conns, x.nextConn)
  ports : m.testBit 22 = false → y.ports = x.ports
  lanes : m.testBit 23 = false → y.lanes = x.lanes
  counters : m.testBit 24 = false → y.counters = x.counters
  hfe : m.testBit 25 = false → (y.mode, y.training, y.strapBad, y.savedMode, y.addrs, y.neigh, y.fifo, y.lastTs, y.masters, y.carry, y.discGen) = (x.mode, x.training, x.strapBad, x.savedMode, x.addrs, x.neigh, x.fifo, x.lastTs, x.masters, x.carry, x.discGen)

/-- The parts of one component outside a mask are equal. -/
structure SameQe (m : Nat) (x y : Qe) : Prop where
  tasks : m.testBit 26 = false → y.tasks = x.tasks
  ctls : m.testBit 27 = false → y.ctls = x.ctls
  tenants : m.testBit 28 = false → y.tenants = x.tenants
  qe : m.testBit 29 = false → (y.cfgCode, y.cfgTenant, y.order) = (x.cfgCode, x.cfgTenant, x.order)

/-- The parts of one component outside a mask are equal. -/
structure SameTables (m : Nat) (x y : Tables) : Prop where
  nss : m.testBit 34 = false → y.nss = x.nss
  zones : m.testBit 35 = false → y.zones = x.zones
  stripes : m.testBit 36 = false → y.stripes = x.stripes
  blocks : m.testBit 37 = false → y.blocks = x.blocks
  slices : m.testBit 38 = false → y.slices = x.slices
  san : m.testBit 39 = false → (y.san, y.sanLog) = (x.san, x.sanLog)
  tabs : m.testBit 40 = false → (y.homes, y.skips, y.grown, y.lostDies, y.lostUnits) = (x.homes, x.skips, x.grown, x.lostDies, x.lostUnits)

/-- The parts of one component outside a mask are equal. -/
structure SameFlc (m : Nat) (x y : Flc) : Prop where
  links : m.testBit 43 = false → y.links = x.links
  dies : m.testBit 44 = false → y.dies = x.dies
  flc : m.testBit 45 = false → (y.groups, y.standbySent, y.ps, y.order) = (x.groups, x.standbySent, x.ps, x.order)

/-- The parts of one component outside a mask are equal. -/
structure SameRcu (m : Nat) (x y : Rcu) : Prop where
  ages : m.testBit 47 = false → y.dies = x.dies
  rcu : m.testBit 48 = false → (y.b, y.shelfValid, y.source, y.climate, y.sealed, y.lockLate, y.clockBack, y.probesDone, y.lockedAtSeal, y.darkMin, y.lastMark, y.marks, y.ckptAges, y.ckptRefreshed, y.ckptLearned, y.imgAges, y.imgRefreshed, y.imgLearned, y.imgMarks, y.preseal) = (x.b, x.shelfValid, x.source, x.climate, x.sealed, x.lockLate, x.clockBack, x.probesDone, x.lockedAtSeal, x.darkMin, x.lastMark, x.marks, x.ckptAges, x.ckptRefreshed, x.ckptLearned, x.imgAges, x.imgRefreshed, x.imgLearned, x.imgMarks, x.preseal)

/-- The parts of one component outside a mask are equal. -/
structure SameJnl (m : Nat) (x y : Jnl) : Prop where
  buffer : m.testBit 51 = false → (y.buffer, y.nextJsn, y.nextSeq, y.pages, y.volume) = (x.buffer, x.nextJsn, x.nextSeq, x.pages, x.volume)
  commits : m.testBit 52 = false → y.commits = x.commits
  pairs : m.testBit 53 = false → (y.pairs, y.emergency, y.old) = (x.pairs, x.emergency, x.old)
  jnl : m.testBit 54 = false → (y.accJsn, y.accSeq, y.lastType, y.ckptActive, y.ckptJsn, y.ckptHeld, y.ckptForQuiesce, y.imageSeq, y.lastSeq, y.fromVol, y.ckptFrom, y.endAccepted, y.lastStart, y.anchors, y.phase, y.anchorFew, y.gap, y.unsafeLast, y.phase1Tick, y.phase1Ms, y.phase2Ms, y.rebased, y.sealedLog, y.anchorTower, y.emergencyMode, y.pairsN, y.wipes) = (x.accJsn, x.accSeq, x.lastType, x.ckptActive, x.ckptJsn, x.ckptHeld, x.ckptForQuiesce, x.imageSeq, x.lastSeq, x.fromVol, x.ckptFrom, x.endAccepted, x.lastStart, x.anchors, x.phase, x.anchorFew, x.gap, x.unsafeLast, x.phase1Tick, x.phase1Ms, x.phase2Ms, x.rebased, x.sealedLog, x.anchorTower, x.emergencyMode, x.pairsN, x.wipes)

/-- The parts of one component outside a mask are equal. -/
structure SameMgc (m : Nat) (x y : Mgc) : Prop where
  paths : m.testBit 30 = false → y.paths = x.paths
  admitted : m.testBit 31 = false → (y.admitted, y.admittedAll) = (x.admitted, x.admittedAll)
  act : m.testBit 32 = false → (y.actPhase, y.actFailed, y.actSlot, y.pauseUs, y.resetPending, y.actHeld) = (x.actPhase, x.actFailed, x.actSlot, x.pauseUs, x.resetPending, x.actHeld)
  mgc : m.testBit 33 = false → (y.activeBank, y.buf, y.portOff, y.taskSt, y.overrun, y.ibiEn, y.replyLen, y.dynAddr, y.ibiAllowed, y.hdrIgnore, y.loads, y.scLoad, y.shed, y.lowRun, y.svcSum, y.svcCount, y.revision, y.hoOwn) = (x.activeBank, x.buf, x.portOff, x.taskSt, x.overrun, x.ibiEn, x.replyLen, x.dynAddr, x.ibiAllowed, x.hdrIgnore, x.loads, x.scLoad, x.shed, x.lowRun, x.svcSum, x.svcCount, x.revision, x.hoOwn)

/-- The parts of one component outside a mask are equal. -/
structure SameFws (m : Nat) (x y : Fws) : Prop where
  settings : m.testBit 18 = false → (y.dirty, y.saved, y.settingsSeq, y.settingsSector) = (x.dirty, x.saved, x.settingsSeq, x.settingsSector)
  fws : m.testBit 19 = false → (y.sectors, y.pages, y.op, y.suspended, y.result, y.pulses, y.lastSector, y.recovery, y.unsigned, y.bootSlot, y.rowLevel, y.erasePending, y.record, y.staging, y.granules, y.job, y.prefetch, y.branch) = (x.sectors, x.pages, x.op, x.suspended, x.result, x.pulses, x.lastSector, x.recovery, x.unsigned, x.bootSlot, x.rowLevel, x.erasePending, x.record, x.staging, x.granules, x.job, x.prefetch, x.branch)

/-- Every bit of `a` is a bit of `m`. -/
def sub (a m : Nat) : Prop := a &&& m = a

theorem sub_refl (m : Nat) : sub m m := Nat.and_self m

theorem sub_trans {a b m : Nat} (h : a &&& b = a) (g : sub b m) : sub a m := by
  unfold sub at *
  rw [← h, Nat.and_assoc, g]

theorem sub_bit {a m i : Nat} (h : sub a m) (g : m.testBit i = false) : a.testBit i = false := by
  have := congrArg (fun x => x.testBit i) h
  simp only [Nat.testBit_and, g, Bool.and_false] at this
  exact this.symm

theorem Same.refl (m : Nat) (s : State) : Same m s s := by
  constructor <;> intro _ <;> rfl

theorem Same.trans {m : Nat} {s t u : State} (h : Same m s t) (g : Same m t u) : Same m s u where
  regs b := (g.regs b).trans (h.regs b)
  held b := (g.held b).trans (h.held b)
  drawn b := (g.drawn b).trans (h.drawn b)
  out b := (g.out b).trans (h.out b)
  fuse b := (g.fuse b).trans (h.fuse b)
  dev b := (g.dev b).trans (h.dev b)
  req b := (g.req b).trans (h.req b)
  lastCause b := (g.lastCause b).trans (h.lastCause b)
  result b := (g.result b).trans (h.result b)
  quiesce b := (g.quiesce b).trans (h.quiesce b)
  pwr b := (g.pwr b).trans (h.pwr b)
  drain b := (g.drain b).trans (h.drain b)
  skim b := (g.skim b).trans (h.skim b)
  served b := (g.served b).trans (h.served b)
  life b := (g.life b).trans (h.life b)
  cru b := (g.cru b).trans (h.cru b)
  tu b := (g.tu b).trans (h.tu b)
  pad b := (g.pad b).trans (h.pad b)
  settings b := (g.settings b).trans (h.settings b)
  fws b := (g.fws b).trans (h.fws b)
  evc b := (g.evc b).trans (h.evc b)
  conns b := (g.conns b).trans (h.conns b)
  ports b := (g.ports b).trans (h.ports b)
  lanes b := (g.lanes b).trans (h.lanes b)
  counters b := (g.counters b).trans (h.counters b)
  hfe b := (g.hfe b).trans (h.hfe b)
  tasks b := (g.tasks b).trans (h.tasks b)
  ctls b := (g.ctls b).trans (h.ctls b)
  tenants b := (g.tenants b).trans (h.tenants b)
  qe b := (g.qe b).trans (h.qe b)
  paths b := (g.paths b).trans (h.paths b)
  admitted b := (g.admitted b).trans (h.admitted b)
  act b := (g.act b).trans (h.act b)
  mgc b := (g.mgc b).trans (h.mgc b)
  nss b := (g.nss b).trans (h.nss b)
  zones b := (g.zones b).trans (h.zones b)
  stripes b := (g.stripes b).trans (h.stripes b)
  blocks b := (g.blocks b).trans (h.blocks b)
  slices b := (g.slices b).trans (h.slices b)
  san b := (g.san b).trans (h.san b)
  tabs b := (g.tabs b).trans (h.tabs b)
  dur b := (g.dur b).trans (h.dur b)
  units b := (g.units b).trans (h.units b)
  links b := (g.links b).trans (h.links b)
  dies b := (g.dies b).trans (h.dies b)
  flc b := (g.flc b).trans (h.flc b)
  clc b := (g.clc b).trans (h.clc b)
  ages b := (g.ages b).trans (h.ages b)
  rcu b := (g.rcu b).trans (h.rcu b)
  wpe b := (g.wpe b).trans (h.wpe b)
  mme b := (g.mme b).trans (h.mme b)
  buffer b := (g.buffer b).trans (h.buffer b)
  commits b := (g.commits b).trans (h.commits b)
  pairs b := (g.pairs b).trans (h.pairs b)
  jnl b := (g.jnl b).trans (h.jnl b)
  ite b := (g.ite b).trans (h.ite b)
  bpm b := (g.bpm b).trans (h.bpm b)
  dmc b := (g.dmc b).trans (h.dmc b)

theorem Same.mono {a m : Nat} {s t : State} (hm : sub a m) (h : Same a s t) : Same m s t where
  regs b := h.regs (sub_bit hm b)
  held b := h.held (sub_bit hm b)
  drawn b := h.drawn (sub_bit hm b)
  out b := h.out (sub_bit hm b)
  fuse b := h.fuse (sub_bit hm b)
  dev b := h.dev (sub_bit hm b)
  req b := h.req (sub_bit hm b)
  lastCause b := h.lastCause (sub_bit hm b)
  result b := h.result (sub_bit hm b)
  quiesce b := h.quiesce (sub_bit hm b)
  pwr b := h.pwr (sub_bit hm b)
  drain b := h.drain (sub_bit hm b)
  skim b := h.skim (sub_bit hm b)
  served b := h.served (sub_bit hm b)
  life b := h.life (sub_bit hm b)
  cru b := h.cru (sub_bit hm b)
  tu b := h.tu (sub_bit hm b)
  pad b := h.pad (sub_bit hm b)
  settings b := h.settings (sub_bit hm b)
  fws b := h.fws (sub_bit hm b)
  evc b := h.evc (sub_bit hm b)
  conns b := h.conns (sub_bit hm b)
  ports b := h.ports (sub_bit hm b)
  lanes b := h.lanes (sub_bit hm b)
  counters b := h.counters (sub_bit hm b)
  hfe b := h.hfe (sub_bit hm b)
  tasks b := h.tasks (sub_bit hm b)
  ctls b := h.ctls (sub_bit hm b)
  tenants b := h.tenants (sub_bit hm b)
  qe b := h.qe (sub_bit hm b)
  paths b := h.paths (sub_bit hm b)
  admitted b := h.admitted (sub_bit hm b)
  act b := h.act (sub_bit hm b)
  mgc b := h.mgc (sub_bit hm b)
  nss b := h.nss (sub_bit hm b)
  zones b := h.zones (sub_bit hm b)
  stripes b := h.stripes (sub_bit hm b)
  blocks b := h.blocks (sub_bit hm b)
  slices b := h.slices (sub_bit hm b)
  san b := h.san (sub_bit hm b)
  tabs b := h.tabs (sub_bit hm b)
  dur b := h.dur (sub_bit hm b)
  units b := h.units (sub_bit hm b)
  links b := h.links (sub_bit hm b)
  dies b := h.dies (sub_bit hm b)
  flc b := h.flc (sub_bit hm b)
  clc b := h.clc (sub_bit hm b)
  ages b := h.ages (sub_bit hm b)
  rcu b := h.rcu (sub_bit hm b)
  wpe b := h.wpe (sub_bit hm b)
  mme b := h.mme (sub_bit hm b)
  buffer b := h.buffer (sub_bit hm b)
  commits b := h.commits (sub_bit hm b)
  pairs b := h.pairs (sub_bit hm b)
  jnl b := h.jnl (sub_bit hm b)
  ite b := h.ite (sub_bit hm b)
  bpm b := h.bpm (sub_bit hm b)
  dmc b := h.dmc (sub_bit hm b)

structure Keeps (m : Nat) (s t : State) : Prop where
  core : s.core.Keeps t.core
  same : Same m s t

/-- An outcome is a next state that keeps the rules. -/
def KeepsOut (m : Nat) (s : State) (o : Host.Outcome State Fault Refusal) : Prop := ∃ u, o = .next u ∧ Keeps m s u

theorem Core.Keeps.refl (s : Core) : s.Keeps s :=
  ⟨rfl, rfl, id, Nat.le_refl _, List.suffix_refl _, id, id, id, id, id, id⟩

theorem Core.Keeps.trans {s t u : Core} (h : s.Keeps t) (g : t.Keeps u) : s.Keeps u where
  pending := g.pending.trans h.pending
  fuse := by
    have e1 := h.fuse
    have e2 := g.fuse
    revert e1 e2
    generalize u.fuse = a
    generalize t.fuse = b
    generalize s.fuse = c
    obtain ⟨⟩ := a
    obtain ⟨⟩ := b
    obtain ⟨⟩ := c
    simp only [Fuses.mk.injEq]
    rintro ⟨rfl, rfl, rfl, _, rfl, rfl, rfl, rfl, rfl⟩ ⟨rfl, rfl, rfl, _, rfl, rfl, rfl, rfl, rfl⟩
    simp
  pl2 := g.pl2 ∘ h.pl2
  drawn := Nat.le_trans h.drawn g.drawn
  out := h.out.trans g.out
  regs := g.regs ∘ h.regs
  buf := g.buf ∘ h.buf
  taskSt := g.taskSt ∘ h.taskSt
  staging := g.staging ∘ h.staging
  fifo := g.fifo ∘ h.fifo
  sram := g.sram ∘ h.sram

theorem Keeps.refl (m : Nat) (s : State) : Keeps m s s := ⟨Core.Keeps.refl _, Same.refl _ _⟩

theorem Keeps.trans {m : Nat} {s t u : State} (h : Keeps m s t) (g : Keeps m t u) : Keeps m s u :=
  ⟨h.core.trans g.core, h.same.trans g.same⟩

/-- One step on: a change of the last state inside the mask. -/
theorem Keeps.step {a m : Nat} (hm : sub a m) {s t u : State} (h : Keeps m s t) (c : t.core.Keeps u.core) (g : Same a t u) : Keeps m s u :=
  h.trans ⟨c, g.mono hm⟩

/-- A record update that leaves the core alone. -/
theorem Keeps.mk' {a m : Nat} (hm : sub a m) {s t : State} {x1 x2 x3 x4 x5 x6 x7 x8 x9 x10 x11 x12 x13 x14 x15 x16 x17 x18 x19 x20} {fw : Fws}
    {ev : Evc} {g : Mgc} (h : Keeps m s t)
    (e : (g.buf, g.taskSt, fw.staging, ev.fifo, ev.sramRing) = (t.mgc.buf, t.mgc.taskSt, t.fws.staging, t.evc.fifo, t.evc.sramRing))
    (d : Same a t (State.mk t.regs x1 x2 t.fuse x3 x4 x5 x6 fw ev x7 x8 g x9 x10 x11 x12 x13 x14 x15 x16 x17 x18 x19 x20 t.drawn t.out t.pending)) :
    Keeps m s (State.mk t.regs x1 x2 t.fuse x3 x4 x5 x6 fw ev x7 x8 g x9 x10 x11 x12 x13 x14 x15 x16 x17 x18 x19 x20 t.drawn t.out t.pending) := by
  simp only [Prod.mk.injEq] at e
  obtain ⟨e1, e2, e3, e4, e5⟩ := e
  refine h.step hm ?_ d
  simp only [State.core, e1, e2, e3, e4, e5]
  exact Core.Keeps.refl _

theorem Keeps.step' {a m : Nat} (hm : sub a m) {s t u : State} (h : Keeps m s t) (g : Same a t u) (c : t.core.Keeps u.core) : Keeps m s u :=
  h.step hm c g

theorem Keeps.next {m : Nat} {s t : State} (h : Keeps m s t) : KeepsOut m s (.next t) := ⟨t, Eq.refl _, h⟩

theorem Keeps.foldl {α : Type} {f : State → α → State} {l : List α} {m : Nat} {s t : State}
    (hf : ∀ a u, Keeps m s u → Keeps m s (f u a)) (h : Keeps m s t) : Keeps m s (l.foldl f t) := by
  induction l generalizing t with
  | nil => exact h
  | cons a l ih => exact ih (hf a t h)

theorem Keeps.foldr {α : Type} {f : α → State → State} {l : List α} {m : Nat} {s t : State}
    (hf : ∀ a u, Keeps m s u → Keeps m s (f a u)) (h : Keeps m s t) : Keeps m s (l.foldr f t) := by
  induction l with
  | nil => exact h
  | cons a l ih => exact hf a _ ih

/-- A walk that also collects something. -/
theorem Keeps.foldl_snd {α β : Type} {f : β × State → α → β × State} {l : List α} {m : Nat} {s : State} {p : β × State}
    (hf : ∀ a q, Keeps m s q.2 → Keeps m s (f q a).2) (h : Keeps m s p.2) : Keeps m s (l.foldl f p).2 := by
  induction l generalizing p with
  | nil => exact h
  | cons a l ih => exact ih (hf a p h)

theorem mapWf_foldl {α : Type} {l : List α} {f : SMap Byte → α → SMap Byte} {m : SMap Byte}
    (hf : ∀ a m, mapWf 0 m = true → mapWf 0 (f m a) = true) (h : mapWf 0 m = true) : mapWf 0 (l.foldl f m) = true := by
  induction l generalizing m with
  | nil => exact h
  | cons a l ih => exact ih (hf a m h)

/-! ## The primitives -/

theorem keeps_outcomeState {m : Nat} (_hm : sub 0 m) {s t : State} {o : Host.Outcome State Fault Refusal} (_h : Keeps m s t) (ho : KeepsOut m s o) :
    Keeps m s (outcomeState t o) := by
  obtain ⟨u, rfl, hu⟩ := ho
  exact hu

theorem keeps_fifoPush {m : Nat} (hm : sub 0x100000 m) {s t : State} {r : HbRec} (hl : t.evc.fifo.length < 64) (h : Keeps m s t) :
    Keeps m s (fifoPush r t) :=
  h.step hm ⟨rfl, rfl, id, Nat.le_refl _, List.suffix_refl _, id, id, id, id, fun _ => by
    simp only [fifoPush, List.length_append, List.length_singleton]; omega, id⟩
    (by constructor <;> intro b <;> first | rfl | exact absurd b (by decide))

theorem keeps_setReg {m : Nat} (hm : sub 0x1 m) {s t : State} {a v : Nat} (h : Keeps m s t) : Keeps m s (setReg a v t) :=
  h.step hm ⟨rfl, rfl, id, Nat.le_refl _, List.suffix_refl _, fun w => mapSet_wf w, id, id, id, id, id⟩
    (by constructor <;> intro b <;> first | rfl | exact absurd b (by decide))

theorem keeps_emit {m : Nat} (hm : sub 0x8 m) {s t : State} {o : Out} (h : Keeps m s t) : Keeps m s (emit o t) :=
  h.step hm ⟨rfl, rfl, id, Nat.le_refl _, List.suffix_cons _ _, id, id, id, id, id, id⟩
    (by constructor <;> intro b <;> first | rfl | exact absurd b (by decide))

theorem keeps_drawFree' {m : Nat} (hm : sub 0x4 m) {s t : State} {n : Nat} (h : Keeps m s t) : Keeps m s (drawFree n t).2 :=
  h.step hm ⟨rfl, rfl, id, Nat.le_succ _, List.suffix_refl _, id, id, id, id, id, id⟩
    (by constructor <;> intro b <;> first | rfl | exact absurd b (by decide))

theorem keeps_drawFree {m : Nat} (hm : sub 0x4 m) {s t u : State} {n x : Nat} (h : Keeps m s t) (e : drawFree n t = (x, u)) :
    Keeps m s u := by
  have := keeps_drawFree' hm (n := n) h
  rwa [e] at this

theorem keeps_resetDevRegs {m : Nat} (hm : sub 0x1 m) {s t : State} (h : Keeps m s t) : Keeps m s (resetDevRegs t) :=
  h.step hm ⟨rfl, rfl, id, Nat.le_refl _, List.suffix_refl _, fun w => filter_wf w, id, id, id, id, id⟩
    (by constructor <;> intro b <;> first | rfl | exact absurd b (by decide))

theorem keeps_updMgc {a m : Nat} (hm : sub a m) {s t : State} {f : Mgc → Mgc} (hs : ∀ x, SameMgc a x (f x)) (hb : ∀ x, mapWf 0 x.buf = true → mapWf 0 (f x).buf = true)
    (ht : ∀ x, x.taskSt ≤ 2 → (f x).taskSt ≤ 2)  (h : Keeps m s t) : Keeps m s (updMgc f t) :=
  h.step hm ⟨rfl, rfl, id, Nat.le_refl _, List.suffix_refl _, id, hb _, ht _, id, id, id⟩
    { regs _ := rfl, held _ := rfl, drawn _ := rfl, out _ := rfl, fuse _ := rfl, dev _ := rfl, req _ := rfl, lastCause _ := rfl, result _ := rfl, quiesce _ := rfl, pwr _ := rfl, drain _ := rfl, skim _ := rfl, served _ := rfl, life _ := rfl, cru _ := rfl, tu _ := rfl, pad _ := rfl, settings _ := rfl, fws _ := rfl, evc _ := rfl, conns _ := rfl, ports _ := rfl, lanes _ := rfl, counters _ := rfl, hfe _ := rfl, tasks _ := rfl, ctls _ := rfl, tenants _ := rfl, qe _ := rfl, paths := (hs _).paths, admitted := (hs _).admitted, act := (hs _).act, mgc := (hs _).mgc, nss _ := rfl, zones _ := rfl, stripes _ := rfl, blocks _ := rfl, slices _ := rfl, san _ := rfl, tabs _ := rfl, dur _ := rfl, units _ := rfl, links _ := rfl, dies _ := rfl, flc _ := rfl, clc _ := rfl, ages _ := rfl, rcu _ := rfl, wpe _ := rfl, mme _ := rfl, buffer _ := rfl, commits _ := rfl, pairs _ := rfl, jnl _ := rfl, ite _ := rfl, bpm _ := rfl, dmc _ := rfl }

theorem keeps_updFws {a m : Nat} (hm : sub a m) {s t : State} {f : Fws → Fws} (hs : ∀ x, SameFws a x (f x))
    (hb : ∀ x, mapWf 0 x.staging = true → mapWf 0 (f x).staging = true)  (h : Keeps m s t) :
    Keeps m s (updFws f t) :=
  h.step hm ⟨rfl, rfl, id, Nat.le_refl _, List.suffix_refl _, id, id, id, hb _, id, id⟩
    { regs _ := rfl, held _ := rfl, drawn _ := rfl, out _ := rfl, fuse _ := rfl, dev _ := rfl, req _ := rfl, lastCause _ := rfl, result _ := rfl, quiesce _ := rfl, pwr _ := rfl, drain _ := rfl, skim _ := rfl, served _ := rfl, life _ := rfl, cru _ := rfl, tu _ := rfl, pad _ := rfl, settings := (hs _).settings, fws := (hs _).fws, evc _ := rfl, conns _ := rfl, ports _ := rfl, lanes _ := rfl, counters _ := rfl, hfe _ := rfl, tasks _ := rfl, ctls _ := rfl, tenants _ := rfl, qe _ := rfl, paths _ := rfl, admitted _ := rfl, act _ := rfl, mgc _ := rfl, nss _ := rfl, zones _ := rfl, stripes _ := rfl, blocks _ := rfl, slices _ := rfl, san _ := rfl, tabs _ := rfl, dur _ := rfl, units _ := rfl, links _ := rfl, dies _ := rfl, flc _ := rfl, clc _ := rfl, ages _ := rfl, rcu _ := rfl, wpe _ := rfl, mme _ := rfl, buffer _ := rfl, commits _ := rfl, pairs _ := rfl, jnl _ := rfl, ite _ := rfl, bpm _ := rfl, dmc _ := rfl }

theorem keeps_updEvc {m : Nat} (hm : sub 0x100000 m) {s t : State} {f : Evc → Evc} (hf : ∀ x, x.fifo.length ≤ 64 → (f x).fifo.length ≤ 64)
    (hr : ∀ x, x.sramRing.length ≤ 1024 → (f x).sramRing.length ≤ 1024)  (h : Keeps m s t) :
    Keeps m s (updEvc f t) :=
  h.step hm ⟨rfl, rfl, id, Nat.le_refl _, List.suffix_refl _, id, id, id, id, hf _, hr _⟩
    (by constructor <;> intro b <;> first | rfl | exact absurd b (by decide))

theorem keeps_updTop {a m : Nat} (hm : sub a m) {s t : State} {f : Top → Top} (hs : ∀ x, SameTop a x (f x)) (h : Keeps m s t) :
    Keeps m s (updTop f t) :=
  h.step hm (Core.Keeps.refl _) { regs _ := rfl, held _ := rfl, drawn _ := rfl, out _ := rfl, fuse _ := rfl, dev := (hs _).dev, req := (hs _).req, lastCause := (hs _).lastCause, result := (hs _).result, quiesce := (hs _).quiesce, pwr := (hs _).pwr, drain := (hs _).drain, skim := (hs _).skim, served := (hs _).served, life := (hs _).life, cru _ := rfl, tu _ := rfl, pad _ := rfl, settings _ := rfl, fws _ := rfl, evc _ := rfl, conns _ := rfl, ports _ := rfl, lanes _ := rfl, counters _ := rfl, hfe _ := rfl, tasks _ := rfl, ctls _ := rfl, tenants _ := rfl, qe _ := rfl, paths _ := rfl, admitted _ := rfl, act _ := rfl, mgc _ := rfl, nss _ := rfl, zones _ := rfl, stripes _ := rfl, blocks _ := rfl, slices _ := rfl, san _ := rfl, tabs _ := rfl, dur _ := rfl, units _ := rfl, links _ := rfl, dies _ := rfl, flc _ := rfl, clc _ := rfl, ages _ := rfl, rcu _ := rfl, wpe _ := rfl, mme _ := rfl, buffer _ := rfl, commits _ := rfl, pairs _ := rfl, jnl _ := rfl, ite _ := rfl, bpm _ := rfl, dmc _ := rfl }

theorem keeps_updCru {m : Nat} (hm : sub 0x8000 m) {s t : State} {f : Cru → Cru} (h : Keeps m s t) : Keeps m s (updCru f t) :=
  h.step hm (Core.Keeps.refl _) (by constructor <;> intro b <;> first | exact absurd b (by decide) | rfl)

theorem keeps_updTu {m : Nat} (hm : sub 0x10000 m) {s t : State} {f : Tu → Tu} (h : Keeps m s t) : Keeps m s (updTu f t) :=
  h.step hm (Core.Keeps.refl _) (by constructor <;> intro b <;> first | exact absurd b (by decide) | rfl)

theorem keeps_updPad {m : Nat} (hm : sub 0x20000 m) {s t : State} {f : Pad → Pad} (h : Keeps m s t) : Keeps m s (updPad f t) :=
  h.step hm (Core.Keeps.refl _) (by constructor <;> intro b <;> first | exact absurd b (by decide) | rfl)

theorem keeps_updHfe {a m : Nat} (hm : sub a m) {s t : State} {f : Hfe → Hfe} (hs : ∀ x, SameHfe a x (f x)) (h : Keeps m s t) :
    Keeps m s (updHfe f t) :=
  h.step hm (Core.Keeps.refl _) { regs _ := rfl, held _ := rfl, drawn _ := rfl, out _ := rfl, fuse _ := rfl, dev _ := rfl, req _ := rfl, lastCause _ := rfl, result _ := rfl, quiesce _ := rfl, pwr _ := rfl, drain _ := rfl, skim _ := rfl, served _ := rfl, life _ := rfl, cru _ := rfl, tu _ := rfl, pad _ := rfl, settings _ := rfl, fws _ := rfl, evc _ := rfl, conns := (hs _).conns, ports := (hs _).ports, lanes := (hs _).lanes, counters := (hs _).counters, hfe := (hs _).hfe, tasks _ := rfl, ctls _ := rfl, tenants _ := rfl, qe _ := rfl, paths _ := rfl, admitted _ := rfl, act _ := rfl, mgc _ := rfl, nss _ := rfl, zones _ := rfl, stripes _ := rfl, blocks _ := rfl, slices _ := rfl, san _ := rfl, tabs _ := rfl, dur _ := rfl, units _ := rfl, links _ := rfl, dies _ := rfl, flc _ := rfl, clc _ := rfl, ages _ := rfl, rcu _ := rfl, wpe _ := rfl, mme _ := rfl, buffer _ := rfl, commits _ := rfl, pairs _ := rfl, jnl _ := rfl, ite _ := rfl, bpm _ := rfl, dmc _ := rfl }

theorem keeps_updQe {a m : Nat} (hm : sub a m) {s t : State} {f : Qe → Qe} (hs : ∀ x, SameQe a x (f x)) (h : Keeps m s t) :
    Keeps m s (updQe f t) :=
  h.step hm (Core.Keeps.refl _) { regs _ := rfl, held _ := rfl, drawn _ := rfl, out _ := rfl, fuse _ := rfl, dev _ := rfl, req _ := rfl, lastCause _ := rfl, result _ := rfl, quiesce _ := rfl, pwr _ := rfl, drain _ := rfl, skim _ := rfl, served _ := rfl, life _ := rfl, cru _ := rfl, tu _ := rfl, pad _ := rfl, settings _ := rfl, fws _ := rfl, evc _ := rfl, conns _ := rfl, ports _ := rfl, lanes _ := rfl, counters _ := rfl, hfe _ := rfl, tasks := (hs _).tasks, ctls := (hs _).ctls, tenants := (hs _).tenants, qe := (hs _).qe, paths _ := rfl, admitted _ := rfl, act _ := rfl, mgc _ := rfl, nss _ := rfl, zones _ := rfl, stripes _ := rfl, blocks _ := rfl, slices _ := rfl, san _ := rfl, tabs _ := rfl, dur _ := rfl, units _ := rfl, links _ := rfl, dies _ := rfl, flc _ := rfl, clc _ := rfl, ages _ := rfl, rcu _ := rfl, wpe _ := rfl, mme _ := rfl, buffer _ := rfl, commits _ := rfl, pairs _ := rfl, jnl _ := rfl, ite _ := rfl, bpm _ := rfl, dmc _ := rfl }

theorem keeps_updTabs {a m : Nat} (hm : sub a m) {s t : State} {f : Tables → Tables} (hs : ∀ x, SameTables a x (f x)) (h : Keeps m s t) :
    Keeps m s (updTabs f t) :=
  h.step hm (Core.Keeps.refl _) { regs _ := rfl, held _ := rfl, drawn _ := rfl, out _ := rfl, fuse _ := rfl, dev _ := rfl, req _ := rfl, lastCause _ := rfl, result _ := rfl, quiesce _ := rfl, pwr _ := rfl, drain _ := rfl, skim _ := rfl, served _ := rfl, life _ := rfl, cru _ := rfl, tu _ := rfl, pad _ := rfl, settings _ := rfl, fws _ := rfl, evc _ := rfl, conns _ := rfl, ports _ := rfl, lanes _ := rfl, counters _ := rfl, hfe _ := rfl, tasks _ := rfl, ctls _ := rfl, tenants _ := rfl, qe _ := rfl, paths _ := rfl, admitted _ := rfl, act _ := rfl, mgc _ := rfl, nss := (hs _).nss, zones := (hs _).zones, stripes := (hs _).stripes, blocks := (hs _).blocks, slices := (hs _).slices, san := (hs _).san, tabs := (hs _).tabs, dur _ := rfl, units _ := rfl, links _ := rfl, dies _ := rfl, flc _ := rfl, clc _ := rfl, ages _ := rfl, rcu _ := rfl, wpe _ := rfl, mme _ := rfl, buffer _ := rfl, commits _ := rfl, pairs _ := rfl, jnl _ := rfl, ite _ := rfl, bpm _ := rfl, dmc _ := rfl }

theorem keeps_updFlc {a m : Nat} (hm : sub a m) {s t : State} {f : Flc → Flc} (hs : ∀ x, SameFlc a x (f x)) (h : Keeps m s t) :
    Keeps m s (updFlc f t) :=
  h.step hm (Core.Keeps.refl _) { regs _ := rfl, held _ := rfl, drawn _ := rfl, out _ := rfl, fuse _ := rfl, dev _ := rfl, req _ := rfl, lastCause _ := rfl, result _ := rfl, quiesce _ := rfl, pwr _ := rfl, drain _ := rfl, skim _ := rfl, served _ := rfl, life _ := rfl, cru _ := rfl, tu _ := rfl, pad _ := rfl, settings _ := rfl, fws _ := rfl, evc _ := rfl, conns _ := rfl, ports _ := rfl, lanes _ := rfl, counters _ := rfl, hfe _ := rfl, tasks _ := rfl, ctls _ := rfl, tenants _ := rfl, qe _ := rfl, paths _ := rfl, admitted _ := rfl, act _ := rfl, mgc _ := rfl, nss _ := rfl, zones _ := rfl, stripes _ := rfl, blocks _ := rfl, slices _ := rfl, san _ := rfl, tabs _ := rfl, dur _ := rfl, units _ := rfl, links := (hs _).links, dies := (hs _).dies, flc := (hs _).flc, clc _ := rfl, ages _ := rfl, rcu _ := rfl, wpe _ := rfl, mme _ := rfl, buffer _ := rfl, commits _ := rfl, pairs _ := rfl, jnl _ := rfl, ite _ := rfl, bpm _ := rfl, dmc _ := rfl }

theorem keeps_updClc {m : Nat} (hm : sub 0x400000000000 m) {s t : State} {f : Clc → Clc} (h : Keeps m s t) : Keeps m s (updClc f t) :=
  h.step hm (Core.Keeps.refl _) (by constructor <;> intro b <;> first | exact absurd b (by decide) | rfl)

theorem keeps_updRcu {a m : Nat} (hm : sub a m) {s t : State} {f : Rcu → Rcu} (hs : ∀ x, SameRcu a x (f x)) (h : Keeps m s t) :
    Keeps m s (updRcu f t) :=
  h.step hm (Core.Keeps.refl _) { regs _ := rfl, held _ := rfl, drawn _ := rfl, out _ := rfl, fuse _ := rfl, dev _ := rfl, req _ := rfl, lastCause _ := rfl, result _ := rfl, quiesce _ := rfl, pwr _ := rfl, drain _ := rfl, skim _ := rfl, served _ := rfl, life _ := rfl, cru _ := rfl, tu _ := rfl, pad _ := rfl, settings _ := rfl, fws _ := rfl, evc _ := rfl, conns _ := rfl, ports _ := rfl, lanes _ := rfl, counters _ := rfl, hfe _ := rfl, tasks _ := rfl, ctls _ := rfl, tenants _ := rfl, qe _ := rfl, paths _ := rfl, admitted _ := rfl, act _ := rfl, mgc _ := rfl, nss _ := rfl, zones _ := rfl, stripes _ := rfl, blocks _ := rfl, slices _ := rfl, san _ := rfl, tabs _ := rfl, dur _ := rfl, units _ := rfl, links _ := rfl, dies _ := rfl, flc _ := rfl, clc _ := rfl, ages := (hs _).ages, rcu := (hs _).rcu, wpe _ := rfl, mme _ := rfl, buffer _ := rfl, commits _ := rfl, pairs _ := rfl, jnl _ := rfl, ite _ := rfl, bpm _ := rfl, dmc _ := rfl }

theorem keeps_updWpe {m : Nat} (hm : sub 0x2000000000000 m) {s t : State} {f : Wpe → Wpe} (h : Keeps m s t) : Keeps m s (updWpe f t) :=
  h.step hm (Core.Keeps.refl _) (by constructor <;> intro b <;> first | exact absurd b (by decide) | rfl)

theorem keeps_updMme {m : Nat} (hm : sub 0x4000000000000 m) {s t : State} {f : Mme → Mme} (h : Keeps m s t) : Keeps m s (updMme f t) :=
  h.step hm (Core.Keeps.refl _) (by constructor <;> intro b <;> first | exact absurd b (by decide) | rfl)

theorem keeps_updJnl {a m : Nat} (hm : sub a m) {s t : State} {f : Jnl → Jnl} (hs : ∀ x, SameJnl a x (f x)) (h : Keeps m s t) :
    Keeps m s (updJnl f t) :=
  h.step hm (Core.Keeps.refl _) { regs _ := rfl, held _ := rfl, drawn _ := rfl, out _ := rfl, fuse _ := rfl, dev _ := rfl, req _ := rfl, lastCause _ := rfl, result _ := rfl, quiesce _ := rfl, pwr _ := rfl, drain _ := rfl, skim _ := rfl, served _ := rfl, life _ := rfl, cru _ := rfl, tu _ := rfl, pad _ := rfl, settings _ := rfl, fws _ := rfl, evc _ := rfl, conns _ := rfl, ports _ := rfl, lanes _ := rfl, counters _ := rfl, hfe _ := rfl, tasks _ := rfl, ctls _ := rfl, tenants _ := rfl, qe _ := rfl, paths _ := rfl, admitted _ := rfl, act _ := rfl, mgc _ := rfl, nss _ := rfl, zones _ := rfl, stripes _ := rfl, blocks _ := rfl, slices _ := rfl, san _ := rfl, tabs _ := rfl, dur _ := rfl, units _ := rfl, links _ := rfl, dies _ := rfl, flc _ := rfl, clc _ := rfl, ages _ := rfl, rcu _ := rfl, wpe _ := rfl, mme _ := rfl, buffer := (hs _).buffer, commits := (hs _).commits, pairs := (hs _).pairs, jnl := (hs _).jnl, ite _ := rfl, bpm _ := rfl, dmc _ := rfl }

theorem keeps_updIte {m : Nat} (hm : sub 0x80000000000000 m) {s t : State} {f : Ite → Ite} (h : Keeps m s t) : Keeps m s (updIte f t) :=
  h.step hm (Core.Keeps.refl _) (by constructor <;> intro b <;> first | exact absurd b (by decide) | rfl)

theorem keeps_updBpm {m : Nat} (hm : sub 0x100000000000000 m) {s t : State} {f : Bpm → Bpm} (h : Keeps m s t) : Keeps m s (updBpm f t) :=
  h.step hm (Core.Keeps.refl _) (by constructor <;> intro b <;> first | exact absurd b (by decide) | rfl)

theorem keeps_updDmc {m : Nat} (hm : sub 0x200000000000000 m) {s t : State} {f : Dmc → Dmc} (h : Keeps m s t) : Keeps m s (updDmc f t) :=
  h.step hm (Core.Keeps.refl _) (by constructor <;> intro b <;> first | exact absurd b (by decide) | rfl)

end Sys2Proof.Machine
end

