-- ==== Sys2Proof/Laws/KeepsOpsA.lean ====
section
/-! SUPPORT. Each operation keeps the rules of `Keeps`, one lemma per operation, callees first (part 1). -/

namespace Sys2Proof.Machine

theorem keeps_updLink {m : Nat} (hm : sub 0x80000000000 m) {s t : State} {a0 a1 : _} (h : Keeps m s t) : Keeps m s (updLink a0 a1 t) := by
  unfold updLink
  try dsimp only
  repeat' (first
    | with_reducible assumption
    | exact sub_trans (by decide) hm
    | with_reducible apply keeps_updFlc (a := 0x80000000000)
    | ((with_reducible apply SameFlc.mk) <;> intro b <;> first | exact absurd b (by decide) | rfl)
    | with_reducible apply Keeps.foldl
    | with_reducible apply Keeps.foldr
    | split
    | (intro; try dsimp only))

theorem keeps_ptpPop {m : Nat} (hm : sub 0x2000000 m) {s t u : State} {x0 : _} (h : Keeps m s t) (e : (ptpPop t) = (x0, u)) : Keeps m s u := by
  unfold ptpPop at e
  try dsimp only at e
  repeat' (first | contradiction | (cases e) | (split at e))
  repeat' (first
    | with_reducible assumption
    | exact sub_trans (by decide) hm
    | with_reducible apply keeps_updHfe (a := 0x2000000)
    | ((with_reducible apply SameHfe.mk) <;> intro b <;> first | exact absurd b (by decide) | rfl)
    | with_reducible apply Keeps.foldl
    | with_reducible apply Keeps.foldr
    | split
    | (intro; try dsimp only))
theorem keeps_ptpPop' {m : Nat} (hm : sub 0x2000000 m) {s t : State} (h : Keeps m s t) : Keeps m s (ptpPop t).2 := keeps_ptpPop hm (x0 := (ptpPop t).1) h rfl

theorem keeps_execPtpTsRead {m : Nat} (hm : sub 0x2000008 m) {s t : State} (h : Keeps m s t) : KeepsOut m s (execPtpTsRead t) := by
  unfold execPtpTsRead
  try dsimp only
  repeat' (first
    | with_reducible assumption
    | exact sub_trans (by decide) hm
    | with_reducible apply Keeps.next
    | refine keeps_ptpPop ?_ ?_ (by with_reducible assumption)
    | with_reducible apply keeps_ptpPop'
    | with_reducible apply keeps_emit)

theorem keeps_creadWord {m : Nat} (hm : sub 0x4 m) {s t u : State} {a0 : _} {x0 : _} (h : Keeps m s t) (e : (creadWord a0 t) = (x0, u)) : Keeps m s u := by
  unfold creadWord at e
  try dsimp only at e
  repeat' (first | contradiction | (cases e) | (split at e))
  repeat' (first
    | with_reducible assumption
    | exact sub_trans (by decide) hm
    | refine keeps_drawFree ?_ ?_ (by with_reducible assumption)
    | with_reducible apply keeps_drawFree')
theorem keeps_creadWord' {m : Nat} (hm : sub 0x4 m) {s t : State} {a0 : _} (h : Keeps m s t) : Keeps m s (creadWord a0 t).2 := keeps_creadWord hm (x0 := (creadWord a0 t).1) h rfl

theorem keeps_startTraining {m : Nat} (hm : sub 0x80000000000 m) {s t : State} {a0 : _} (h : Keeps m s t) : Keeps m s (startTraining a0 t) := by
  unfold startTraining
  try dsimp only
  repeat' (first | with_reducible assumption | exact sub_trans (by decide) hm | with_reducible apply keeps_updLink)

theorem keeps_setGroup {m : Nat} (hm : sub 0x200000000000 m) {s t : State} {a0 a1 : _} (h : Keeps m s t) : Keeps m s (setGroup a0 a1 t) := by
  unfold setGroup
  try dsimp only
  repeat' (first
    | with_reducible assumption
    | exact sub_trans (by decide) hm
    | with_reducible apply keeps_updFlc (a := 0x200000000000)
    | ((with_reducible apply SameFlc.mk) <;> intro b <;> first | exact absurd b (by decide) | rfl)
    | with_reducible apply Keeps.foldl
    | with_reducible apply Keeps.foldr
    | split
    | (intro; try dsimp only))

theorem keeps_wakeGroup {m : Nat} (hm : sub 0x280000000000 m) {s t : State} {a0 : _} (h : Keeps m s t) : Keeps m s (wakeGroup a0 t) := by
  unfold wakeGroup
  try dsimp only
  repeat' (first
    | with_reducible assumption
    | exact sub_trans (by decide) hm
    | with_reducible apply keeps_startTraining
    | with_reducible apply keeps_setGroup
    | with_reducible apply Keeps.foldl
    | with_reducible apply Keeps.foldr
    | split
    | (intro; try dsimp only))

theorem keeps_updDie {m : Nat} (hm : sub 0x100000000000 m) {s t : State} {a0 a1 : _} (h : Keeps m s t) : Keeps m s (updDie a0 a1 t) := by
  unfold updDie
  try dsimp only
  repeat' (first
    | with_reducible assumption
    | exact sub_trans (by decide) hm
    | with_reducible apply keeps_updFlc (a := 0x100000000000)
    | ((with_reducible apply SameFlc.mk) <;> intro b <;> first | exact absurd b (by decide) | rfl)
    | with_reducible apply Keeps.foldl
    | with_reducible apply Keeps.foldr
    | split
    | (intro; try dsimp only))

theorem keeps_groupArrival {m : Nat} (hm : sub 0x200000000000 m) {s t : State} {a0 : _} (h : Keeps m s t) : Keeps m s (groupArrival a0 t) := by
  unfold groupArrival
  try dsimp only
  repeat' (first
    | with_reducible assumption
    | exact sub_trans (by decide) hm
    | with_reducible apply keeps_setGroup
    | with_reducible apply Keeps.foldl
    | with_reducible apply Keeps.foldr
    | split)

theorem keeps_sendTower {m : Nat} (hm : sub 0x80000000008 m) {s t : State} {a0 a1 a2 : _} (h : Keeps m s t) : Keeps m s (sendTower a0 a1 a2 t) := by
  unfold sendTower
  try dsimp only
  repeat' (first
    | with_reducible assumption
    | exact sub_trans (by decide) hm
    | with_reducible apply keeps_emit
    | with_reducible apply keeps_updLink)

theorem keeps_sendSuspend {m : Nat} (hm : sub 0x180000000008 m) {s t : State} {a0 : _} (h : Keeps m s t) : Keeps m s (sendSuspend a0 t) := by
  unfold sendSuspend
  try dsimp only
  repeat' (first
    | with_reducible assumption
    | exact sub_trans (by decide) hm
    | with_reducible apply keeps_sendTower
    | with_reducible apply keeps_updDie)

theorem keeps_trySuspend {m : Nat} (hm : sub 0x180000000008 m) {s t : State} {a0 : _} (h : Keeps m s t) : Keeps m s (trySuspend a0 t) := by
  unfold trySuspend
  try dsimp only
  repeat' (first
    | with_reducible assumption
    | exact sub_trans (by decide) hm
    | with_reducible apply keeps_sendSuspend
    | with_reducible apply Keeps.foldl
    | with_reducible apply Keeps.foldr
    | split)

theorem keeps_enqueue {m : Nat} (hm : sub 0x380000000008 m) {s t : State} {a0 a1 : _} (h : Keeps m s t) : Keeps m s (enqueue a0 a1 t) := by
  unfold enqueue
  try dsimp only
  repeat' (first
    | with_reducible assumption
    | exact sub_trans (by decide) hm
    | with_reducible apply keeps_updFlc (a := 0x380000000008)
    | ((with_reducible apply SameFlc.mk) <;> intro b <;> first | exact absurd b (by decide) | rfl)
    | with_reducible apply keeps_updDie
    | with_reducible apply keeps_groupArrival
    | with_reducible apply keeps_trySuspend
    | with_reducible apply Keeps.foldl
    | with_reducible apply Keeps.foldr
    | split
    | (intro; try dsimp only))

theorem keeps_addCw {m : Nat} (hm : sub 0x400000000000 m) {s t u : State} {a0 : _} {x0 : _} (h : Keeps m s t) (e : (addCw a0 t) = (x0, u)) : Keeps m s u := by
  unfold addCw at e
  try dsimp only at e
  repeat' (first | contradiction | (cases e) | (split at e))
  repeat' (first | with_reducible assumption | exact sub_trans (by decide) hm | with_reducible apply keeps_updClc)
theorem keeps_addCw' {m : Nat} (hm : sub 0x400000000000 m) {s t : State} {a0 : _} (h : Keeps m s t) : Keeps m s (addCw a0 t).2 := keeps_addCw hm (x0 := (addCw a0 t).1) h rfl

theorem keeps_addScanCws' {m : Nat} (hm : sub 0x400000000000 m) {s t : State} {a0 : _} (h : Keeps m s t) : Keeps m s (addScanCws a0 t).2 := by
  unfold addScanCws
  exact Keeps.foldl_snd (fun a q hq => keeps_addCw' (sub_trans (by decide) hm) hq) h
theorem keeps_addScanCws {m : Nat} (hm : sub 0x400000000000 m) {s t u : State} {a0 x0 : _} (h : Keeps m s t) (e : addScanCws a0 t = (x0, u)) : Keeps m s u := by
  have := keeps_addScanCws' (sub_trans (by decide) hm) (a0 := a0) h
  rwa [e] at this

theorem keeps_execScanProbe {m : Nat} (hm : sub 0x4780000000008 m) {s t : State} (h : Keeps m s t) : KeepsOut m s (execScanProbe t) := by
  unfold execScanProbe
  try dsimp only
  repeat' (first
    | with_reducible assumption
    | exact sub_trans (by decide) hm
    | with_reducible apply Keeps.next
    | with_reducible apply keeps_updMme
    | with_reducible apply keeps_wakeGroup
    | with_reducible apply keeps_enqueue
    | refine keeps_addScanCws ?_ ?_ (by with_reducible assumption)
    | with_reducible apply keeps_addScanCws'
    | with_reducible apply Keeps.foldl
    | with_reducible apply Keeps.foldr
    | split)

theorem keeps_portCount {m : Nat} (hm : sub 0x1000000 m) {s t : State} {a0 a1 a2 : _} (h : Keeps m s t) : Keeps m s (portCount a0 a1 a2 t) := by
  unfold portCount
  try dsimp only
  repeat' (first
    | with_reducible assumption
    | exact sub_trans (by decide) hm
    | with_reducible apply Keeps.foldl
    | with_reducible apply Keeps.foldr
    | split
    | (with_reducible apply filter_wf)
    | ((with_reducible apply Same.mk) <;> intro b <;> first | exact absurd b (by decide) | rfl)
    | with_reducible refine Keeps.mk' (a := 0x1000000) ?_ ?_ (Eq.refl _) ?_)

theorem keeps_transmit {m : Nat} (hm : sub 0x1600000 m) {s t : State} {a0 : _} (h : Keeps m s t) : Keeps m s (transmit a0 t) := by
  unfold transmit
  try dsimp only
  repeat' (first
    | with_reducible assumption
    | exact sub_trans (by decide) hm
    | with_reducible apply keeps_portCount
    | with_reducible apply Keeps.foldl
    | with_reducible apply Keeps.foldr
    | split
    | (with_reducible apply filter_wf)
    | ((with_reducible apply Same.mk) <;> intro b <;> first | exact absurd b (by decide) | rfl)
    | with_reducible refine Keeps.mk' (a := 0x1600000) ?_ ?_ (Eq.refl _) ?_)

theorem keeps_freeSlot {m : Nat} (hm : sub 0x84000000 m) {s t : State} {a0 : _} (h : Keeps m s t) : Keeps m s (freeSlot a0 t) := by
  unfold freeSlot
  try dsimp only
  repeat' (first
    | with_reducible assumption
    | exact sub_trans (by decide) hm
    | with_reducible apply Keeps.foldl
    | with_reducible apply Keeps.foldr
    | split
    | (with_reducible apply filter_wf)
    | ((with_reducible apply Same.mk) <;> intro b <;> first | exact absurd b (by decide) | rfl)
    | with_reducible refine Keeps.mk' (a := 0x84000000) ?_ ?_ (Eq.refl _) ?_)

theorem keeps_finishCrd {m : Nat} (hm : sub 0x85600008 m) {s t : State} {a0 a1 a2 a3 a4 a5 a6 : _} (h : Keeps m s t) : Keeps m s (finishCrd a0 a1 a2 a3 a4 a5 a6 t) := by
  unfold finishCrd
  try dsimp only
  repeat' (first
    | with_reducible assumption
    | exact sub_trans (by decide) hm
    | with_reducible apply keeps_emit
    | with_reducible apply keeps_transmit
    | with_reducible apply keeps_freeSlot
    | with_reducible apply Keeps.foldl
    | with_reducible apply Keeps.foldr
    | split)

theorem keeps_finish {m : Nat} (hm : sub 0x85600008 m) {s t : State} {a0 a1 a2 a3 a4 a5 : _} (h : Keeps m s t) : Keeps m s (finish a0 a1 a2 a3 a4 a5 t) := by
  unfold finish
  try dsimp only
  repeat' (first | with_reducible assumption | exact sub_trans (by decide) hm | with_reducible apply keeps_finishCrd)

theorem keeps_failIo {m : Nat} (hm : sub 0x85600008 m) {s t : State} {a0 a1 : _} (h : Keeps m s t) : Keeps m s (failIo a0 a1 t) := by
  unfold failIo
  try dsimp only
  repeat' (first | with_reducible assumption | exact sub_trans (by decide) hm | with_reducible apply keeps_finish)

theorem keeps_finishOk {m : Nat} (hm : sub 0x85600008 m) {s t : State} {a0 : _} (h : Keeps m s t) : Keeps m s (finishOk a0 t) := by
  unfold finishOk
  try dsimp only
  repeat' (first | with_reducible assumption | exact sub_trans (by decide) hm | with_reducible apply keeps_finish)

theorem keeps_execReportZones {m : Nat} (hm : sub 0x85600008 m) {s t : State} {a0 : _} (h : Keeps m s t) : KeepsOut m s (execReportZones a0 t) := by
  unfold execReportZones
  try dsimp only
  repeat' (first
    | with_reducible assumption
    | exact sub_trans (by decide) hm
    | with_reducible apply Keeps.next
    | with_reducible apply keeps_failIo
    | with_reducible apply keeps_finishOk
    | with_reducible apply keeps_emit
    | with_reducible apply Keeps.foldl
    | with_reducible apply Keeps.foldr
    | split)

theorem keeps_sirDeliver {m : Nat} (hm : sub 0xc5600008 m) {s t : State} {a0 a1 a2 : _} (h : Keeps m s t) : Keeps m s (sirDeliver a0 a1 a2 t) := by
  unfold sirDeliver
  try dsimp only
  repeat' (first
    | with_reducible assumption
    | exact sub_trans (by decide) hm
    | with_reducible apply keeps_updMgc (a := 0xc5600008)
    | ((with_reducible apply SameMgc.mk) <;> intro b <;> first | exact absurd b (by decide) | rfl)
    | with_reducible apply keeps_finish
    | with_reducible apply Keeps.foldl
    | with_reducible apply Keeps.foldr
    | split
    | (intro; try dsimp only))

theorem keeps_sirAnswer {m : Nat} (hm : sub 0xc5600008 m) {s t : State} {a0 a1 a2 a3 : _} (h : Keeps m s t) : Keeps m s (sirAnswer a0 a1 a2 a3 t) := by
  unfold sirAnswer
  try dsimp only
  repeat' (first
    | with_reducible assumption
    | exact sub_trans (by decide) hm
    | with_reducible apply keeps_sirDeliver
    | with_reducible apply Keeps.foldl
    | with_reducible apply Keeps.foldr
    | split)

theorem keeps_sirRun {m : Nat} (hm : sub 0xc5600008 m) {s t : State} {a0 a1 : _} {a2 : Packet → State → State} (h : Keeps m s t) (h2 : ∀ q u, Keeps m s u → Keeps m s (a2 q u)) :
    Keeps m s (sirRun a0 a1 a2 t) := by
  unfold sirRun
  split
  · exact h
  · split
    · exact h
    · split
      · exact keeps_sirAnswer (sub_trans (by decide) hm) h
      · exact h2 _ _ h

theorem keeps_sirRecord {m : Nat} (hm : sub 0xc5600008 m) {s t : State} {a0 a1 a2 : _} (h : Keeps m s t) (h2 : ∀ b0 u, Keeps m s u → Keeps m s (a2 b0 u)) : Keeps m s (sirRecord a0 a1 a2 t) := by
  unfold sirRecord
  try dsimp only
  repeat' (first
    | with_reducible assumption
    | exact sub_trans (by decide) hm
    | with_reducible apply keeps_sirRun
    | with_reducible apply Keeps.foldl
    | with_reducible apply Keeps.foldr
    | split)

theorem keeps_finishErr {m : Nat} (hm : sub 0x85600008 m) {s t : State} {a0 a1 a2 : _} (h : Keeps m s t) : Keeps m s (finishErr a0 a1 a2 t) := by
  unfold finishErr
  try dsimp only
  repeat' (first | with_reducible assumption | exact sub_trans (by decide) hm | with_reducible apply keeps_finish)

theorem keeps_execInvalidAdminOpcode {m : Nat} (hm : sub 0x85600008 m) {s t : State} {a0 : _} (h : Keeps m s t) : KeepsOut m s (execInvalidAdminOpcode a0 t) := by
  unfold execInvalidAdminOpcode
  try dsimp only
  repeat' (first
    | with_reducible assumption
    | exact sub_trans (by decide) hm
    | with_reducible apply Keeps.next
    | with_reducible apply keeps_finishErr
    | with_reducible apply Keeps.foldl
    | with_reducible apply Keeps.foldr
    | split)

theorem keeps_setF {m : Nat} (hm : sub 0x1 m) {s t : State} {a0 a1 : _} (h : Keeps m s t) : Keeps m s (setF a0 a1 t) := by
  unfold setF
  try dsimp only
  repeat' (first | with_reducible assumption | exact sub_trans (by decide) hm | with_reducible apply keeps_setReg)

theorem keeps_bumpF {m : Nat} (hm : sub 0x1 m) {s t : State} {a0 a1 : _} (h : Keeps m s t) : Keeps m s (bumpF a0 a1 t) := by
  unfold bumpF
  try dsimp only
  repeat' (first | with_reducible assumption | exact sub_trans (by decide) hm | with_reducible apply keeps_setF)

theorem keeps_updSrc {m : Nat} (hm : sub 0x100000 m) {s t : State} {a0 a1 : _} (h : Keeps m s t) : Keeps m s (updSrc a0 a1 t) := by
  unfold updSrc
  try dsimp only
  repeat' (first
    | with_reducible assumption
    | exact sub_trans (by decide) hm
    | with_reducible apply Keeps.foldl
    | with_reducible apply Keeps.foldr
    | split
    | (with_reducible apply filter_wf)
    | ((with_reducible apply Same.mk) <;> intro b <;> first | exact absurd b (by decide) | rfl)
    | with_reducible refine Keeps.mk' (a := 0x100000) ?_ ?_ (Eq.refl _) ?_)

theorem keeps_latchSource {m : Nat} (hm : sub 0x100009 m) {s t : State} {a0 : _} (h : Keeps m s t) : Keeps m s (latchSource a0 t) := by
  unfold latchSource
  try dsimp only
  repeat' (first
    | with_reducible assumption
    | exact sub_trans (by decide) hm
    | with_reducible apply keeps_setF
    | with_reducible apply keeps_updSrc
    | with_reducible apply keeps_emit
    | with_reducible apply Keeps.foldl
    | with_reducible apply Keeps.foldr
    | split)

theorem keeps_suppress {m : Nat} (hm : sub 0x100000 m) {s t : State} {a0 a1 a2 : _} (h : Keeps m s t) : Keeps m s (suppress a0 a1 a2 t) := by
  unfold suppress
  try dsimp only
  repeat' (first | with_reducible assumption | exact sub_trans (by decide) hm | with_reducible apply keeps_updSrc)

theorem keeps_setTokens {m : Nat} (hm : sub 0x100000 m) {s t : State} {a0 a1 : _} (h : Keeps m s t) : Keeps m s (setTokens a0 a1 t) := by
  unfold setTokens
  try dsimp only
  repeat' (first | with_reducible assumption | exact sub_trans (by decide) hm | with_reducible apply keeps_updSrc)

theorem keeps_rateLimit {m : Nat} (hm : sub 0x100009 m) {s t : State} {a0 a1 a2 : _} {a3 : _} (h : Keeps m s t) : Keeps m s (rateLimit a0 a1 a2 a3 t) := by
  unfold rateLimit
  dsimp only
  split
  · split
    · rename_i hl; exact keeps_fifoPush (sub_trans (by decide) hm) hl h
    · split
      · exact keeps_latchSource (sub_trans (by decide) hm) (Keeps.mk' (a := 0x100009) hm (keeps_bumpF (sub_trans (by decide) hm) h) rfl (by apply Same.mk <;> intro b <;> first | exact absurd b (by decide) | rfl))
      · exact Keeps.mk' (a := 0x100009) hm (keeps_bumpF (sub_trans (by decide) hm) h) rfl (by apply Same.mk <;> intro b <;> first | exact absurd b (by decide) | rfl)
  · split
    · exact keeps_suppress (sub_trans (by decide) hm) h
    · split
      · rename_i hl
        exact keeps_fifoPush (sub_trans (by decide) hm) (show t.evc.fifo.length < 64 by omega) (keeps_setTokens (sub_trans (by decide) hm) h)
      · exact keeps_suppress (sub_trans (by decide) hm) h

theorem keeps_fireSev {m : Nat} (hm : sub 0x100009 m) {s t : State} {a0 a1 a2 a3 : _} (h : Keeps m s t) : Keeps m s (fireSev a0 a1 a2 a3 t) := by
  unfold fireSev
  try dsimp only
  repeat' (first
    | with_reducible assumption
    | exact sub_trans (by decide) hm
    | with_reducible apply keeps_latchSource
    | with_reducible apply keeps_rateLimit
    | with_reducible apply Keeps.foldl
    | with_reducible apply Keeps.foldr
    | split)

theorem keeps_fire {m : Nat} (hm : sub 0x10000d m) {s t : State} {a0 a1 : _} (h : Keeps m s t) : Keeps m s (fire a0 a1 t) := by
  unfold fire
  try dsimp only
  repeat' (first
    | with_reducible assumption
    | exact sub_trans (by decide) hm
    | refine keeps_drawFree ?_ ?_ (by with_reducible assumption)
    | with_reducible apply keeps_drawFree'
    | with_reducible apply keeps_fireSev
    | with_reducible apply Keeps.foldl
    | with_reducible apply Keeps.foldr
    | split)

theorem keeps_requestSwitch {m : Nat} (hm : sub 0x10800d m) {s t : State} {a0 a1 : _} (h : Keeps m s t) : Keeps m s (requestSwitch a0 a1 t) := by
  unfold requestSwitch
  try dsimp only
  repeat' (first
    | with_reducible assumption
    | exact sub_trans (by decide) hm
    | with_reducible apply keeps_updCru
    | with_reducible apply keeps_bumpF
    | with_reducible apply keeps_fire
    | with_reducible apply Keeps.foldl
    | with_reducible apply Keeps.foldr
    | split)

theorem keeps_updSector {m : Nat} (hm : sub 0x80000 m) {s t : State} {a0 a1 : _} (h : Keeps m s t) : Keeps m s (updSector a0 a1 t) := by
  unfold updSector
  try dsimp only
  repeat' (first
    | with_reducible assumption
    | exact sub_trans (by decide) hm
    | with_reducible apply keeps_updFws (a := 0x80000)
    | ((with_reducible apply SameFws.mk) <;> intro b <;> first | exact absurd b (by decide) | rfl)
    | with_reducible apply Keeps.foldl
    | with_reducible apply Keeps.foldr
    | split
    | (intro; try dsimp only))

theorem keeps_headSector {m : Nat} (hm : sub 0x80000 m) {s t : State} {a0 a1 a2 a3 : _} (h : Keeps m s t) : Keeps m s (headSector a0 a1 a2 a3 t) := by
  unfold headSector
  try dsimp only
  repeat' (first | with_reducible assumption | exact sub_trans (by decide) hm | with_reducible apply keeps_updSector)

theorem keeps_wipeSector {m : Nat} (hm : sub 0x80000 m) {s t : State} {a0 : _} (h : Keeps m s t) : Keeps m s (wipeSector a0 t) := by
  unfold wipeSector
  try dsimp only
  repeat' (first
    | with_reducible assumption
    | exact sub_trans (by decide) hm
    | with_reducible apply keeps_updSector
    | with_reducible apply keeps_updFws (a := 0x80000)
    | ((with_reducible apply SameFws.mk) <;> intro b <;> first | exact absurd b (by decide) | rfl)
    | with_reducible apply Keeps.foldl
    | with_reducible apply Keeps.foldr
    | split
    | (intro; try dsimp only))

theorem keeps_dropLines {m : Nat} (hm : sub 0x80000 m) {s t : State} {a0 : _} (h : Keeps m s t) : Keeps m s (dropLines a0 t) := by
  unfold dropLines
  try dsimp only
  repeat' (first
    | with_reducible assumption
    | exact sub_trans (by decide) hm
    | with_reducible apply keeps_updFws (a := 0x80000)
    | ((with_reducible apply SameFws.mk) <;> intro b <;> first | exact absurd b (by decide) | rfl)
    | with_reducible apply Keeps.foldl
    | with_reducible apply Keeps.foldr
    | split
    | (intro; try dsimp only))

theorem keeps_eraseNow {m : Nat} (hm : sub 0x80004 m) {s t : State} {a0 : _} (h : Keeps m s t) : Keeps m s (eraseNow a0 t) := by
  unfold eraseNow
  try dsimp only
  repeat' (first
    | with_reducible assumption
    | exact sub_trans (by decide) hm
    | refine keeps_drawFree ?_ ?_ (by with_reducible assumption)
    | with_reducible apply keeps_drawFree'
    | with_reducible apply keeps_headSector
    | with_reducible apply keeps_wipeSector
    | with_reducible apply keeps_dropLines)

theorem keeps_queueRefresh {m : Nat} (hm : sub 0x4000000000000 m) {s t : State} {a0 a1 a2 : _} (h : Keeps m s t) : Keeps m s (queueRefresh a0 a1 a2 t) := by
  unfold queueRefresh
  try dsimp only
  repeat' (first
    | with_reducible assumption
    | exact sub_trans (by decide) hm
    | with_reducible apply keeps_updMme
    | with_reducible apply Keeps.foldl
    | with_reducible apply Keeps.foldr
    | split)

theorem keeps_drainDie {m : Nat} (hm : sub 0x410000010000d m) {s t : State} {a0 : _} (h : Keeps m s t) : Keeps m s (drainDie a0 t) := by
  unfold drainDie
  try dsimp only
  repeat' (first
    | with_reducible assumption
    | exact sub_trans (by decide) hm
    | with_reducible apply keeps_fire
    | with_reducible apply keeps_updDie
    | with_reducible apply keeps_queueRefresh
    | with_reducible apply Keeps.foldl
    | with_reducible apply Keeps.foldr
    | split
    | (intro; try dsimp only))

theorem keeps_updPort {m : Nat} (hm : sub 0x400000 m) {s t : State} {a0 a1 : _} (h : Keeps m s t) : Keeps m s (updPort a0 a1 t) := by
  unfold updPort
  try dsimp only
  repeat' (first
    | with_reducible assumption
    | exact sub_trans (by decide) hm
    | with_reducible apply keeps_updHfe (a := 0x400000)
    | ((with_reducible apply SameHfe.mk) <;> intro b <;> first | exact absurd b (by decide) | rfl)
    | with_reducible apply Keeps.foldl
    | with_reducible apply Keeps.foldr
    | split
    | (intro; try dsimp only))

theorem keeps_updPrio {m : Nat} (hm : sub 0x400000 m) {s t : State} {a0 a1 a2 : _} (h : Keeps m s t) : Keeps m s (updPrio a0 a1 a2 t) := by
  unfold updPrio
  try dsimp only
  repeat' (first | with_reducible assumption | exact sub_trans (by decide) hm | with_reducible apply keeps_updPort)

theorem keeps_sendPfc {m : Nat} (hm : sub 0x1000008 m) {s t : State} {a0 a1 a2 : _} (h : Keeps m s t) : Keeps m s (sendPfc a0 a1 a2 t) := by
  unfold sendPfc
  try dsimp only
  repeat' (first
    | with_reducible assumption
    | exact sub_trans (by decide) hm
    | with_reducible apply keeps_emit
    | with_reducible apply keeps_portCount)

theorem keeps_prioFill {m : Nat} (hm : sub 0x1400008 m) {s t : State} {a0 a1 a2 : _} (h : Keeps m s t) : Keeps m s (prioFill a0 a1 a2 t) := by
  unfold prioFill
  try dsimp only
  repeat' (first
    | with_reducible assumption
    | exact sub_trans (by decide) hm
    | with_reducible apply keeps_updPrio
    | with_reducible apply keeps_sendPfc
    | with_reducible apply Keeps.foldl
    | with_reducible apply Keeps.foldr
    | split)

theorem keeps_updUnit {m : Nat} (hm : sub 0x40000000000 m) {s t : State} {a0 a1 : _} (h : Keeps m s t) : Keeps m s (updUnit a0 a1 t) := by
  unfold updUnit
  try dsimp only
  repeat' (first
    | with_reducible assumption
    | exact sub_trans (by decide) hm
    | with_reducible apply Keeps.foldl
    | with_reducible apply Keeps.foldr
    | split
    | (with_reducible apply filter_wf)
    | ((with_reducible apply Same.mk) <;> intro b <;> first | exact absurd b (by decide) | rfl)
    | with_reducible refine Keeps.mk' (a := 0x40000000000) ?_ ?_ (Eq.refl _) ?_)

theorem keeps_updStripe {m : Nat} (hm : sub 0x1000000000 m) {s t : State} {a0 a1 : _} (h : Keeps m s t) : Keeps m s (updStripe a0 a1 t) := by
  unfold updStripe
  try dsimp only
  repeat' (first
    | with_reducible assumption
    | exact sub_trans (by decide) hm
    | with_reducible apply keeps_updTabs (a := 0x1000000000)
    | ((with_reducible apply SameTables.mk) <;> intro b <;> first | exact absurd b (by decide) | rfl)
    | with_reducible apply Keeps.foldl
    | with_reducible apply Keeps.foldr
    | split
    | (intro; try dsimp only))

theorem keeps_landLog {m : Nat} (hm : sub 0x41000000000 m) {s t : State} {a0 a1 a2 : _} (h : Keeps m s t) : Keeps m s (landLog a0 a1 a2 t) := by
  unfold landLog
  try dsimp only
  repeat' (first
    | with_reducible assumption
    | exact sub_trans (by decide) hm
    | with_reducible apply keeps_updUnit
    | with_reducible apply keeps_updStripe)

theorem keeps_countBoot {m : Nat} (hm : sub 0x104000 m) {s t : State} (h : Keeps m s t) : Keeps m s (countBoot t) := by
  unfold countBoot
  try dsimp only
  repeat' (first
    | with_reducible assumption
    | exact sub_trans (by decide) hm
    | with_reducible apply keeps_updTop (a := 0x104000)
    | ((with_reducible apply SameTop.mk) <;> intro b <;> first | exact absurd b (by decide) | rfl)
    | with_reducible apply keeps_updEvc
    | with_reducible apply Keeps.foldl
    | with_reducible apply Keeps.foldr
    | split
    | (intro; try dsimp only))

theorem keeps_judgeTestmode {m : Nat} (hm : sub 0x12000d m) {s t : State} (h : Keeps m s t) : Keeps m s (judgeTestmode t) := by
  unfold judgeTestmode
  try dsimp only
  repeat' (first
    | with_reducible assumption
    | exact sub_trans (by decide) hm
    | with_reducible apply keeps_updPad
    | with_reducible apply keeps_fire
    | with_reducible apply Keeps.foldl
    | with_reducible apply Keeps.foldr
    | split)

theorem keeps_putPage {m : Nat} (hm : sub 0x80000 m) {s t : State} {a0 a1 : _} (h : Keeps m s t) : Keeps m s (putPage a0 a1 t) := by
  unfold putPage
  try dsimp only
  repeat' (first
    | with_reducible assumption
    | exact sub_trans (by decide) hm
    | with_reducible apply keeps_updFws (a := 0x80000)
    | ((with_reducible apply SameFws.mk) <;> intro b <;> first | exact absurd b (by decide) | rfl)
    | with_reducible apply Keeps.foldl
    | with_reducible apply Keeps.foldr
    | split
    | (intro; try dsimp only))

theorem keeps_writePage {m : Nat} (hm : sub 0x80000 m) {s t : State} {a0 a1 : _} (h : Keeps m s t) : Keeps m s (writePage a0 a1 t) := by
  unfold writePage
  try dsimp only
  repeat' (first
    | with_reducible assumption
    | exact sub_trans (by decide) hm
    | with_reducible apply keeps_dropLines
    | with_reducible apply keeps_updSector
    | with_reducible apply keeps_putPage)

theorem keeps_appendRecord {m : Nat} (hm : sub 0x80004 m) {s t : State} {a0 : _} (h : Keeps m s t) : Keeps m s (appendRecord a0 t) := by
  unfold appendRecord
  try dsimp only
  repeat' (first
    | with_reducible assumption
    | exact sub_trans (by decide) hm
    | with_reducible apply keeps_eraseNow
    | with_reducible apply keeps_updFws (a := 0x80004)
    | ((with_reducible apply SameFws.mk) <;> intro b <;> first | exact absurd b (by decide) | rfl)
    | with_reducible apply keeps_writePage
    | with_reducible apply Keeps.foldl
    | with_reducible apply Keeps.foldr
    | split
    | (intro; try dsimp only))

theorem keeps_updKeys {m : Nat} (hm : sub 0x80000000000000 m) {s t : State} {a0 a1 : _} (h : Keeps m s t) : Keeps m s (updKeys a0 a1 t) := by
  unfold updKeys
  try dsimp only
  repeat' (first | with_reducible assumption | exact sub_trans (by decide) hm | with_reducible apply keeps_updIte)

theorem keeps_updTenant {m : Nat} (hm : sub 0x10000000 m) {s t : State} {a0 a1 : _} (h : Keeps m s t) : Keeps m s (updTenant a0 a1 t) := by
  unfold updTenant
  try dsimp only
  repeat' (first
    | with_reducible assumption
    | exact sub_trans (by decide) hm
    | with_reducible apply Keeps.foldl
    | with_reducible apply Keeps.foldr
    | split
    | (with_reducible apply filter_wf)
    | ((with_reducible apply Same.mk) <;> intro b <;> first | exact absurd b (by decide) | rfl)
    | with_reducible refine Keeps.mk' (a := 0x10000000) ?_ ?_ (Eq.refl _) ?_)

theorem keeps_restoreOne {m : Nat} (hm : sub 0x80080012000001 m) {s t : State} {a1 : _} (h : Keeps m s t) : Keeps m s (restoreOne t a1) := by
  unfold restoreOne
  try dsimp only
  repeat' (first
    | with_reducible assumption
    | exact sub_trans (by decide) hm
    | with_reducible apply keeps_setReg
    | with_reducible apply keeps_updLink
    | with_reducible apply keeps_updKeys
    | with_reducible apply keeps_updTenant
    | with_reducible apply keeps_updHfe (a := 0x80080012000001)
    | ((with_reducible apply SameHfe.mk) <;> intro b <;> first | exact absurd b (by decide) | rfl)
    | with_reducible apply keeps_setF
    | with_reducible apply Keeps.foldl
    | with_reducible apply Keeps.foldr
    | split
    | (intro; try dsimp only))

theorem keeps_restoreSettings {m : Nat} (hm : sub 0x81080012100001 m) {s t : State} (h : Keeps m s t) : Keeps m s (restoreSettings t) := by
  unfold restoreSettings
  try dsimp only
  repeat' (first
    | with_reducible assumption
    | exact sub_trans (by decide) hm
    | with_reducible apply keeps_restoreOne
    | with_reducible apply keeps_updEvc
    | with_reducible apply keeps_updRcu (a := 0x81080012100001)
    | ((with_reducible apply SameRcu.mk) <;> intro b <;> first | exact absurd b (by decide) | rfl)
    | with_reducible apply Keeps.foldl
    | with_reducible apply Keeps.foldr
    | split
    | (intro; try dsimp only))

theorem keeps_drawWords' {m : Nat} (hm : sub 0x4 m) {s t : State} {a1 : Nat} (h : Keeps m s t) : Keeps m s (drawWords t a1).2 := by
  induction a1 generalizing t with
  | zero => exact h
  | succ n ih => exact ih (keeps_drawFree' (sub_trans (by decide) hm) (n := 32) h)
theorem keeps_drawWords {m : Nat} (hm : sub 0x4 m) {s t u : State} {a1 : Nat} {x0 : _} (h : Keeps m s t) (e : drawWords t a1 = (x0, u)) : Keeps m s u := by
  have := keeps_drawWords' (sub_trans (by decide) hm) (a1 := a1) h
  rwa [e] at this

theorem keeps_restoreMfg {m : Nat} (hm : sub 0x80004 m) {s t : State} (h : Keeps m s t) : Keeps m s (restoreMfg t) := by
  unfold restoreMfg
  have k : Keeps m s (if sectorReady t 340 = true then t else eraseNow 340 t) := by
    split
    · exact h
    · exact keeps_eraseNow hm h
  split
  · exact h
  · exact keeps_writePage (t := (drawWords (if sectorReady t 340 = true then t else eraseNow 340 t) 128).2) (sub_trans (by decide) hm)
      (keeps_drawWords' (sub_trans (by decide) hm) k)

theorem keeps_bootSlot {m : Nat} (hm : sub 0x8108031218000d m) {s t : State} {a0 a1 a2 : _} (h : Keeps m s t) : Keeps m s (bootSlot a0 a1 a2 t) := by
  unfold bootSlot
  try dsimp only
  repeat' (first
    | with_reducible assumption
    | exact sub_trans (by decide) hm
    | with_reducible apply keeps_updFws (a := 0x8108031218000d)
    | ((with_reducible apply SameFws.mk) <;> intro b <;> first | exact absurd b (by decide) | rfl)
    | with_reducible apply keeps_updMgc (a := 0x8108031218000d)
    | ((with_reducible apply SameMgc.mk) <;> intro b <;> first | exact absurd b (by decide) | rfl)
    | with_reducible apply keeps_restoreMfg
    | with_reducible apply keeps_restoreSettings
    | with_reducible apply keeps_fire
    | with_reducible apply Keeps.foldl
    | with_reducible apply Keeps.foldr
    | split
    | (intro; try dsimp only))

theorem keeps_markBoot {m : Nat} (hm : sub 0x100000 m) {s t : State} (h : Keeps m s t) : Keeps m s (markBoot t) :=
  keeps_updEvc (sub_trans (by decide) hm) (fun x _ => by simp only [List.length_cons, List.length_take]; omega) (fun _ hx => hx) h

theorem keeps_beginErase {m : Nat} (hm : sub 0x80000 m) {s t : State} {a0 a1 : _} (h : Keeps m s t) : Keeps m s (beginErase a0 a1 t) := by
  unfold beginErase
  try dsimp only
  repeat' (first
    | with_reducible assumption
    | exact sub_trans (by decide) hm
    | with_reducible apply keeps_wipeSector
    | with_reducible apply keeps_updFws (a := 0x80000)
    | ((with_reducible apply SameFws.mk) <;> intro b <;> first | exact absurd b (by decide) | rfl)
    | with_reducible apply keeps_dropLines
    | with_reducible apply Keeps.foldl
    | with_reducible apply Keeps.foldr
    | split
    | (intro; try dsimp only))

theorem keeps_retryBad {m : Nat} (hm : sub 0x80000 m) {s t : State} {a0 : _} (h : Keeps m s t) : Keeps m s (retryBad a0 t) := by
  unfold retryBad
  try dsimp only
  repeat' (first
    | with_reducible assumption
    | exact sub_trans (by decide) hm
    | with_reducible apply keeps_beginErase
    | with_reducible apply Keeps.foldl
    | with_reducible apply Keeps.foldr
    | split)

theorem keeps_execBootSlotSelect {m : Nat} (hm : sub 0x810803121a400d m) {s t : State} (h : Keeps m s t) : KeepsOut m s (execBootSlotSelect t) := by
  unfold execBootSlotSelect
  try dsimp only
  repeat' (first
    | with_reducible assumption
    | exact sub_trans (by decide) hm
    | with_reducible apply Keeps.next
    | with_reducible apply keeps_countBoot
    | with_reducible apply keeps_judgeTestmode
    | with_reducible apply keeps_fire
    | with_reducible apply keeps_updFws (a := 0x810803121a400d)
    | ((with_reducible apply SameFws.mk) <;> intro b <;> first | exact absurd b (by decide) | rfl)
    | with_reducible apply keeps_appendRecord
    | with_reducible apply keeps_bootSlot
    | with_reducible apply keeps_markBoot
    | with_reducible apply keeps_retryBad
    | with_reducible apply Keeps.foldl
    | with_reducible apply Keeps.foldr
    | split
    | (intro; try dsimp only))

theorem keeps_updBlock {m : Nat} (hm : sub 0x2000000000 m) {s t : State} {a0 a1 : _} (h : Keeps m s t) : Keeps m s (updBlock a0 a1 t) := by
  unfold updBlock
  try dsimp only
  repeat' (first
    | with_reducible assumption
    | exact sub_trans (by decide) hm
    | with_reducible apply keeps_updTabs (a := 0x2000000000)
    | ((with_reducible apply SameTables.mk) <;> intro b <;> first | exact absurd b (by decide) | rfl)
    | with_reducible apply Keeps.foldl
    | with_reducible apply Keeps.foldr
    | split
    | (intro; try dsimp only))

theorem keeps_takeSlc {m : Nat} (hm : sub 0x2000000000 m) {s t : State} {a0 : _} (h : Keeps m s t) : Keeps m s (takeSlc a0 t) := by
  unfold takeSlc
  try dsimp only
  repeat' (first | with_reducible assumption | exact sub_trans (by decide) hm | with_reducible apply keeps_updBlock)

theorem keeps_openLanes {m : Nat} (hm : sub 0x2002000000000 m) {s t : State} {a0 : _} (h : Keeps m s t) : Keeps m s (openLanes a0 t) := by
  unfold openLanes
  try dsimp only
  repeat' (first
    | with_reducible assumption
    | exact sub_trans (by decide) hm
    | with_reducible apply keeps_updWpe
    | with_reducible apply keeps_takeSlc
    | with_reducible apply Keeps.foldl
    | with_reducible apply Keeps.foldr
    | split
    | (intro; try dsimp only))

theorem keeps_issue {m : Nat} (hm : sub 0x8000000000000 m) {s t : State} {a0 a1 a2 a3 a4 : _} (h : Keeps m s t) : Keeps m s (issue a0 a1 a2 a3 a4 t) := by
  unfold issue
  try dsimp only
  repeat' (first
    | with_reducible assumption
    | exact sub_trans (by decide) hm
    | with_reducible apply keeps_updJnl (a := 0x8000000000000)
    | ((with_reducible apply SameJnl.mk) <;> intro b <;> first | exact absurd b (by decide) | rfl)
    | with_reducible apply Keeps.foldl
    | with_reducible apply Keeps.foldr
    | split
    | (intro; try dsimp only))

theorem keeps_writeSlice {m : Nat} (hm : sub 0xa046000000000 m) {s t : State} {a0 a1 a2 a3 a4 : _} (h : Keeps m s t) : Keeps m s (writeSlice a0 a1 a2 a3 a4 t) := by
  unfold writeSlice
  try dsimp only
  repeat' (first
    | with_reducible assumption
    | exact sub_trans (by decide) hm
    | with_reducible apply keeps_openLanes
    | with_reducible apply keeps_updBlock
    | with_reducible apply keeps_updWpe
    | with_reducible apply keeps_updTabs (a := 0xa046000000000)
    | ((with_reducible apply SameTables.mk) <;> intro b <;> first | exact absurd b (by decide) | rfl)
    | with_reducible apply keeps_updUnit
    | with_reducible apply keeps_issue
    | with_reducible apply Keeps.foldl
    | with_reducible apply Keeps.foldr
    | split
    | (intro; try dsimp only))

theorem keeps_stagePail {m : Nat} (hm : sub 0xa046000000000 m) {s t : State} {a0 a1 : _} (h : Keeps m s t) : Keeps m s (stagePail a0 a1 t) := by
  unfold stagePail
  try dsimp only
  repeat' (first
    | with_reducible assumption
    | exact sub_trans (by decide) hm
    | with_reducible apply keeps_writeSlice
    | with_reducible apply Keeps.foldl
    | with_reducible apply Keeps.foldr
    | split)

theorem keeps_issueTime {m : Nat} (hm : sub 0x8000000000000 m) {s t : State} (h : Keeps m s t) : Keeps m s (issueTime t) := by
  unfold issueTime
  try dsimp only
  repeat' (first | with_reducible assumption | exact sub_trans (by decide) hm | with_reducible apply keeps_issue)

theorem keeps_execTimeMark {m : Nat} (hm : sub 0x8000000000000 m) {s t : State} (h : Keeps m s t) : KeepsOut m s (execTimeMark t) := by
  unfold execTimeMark
  try dsimp only
  repeat' (first
    | with_reducible assumption
    | exact sub_trans (by decide) hm
    | with_reducible apply Keeps.next
    | with_reducible apply keeps_issueTime
    | with_reducible apply Keeps.foldl
    | with_reducible apply Keeps.foldr
    | split)

theorem keeps_finishBusy {m : Nat} (hm : sub 0x85600008 m) {s t : State} {a0 : _} (h : Keeps m s t) : Keeps m s (finishBusy a0 t) := by
  unfold finishBusy
  try dsimp only
  repeat' (first | with_reducible assumption | exact sub_trans (by decide) hm | with_reducible apply keeps_finishCrd)

theorem keeps_relocateCount {m : Nat} (hm : sub 0x10000d m) {s t : State} {a0 a1 a2 : _} (h : Keeps m s t) : Keeps m s (relocateCount a0 a1 a2 t) := by
  unfold relocateCount
  try dsimp only
  repeat' (first
    | with_reducible assumption
    | exact sub_trans (by decide) hm
    | with_reducible apply keeps_bumpF
    | with_reducible apply keeps_fire
    | with_reducible apply Keeps.foldl
    | with_reducible apply Keeps.foldr
    | split)

theorem keeps_ringAdd {m : Nat} (hm : sub 0x100000 m) {s t : State} {a0 a1 : _} (h : Keeps m s t) : Keeps m s (ringAdd a0 a1 t) := by
  unfold ringAdd
  try dsimp only
  repeat' (first
    | with_reducible assumption
    | exact sub_trans (by decide) hm
    | with_reducible apply Keeps.foldl
    | with_reducible apply Keeps.foldr
    | split
    | (with_reducible apply filter_wf)
    | ((with_reducible apply Same.mk) <;> intro b <;> first | exact absurd b (by decide) | rfl)
    | with_reducible refine Keeps.mk' (a := 0x100000) ?_ ?_ (Eq.refl _) ?_)

theorem keeps_bpmInit {m : Nat} (hm : sub 0x100000000000000 m) {s t : State} (h : Keeps m s t) : Keeps m s (bpmInit t) := by
  unfold bpmInit
  try dsimp only
  repeat' (first | with_reducible assumption | exact sub_trans (by decide) hm | with_reducible apply keeps_updBpm)

theorem keeps_updZone {m : Nat} (hm : sub 0x800000000 m) {s t : State} {a0 a1 : _} (h : Keeps m s t) : Keeps m s (updZone a0 a1 t) := by
  unfold updZone
  try dsimp only
  repeat' (first
    | with_reducible assumption
    | exact sub_trans (by decide) hm
    | with_reducible apply keeps_updTabs (a := 0x800000000)
    | ((with_reducible apply SameTables.mk) <;> intro b <;> first | exact absurd b (by decide) | rfl)
    | with_reducible apply Keeps.foldl
    | with_reducible apply Keeps.foldr
    | split
    | (intro; try dsimp only))

theorem keeps_markRow {m : Nat} (hm : sub 0x40000000000 m) {s t : State} {a0 a1 a2 : _} (h : Keeps m s t) : Keeps m s (markRow a0 a1 a2 t) := by
  unfold markRow
  try dsimp only
  repeat' (first
    | with_reducible assumption
    | exact sub_trans (by decide) hm
    | with_reducible apply keeps_updUnit
    | with_reducible apply Keeps.foldl
    | with_reducible apply Keeps.foldr
    | split
    | (intro; try dsimp only))

theorem keeps_rowDurable {m : Nat} (hm : sub 0x40000000000 m) {s t : State} {a0 a1 : _} (h : Keeps m s t) : Keeps m s (rowDurable a0 a1 t) := by
  unfold rowDurable
  try dsimp only
  repeat' (first | with_reducible assumption | exact sub_trans (by decide) hm | with_reducible apply keeps_markRow)

theorem keeps_issueCommit {m : Nat} (hm : sub 0x1800000010000d m) {s t : State} {a0 a1 a2 a3 a4 : _} (h : Keeps m s t) : Keeps m s (issueCommit a0 a1 a2 a3 a4 t) := by
  unfold issueCommit
  try dsimp only
  repeat' (first
    | with_reducible assumption
    | exact sub_trans (by decide) hm
    | with_reducible apply keeps_issue
    | with_reducible apply keeps_updJnl (a := 0x1800000010000d)
    | ((with_reducible apply SameJnl.mk) <;> intro b <;> first | exact absurd b (by decide) | rfl)
    | with_reducible apply keeps_fire
    | with_reducible apply Keeps.foldl
    | with_reducible apply Keeps.foldr
    | split
    | (intro; try dsimp only))

theorem keeps_commitGone {m : Nat} (hm : sub 0x1804000010000d m) {s t : State} {a0 a1 : _} (h : Keeps m s t) : Keeps m s (commitGone a0 a1 t) := by
  unfold commitGone
  try dsimp only
  repeat' (first
    | with_reducible assumption
    | exact sub_trans (by decide) hm
    | with_reducible apply keeps_updUnit
    | with_reducible apply keeps_issueCommit
    | with_reducible apply Keeps.foldl
    | with_reducible apply Keeps.foldr
    | split
    | (intro; try dsimp only))

theorem keeps_tuEnter {m : Nat} (hm : sub 0x11000d m) {s t : State} {a0 : _} (h : Keeps m s t) : Keeps m s (tuEnter a0 t) := by
  unfold tuEnter
  try dsimp only
  repeat' (first
    | with_reducible assumption
    | exact sub_trans (by decide) hm
    | with_reducible apply keeps_updTu
    | with_reducible apply keeps_fire
    | with_reducible apply Keeps.foldl
    | with_reducible apply Keeps.foldr
    | split)

theorem keeps_setAddend {m : Nat} (hm : sub 0x1 m) {s t : State} {a0 : _} (h : Keeps m s t) : Keeps m s (setAddend a0 t) := by
  unfold setAddend
  try dsimp only
  repeat' (first | with_reducible assumption | exact sub_trans (by decide) hm | with_reducible apply keeps_setF)

theorem keeps_tuHoldover {m : Nat} (hm : sub 0x11000d m) {s t : State} (h : Keeps m s t) : Keeps m s (tuHoldover t) := by
  unfold tuHoldover
  try dsimp only
  repeat' (first
    | with_reducible assumption
    | exact sub_trans (by decide) hm
    | with_reducible apply keeps_tuEnter
    | with_reducible apply keeps_updTu
    | with_reducible apply keeps_setAddend
    | with_reducible apply Keeps.foldl
    | with_reducible apply Keeps.foldr
    | split)

theorem keeps_ptpPortDown {m : Nat} (hm : sub 0x11000d m) {s t : State} {a0 : _} (h : Keeps m s t) : Keeps m s (ptpPortDown a0 t) := by
  unfold ptpPortDown
  try dsimp only
  repeat' (first
    | with_reducible assumption
    | exact sub_trans (by decide) hm
    | with_reducible apply keeps_tuHoldover
    | with_reducible apply Keeps.foldl
    | with_reducible apply Keeps.foldr
    | split)

theorem keeps_updNs {m : Nat} (hm : sub 0x400000000 m) {s t : State} {a0 a1 : _} (h : Keeps m s t) : Keeps m s (updNs a0 a1 t) := by
  unfold updNs
  try dsimp only
  repeat' (first
    | with_reducible assumption
    | exact sub_trans (by decide) hm
    | with_reducible apply keeps_updTabs (a := 0x400000000)
    | ((with_reducible apply SameTables.mk) <;> intro b <;> first | exact absurd b (by decide) | rfl)
    | with_reducible apply Keeps.foldl
    | with_reducible apply Keeps.foldr
    | split
    | (intro; try dsimp only))

theorem keeps_drawStamp {m : Nat} (hm : sub 0x400000000 m) {s t u : State} {a0 : _} {x0 : _} (h : Keeps m s t) (e : (drawStamp a0 t) = (x0, u)) : Keeps m s u := by
  unfold drawStamp at e
  try dsimp only at e
  repeat' (first | contradiction | (cases e) | (split at e))
  repeat' (first | with_reducible assumption | exact sub_trans (by decide) hm | with_reducible apply keeps_updNs)
theorem keeps_drawStamp' {m : Nat} (hm : sub 0x400000000 m) {s t : State} {a0 : _} (h : Keeps m s t) : Keeps m s (drawStamp a0 t).2 := keeps_drawStamp hm (x0 := (drawStamp a0 t).1) h rfl

theorem keeps_updCtl {m : Nat} (hm : sub 0x8000000 m) {s t : State} {a0 a1 : _} (h : Keeps m s t) : Keeps m s (updCtl a0 a1 t) := by
  unfold updCtl
  try dsimp only
  repeat' (first
    | with_reducible assumption
    | exact sub_trans (by decide) hm
    | with_reducible apply Keeps.foldl
    | with_reducible apply Keeps.foldr
    | split
    | (with_reducible apply filter_wf)
    | ((with_reducible apply Same.mk) <;> intro b <;> first | exact absurd b (by decide) | rfl)
    | with_reducible refine Keeps.mk' (a := 0x8000000) ?_ ?_ (Eq.refl _) ?_)

theorem keeps_stageUnits {m : Nat} (hm : sub 0xa046000000000 m) {s t : State} {a0 a1 : _} (h : Keeps m s t) : Keeps m s (stageUnits a0 a1 t) := by
  unfold stageUnits
  try dsimp only
  repeat' (first
    | with_reducible assumption
    | exact sub_trans (by decide) hm
    | with_reducible apply keeps_writeSlice
    | with_reducible apply Keeps.foldl
    | with_reducible apply Keeps.foldr
    | split
    | (intro; try dsimp only))

theorem keeps_queueFine {m : Nat} (hm : sub 0x380000000008 m) {s t : State} {a0 a1 : _} (h : Keeps m s t) : Keeps m s (queueFine a0 a1 t) := by
  unfold queueFine
  try dsimp only
  repeat' (first
    | with_reducible assumption
    | exact sub_trans (by decide) hm
    | with_reducible apply keeps_enqueue
    | with_reducible apply Keeps.foldl
    | with_reducible apply Keeps.foldr
    | split)

theorem keeps_closeHeld {m : Nat} (hm : sub 0x380000000008 m) {s t : State} {a0 : _} (h : Keeps m s t) : Keeps m s (closeHeld a0 t) := by
  unfold closeHeld
  try dsimp only
  repeat' (first
    | with_reducible assumption
    | exact sub_trans (by decide) hm
    | with_reducible apply keeps_queueFine
    | with_reducible apply Keeps.foldl
    | with_reducible apply Keeps.foldr
    | split
    | (intro; try dsimp only))

theorem keeps_sendPage {m : Nat} (hm : sub 0x382000000008 m) {s t : State} {a0 a1 : _} (h : Keeps m s t) : Keeps m s (sendPage a0 a1 t) := by
  unfold sendPage
  try dsimp only
  repeat' (first
    | with_reducible assumption
    | exact sub_trans (by decide) hm
    | with_reducible apply keeps_enqueue
    | with_reducible apply keeps_updBlock
    | with_reducible apply Keeps.foldl
    | with_reducible apply Keeps.foldr
    | split
    | (intro; try dsimp only))

theorem keeps_sealOn {m : Nat} (hm : sub 0x8382000000008 m) {s t : State} {a0 : _} (h : Keeps m s t) : Keeps m s (sealOn a0 t) := by
  unfold sealOn
  try dsimp only
  repeat' (first
    | with_reducible assumption
    | exact sub_trans (by decide) hm
    | with_reducible apply keeps_sendPage
    | with_reducible apply keeps_updJnl (a := 0x8382000000008)
    | ((with_reducible apply SameJnl.mk) <;> intro b <;> first | exact absurd b (by decide) | rfl)
    | with_reducible apply Keeps.foldl
    | with_reducible apply Keeps.foldr
    | split
    | (intro; try dsimp only))

theorem keeps_sealPage {m : Nat} (hm : sub 0x8382000000008 m) {s t : State} (h : Keeps m s t) : Keeps m s (sealPage t) := by
  unfold sealPage
  try dsimp only
  repeat' (first
    | with_reducible assumption
    | exact sub_trans (by decide) hm
    | with_reducible apply keeps_sealOn
    | with_reducible apply Keeps.foldl
    | with_reducible apply Keeps.foldr
    | split)

theorem keeps_coolerSettle {m : Nat} (hm : sub 0x200000010000d m) {s t : State} (h : Keeps m s t) : Keeps m s (coolerSettle t) := by
  unfold coolerSettle
  try dsimp only
  repeat' (first
    | with_reducible assumption
    | exact sub_trans (by decide) hm
    | with_reducible apply keeps_updWpe
    | with_reducible apply keeps_fire
    | with_reducible apply Keeps.foldl
    | with_reducible apply Keeps.foldr
    | split)

theorem keeps_serveFlush {m : Nat} (hm : sub 0xa3c600010000d m) {s t : State} {a0 : _} (h : Keeps m s t) : Keeps m s (serveFlush a0 t) := by
  unfold serveFlush
  try dsimp only
  repeat' (first
    | with_reducible assumption
    | exact sub_trans (by decide) hm
    | with_reducible apply keeps_stageUnits
    | with_reducible apply keeps_closeHeld
    | with_reducible apply keeps_sealPage
    | with_reducible apply keeps_coolerSettle
    | with_reducible apply Keeps.foldl
    | with_reducible apply Keeps.foldr
    | split
    | (intro; try dsimp only))

end Sys2Proof.Machine
end

