-- ==== Sys2Proof/Laws/KeepsOpsB.lean ====
section
/-! SUPPORT. Each operation keeps the rules of `Keeps`, one lemma per operation, callees first (part 2). -/

namespace Sys2Proof.Machine

theorem keeps_shutFlush {m : Nat} (hm : sub 0xa3c640810000d m) {s t : State} {a0 a1 : _} (h : Keeps m s t) : Keeps m s (shutFlush a0 a1 t) := by
  unfold shutFlush
  dsimp only
  refine Keeps.foldl (fun a u hu => keeps_serveFlush (sub_trans (by decide) hm) hu) (keeps_updCtl (sub_trans (by decide) hm) (Keeps.foldl_snd (fun a q hq => ?_) h))
  exact keeps_drawStamp' (sub_trans (by decide) hm) hq

theorem keeps_abandonCkpt {m : Nat} (hm : sub 0x40000000000000 m) {s t : State} (h : Keeps m s t) : Keeps m s (abandonCkpt t) := by
  unfold abandonCkpt
  try dsimp only
  repeat' (first
    | with_reducible assumption
    | exact sub_trans (by decide) hm
    | with_reducible apply keeps_updJnl (a := 0x40000000000000)
    | ((with_reducible apply SameJnl.mk) <;> intro b <;> first | exact absurd b (by decide) | rfl)
    | with_reducible apply Keeps.foldl
    | with_reducible apply Keeps.foldr
    | split
    | (intro; try dsimp only))

theorem keeps_dropEntry {m : Nat} (hm : sub 0x4000000000000 m) {s t : State} {a0 : _} (h : Keeps m s t) : Keeps m s (dropEntry a0 t) := by
  unfold dropEntry
  try dsimp only
  repeat' (first | with_reducible assumption | exact sub_trans (by decide) hm | with_reducible apply keeps_updMme)

theorem keeps_dropReadyOn {m : Nat} (hm : sub 0x4002000000000 m) {s t : State} {a0 : _} (h : Keeps m s t) : Keeps m s (dropReadyOn a0 t) := by
  unfold dropReadyOn
  try dsimp only
  repeat' (first
    | with_reducible assumption
    | exact sub_trans (by decide) hm
    | with_reducible apply keeps_dropEntry
    | with_reducible apply keeps_updBlock
    | with_reducible apply Keeps.foldl
    | with_reducible apply Keeps.foldr
    | split
    | (intro; try dsimp only))

theorem keeps_updTask {m : Nat} (hm : sub 0x4000000 m) {s t : State} {a0 a1 : _} (h : Keeps m s t) : Keeps m s (updTask a0 a1 t) := by
  unfold updTask
  try dsimp only
  repeat' (first
    | with_reducible assumption
    | exact sub_trans (by decide) hm
    | with_reducible apply Keeps.foldl
    | with_reducible apply Keeps.foldr
    | split
    | (with_reducible apply filter_wf)
    | ((with_reducible apply Same.mk) <;> intro b <;> first | exact absurd b (by decide) | rfl)
    | with_reducible refine Keeps.mk' (a := 0x4000000) ?_ ?_ (Eq.refl _) ?_)

theorem keeps_execDatasetManagement {m : Nat} (hm : sub 0x8040485600008 m) {s t : State} {a0 : _} (h : Keeps m s t) : KeepsOut m s (execDatasetManagement a0 t) := by
  unfold execDatasetManagement
  try dsimp only
  repeat' (first
    | with_reducible assumption
    | exact sub_trans (by decide) hm
    | with_reducible apply Keeps.next
    | with_reducible apply keeps_failIo
    | with_reducible apply keeps_updTask
    | with_reducible apply keeps_emit
    | with_reducible apply keeps_transmit
    | with_reducible apply keeps_finishOk
    | refine keeps_drawStamp ?_ ?_ (by with_reducible assumption)
    | with_reducible apply keeps_drawStamp'
    | with_reducible apply keeps_updUnit
    | with_reducible apply keeps_issue
    | with_reducible apply Keeps.foldl
    | with_reducible apply Keeps.foldr
    | split
    | (intro; try dsimp only))

theorem keeps_sirOk {m : Nat} (hm : sub 0xc5600008 m) {s t : State} {a0 a1 : _} (h : Keeps m s t) : Keeps m s (sirOk a0 a1 t) := by
  unfold sirOk
  try dsimp only
  repeat' (first | with_reducible assumption | exact sub_trans (by decide) hm | with_reducible apply keeps_sirAnswer)

theorem keeps_execHbRead {m : Nat} (hm : sub 0xc5600008 m) {s t : State} {a0 : _} (h : Keeps m s t) : KeepsOut m s (execHbRead a0 t) := by
  unfold execHbRead
  try dsimp only
  repeat' (first
    | with_reducible assumption
    | exact sub_trans (by decide) hm
    | with_reducible apply Keeps.next
    | with_reducible apply keeps_sirRun
    | with_reducible apply keeps_sirOk
    | with_reducible apply Keeps.foldl
    | with_reducible apply Keeps.foldr
    | split
    | (intro; try dsimp only))

theorem keeps_addSkimCws' {m : Nat} (hm : sub 0x400000000000 m) {s t : State} {a0 a1 a2 a3 : _} (h : Keeps m s t) : Keeps m s (addSkimCws a0 a1 a2 a3 t).2 := by
  unfold addSkimCws
  exact Keeps.foldl_snd (fun a q hq => keeps_addCw' (sub_trans (by decide) hm) hq) h
theorem keeps_addSkimCws {m : Nat} (hm : sub 0x400000000000 m) {s t u : State} {a0 a1 a2 a3 x0 : _} (h : Keeps m s t) (e : addSkimCws a0 a1 a2 a3 t = (x0, u)) : Keeps m s u := by
  have := keeps_addSkimCws' (sub_trans (by decide) hm) (a0 := a0) (a1 := a1) (a2 := a2) (a3 := a3) h
  rwa [e] at this

theorem keeps_updAge {m : Nat} (hm : sub 0x800000000000 m) {s t : State} {a0 a1 : _} (h : Keeps m s t) : Keeps m s (updAge a0 a1 t) := by
  unfold updAge
  try dsimp only
  repeat' (first
    | with_reducible assumption
    | exact sub_trans (by decide) hm
    | with_reducible apply keeps_updRcu (a := 0x800000000000)
    | ((with_reducible apply SameRcu.mk) <;> intro b <;> first | exact absurd b (by decide) | rfl)
    | with_reducible apply Keeps.foldl
    | with_reducible apply Keeps.foldr
    | split
    | (intro; try dsimp only))

theorem keeps_endDark {m : Nat} (hm : sub 0x1800000000000 m) {s t : State} {a0 : _} (h : Keeps m s t) : Keeps m s (endDark a0 t) := by
  unfold endDark
  try dsimp only
  repeat' (first
    | with_reducible assumption
    | exact sub_trans (by decide) hm
    | with_reducible apply keeps_updAge
    | with_reducible apply keeps_updRcu (a := 0x1800000000000)
    | ((with_reducible apply SameRcu.mk) <;> intro b <;> first | exact absurd b (by decide) | rfl)
    | with_reducible apply Keeps.foldl
    | with_reducible apply Keeps.foldr
    | split
    | (intro; try dsimp only))

theorem keeps_raiseAen {m : Nat} (hm : sub 0x8d600008 m) {s t : State} {a0 a1 a2 : _} (h : Keeps m s t) : Keeps m s (raiseAen a0 a1 a2 t) := by
  unfold raiseAen
  try dsimp only
  repeat' (first
    | with_reducible assumption
    | exact sub_trans (by decide) hm
    | with_reducible apply keeps_updCtl
    | with_reducible apply keeps_finish
    | with_reducible apply Keeps.foldl
    | with_reducible apply Keeps.foldr
    | split)

theorem keeps_raiseAenWhere {m : Nat} (hm : sub 0x8d600008 m) {s t : State} {a0 a1 a2 : _} (h : Keeps m s t) : Keeps m s (raiseAenWhere a0 a1 a2 t) := by
  unfold raiseAenWhere
  try dsimp only
  repeat' (first
    | with_reducible assumption
    | exact sub_trans (by decide) hm
    | with_reducible apply keeps_raiseAen
    | with_reducible apply Keeps.foldl
    | with_reducible apply Keeps.foldr
    | split
    | (intro; try dsimp only))

theorem keeps_raiseAenAll {m : Nat} (hm : sub 0x8d600008 m) {s t : State} {a0 a1 : _} (h : Keeps m s t) : Keeps m s (raiseAenAll a0 a1 t) := by
  unfold raiseAenAll
  try dsimp only
  repeat' (first | with_reducible assumption | exact sub_trans (by decide) hm | with_reducible apply keeps_raiseAenWhere)

theorem keeps_skimSettle {m : Nat} (hm : sub 0x8d70100d m) {s t : State} (h : Keeps m s t) : Keeps m s (skimSettle t) := by
  unfold skimSettle
  try dsimp only
  repeat' (first
    | with_reducible assumption
    | exact sub_trans (by decide) hm
    | with_reducible apply keeps_fire
    | with_reducible apply keeps_raiseAenAll
    | with_reducible apply Keeps.foldl
    | with_reducible apply Keeps.foldr
    | split
    | (with_reducible apply filter_wf)
    | ((with_reducible apply Same.mk) <;> intro b <;> first | exact absurd b (by decide) | rfl)
    | with_reducible refine Keeps.mk' (a := 0x8d70100d) ?_ ?_ (Eq.refl _) ?_)

theorem keeps_satCheck {m : Nat} (hm : sub 0x80000010000d m) {s t : State} {a0 : _} (h : Keeps m s t) : Keeps m s (satCheck a0 t) := by
  unfold satCheck
  try dsimp only
  repeat' (first
    | with_reducible assumption
    | exact sub_trans (by decide) hm
    | with_reducible apply keeps_fire
    | with_reducible apply keeps_updAge
    | with_reducible apply Keeps.foldl
    | with_reducible apply Keeps.foldr
    | split)

theorem keeps_moveSnaps {m : Nat} (hm : sub 0x2000000000 m) {s t : State} {a0 a1 : _} (h : Keeps m s t) : Keeps m s (moveSnaps a0 a1 t) := by
  unfold moveSnaps
  try dsimp only
  repeat' (first
    | with_reducible assumption
    | exact sub_trans (by decide) hm
    | with_reducible apply keeps_updBlock
    | with_reducible apply Keeps.foldl
    | with_reducible apply Keeps.foldr
    | split
    | (intro; try dsimp only))

theorem keeps_setAge {m : Nat} (hm : sub 0x802000000000 m) {s t : State} {a0 a1 : _} (h : Keeps m s t) : Keeps m s (setAge a0 a1 t) := by
  unfold setAge
  try dsimp only
  repeat' (first
    | with_reducible assumption
    | exact sub_trans (by decide) hm
    | with_reducible apply keeps_moveSnaps
    | with_reducible apply keeps_updAge)

theorem keeps_darkDie {m : Nat} (hm : sub 0x180200010000d m) {s t : State} {a0 a2 : _} (h : Keeps m s t) : Keeps m s (darkDie a0 t a2) := by
  unfold darkDie
  try dsimp only
  repeat' (first
    | with_reducible assumption
    | exact sub_trans (by decide) hm
    | with_reducible apply keeps_fire
    | with_reducible apply keeps_updRcu (a := 0x180200010000d)
    | ((with_reducible apply SameRcu.mk) <;> intro b <;> first | exact absurd b (by decide) | rfl)
    | with_reducible apply keeps_satCheck
    | with_reducible apply keeps_setAge
    | with_reducible apply keeps_updAge
    | with_reducible apply keeps_bumpF
    | with_reducible apply Keeps.foldl
    | with_reducible apply Keeps.foldr
    | split
    | (intro; try dsimp only))

theorem keeps_darkAll {m : Nat} (hm : sub 0x180208d70100d m) {s t : State} {a0 : _} (h : Keeps m s t) : Keeps m s (darkAll a0 t) := by
  unfold darkAll
  try dsimp only
  repeat' (first
    | with_reducible assumption
    | exact sub_trans (by decide) hm
    | with_reducible apply keeps_updRcu (a := 0x180208d70100d)
    | ((with_reducible apply SameRcu.mk) <;> intro b <;> first | exact absurd b (by decide) | rfl)
    | with_reducible apply keeps_skimSettle
    | with_reducible apply keeps_darkDie
    | with_reducible apply Keeps.foldl
    | with_reducible apply Keeps.foldr
    | split
    | (intro; try dsimp only))

theorem keeps_ageRestore {m : Nat} (hm : sub 0x180208d70100d m) {s t : State} (h : Keeps m s t) : Keeps m s (ageRestore t) := by
  unfold ageRestore
  try dsimp only
  repeat' (first
    | with_reducible assumption
    | exact sub_trans (by decide) hm
    | with_reducible apply keeps_endDark
    | with_reducible apply keeps_updAge
    | with_reducible apply keeps_darkAll
    | with_reducible apply Keeps.foldl
    | with_reducible apply Keeps.foldr
    | split
    | (intro; try dsimp only))

theorem keeps_refuseReq {m : Nat} (hm : sub 0x100 m) {s t : State} {a0 : _} (h : Keeps m s t) : Keeps m s (refuseReq a0 t) := by
  unfold refuseReq
  try dsimp only
  repeat' (first
    | with_reducible assumption
    | exact sub_trans (by decide) hm
    | with_reducible apply keeps_updTop (a := 0x100)
    | ((with_reducible apply SameTop.mk) <;> intro b <;> first | exact absurd b (by decide) | rfl)
    | with_reducible apply Keeps.foldl
    | with_reducible apply Keeps.foldr
    | split
    | (intro; try dsimp only))

theorem keeps_holdRequest {m : Nat} (hm : sub 0x100000100 m) {s t : State} {a0 : _} (h : Keeps m s t) : Keeps m s (holdRequest a0 t) := by
  unfold holdRequest
  try dsimp only
  repeat' (first
    | with_reducible assumption
    | exact sub_trans (by decide) hm
    | with_reducible apply keeps_refuseReq
    | with_reducible apply keeps_updMgc (a := 0x100000100)
    | ((with_reducible apply SameMgc.mk) <;> intro b <;> first | exact absurd b (by decide) | rfl)
    | with_reducible apply Keeps.foldl
    | with_reducible apply Keeps.foldr
    | split
    | (intro; try dsimp only))

theorem keeps_quiesceStage {m : Nat} (hm : sub 0xa3c600010000d m) {s t : State} (h : Keeps m s t) : Keeps m s (quiesceStage t) := by
  unfold quiesceStage
  try dsimp only
  repeat' (first
    | with_reducible assumption
    | exact sub_trans (by decide) hm
    | with_reducible apply keeps_closeHeld
    | with_reducible apply keeps_stageUnits
    | with_reducible apply keeps_stagePail
    | with_reducible apply keeps_sealPage
    | with_reducible apply keeps_coolerSettle
    | with_reducible apply Keeps.foldl
    | with_reducible apply Keeps.foldr
    | split
    | (intro; try dsimp only))

theorem keeps_issueClean {m : Nat} (hm : sub 0x8382000000808 m) {s t : State} {a0 : _} (h : Keeps m s t) : Keeps m s (issueClean a0 t) := by
  unfold issueClean
  try dsimp only
  repeat' (first
    | with_reducible assumption
    | exact sub_trans (by decide) hm
    | with_reducible apply keeps_sealPage
    | with_reducible apply keeps_issue
    | with_reducible apply keeps_updTop (a := 0x8382000000808)
    | ((with_reducible apply SameTop.mk) <;> intro b <;> first | exact absurd b (by decide) | rfl)
    | with_reducible apply Keeps.foldl
    | with_reducible apply Keeps.foldr
    | split
    | (intro; try dsimp only))

theorem keeps_quiesceClean {m : Nat} (hm : sub 0x8382000000808 m) {s t : State} (h : Keeps m s t) : Keeps m s (quiesceClean t) := by
  unfold quiesceClean
  try dsimp only
  repeat' (first
    | with_reducible assumption
    | exact sub_trans (by decide) hm
    | with_reducible apply keeps_issueClean
    | with_reducible apply keeps_issueTime
    | with_reducible apply keeps_updTop (a := 0x8382000000808)
    | ((with_reducible apply SameTop.mk) <;> intro b <;> first | exact absurd b (by decide) | rfl)
    | with_reducible apply Keeps.foldl
    | with_reducible apply Keeps.foldr
    | split
    | (intro; try dsimp only))

theorem keeps_startCkpt {m : Nat} (hm : sub 0x4d000000000000 m) {s t : State} (h : Keeps m s t) : Keeps m s (startCkpt t) := by
  unfold startCkpt
  try dsimp only
  repeat' (first
    | with_reducible assumption
    | exact sub_trans (by decide) hm
    | with_reducible apply keeps_updJnl (a := 0x4d000000000000)
    | ((with_reducible apply SameJnl.mk) <;> intro b <;> first | exact absurd b (by decide) | rfl)
    | with_reducible apply keeps_issueTime
    | with_reducible apply keeps_updRcu (a := 0x4d000000000000)
    | ((with_reducible apply SameRcu.mk) <;> intro b <;> first | exact absurd b (by decide) | rfl)
    | with_reducible apply keeps_updMme
    | with_reducible apply keeps_issue
    | with_reducible apply Keeps.foldl
    | with_reducible apply Keeps.foldr
    | split
    | (intro; try dsimp only))

theorem keeps_quiesceCkpt {m : Nat} (hm : sub 0x4d382000000008 m) {s t : State} (h : Keeps m s t) : Keeps m s (quiesceCkpt t) := by
  unfold quiesceCkpt
  try dsimp only
  repeat' (first
    | with_reducible assumption
    | exact sub_trans (by decide) hm
    | with_reducible apply keeps_updJnl (a := 0x4d382000000008)
    | ((with_reducible apply SameJnl.mk) <;> intro b <;> first | exact absurd b (by decide) | rfl)
    | with_reducible apply keeps_sealPage
    | with_reducible apply keeps_startCkpt
    | with_reducible apply Keeps.foldl
    | with_reducible apply Keeps.foldr
    | split
    | (intro; try dsimp only))

theorem keeps_quiesceAdvance {m : Nat} (hm : sub 0x4f3c600010080d m) {s t : State} (h : Keeps m s t) : Keeps m s (quiesceAdvance t) := by
  unfold quiesceAdvance
  try dsimp only
  repeat' (first
    | with_reducible assumption
    | exact sub_trans (by decide) hm
    | with_reducible apply keeps_quiesceStage
    | with_reducible apply keeps_updTop (a := 0x4f3c600010080d)
    | ((with_reducible apply SameTop.mk) <;> intro b <;> first | exact absurd b (by decide) | rfl)
    | with_reducible apply keeps_quiesceClean
    | with_reducible apply keeps_quiesceCkpt
    | with_reducible apply Keeps.foldl
    | with_reducible apply Keeps.foldr
    | split
    | (intro; try dsimp only))

theorem keeps_breakFragments {m : Nat} (hm : sub 0x40000000 m) {s t : State} (h : Keeps m s t) : Keeps m s (breakFragments t) := by
  unfold breakFragments
  try dsimp only
  repeat' (first
    | with_reducible assumption
    | exact sub_trans (by decide) hm
    | with_reducible apply keeps_updMgc (a := 0x40000000)
    | ((with_reducible apply SameMgc.mk) <;> intro b <;> first | exact absurd b (by decide) | rfl)
    | with_reducible apply Keeps.foldl
    | with_reducible apply Keeps.foldr
    | split
    | (intro; try dsimp only))

theorem keeps_enterDev {m : Nat} (hm : sub 0x401000ad m) {s t : State} {a0 a1 : _} (h : Keeps m s t) : Keeps m s (enterDev a0 a1 t) := by
  unfold enterDev
  try dsimp only
  repeat' (first
    | with_reducible assumption
    | exact sub_trans (by decide) hm
    | with_reducible apply keeps_breakFragments
    | with_reducible apply keeps_updTop (a := 0x401000ad)
    | ((with_reducible apply SameTop.mk) <;> intro b <;> first | exact absurd b (by decide) | rfl)
    | with_reducible apply keeps_fire
    | with_reducible apply Keeps.foldl
    | with_reducible apply Keeps.foldr
    | split
    | (intro; try dsimp only))

theorem keeps_beginQuiesce {m : Nat} (hm : sub 0x4f3c6040100aed m) {s t : State} {a0 a1 : _} (h : Keeps m s t) : Keeps m s (beginQuiesce a0 a1 t) := by
  unfold beginQuiesce
  try dsimp only
  repeat' (first
    | with_reducible assumption
    | exact sub_trans (by decide) hm
    | with_reducible apply keeps_updTop (a := 0x4f3c6040100aed)
    | ((with_reducible apply SameTop.mk) <;> intro b <;> first | exact absurd b (by decide) | rfl)
    | with_reducible apply keeps_quiesceAdvance
    | with_reducible apply keeps_enterDev
    | with_reducible apply Keeps.foldl
    | with_reducible apply Keeps.foldr
    | split
    | (intro; try dsimp only))

theorem keeps_hfePortsDown {m : Nat} (hm : sub 0xd0000d m) {s t : State} (h : Keeps m s t) : Keeps m s (hfePortsDown t) := by
  unfold hfePortsDown
  try dsimp only
  repeat' (first
    | with_reducible assumption
    | exact sub_trans (by decide) hm
    | with_reducible apply keeps_fire
    | with_reducible apply Keeps.foldl
    | with_reducible apply Keeps.foldr
    | split
    | (intro; try dsimp only)
    | (with_reducible apply filter_wf)
    | ((with_reducible apply Same.mk) <;> intro b <;> first | exact absurd b (by decide) | rfl)
    | with_reducible refine Keeps.mk' (a := 0xd0000d) ?_ ?_ (Eq.refl _) ?_)

theorem keeps_unfillLog {m : Nat} (hm : sub 0x2000000000000 m) {s t : State} {a0 a1 : _} (h : Keeps m s t) : Keeps m s (unfillLog a0 a1 t) := by
  unfold unfillLog
  try dsimp only
  repeat' (first
    | with_reducible assumption
    | exact sub_trans (by decide) hm
    | with_reducible apply keeps_updWpe
    | with_reducible apply Keeps.foldl
    | with_reducible apply Keeps.foldr
    | split)

theorem keeps_bpmCount {m : Nat} (hm : sub 0x100000000000000 m) {s t : State} {a0 a1 : _} (h : Keeps m s t) : Keeps m s (bpmCount a0 a1 t) := by
  unfold bpmCount
  try dsimp only
  repeat' (first | with_reducible assumption | exact sub_trans (by decide) hm | with_reducible apply keeps_updBpm)

theorem keeps_bpmAnswer {m : Nat} (hm : sub 0x100000000000000 m) {s t : State} {a0 : _} (h : Keeps m s t) : Keeps m s (bpmAnswer a0 t) := by
  unfold bpmAnswer
  try dsimp only
  repeat' (first | with_reducible assumption | exact sub_trans (by decide) hm | with_reducible apply keeps_updBpm)

theorem keeps_bpmRefuse {m : Nat} (hm : sub 0x10000000010000d m) {s t : State} {a0 a1 a2 a3 a4 a5 : _} (h : Keeps m s t) : Keeps m s (bpmRefuse a0 a1 a2 a3 a4 a5 t) := by
  unfold bpmRefuse
  try dsimp only
  repeat' (first
    | with_reducible assumption
    | exact sub_trans (by decide) hm
    | with_reducible apply keeps_bpmCount
    | with_reducible apply keeps_updBpm
    | with_reducible apply keeps_bpmAnswer
    | with_reducible apply keeps_fire)

theorem keeps_updPool {m : Nat} (hm : sub 0x100000000000000 m) {s t : State} {a0 a1 : _} (h : Keeps m s t) : Keeps m s (updPool a0 a1 t) := by
  unfold updPool
  try dsimp only
  repeat' (first | with_reducible assumption | exact sub_trans (by decide) hm | with_reducible apply keeps_updBpm)

theorem keeps_freeBuffer {m : Nat} (hm : sub 0x100000000000000 m) {s t : State} {a0 : _} (h : Keeps m s t) : Keeps m s (freeBuffer a0 t) := by
  unfold freeBuffer
  try dsimp only
  repeat' (first
    | with_reducible assumption
    | exact sub_trans (by decide) hm
    | with_reducible apply keeps_updPool
    | with_reducible apply keeps_bpmCount
    | with_reducible apply keeps_updBpm
    | with_reducible apply Keeps.foldl
    | with_reducible apply Keeps.foldr
    | split)

theorem keeps_bpmRelease {m : Nat} (hm : sub 0x10000000010000d m) {s t : State} {a0 a1 a2 : _} (h : Keeps m s t) : Keeps m s (bpmRelease a0 a1 a2 t) := by
  unfold bpmRelease
  try dsimp only
  repeat' (first
    | with_reducible assumption
    | exact sub_trans (by decide) hm
    | with_reducible apply keeps_bpmRefuse
    | with_reducible apply keeps_bpmAnswer
    | with_reducible apply keeps_freeBuffer
    | with_reducible apply keeps_updBpm
    | with_reducible apply Keeps.foldl
    | with_reducible apply Keeps.foldr
    | split)

theorem keeps_freeVat {m : Nat} (hm : sub 0x10000000410000d m) {s t : State} {a0 : _} (h : Keeps m s t) : Keeps m s (freeVat a0 t) := by
  unfold freeVat
  try dsimp only
  repeat' (first
    | with_reducible assumption
    | exact sub_trans (by decide) hm
    | with_reducible apply keeps_bpmRelease
    | with_reducible apply keeps_updTask
    | with_reducible apply Keeps.foldl
    | with_reducible apply Keeps.foldr
    | split
    | (intro; try dsimp only))

theorem keeps_unfillAside {m : Nat} (hm : sub 0x2000000000000 m) {s t : State} {a0 : _} (h : Keeps m s t) : Keeps m s (unfillAside a0 t) := by
  unfold unfillAside
  try dsimp only
  repeat' (first | with_reducible assumption | exact sub_trans (by decide) hm | with_reducible apply keeps_updWpe)

theorem keeps_fillAside {m : Nat} (hm : sub 0x2000000000000 m) {s t : State} {a0 : _} (h : Keeps m s t) : Keeps m s (fillAside a0 t) := by
  unfold fillAside
  try dsimp only
  repeat' (first | with_reducible assumption | exact sub_trans (by decide) hm | with_reducible apply keeps_updWpe)

theorem keeps_dropWrite {m : Nat} (hm : sub 0x10200088570000d m) {s t : State} {a0 : _} {a1 : State → State} (h : Keeps m s t) (h1 : ∀ u, Keeps m s u → Keeps m s (a1 u)) :
    Keeps m s (dropWrite a0 a1 t) := by
  unfold dropWrite
  dsimp only
  split
  · exact h1 _ (keeps_unfillLog (sub_trans (by decide) hm) (keeps_freeVat (sub_trans (by decide) hm) h))
  · refine keeps_updZone (sub_trans (by decide) hm) (Keeps.foldl (fun a u hu => ?_) (Keeps.foldl (fun a u hu => ?_) (h1 _ (keeps_freeVat (sub_trans (by decide) hm) (keeps_unfillAside (sub_trans (by decide) hm) h)))))
    · exact keeps_fillAside (sub_trans (by decide) hm) (keeps_updTask (sub_trans (by decide) hm) (keeps_unfillAside (sub_trans (by decide) hm) hu))
    · exact keeps_finishErr (sub_trans (by decide) hm) (keeps_freeVat (sub_trans (by decide) hm) (keeps_unfillAside (sub_trans (by decide) hm) hu))

theorem keeps_abandonReads {m : Nat} (hm : sub 0x500000000000 m) {s t : State} {a0 : _} (h : Keeps m s t) : Keeps m s (abandonReads a0 t) := by
  unfold abandonReads
  try dsimp only
  repeat' (first
    | with_reducible assumption
    | exact sub_trans (by decide) hm
    | with_reducible apply keeps_updClc
    | with_reducible apply keeps_updFlc (a := 0x500000000000)
    | ((with_reducible apply SameFlc.mk) <;> intro b <;> first | exact absurd b (by decide) | rfl)
    | with_reducible apply Keeps.foldl
    | with_reducible apply Keeps.foldr
    | split
    | (intro; try dsimp only))

theorem keeps_loseTask {m : Nat} (hm : sub 0x10250088570000d m) {s t : State} {a0 : _} (h : Keeps m s t) : Keeps m s (loseTask a0 t) := by
  unfold loseTask
  try dsimp only
  repeat' (first
    | with_reducible assumption
    | exact sub_trans (by decide) hm
    | with_reducible apply keeps_dropWrite
    | with_reducible apply keeps_freeSlot
    | with_reducible apply keeps_updTask
    | with_reducible apply keeps_abandonReads
    | with_reducible apply Keeps.foldl
    | with_reducible apply Keeps.foldr
    | split
    | (intro; try dsimp only))

theorem keeps_dropConn {m : Nat} (hm : sub 0x10250088570000d m) {s t : State} {a0 : _} (h : Keeps m s t) : Keeps m s (dropConn a0 t) := by
  unfold dropConn
  try dsimp only
  repeat' (first
    | with_reducible assumption
    | exact sub_trans (by decide) hm
    | with_reducible apply keeps_loseTask
    | with_reducible apply Keeps.foldl
    | with_reducible apply Keeps.foldr
    | split
    | (intro; try dsimp only)
    | (with_reducible apply filter_wf)
    | ((with_reducible apply Same.mk) <;> intro b <;> first | exact absurd b (by decide) | rfl)
    | with_reducible refine Keeps.mk' (a := 0x10250088570000d) ?_ ?_ (Eq.refl _) ?_)

theorem keeps_dropAllConns {m : Nat} (hm : sub 0x10250088d70000d m) {s t : State} (h : Keeps m s t) : Keeps m s (dropAllConns t) := by
  unfold dropAllConns
  try dsimp only
  repeat' (first
    | with_reducible assumption
    | exact sub_trans (by decide) hm
    | with_reducible apply keeps_dropConn
    | with_reducible apply keeps_updQe (a := 0x10250088d70000d)
    | ((with_reducible apply SameQe.mk) <;> intro b <;> first | exact absurd b (by decide) | rfl)
    | with_reducible apply Keeps.foldl
    | with_reducible apply Keeps.foldr
    | split
    | (intro; try dsimp only))

theorem keeps_beginRetained {m : Nat} (hm : sub 0x10a78288df1080d m) {s t : State} (h : Keeps m s t) : Keeps m s (beginRetained t) := by
  unfold beginRetained
  try dsimp only
  repeat' (first
    | with_reducible assumption
    | exact sub_trans (by decide) hm
    | with_reducible apply keeps_hfePortsDown
    | with_reducible apply keeps_dropAllConns
    | with_reducible apply keeps_issueClean
    | with_reducible apply keeps_tuHoldover)

theorem keeps_requestRetained {m : Nat} (hm : sub 0x10a78288df1094d m) {s t : State} (h : Keeps m s t) : Keeps m s (requestRetained t) := by
  unfold requestRetained
  try dsimp only
  repeat' (first
    | with_reducible assumption
    | exact sub_trans (by decide) hm
    | with_reducible apply keeps_beginRetained
    | with_reducible apply keeps_updTop (a := 0x10a78288df1094d)
    | ((with_reducible apply SameTop.mk) <;> intro b <;> first | exact absurd b (by decide) | rfl)
    | with_reducible apply Keeps.foldl
    | with_reducible apply Keeps.foldr
    | split
    | (intro; try dsimp only))

theorem keeps_sealDark {m : Nat} (hm : sub 0x180208d70100d m) {s t : State} {a0 : _} (h : Keeps m s t) : Keeps m s (sealDark a0 t) := by
  unfold sealDark
  try dsimp only
  repeat' (first
    | with_reducible assumption
    | exact sub_trans (by decide) hm
    | with_reducible apply keeps_setAge
    | with_reducible apply keeps_skimSettle
    | with_reducible apply keeps_updRcu (a := 0x180208d70100d)
    | ((with_reducible apply SameRcu.mk) <;> intro b <;> first | exact absurd b (by decide) | rfl)
    | with_reducible apply Keeps.foldl
    | with_reducible apply Keeps.foldr
    | split
    | (intro; try dsimp only))

theorem keeps_resumeDark {m : Nat} (hm : sub 0x180208d70100d m) {s t : State} (h : Keeps m s t) : Keeps m s (resumeDark t) := by
  unfold resumeDark
  try dsimp only
  repeat' (first
    | with_reducible assumption
    | exact sub_trans (by decide) hm
    | with_reducible apply keeps_updAge
    | with_reducible apply keeps_sealDark
    | with_reducible apply keeps_darkAll
    | with_reducible apply Keeps.foldl
    | with_reducible apply Keeps.foldr
    | split
    | (intro; try dsimp only))

theorem keeps_resumeRetained {m : Nat} (hm : sub 0x1a8208d70114d m) {s t : State} (h : Keeps m s t) : Keeps m s (resumeRetained t) := by
  unfold resumeRetained
  try dsimp only
  repeat' (first
    | with_reducible assumption
    | exact sub_trans (by decide) hm
    | with_reducible apply keeps_updTop (a := 0x1a8208d70114d)
    | ((with_reducible apply SameTop.mk) <;> intro b <;> first | exact absurd b (by decide) | rfl)
    | with_reducible apply keeps_updRcu (a := 0x1a8208d70114d)
    | ((with_reducible apply SameRcu.mk) <;> intro b <;> first | exact absurd b (by decide) | rfl)
    | with_reducible apply keeps_resumeDark
    | with_reducible apply keeps_wakeGroup
    | with_reducible apply Keeps.foldl
    | with_reducible apply Keeps.foldr
    | split
    | (intro; try dsimp only))

theorem keeps_stateRequest {m : Nat} (hm : sub 0x14ffc69cdf11bed m) {s t : State} {a0 : _} (h : Keeps m s t) : Keeps m s (stateRequest a0 t) := by
  unfold stateRequest
  try dsimp only
  repeat' (first
    | with_reducible assumption
    | exact sub_trans (by decide) hm
    | with_reducible apply keeps_refuseReq
    | with_reducible apply keeps_holdRequest
    | with_reducible apply keeps_beginQuiesce
    | with_reducible apply keeps_requestRetained
    | with_reducible apply keeps_enterDev
    | with_reducible apply keeps_updTop (a := 0x14ffc69cdf11bed)
    | ((with_reducible apply SameTop.mk) <;> intro b <;> first | exact absurd b (by decide) | rfl)
    | with_reducible apply keeps_resumeRetained
    | with_reducible apply Keeps.foldl
    | with_reducible apply Keeps.foldr
    | split
    | (intro; try dsimp only))

theorem keeps_releaseHeld {m : Nat} (hm : sub 0x14ffc69cdf11bed m) {s t : State} (h : Keeps m s t) : Keeps m s (releaseHeld t) := by
  unfold releaseHeld
  try dsimp only
  repeat' (first
    | with_reducible assumption
    | exact sub_trans (by decide) hm
    | with_reducible apply keeps_stateRequest
    | with_reducible apply keeps_updMgc (a := 0x14ffc69cdf11bed)
    | ((with_reducible apply SameMgc.mk) <;> intro b <;> first | exact absurd b (by decide) | rfl)
    | with_reducible apply Keeps.foldl
    | with_reducible apply Keeps.foldr
    | split
    | (intro; try dsimp only))

theorem keeps_answerJob {m : Nat} (hm : sub 0xc5600008 m) {s t : State} {a0 a1 a2 a3 a4 a5 : _} (h : Keeps m s t) : Keeps m s (answerJob a0 a1 a2 a3 a4 a5 t) := by
  unfold answerJob
  try dsimp only
  repeat' (first
    | with_reducible assumption
    | exact sub_trans (by decide) hm
    | with_reducible apply keeps_finishBusy
    | with_reducible apply keeps_finish
    | with_reducible apply keeps_sirAnswer
    | with_reducible apply Keeps.foldl
    | with_reducible apply Keeps.foldr
    | split)

theorem keeps_execActivationPause {m : Nat} (hm : sub 0x14ffc6bcdf91bed m) {s t : State} {a0 : _} (h : Keeps m s t) : KeepsOut m s (execActivationPause a0 t) := by
  unfold execActivationPause
  try dsimp only
  repeat' (first
    | with_reducible assumption
    | exact sub_trans (by decide) hm
    | with_reducible apply Keeps.next
    | with_reducible apply keeps_updMgc (a := 0x14ffc6bcdf91bed)
    | ((with_reducible apply SameMgc.mk) <;> intro b <;> first | exact absurd b (by decide) | rfl)
    | with_reducible apply keeps_updQe (a := 0x14ffc6bcdf91bed)
    | ((with_reducible apply SameQe.mk) <;> intro b <;> first | exact absurd b (by decide) | rfl)
    | with_reducible apply keeps_fire
    | with_reducible apply keeps_releaseHeld
    | with_reducible apply keeps_answerJob
    | with_reducible apply keeps_updFws (a := 0x14ffc6bcdf91bed)
    | ((with_reducible apply SameFws.mk) <;> intro b <;> first | exact absurd b (by decide) | rfl)
    | with_reducible apply Keeps.foldl
    | with_reducible apply Keeps.foldr
    | split
    | (intro; try dsimp only))

theorem keeps_slowRefuse {m : Nat} (hm : sub 0x85600009 m) {s t : State} {a0 : _} (h : Keeps m s t) : Keeps m s (slowRefuse a0 t) := by
  unfold slowRefuse
  try dsimp only
  repeat' (first
    | with_reducible assumption
    | exact sub_trans (by decide) hm
    | with_reducible apply keeps_finishBusy
    | with_reducible apply keeps_bumpF)

theorem keeps_updBank {m : Nat} (hm : sub 0x200000000000000 m) {s t : State} {a0 a1 : _} (h : Keeps m s t) : Keeps m s (updBank a0 a1 t) := by
  unfold updBank
  try dsimp only
  repeat' (first | with_reducible assumption | exact sub_trans (by decide) hm | with_reducible apply keeps_updDmc)

theorem keeps_execRowHammerRfm {m : Nat} (hm : sub 0x20000000010000d m) {s t : State} {a0 a1 a2 a3 a4 : _} (h : Keeps m s t) : KeepsOut m s (execRowHammerRfm a0 a1 a2 a3 a4 t) := by
  unfold execRowHammerRfm
  try dsimp only
  repeat' (first
    | with_reducible assumption
    | exact sub_trans (by decide) hm
    | with_reducible apply Keeps.next
    | with_reducible apply keeps_updBank
    | with_reducible apply keeps_bumpF
    | with_reducible apply keeps_updDmc
    | with_reducible apply keeps_fire
    | with_reducible apply Keeps.foldl
    | with_reducible apply Keeps.foldr
    | split)

theorem keeps_seqNote {m : Nat} (hm : sub 0x400000000000 m) {s t : State} {a0 a1 : _} (h : Keeps m s t) : Keeps m s (seqNote a0 a1 t) := by
  unfold seqNote
  try dsimp only
  repeat' (first | with_reducible assumption | exact sub_trans (by decide) hm | with_reducible apply keeps_updClc)

theorem keeps_seqNoteAll {m : Nat} (hm : sub 0x400000000000 m) {s t : State} {a0 a1 a2 : _} (h : Keeps m s t) : Keeps m s (seqNoteAll a0 a1 a2 t) := by
  unfold seqNoteAll
  try dsimp only
  repeat' (first
    | with_reducible assumption
    | exact sub_trans (by decide) hm
    | with_reducible apply keeps_seqNote
    | with_reducible apply Keeps.foldl
    | with_reducible apply Keeps.foldr
    | split
    | (intro; try dsimp only))

theorem keeps_unitFailed {m : Nat} (hm : sub 0x4000000 m) {s t : State} {a0 a1 a2 a3 : _} (h : Keeps m s t) : Keeps m s (unitFailed a0 a1 a2 a3 t) := by
  unfold unitFailed
  try dsimp only
  repeat' (first | with_reducible assumption | exact sub_trans (by decide) hm | with_reducible apply keeps_updTask)

theorem keeps_unitPassed {m : Nat} (hm : sub 0x4000000 m) {s t : State} {a0 a1 a2 : _} (h : Keeps m s t) : Keeps m s (unitPassed a0 a1 a2 t) := by
  unfold unitPassed
  try dsimp only
  repeat' (first | with_reducible assumption | exact sub_trans (by decide) hm | with_reducible apply keeps_updTask)

theorem keeps_updCw {m : Nat} (hm : sub 0x400000000000 m) {s t : State} {a0 a1 : _} (h : Keeps m s t) : Keeps m s (updCw a0 a1 t) := by
  unfold updCw
  try dsimp only
  repeat' (first | with_reducible assumption | exact sub_trans (by decide) hm | with_reducible apply keeps_updClc)

theorem keeps_exitCount {m : Nat} (hm : sub 0x400000000000 m) {s t : State} {a0 : _} (h : Keeps m s t) : Keeps m s (exitCount a0 t) := by
  unfold exitCount
  try dsimp only
  repeat' (first | with_reducible assumption | exact sub_trans (by decide) hm | with_reducible apply keeps_updClc)

theorem keeps_dropCw {m : Nat} (hm : sub 0x400000000000 m) {s t : State} {a0 : _} (h : Keeps m s t) : Keeps m s (dropCw a0 t) := by
  unfold dropCw
  try dsimp only
  repeat' (first | with_reducible assumption | exact sub_trans (by decide) hm | with_reducible apply keeps_updClc)

theorem keeps_dropParts {m : Nat} (hm : sub 0x400000000000 m) {s t : State} {a0 : _} (h : Keeps m s t) : Keeps m s (dropParts a0 t) := by
  unfold dropParts
  try dsimp only
  repeat' (first | with_reducible assumption | exact sub_trans (by decide) hm | with_reducible apply keeps_updClc)

theorem keeps_cwUnread {m : Nat} (hm : sub 0x400000000000 m) {s t : State} {a0 : _} (h : Keeps m s t) : Keeps m s (cwUnread a0 t) := by
  unfold cwUnread
  try dsimp only
  repeat' (first
    | with_reducible assumption
    | exact sub_trans (by decide) hm
    | with_reducible apply keeps_updCw
    | with_reducible apply keeps_exitCount
    | with_reducible apply keeps_dropCw
    | with_reducible apply keeps_dropParts
    | with_reducible apply Keeps.foldl
    | with_reducible apply Keeps.foldr
    | split)

theorem keeps_beginRead {m : Nat} (hm : sub 0x780000000008 m) {s t : State} {a0 : _} (h : Keeps m s t) : Keeps m s (beginRead a0 t) := by
  unfold beginRead
  try dsimp only
  repeat' (first
    | with_reducible assumption
    | exact sub_trans (by decide) hm
    | with_reducible apply keeps_updCw
    | with_reducible apply keeps_enqueue
    | with_reducible apply Keeps.foldl
    | with_reducible apply Keeps.foldr
    | split)

theorem keeps_toL5 {m : Nat} (hm : sub 0x780000000008 m) {s t : State} {a0 : _} (h : Keeps m s t) : Keeps m s (toL5 a0 t) := by
  unfold toL5
  try dsimp only
  repeat' (first
    | with_reducible assumption
    | exact sub_trans (by decide) hm
    | with_reducible apply keeps_cwUnread
    | with_reducible apply keeps_updCw
    | with_reducible apply keeps_exitCount
    | refine keeps_addCw ?_ ?_ (by with_reducible assumption)
    | with_reducible apply keeps_addCw'
    | with_reducible apply keeps_beginRead
    | with_reducible apply Keeps.foldl
    | with_reducible apply Keeps.foldr
    | split
    | (intro; try dsimp only))

theorem keeps_startCw {m : Nat} (hm : sub 0x780000000008 m) {s t : State} {a0 : _} (h : Keeps m s t) : Keeps m s (startCw a0 t) := by
  unfold startCw
  try dsimp only
  repeat' (first
    | with_reducible assumption
    | exact sub_trans (by decide) hm
    | refine keeps_addCw ?_ ?_ (by with_reducible assumption)
    | with_reducible apply keeps_addCw'
    | with_reducible apply keeps_toL5
    | with_reducible apply keeps_beginRead
    | with_reducible apply Keeps.foldl
    | with_reducible apply Keeps.foldr
    | split)

theorem keeps_startUnit {m : Nat} (hm : sub 0x780004000008 m) {s t : State} {a0 a1 a2 a4 : _} (h : Keeps m s t) : Keeps m s (startUnit a0 a1 a2 t a4) := by
  unfold startUnit
  try dsimp only
  repeat' (first
    | with_reducible assumption
    | exact sub_trans (by decide) hm
    | with_reducible apply keeps_unitFailed
    | with_reducible apply keeps_unitPassed
    | with_reducible apply keeps_startCw
    | with_reducible apply Keeps.foldl
    | with_reducible apply Keeps.foldr
    | split)

theorem keeps_readStart {m : Nat} (hm : sub 0x780404000008 m) {s t : State} {a0 : _} (h : Keeps m s t) : Keeps m s (readStart a0 t) := by
  unfold readStart
  try dsimp only
  repeat' (first
    | with_reducible assumption
    | exact sub_trans (by decide) hm
    | refine keeps_drawStamp ?_ ?_ (by with_reducible assumption)
    | with_reducible apply keeps_drawStamp'
    | with_reducible apply keeps_updTask
    | with_reducible apply keeps_seqNoteAll
    | with_reducible apply keeps_startUnit
    | with_reducible apply Keeps.foldl
    | with_reducible apply Keeps.foldr
    | split
    | (intro; try dsimp only))

theorem keeps_admitRead {m : Nat} (hm : sub 0xa7c648570000d m) {s t : State} {a0 a1 : _} (h : Keeps m s t) : Keeps m s (admitRead a0 a1 t) := by
  unfold admitRead
  try dsimp only
  repeat' (first
    | with_reducible assumption
    | exact sub_trans (by decide) hm
    | with_reducible apply keeps_failIo
    | with_reducible apply keeps_updTask
    | with_reducible apply keeps_serveFlush
    | with_reducible apply keeps_readStart
    | with_reducible apply Keeps.foldl
    | with_reducible apply Keeps.foldr
    | split)

theorem keeps_execRead {m : Nat} (hm : sub 0xa7c648570000d m) {s t : State} {a0 : _} (h : Keeps m s t) : KeepsOut m s (execRead a0 t) := by
  unfold execRead
  try dsimp only
  repeat' (first
    | with_reducible assumption
    | exact sub_trans (by decide) hm
    | with_reducible apply Keeps.next
    | with_reducible apply keeps_admitRead)

theorem keeps_raiseAenOperator {m : Nat} (hm : sub 0x8d600008 m) {s t : State} {a0 a1 : _} (h : Keeps m s t) : Keeps m s (raiseAenOperator a0 a1 t) := by
  unfold raiseAenOperator
  try dsimp only
  repeat' (first | with_reducible assumption | exact sub_trans (by decide) hm | with_reducible apply keeps_raiseAenWhere)

theorem keeps_openPair {m : Nat} (hm : sub 0x8002000000000 m) {s t u : State} {a0 a1 a2 : _} {x0 : _} (h : Keeps m s t) (e : (openPair a0 a1 a2 t) = some (x0, u)) : Keeps m s u := by
  unfold openPair at e
  try dsimp only at e
  repeat' (first | contradiction | (cases e) | (split at e))
  repeat' (first
    | with_reducible assumption
    | exact sub_trans (by decide) hm
    | with_reducible apply keeps_takeSlc
    | with_reducible apply keeps_issue)

theorem keeps_refillEmergency {m : Nat} (hm : sub 0x28002000000000 m) {s t : State} {a1 : Nat} (h : Keeps m s t) : Keeps m s (refillEmergency t a1) := by
  induction a1 generalizing t with
  | zero => exact h
  | succ n ih =>
    unfold refillEmergency
    split
    · split
      · exact h
      · exact ih (keeps_updJnl (a := 0x28002000000000) hm (fun _ => by apply SameJnl.mk <;> intro b <;> first | exact absurd b (by decide) | rfl) (keeps_openPair (sub_trans (by decide) hm) h ‹_›))
    · exact h

theorem keeps_refillPairs {m : Nat} (hm : sub 0x28002000000000 m) {s t : State} {a1 : Nat} (h : Keeps m s t) : Keeps m s (refillPairs t a1) := by
  induction a1 generalizing t with
  | zero => exact h
  | succ n ih =>
    unfold refillPairs
    split
    · split
      · exact h
      · exact ih (keeps_updJnl (a := 0x28002000000000) hm (fun _ => by apply SameJnl.mk <;> intro b <;> first | exact absurd b (by decide) | rfl) (keeps_openPair (sub_trans (by decide) hm) h ‹_›))
    · exact h

theorem keeps_journalOld {m : Nat} (hm : sub 0x20000000000000 m) {s t : State} {a0 : _} (h : Keeps m s t) : Keeps m s (journalOld a0 t) := by
  unfold journalOld
  try dsimp only
  repeat' (first
    | with_reducible assumption
    | exact sub_trans (by decide) hm
    | with_reducible apply keeps_updJnl (a := 0x20000000000000)
    | ((with_reducible apply SameJnl.mk) <;> intro b <;> first | exact absurd b (by decide) | rfl)
    | with_reducible apply Keeps.foldl
    | with_reducible apply Keeps.foldr
    | split
    | (intro; try dsimp only))

theorem keeps_retirePairs {m : Nat} (hm : sub 0x20000000000000 m) {s t : State} (h : Keeps m s t) : Keeps m s (retirePairs t) := by
  unfold retirePairs
  try dsimp only
  repeat' (first
    | with_reducible assumption
    | exact sub_trans (by decide) hm
    | with_reducible apply keeps_journalOld
    | with_reducible apply keeps_updJnl (a := 0x20000000000000)
    | ((with_reducible apply SameJnl.mk) <;> intro b <;> first | exact absurd b (by decide) | rfl)
    | with_reducible apply Keeps.foldl
    | with_reducible apply Keeps.foldr
    | split
    | (intro; try dsimp only))

theorem keeps_jnlSettle {m : Nat} (hm : sub 0x2800200010000d m) {s t : State} {a0 : _} (h : Keeps m s t) : Keeps m s (jnlSettle a0 t) := by
  unfold jnlSettle
  try dsimp only
  repeat' (first
    | with_reducible assumption
    | exact sub_trans (by decide) hm
    | with_reducible apply keeps_refillEmergency
    | with_reducible apply keeps_refillPairs
    | with_reducible apply keeps_retirePairs
    | with_reducible apply keeps_fire
    | with_reducible apply Keeps.foldl
    | with_reducible apply Keeps.foldr
    | split)

theorem keeps_thresholdSettle {m : Nat} (hm : sub 0x8d600008 m) {s t : State} {a0 a1 : _} (h : Keeps m s t) : Keeps m s (thresholdSettle a0 a1 t) := by
  unfold thresholdSettle
  try dsimp only
  repeat' (first | with_reducible assumption | exact sub_trans (by decide) hm | with_reducible apply keeps_raiseAenWhere)

theorem keeps_endOp {m : Nat} (hm : sub 0x100000000000 m) {s t : State} {a0 : _} (h : Keeps m s t) : Keeps m s (endOp a0 t) := by
  unfold endOp
  try dsimp only
  repeat' (first | with_reducible assumption | exact sub_trans (by decide) hm | with_reducible apply keeps_updDie)

theorem keeps_issueHeader {m : Nat} (hm : sub 0x8002000000000 m) {s t : State} {a0 a1 : _} (h : Keeps m s t) : Keeps m s (issueHeader a0 a1 t) := by
  unfold issueHeader
  try dsimp only
  repeat' (first
    | with_reducible assumption
    | exact sub_trans (by decide) hm
    | with_reducible apply keeps_updBlock
    | with_reducible apply keeps_issue)

theorem keeps_retireBlock {m : Nat} (hm : sub 0x800200010000d m) {s t : State} {a0 a1 : _} (h : Keeps m s t) : Keeps m s (retireBlock a0 a1 t) := by
  unfold retireBlock
  try dsimp only
  repeat' (first
    | with_reducible assumption
    | exact sub_trans (by decide) hm
    | with_reducible apply keeps_updBlock
    | with_reducible apply keeps_fire
    | with_reducible apply keeps_issue
    | with_reducible apply Keeps.foldl
    | with_reducible apply Keeps.foldr
    | split)

theorem keeps_issueErase {m : Nat} (hm : sub 0x8002000000000 m) {s t : State} {a0 a1 a2 : _} (h : Keeps m s t) : Keeps m s (issueErase a0 a1 a2 t) := by
  unfold issueErase
  try dsimp only
  repeat' (first
    | with_reducible assumption
    | exact sub_trans (by decide) hm
    | with_reducible apply keeps_updBlock
    | with_reducible apply keeps_issue)

theorem keeps_rewritePage {m : Nat} (hm : sub 0x28382000000008 m) {s t : State} {a0 a1 : _} (h : Keeps m s t) : Keeps m s (rewritePage a0 a1 t) := by
  unfold rewritePage
  try dsimp only
  repeat' (first
    | with_reducible assumption
    | exact sub_trans (by decide) hm
    | with_reducible apply keeps_sendPage
    | with_reducible apply keeps_updJnl (a := 0x28382000000008)
    | ((with_reducible apply SameJnl.mk) <;> intro b <;> first | exact absurd b (by decide) | rfl)
    | with_reducible apply keeps_updFlc (a := 0x28382000000008)
    | ((with_reducible apply SameFlc.mk) <;> intro b <;> first | exact absurd b (by decide) | rfl)
    | refine keeps_openPair ?_ ?_ (by with_reducible assumption)
    | with_reducible apply Keeps.foldl
    | with_reducible apply Keeps.foldr
    | split
    | (intro; try dsimp only))

theorem keeps_copyFailed {m : Nat} (hm : sub 0x2838200010000d m) {s t : State} {a0 a1 a2 : _} (h : Keeps m s t) : Keeps m s (copyFailed a0 a1 a2 t) := by
  unfold copyFailed
  try dsimp only
  repeat' (first
    | with_reducible assumption
    | exact sub_trans (by decide) hm
    | with_reducible apply keeps_retireBlock
    | with_reducible apply keeps_rewritePage
    | with_reducible apply Keeps.foldl
    | with_reducible apply Keeps.foldr
    | split)

theorem keeps_dropSkim {m : Nat} (hm : sub 0x400000000000 m) {s t : State} {a0 a1 : _} (h : Keeps m s t) : Keeps m s (dropSkim a0 a1 t) := by
  unfold dropSkim
  try dsimp only
  repeat' (first | with_reducible assumption | exact sub_trans (by decide) hm | with_reducible apply keeps_updClc)

theorem keeps_forgetMember {m : Nat} (hm : sub 0x2000000000000 m) {s t : State} {a0 a1 : _} (h : Keeps m s t) : Keeps m s (forgetMember a0 a1 t) := by
  unfold forgetMember
  try dsimp only
  repeat' (first | with_reducible assumption | exact sub_trans (by decide) hm | with_reducible apply keeps_updWpe)

theorem keeps_dropPrograms {m : Nat} (hm : sub 0x100000000000 m) {s t : State} {a0 : _} (h : Keeps m s t) : Keeps m s (dropPrograms a0 t) := by
  unfold dropPrograms
  try dsimp only
  repeat' (first | with_reducible assumption | exact sub_trans (by decide) hm | with_reducible apply keeps_updDie)

theorem keeps_rowSkimCheck {m : Nat} (hm : sub 0x8001000000000 m) {s t : State} {a0 a1 : _} (h : Keeps m s t) : Keeps m s (rowSkimCheck a0 a1 t) := by
  unfold rowSkimCheck
  try dsimp only
  repeat' (first
    | with_reducible assumption
    | exact sub_trans (by decide) hm
    | with_reducible apply keeps_updStripe
    | with_reducible apply keeps_issue
    | with_reducible apply Keeps.foldl
    | with_reducible apply Keeps.foldr
    | split)

theorem keeps_updRow {m : Nat} (hm : sub 0x2000000000000 m) {s t : State} {a0 a1 a2 : _} (h : Keeps m s t) : Keeps m s (updRow a0 a1 a2 t) := by
  unfold updRow
  try dsimp only
  repeat' (first | with_reducible assumption | exact sub_trans (by decide) hm | with_reducible apply keeps_updWpe)

theorem keeps_startSkim {m : Nat} (hm : sub 0x2780000000008 m) {s t : State} {a0 a1 a3 : _} (h : Keeps m s t) : Keeps m s (startSkim a0 a1 t a3) := by
  unfold startSkim
  try dsimp only
  repeat' (first
    | with_reducible assumption
    | exact sub_trans (by decide) hm
    | with_reducible apply keeps_updRow
    | refine keeps_addSkimCws ?_ ?_ (by with_reducible assumption)
    | with_reducible apply keeps_addSkimCws'
    | with_reducible apply keeps_enqueue
    | with_reducible apply Keeps.foldl
    | with_reducible apply Keeps.foldr
    | split
    | (intro; try dsimp only))

theorem keeps_rowProgCheck {m : Nat} (hm : sub 0xa781000000008 m) {s t : State} {a0 a1 : _} (h : Keeps m s t) : Keeps m s (rowProgCheck a0 a1 t) := by
  unfold rowProgCheck
  try dsimp only
  repeat' (first
    | with_reducible assumption
    | exact sub_trans (by decide) hm
    | with_reducible apply keeps_updStripe
    | with_reducible apply keeps_updRow
    | with_reducible apply keeps_issue
    | with_reducible apply keeps_startSkim
    | with_reducible apply Keeps.foldl
    | with_reducible apply Keeps.foldr
    | split
    | (intro; try dsimp only))

theorem keeps_dropVat {m : Nat} (hm : sub 0x10200000010000d m) {s t : State} {a0 : _} (h : Keeps m s t) : Keeps m s (dropVat a0 t) := by
  unfold dropVat
  try dsimp only
  repeat' (first
    | with_reducible assumption
    | exact sub_trans (by decide) hm
    | with_reducible apply keeps_bpmRelease
    | with_reducible apply keeps_updWpe
    | with_reducible apply Keeps.foldl
    | with_reducible apply Keeps.foldr
    | split
    | (intro; try dsimp only))

theorem keeps_rowVatCheck {m : Nat} (hm : sub 0x10204000010000d m) {s t : State} {a0 a1 : _} (h : Keeps m s t) : Keeps m s (rowVatCheck a0 a1 t) := by
  unfold rowVatCheck
  try dsimp only
  repeat' (first
    | with_reducible assumption
    | exact sub_trans (by decide) hm
    | with_reducible apply keeps_markRow
    | with_reducible apply keeps_dropVat
    | with_reducible apply Keeps.foldl
    | with_reducible apply Keeps.foldr
    | split)

theorem keeps_rowsSettle {m : Nat} (hm : sub 0x10a7c100010000d m) {s t : State} {a0 : _} (h : Keeps m s t) : Keeps m s (rowsSettle a0 t) := by
  unfold rowsSettle
  try dsimp only
  repeat' (first
    | with_reducible assumption
    | exact sub_trans (by decide) hm
    | with_reducible apply keeps_rowSkimCheck
    | with_reducible apply keeps_rowProgCheck
    | with_reducible apply keeps_rowVatCheck
    | with_reducible apply Keeps.foldl
    | with_reducible apply Keeps.foldr
    | split
    | (intro; try dsimp only))

end Sys2Proof.Machine
end

