-- ==== Sys2Proof/Laws/KeepsOpsC.lean ====
section
/-! SUPPORT. Each operation keeps the rules of `Keeps`, one lemma per operation, callees first (part 3). -/

namespace Sys2Proof.Machine

theorem keeps_issueZone {m : Nat} (hm : sub 0x8000000000000 m) {s t : State} {a0 a1 a2 a3 : _} (h : Keeps m s t) : Keeps m s (issueZone a0 a1 a2 a3 t) := by
  unfold issueZone
  try dsimp only
  repeat' (first | with_reducible assumption | exact sub_trans (by decide) hm | with_reducible apply keeps_issue)

theorem keeps_updNsCtls {m : Nat} (hm : sub 0x8000000 m) {s t : State} {a0 a1 : _} (h : Keeps m s t) : Keeps m s (updNsCtls a0 a1 t) := by
  unfold updNsCtls
  try dsimp only
  repeat' (first
    | with_reducible assumption
    | exact sub_trans (by decide) hm
    | with_reducible apply Keeps.foldl
    | with_reducible apply Keeps.foldr
    | split
    | (with_reducible apply filter_wf)
    | ((with_reducible apply Same.mk) <;> intro b <;> first | exact absurd b (by decide) | rfl)
    | with_reducible refine Keeps.mk' (a := 0x8000000) ?_ ?_ (Eq.refl _) ?_)

theorem keeps_aenNs {m : Nat} (hm : sub 0x8d600008 m) {s t : State} {a0 a1 a2 : _} (h : Keeps m s t) : Keeps m s (aenNs a0 a1 a2 t) := by
  unfold aenNs
  try dsimp only
  repeat' (first | with_reducible assumption | exact sub_trans (by decide) hm | with_reducible apply keeps_raiseAenWhere)

theorem keeps_nsChanged {m : Nat} (hm : sub 0x8d600008 m) {s t : State} {a0 : _} (h : Keeps m s t) : Keeps m s (nsChanged a0 t) := by
  unfold nsChanged
  try dsimp only
  repeat' (first
    | with_reducible assumption
    | exact sub_trans (by decide) hm
    | with_reducible apply keeps_updNsCtls
    | with_reducible apply keeps_aenNs)

theorem keeps_zoneChanged {m : Nat} (hm : sub 0x8d600008 m) {s t : State} {a0 : _} (h : Keeps m s t) : Keeps m s (zoneChanged a0 t) := by
  unfold zoneChanged
  try dsimp only
  repeat' (first
    | with_reducible assumption
    | exact sub_trans (by decide) hm
    | with_reducible apply keeps_updNsCtls
    | with_reducible apply keeps_aenNs)

theorem keeps_offlineByController {m : Nat} (hm : sub 0x800088d70000d m) {s t : State} {a0 : _} (h : Keeps m s t) : Keeps m s (offlineByController a0 t) := by
  unfold offlineByController
  try dsimp only
  repeat' (first
    | with_reducible assumption
    | exact sub_trans (by decide) hm
    | with_reducible apply keeps_updZone
    | with_reducible apply keeps_fire
    | with_reducible apply keeps_bumpF
    | with_reducible apply keeps_issueZone
    | with_reducible apply keeps_nsChanged
    | with_reducible apply keeps_zoneChanged)

theorem keeps_replenish {m : Nat} (hm : sub 0x800088d70000d m) {s t : State} (h : Keeps m s t) : Keeps m s (replenish t) := by
  unfold replenish
  try dsimp only
  repeat' (first
    | with_reducible assumption
    | exact sub_trans (by decide) hm
    | with_reducible apply keeps_offlineByController
    | with_reducible apply Keeps.foldl
    | with_reducible apply Keeps.foldr
    | split)

theorem keeps_issueMember {m : Nat} (hm : sub 0x8000000000000 m) {s t : State} {a0 a1 a2 a3 a4 : _} (h : Keeps m s t) : Keeps m s (issueMember a0 a1 a2 a3 a4 t) := by
  unfold issueMember
  try dsimp only
  repeat' (first | with_reducible assumption | exact sub_trans (by decide) hm | with_reducible apply keeps_issue)

theorem keeps_putReplacement {m : Nat} (hm : sub 0x8003800000000 m) {s t : State} {a0 a1 a2 : _} (h : Keeps m s t) : Keeps m s (putReplacement a0 a1 a2 t) := by
  unfold putReplacement
  try dsimp only
  repeat' (first
    | with_reducible assumption
    | exact sub_trans (by decide) hm
    | with_reducible apply keeps_updBlock
    | with_reducible apply keeps_updStripe
    | with_reducible apply keeps_updZone
    | with_reducible apply keeps_issueMember
    | with_reducible apply Keeps.foldl
    | with_reducible apply Keeps.foldr
    | split)

theorem keeps_setSpill {m : Nat} (hm : sub 0x1010000d m) {s t : State} {a0 : _} (h : Keeps m s t) : Keeps m s (setSpill a0 t) := by
  unfold setSpill
  try dsimp only
  repeat' (first
    | with_reducible assumption
    | exact sub_trans (by decide) hm
    | with_reducible apply keeps_fire
    | with_reducible apply Keeps.foldl
    | with_reducible apply Keeps.foldr
    | split
    | (with_reducible apply filter_wf)
    | ((with_reducible apply Same.mk) <;> intro b <;> first | exact absurd b (by decide) | rfl)
    | with_reducible refine Keeps.mk' (a := 0x1010000d) ?_ ?_ (Eq.refl _) ?_)

theorem keeps_markLost {m : Nat} (hm : sub 0x800100010000d m) {s t : State} {a0 a1 : _} (h : Keeps m s t) : Keeps m s (markLost a0 a1 t) := by
  unfold markLost
  try dsimp only
  repeat' (first
    | with_reducible assumption
    | exact sub_trans (by decide) hm
    | with_reducible apply keeps_updStripe
    | with_reducible apply keeps_issueMember
    | with_reducible apply keeps_fire
    | with_reducible apply Keeps.foldl
    | with_reducible apply Keeps.foldr
    | split)

theorem keeps_failPending {m : Nat} (hm : sub 0x10000088570000d m) {s t : State} {a0 a1 a2 : _} (h : Keeps m s t) : Keeps m s (failPending a0 a1 a2 t) := by
  unfold failPending
  try dsimp only
  repeat' (first
    | with_reducible assumption
    | exact sub_trans (by decide) hm
    | with_reducible apply keeps_finishErr
    | with_reducible apply keeps_freeVat
    | with_reducible apply keeps_updZone
    | with_reducible apply Keeps.foldl
    | with_reducible apply Keeps.foldr
    | split
    | (intro; try dsimp only))

theorem keeps_dropReserve {m : Nat} (hm : sub 0x2800000000 m) {s t : State} {a0 : _} (h : Keeps m s t) : Keeps m s (dropReserve a0 t) := by
  unfold dropReserve
  try dsimp only
  repeat' (first
    | with_reducible assumption
    | exact sub_trans (by decide) hm
    | with_reducible apply keeps_updBlock
    | with_reducible apply keeps_updZone
    | with_reducible apply Keeps.foldl
    | with_reducible apply Keeps.foldr
    | split
    | (intro; try dsimp only))

theorem keeps_sealZone {m : Nat} (hm : sub 0x2800000000 m) {s t : State} {a0 a1 a2 : _} (h : Keeps m s t) : Keeps m s (sealZone a0 a1 a2 t) := by
  unfold sealZone
  try dsimp only
  repeat' (first
    | with_reducible assumption
    | exact sub_trans (by decide) hm
    | with_reducible apply keeps_dropReserve
    | with_reducible apply keeps_updZone)

theorem keeps_zoneReadOnly {m : Nat} (hm : sub 0x10800288d70000d m) {s t : State} {a0 : _} (h : Keeps m s t) : Keeps m s (zoneReadOnly a0 t) := by
  unfold zoneReadOnly
  try dsimp only
  repeat' (first
    | with_reducible assumption
    | exact sub_trans (by decide) hm
    | with_reducible apply keeps_failPending
    | with_reducible apply keeps_issueZone
    | with_reducible apply keeps_sealZone
    | with_reducible apply keeps_zoneChanged
    | with_reducible apply keeps_fire)

theorem keeps_forgetStripe {m : Nat} (hm : sub 0x10600100010000d m) {s t : State} {a0 : _} (h : Keeps m s t) : Keeps m s (forgetStripe a0 t) := by
  unfold forgetStripe
  try dsimp only
  repeat' (first
    | with_reducible assumption
    | exact sub_trans (by decide) hm
    | with_reducible apply keeps_dropVat
    | with_reducible apply keeps_updTabs (a := 0x10600100010000d)
    | ((with_reducible apply SameTables.mk) <;> intro b <;> first | exact absurd b (by decide) | rfl)
    | with_reducible apply Keeps.foldl
    | with_reducible apply Keeps.foldr
    | split
    | (intro; try dsimp only)
    | (with_reducible apply filter_wf)
    | ((with_reducible apply Same.mk) <;> intro b <;> first | exact absurd b (by decide) | rfl)
    | with_reducible refine Keeps.mk' (a := 0x10600100010000d) ?_ ?_ (Eq.refl _) ?_)

theorem keeps_issueRelease {m : Nat} (hm : sub 0x8002000000000 m) {s t : State} {a0 : _} (h : Keeps m s t) : Keeps m s (issueRelease a0 t) := by
  unfold issueRelease
  try dsimp only
  repeat' (first
    | with_reducible assumption
    | exact sub_trans (by decide) hm
    | with_reducible apply keeps_updBlock
    | with_reducible apply keeps_issue
    | with_reducible apply Keeps.foldl
    | with_reducible apply Keeps.foldr
    | split)

theorem keeps_releaseStripe {m : Nat} (hm : sub 0x10e10300010000d m) {s t : State} {a0 : _} (h : Keeps m s t) : Keeps m s (releaseStripe a0 t) := by
  unfold releaseStripe
  try dsimp only
  repeat' (first
    | with_reducible assumption
    | exact sub_trans (by decide) hm
    | with_reducible apply keeps_forgetStripe
    | with_reducible apply keeps_dropPrograms
    | with_reducible apply keeps_issueRelease
    | with_reducible apply Keeps.foldl
    | with_reducible apply Keeps.foldr
    | split
    | (intro; try dsimp only))

theorem keeps_clearZone {m : Nat} (hm : sub 0x10e10380010000d m) {s t : State} {a0 a1 a2 a3 a4 : _} (h : Keeps m s t) : Keeps m s (clearZone a0 a1 a2 a3 a4 t) := by
  unfold clearZone
  try dsimp only
  repeat' (first
    | with_reducible assumption
    | exact sub_trans (by decide) hm
    | with_reducible apply keeps_updZone
    | with_reducible apply keeps_dropReserve
    | with_reducible apply keeps_releaseStripe
    | with_reducible apply keeps_issueZone
    | with_reducible apply Keeps.foldl
    | with_reducible apply Keeps.foldr
    | split
    | (intro; try dsimp only))

theorem keeps_shrinkZone {m : Nat} (hm : sub 0x10e10388d70000d m) {s t : State} {a0 : _} (h : Keeps m s t) : Keeps m s (shrinkZone a0 t) := by
  unfold shrinkZone
  try dsimp only
  repeat' (first
    | with_reducible assumption
    | exact sub_trans (by decide) hm
    | with_reducible apply keeps_zoneChanged
    | with_reducible apply keeps_clearZone
    | with_reducible apply keeps_updZone
    | with_reducible apply keeps_fire
    | with_reducible apply keeps_bumpF
    | with_reducible apply keeps_issueZone
    | with_reducible apply Keeps.foldl
    | with_reducible apply Keeps.foldr
    | split)

theorem keeps_replaceLost {m : Nat} (hm : sub 0x800389d70000d m) {s t : State} {a0 a1 : _} (h : Keeps m s t) : Keeps m s (replaceLost a0 a1 t) := by
  unfold replaceLost
  try dsimp only
  repeat' (first
    | with_reducible assumption
    | exact sub_trans (by decide) hm
    | with_reducible apply keeps_replenish
    | with_reducible apply keeps_putReplacement
    | with_reducible apply keeps_setSpill
    | with_reducible apply keeps_updStripe
    | with_reducible apply keeps_fire
    | with_reducible apply Keeps.foldl
    | with_reducible apply Keeps.foldr
    | split)

theorem keeps_loseMember {m : Nat} (hm : sub 0x10e10389d70000d m) {s t : State} {a0 a1 : _} (h : Keeps m s t) : Keeps m s (loseMember a0 a1 t) := by
  unfold loseMember
  try dsimp only
  repeat' (first
    | with_reducible assumption
    | exact sub_trans (by decide) hm
    | with_reducible apply keeps_replenish
    | with_reducible apply keeps_putReplacement
    | with_reducible apply keeps_setSpill
    | with_reducible apply keeps_markLost
    | with_reducible apply keeps_zoneReadOnly
    | with_reducible apply keeps_shrinkZone
    | with_reducible apply keeps_replaceLost
    | with_reducible apply Keeps.foldl
    | with_reducible apply Keeps.foldr
    | split)

theorem keeps_memberGone {m : Nat} (hm : sub 0x10e7c389d70000d m) {s t : State} {a0 a1 : _} (h : Keeps m s t) : Keeps m s (memberGone a0 a1 t) := by
  unfold memberGone
  try dsimp only
  repeat' (first
    | with_reducible assumption
    | exact sub_trans (by decide) hm
    | with_reducible apply keeps_dropSkim
    | with_reducible apply keeps_forgetMember
    | with_reducible apply keeps_dropPrograms
    | with_reducible apply keeps_rowsSettle
    | with_reducible apply keeps_loseMember)

theorem keeps_progFail {m : Nat} (hm : sub 0x10e7c389d70000d m) {s t : State} {a0 a1 : _} (h : Keeps m s t) : Keeps m s (progFail a0 a1 t) := by
  unfold progFail
  try dsimp only
  repeat' (first
    | with_reducible assumption
    | exact sub_trans (by decide) hm
    | with_reducible apply keeps_fire
    | with_reducible apply keeps_bumpF
    | with_reducible apply keeps_retireBlock
    | with_reducible apply keeps_memberGone
    | with_reducible apply Keeps.foldl
    | with_reducible apply Keeps.foldr
    | split)

theorem keeps_opAbandoned {m : Nat} (hm : sub 0x12e7c389d70000d m) {s t : State} {a0 a1 : _} (h : Keeps m s t) : Keeps m s (opAbandoned a0 a1 t) := by
  unfold opAbandoned
  try dsimp only
  repeat' (first
    | with_reducible assumption
    | exact sub_trans (by decide) hm
    | with_reducible apply keeps_updBlock
    | with_reducible apply keeps_copyFailed
    | with_reducible apply keeps_progFail
    | with_reducible apply Keeps.foldl
    | with_reducible apply Keeps.foldr
    | split)

theorem keeps_probesSettle {m : Nat} (hm : sub 0x100000010000d m) {s t : State} (h : Keeps m s t) : Keeps m s (probesSettle t) := by
  unfold probesSettle
  try dsimp only
  repeat' (first
    | with_reducible assumption
    | exact sub_trans (by decide) hm
    | with_reducible apply keeps_fire
    | with_reducible apply keeps_updRcu (a := 0x100000010000d)
    | ((with_reducible apply SameRcu.mk) <;> intro b <;> first | exact absurd b (by decide) | rfl)
    | with_reducible apply Keeps.foldl
    | with_reducible apply Keeps.foldr
    | split
    | (intro; try dsimp only))

theorem keeps_abandonProbe {m : Nat} (hm : sub 0x180000010000d m) {s t : State} {a0 : _} (h : Keeps m s t) : Keeps m s (abandonProbe a0 t) := by
  unfold abandonProbe
  try dsimp only
  repeat' (first
    | with_reducible assumption
    | exact sub_trans (by decide) hm
    | with_reducible apply keeps_probesSettle
    | with_reducible apply keeps_updAge
    | with_reducible apply Keeps.foldl
    | with_reducible apply Keeps.foldr
    | split)

theorem keeps_withdrawDie {m : Nat} (hm : sub 0x12ffc389d70000d m) {s t : State} {a0 a1 : _} (h : Keeps m s t) : Keeps m s (withdrawDie a0 a1 t) := by
  unfold withdrawDie
  try dsimp only
  repeat' (first
    | with_reducible assumption
    | exact sub_trans (by decide) hm
    | with_reducible apply keeps_updDie
    | with_reducible apply keeps_dropCw
    | with_reducible apply keeps_toL5
    | with_reducible apply keeps_opAbandoned
    | with_reducible apply keeps_abandonProbe
    | with_reducible apply Keeps.foldl
    | with_reducible apply Keeps.foldr
    | split
    | (intro; try dsimp only))

theorem keeps_voidReserve {m : Nat} (hm : sub 0x8000800000000 m) {s t : State} {a0 a1 : _} (h : Keeps m s t) : Keeps m s (voidReserve a0 a1 t) := by
  unfold voidReserve
  try dsimp only
  repeat' (first
    | with_reducible assumption
    | exact sub_trans (by decide) hm
    | with_reducible apply keeps_updZone
    | with_reducible apply keeps_issueMember)

theorem keeps_voidReserves {m : Nat} (hm : sub 0x8000800000000 m) {s t : State} {a0 : _} (h : Keeps m s t) : Keeps m s (voidReserves a0 t) := by
  unfold voidReserves
  try dsimp only
  repeat' (first
    | with_reducible assumption
    | exact sub_trans (by decide) hm
    | with_reducible apply keeps_voidReserve
    | with_reducible apply Keeps.foldl
    | with_reducible apply Keeps.foldr
    | split
    | (intro; try dsimp only))

theorem keeps_loseBlocks {m : Nat} (hm : sub 0x10e7c389d70000d m) {s t : State} {a0 : _} (h : Keeps m s t) : Keeps m s (loseBlocks a0 t) := by
  unfold loseBlocks
  try dsimp only
  repeat' (first
    | with_reducible assumption
    | exact sub_trans (by decide) hm
    | with_reducible apply keeps_dropReadyOn
    | with_reducible apply keeps_voidReserves
    | with_reducible apply keeps_memberGone
    | with_reducible apply keeps_updTabs (a := 0x10e7c389d70000d)
    | ((with_reducible apply SameTables.mk) <;> intro b <;> first | exact absurd b (by decide) | rfl)
    | with_reducible apply Keeps.foldl
    | with_reducible apply Keeps.foldr
    | split
    | (intro; try dsimp only))

theorem keeps_loseDie {m : Nat} (hm : sub 0x12ffd389d70000d m) {s t : State} {a0 : _} (h : Keeps m s t) : Keeps m s (loseDie a0 t) := by
  unfold loseDie
  try dsimp only
  repeat' (first
    | with_reducible assumption
    | exact sub_trans (by decide) hm
    | with_reducible apply keeps_updTabs (a := 0x12ffd389d70000d)
    | ((with_reducible apply SameTables.mk) <;> intro b <;> first | exact absurd b (by decide) | rfl)
    | with_reducible apply keeps_fire
    | with_reducible apply keeps_withdrawDie
    | with_reducible apply keeps_loseBlocks
    | with_reducible apply keeps_issue
    | with_reducible apply Keeps.foldl
    | with_reducible apply Keeps.foldr
    | split
    | (intro; try dsimp only))

theorem keeps_requeue {m : Nat} (hm : sub 0x100000000000 m) {s t : State} {a0 a1 : _} (h : Keeps m s t) : Keeps m s (requeue a0 a1 t) := by
  unfold requeue
  try dsimp only
  repeat' (first | with_reducible assumption | exact sub_trans (by decide) hm | with_reducible apply keeps_updDie)

theorem keeps_eraseAgain {m : Nat} (hm : sub 0x2000000000 m) {s t : State} {a0 : _} (h : Keeps m s t) : Keeps m s (eraseAgain a0 t) := by
  unfold eraseAgain
  try dsimp only
  repeat' (first | with_reducible assumption | exact sub_trans (by decide) hm | with_reducible apply keeps_updBlock)

theorem keeps_spillSettle {m : Nat} (hm : sub 0x10000000 m) {s t : State} (h : Keeps m s t) : Keeps m s (spillSettle t) := by
  unfold spillSettle
  try dsimp only
  repeat' (first
    | with_reducible assumption
    | exact sub_trans (by decide) hm
    | with_reducible apply Keeps.foldl
    | with_reducible apply Keeps.foldr
    | split
    | (intro; try dsimp only)
    | (with_reducible apply filter_wf)
    | ((with_reducible apply Same.mk) <;> intro b <;> first | exact absurd b (by decide) | rfl)
    | with_reducible refine Keeps.mk' (a := 0x10000000) ?_ ?_ (Eq.refl _) ?_)

theorem keeps_zmSettle {m : Nat} (hm : sub 0x400009d70000d m) {s t : State} {a0 : _} (h : Keeps m s t) : Keeps m s (zmSettle a0 t) := by
  unfold zmSettle
  try dsimp only
  repeat' (first
    | with_reducible assumption
    | exact sub_trans (by decide) hm
    | with_reducible apply keeps_fire
    | with_reducible apply keeps_spillSettle
    | with_reducible apply keeps_updMme
    | with_reducible apply keeps_nsChanged
    | with_reducible apply Keeps.foldl
    | with_reducible apply Keeps.foldr
    | split
    | (intro; try dsimp only))

theorem keeps_tryResume {m : Nat} (hm : sub 0x180000000008 m) {s t : State} {a0 : _} (h : Keeps m s t) : Keeps m s (tryResume a0 t) := by
  unfold tryResume
  try dsimp only
  repeat' (first
    | with_reducible assumption
    | exact sub_trans (by decide) hm
    | with_reducible apply keeps_sendTower
    | with_reducible apply keeps_updDie
    | with_reducible apply Keeps.foldl
    | with_reducible apply Keeps.foldr
    | split)

theorem keeps_dieNext {m : Nat} (hm : sub 0x180000000008 m) {s t : State} {a0 : _} (h : Keeps m s t) : Keeps m s (dieNext a0 t) := by
  unfold dieNext
  try dsimp only
  repeat' (first
    | with_reducible assumption
    | exact sub_trans (by decide) hm
    | with_reducible apply keeps_trySuspend
    | with_reducible apply keeps_tryResume)

theorem keeps_execEraseVerifyDone {m : Nat} (hm : sub 0x12ffd389d70000d m) {s t : State} {a0 a1 a2 : _} (h : Keeps m s t) : KeepsOut m s (execEraseVerifyDone a0 a1 a2 t) := by
  unfold execEraseVerifyDone
  try dsimp only
  repeat' (first
    | with_reducible assumption
    | exact sub_trans (by decide) hm
    | with_reducible apply Keeps.next
    | with_reducible apply keeps_endOp
    | with_reducible apply keeps_issueHeader
    | with_reducible apply keeps_retireBlock
    | with_reducible apply keeps_issueErase
    | with_reducible apply keeps_loseDie
    | with_reducible apply keeps_requeue
    | with_reducible apply keeps_eraseAgain
    | with_reducible apply keeps_zmSettle
    | with_reducible apply keeps_dieNext
    | with_reducible apply Keeps.foldl
    | with_reducible apply Keeps.foldr
    | split)

theorem keeps_sirReply {m : Nat} (hm : sub 0xc5600008 m) {s t : State} {a0 a1 a2 a3 a4 a5 : _} (h : Keeps m s t) : Keeps m s (sirReply a0 a1 a2 a3 a4 a5 t) := by
  unfold sirReply
  try dsimp only
  repeat' (first | with_reducible assumption | exact sub_trans (by decide) hm | with_reducible apply keeps_sirDeliver)

theorem keeps_updPath {m : Nat} (hm : sub 0x40000000 m) {s t : State} {a0 a1 : _} (h : Keeps m s t) : Keeps m s (updPath a0 a1 t) := by
  unfold updPath
  try dsimp only
  repeat' (first
    | with_reducible assumption
    | exact sub_trans (by decide) hm
    | with_reducible apply keeps_updMgc (a := 0x40000000)
    | ((with_reducible apply SameMgc.mk) <;> intro b <;> first | exact absurd b (by decide) | rfl)
    | with_reducible apply Keeps.foldl
    | with_reducible apply Keeps.foldr
    | split
    | (intro; try dsimp only))

theorem keeps_closeAssembly {m : Nat} (hm : sub 0x40000000 m) {s t : State} {a0 : _} (h : Keeps m s t) : Keeps m s (closeAssembly a0 t) := by
  unfold closeAssembly
  try dsimp only
  repeat' (first | with_reducible assumption | exact sub_trans (by decide) hm | with_reducible apply keeps_updPath)

theorem keeps_slowAdmit {m : Nat} (hm : sub 0x84000000 m) {s t : State} {a0 : _} (h : Keeps m s t) : Keeps m s (slowAdmit a0 t) := by
  unfold slowAdmit
  try dsimp only
  repeat' (first
    | with_reducible assumption
    | exact sub_trans (by decide) hm
    | with_reducible apply keeps_updMgc (a := 0x84000000)
    | ((with_reducible apply SameMgc.mk) <;> intro b <;> first | exact absurd b (by decide) | rfl)
    | with_reducible apply keeps_updTask
    | with_reducible apply Keeps.foldl
    | with_reducible apply Keeps.foldr
    | split
    | (intro; try dsimp only))

theorem keeps_sirTake {m : Nat} (hm : sub 0xc5600009 m) {s t : State} {a0 a1 a2 a3 a4 a5 a6 : _} (h : Keeps m s t) : Keeps m s (sirTake a0 a1 a2 a3 a4 a5 a6 t) := by
  unfold sirTake
  try dsimp only
  repeat' (first
    | with_reducible assumption
    | exact sub_trans (by decide) hm
    | with_reducible apply keeps_updPath
    | with_reducible apply keeps_updTask
    | with_reducible apply keeps_slowAdmit
    | with_reducible apply keeps_sirReply
    | with_reducible apply keeps_bumpF
    | with_reducible apply Keeps.foldl
    | with_reducible apply Keeps.foldr
    | split)

theorem keeps_sirWhole {m : Nat} (hm : sub 0xc5600009 m) {s t : State} {a0 a1 a2 a3 : _} (h : Keeps m s t) : Keeps m s (sirWhole a0 a1 a2 a3 t) := by
  unfold sirWhole
  try dsimp only
  repeat' (first
    | with_reducible assumption
    | exact sub_trans (by decide) hm
    | with_reducible apply keeps_sirReply
    | with_reducible apply keeps_updPath
    | with_reducible apply keeps_closeAssembly
    | with_reducible apply keeps_sirTake
    | with_reducible apply Keeps.foldl
    | with_reducible apply Keeps.foldr
    | split)

theorem keeps_sirPacket {m : Nat} (hm : sub 0xc5600009 m) {s t : State} {a0 a1 a2 a3 : _} (h : Keeps m s t) : Keeps m s (sirPacket a0 a1 a2 a3 t) := by
  unfold sirPacket
  try dsimp only
  repeat' (first
    | with_reducible assumption
    | exact sub_trans (by decide) hm
    | with_reducible apply keeps_sirDeliver
    | with_reducible apply keeps_sirWhole
    | with_reducible apply keeps_sirReply
    | with_reducible apply keeps_closeAssembly
    | with_reducible apply Keeps.foldl
    | with_reducible apply Keeps.foldr
    | split)

theorem keeps_taskGo {m : Nat} (hm : sub 0x2c5600009 m) {s t : State} (h : Keeps m s t) : Keeps m s (taskGo t) := by
  unfold taskGo
  split
  · exact keeps_updMgc (a := 0x2c5600009) hm (fun _ => by apply SameMgc.mk <;> intro b <;> first | exact absurd b (by decide) | rfl) (fun _ hm => hm) (fun _ hm => hm) h
  · exact keeps_sirPacket (sub_trans (by decide) hm) (keeps_updMgc (a := 0x2c5600009) hm (fun _ => by apply SameMgc.mk <;> intro b <;> first | exact absurd b (by decide) | rfl) (fun _ hm => hm) (fun _ _ => Nat.le_succ 1) h)

theorem keeps_cccReply {m : Nat} (hm : sub 0x8 m) {s t : State} {a0 a1 : _} (h : Keeps m s t) : Keeps m s (cccReply a0 a1 t) := by
  unfold cccReply
  try dsimp only
  repeat' (first
    | with_reducible assumption
    | exact sub_trans (by decide) hm
    | with_reducible apply keeps_emit
    | with_reducible apply Keeps.foldl
    | with_reducible apply Keeps.foldr
    | split)

theorem keeps_execGetpid {m : Nat} (hm : sub 0x8 m) {s t : State} (h : Keeps m s t) : KeepsOut m s (execGetpid t) := by
  unfold execGetpid
  try dsimp only
  repeat' (first
    | with_reducible assumption
    | exact sub_trans (by decide) hm
    | with_reducible apply Keeps.next
    | with_reducible apply keeps_cccReply)

theorem keeps_updLane {m : Nat} (hm : sub 0x800000 m) {s t : State} {a0 a1 : _} (h : Keeps m s t) : Keeps m s (updLane a0 a1 t) := by
  unfold updLane
  try dsimp only
  repeat' (first
    | with_reducible assumption
    | exact sub_trans (by decide) hm
    | with_reducible apply keeps_updHfe (a := 0x800000)
    | ((with_reducible apply SameHfe.mk) <;> intro b <;> first | exact absurd b (by decide) | rfl)
    | with_reducible apply Keeps.foldl
    | with_reducible apply Keeps.foldr
    | split
    | (intro; try dsimp only))

theorem keeps_portOff {m : Nat} (hm : sub 0xd1000d m) {s t : State} {a0 : _} (h : Keeps m s t) : Keeps m s (portOff a0 t) := by
  unfold portOff
  try dsimp only
  repeat' (first
    | with_reducible assumption
    | exact sub_trans (by decide) hm
    | with_reducible apply keeps_updLane
    | with_reducible apply keeps_updPort
    | with_reducible apply keeps_ptpPortDown
    | with_reducible apply Keeps.foldl
    | with_reducible apply Keeps.foldr
    | split
    | (intro; try dsimp only))

theorem keeps_portTrain {m : Nat} (hm : sub 0xd1000d m) {s t : State} {a0 a1 a2 : _} (h : Keeps m s t) : Keeps m s (portTrain a0 a1 a2 t) := by
  unfold portTrain
  try dsimp only
  repeat' (first
    | with_reducible assumption
    | exact sub_trans (by decide) hm
    | with_reducible apply keeps_updPort
    | with_reducible apply keeps_portOff)

theorem keeps_trainSettle {m : Nat} (hm : sub 0x2000000 m) {s t : State} (h : Keeps m s t) : Keeps m s (trainSettle t) := by
  unfold trainSettle
  try dsimp only
  repeat' (first
    | with_reducible assumption
    | exact sub_trans (by decide) hm
    | with_reducible apply keeps_updHfe (a := 0x2000000)
    | ((with_reducible apply SameHfe.mk) <;> intro b <;> first | exact absurd b (by decide) | rfl)
    | with_reducible apply Keeps.foldl
    | with_reducible apply Keeps.foldr
    | split
    | (intro; try dsimp only))

theorem keeps_portDown {m : Nat} (hm : sub 0x2d1000d m) {s t : State} {a0 : _} (h : Keeps m s t) : Keeps m s (portDown a0 t) := by
  unfold portDown
  try dsimp only
  repeat' (first
    | with_reducible assumption
    | exact sub_trans (by decide) hm
    | with_reducible apply keeps_trainSettle
    | with_reducible apply keeps_fire
    | with_reducible apply keeps_portOff)

theorem keeps_narrow {m : Nat} (hm : sub 0x2d1000d m) {s t : State} {a0 a1 : _} (h : Keeps m s t) : Keeps m s (narrow a0 a1 t) := by
  unfold narrow
  try dsimp only
  repeat' (first
    | with_reducible assumption
    | exact sub_trans (by decide) hm
    | with_reducible apply keeps_portTrain
    | with_reducible apply keeps_portDown
    | with_reducible apply Keeps.foldl
    | with_reducible apply Keeps.foldr
    | split)

theorem keeps_execTaskReplyDone {m : Nat} (hm : sub 0x240000008 m) {s t : State} (h : Keeps m s t) : KeepsOut m s (execTaskReplyDone t) := by
  have key : ∀ b r : List Nat, Keeps m s (updMgc (fun m => { m with
      buf := (List.range b.length).foldl (fun m i => mapSet 0 m i (BitVec.ofNat 8 (b.getD i 0))) m.buf, taskSt := 2, replyLen := b.length })
      (updPath 0 (fun x => { x with ready := none }) t)) := fun b _ =>
    keeps_updMgc (a := 0x240000008) hm (fun _ => by apply SameMgc.mk <;> intro b <;> first | exact absurd b (by decide) | rfl) (fun _ hm => mapWf_foldl (fun _ _ hm => mapSet_wf hm) hm) (fun _ _ => Nat.le_refl _) (keeps_updPath (sub_trans (by decide) hm) h)
  unfold execTaskReplyDone
  split
  · exact h.next
  · split
    · exact h.next
    · dsimp only
      split
      · exact (keeps_emit (sub_trans (by decide) hm) (key _ [])).next
      · exact (key _ []).next

theorem keeps_abandonActivation {m : Nat} (hm : sub 0x1c578000d m) {s t : State} {a0 a1 : _} (h : Keeps m s t) : Keeps m s (abandonActivation a0 a1 t) := by
  unfold abandonActivation
  try dsimp only
  repeat' (first
    | with_reducible assumption
    | exact sub_trans (by decide) hm
    | with_reducible apply keeps_updMgc (a := 0x1c578000d)
    | ((with_reducible apply SameMgc.mk) <;> intro b <;> first | exact absurd b (by decide) | rfl)
    | with_reducible apply keeps_fire
    | with_reducible apply keeps_answerJob
    | with_reducible apply keeps_updFws (a := 0x1c578000d)
    | ((with_reducible apply SameFws.mk) <;> intro b <;> first | exact absurd b (by decide) | rfl)
    | with_reducible apply Keeps.foldl
    | with_reducible apply Keeps.foldr
    | split
    | (intro; try dsimp only))

theorem keeps_takeStripe {m : Nat} (hm : sub 0x4003000000000 m) {s t u : State} {a0 a1 : _} {x0 : _} (h : Keeps m s t) (e : (takeStripe a0 a1 t) = (x0, u)) : Keeps m s u := by
  unfold takeStripe at e
  try dsimp only at e
  repeat' (first | contradiction | (cases e) | (split at e))
  repeat' (first
    | with_reducible assumption
    | exact sub_trans (by decide) hm
    | with_reducible apply keeps_dropEntry
    | with_reducible apply keeps_updStripe
    | with_reducible apply keeps_updBlock
    | with_reducible apply Keeps.foldl
    | with_reducible apply Keeps.foldr
    | split
    | (intro; try dsimp only))
theorem keeps_takeStripe' {m : Nat} (hm : sub 0x4003000000000 m) {s t : State} {a0 a1 : _} (h : Keeps m s t) : Keeps m s (takeStripe a0 a1 t).2 := keeps_takeStripe hm (x0 := (takeStripe a0 a1 t).1) h rfl

theorem keeps_adminRun {m : Nat} (hm : sub 0x85600008 m) {s t : State} {a0 a1 : _} {a2 : Task → Ctl → State → State} (h : Keeps m s t)
    (h2 : ∀ x y u, Keeps m s u → Keeps m s (a2 x y u)) : Keeps m s (adminRun a0 a1 a2 t) := by
  unfold adminRun
  dsimp only
  repeat' split
  · exact h
  · exact keeps_finishErr (sub_trans (by decide) hm) h
  · exact keeps_finishErr (sub_trans (by decide) hm) h
  · exact keeps_finishErr (sub_trans (by decide) hm) h
  · exact h2 _ _ _ h

theorem keeps_replyData {m : Nat} (hm : sub 0x85600008 m) {s t : State} {a0 a1 : _} (h : Keeps m s t) : Keeps m s (replyData a0 a1 t) := by
  unfold replyData
  try dsimp only
  repeat' (first
    | with_reducible assumption
    | exact sub_trans (by decide) hm
    | with_reducible apply keeps_finishOk
    | with_reducible apply keeps_emit
    | with_reducible apply keeps_transmit)

theorem keeps_replyFixed {m : Nat} (hm : sub 0x85600008 m) {s t : State} {a0 a1 : _} (h : Keeps m s t) : Keeps m s (replyFixed a0 a1 t) := by
  unfold replyFixed
  try dsimp only
  repeat' (first
    | with_reducible assumption
    | exact sub_trans (by decide) hm
    | with_reducible apply keeps_finishErr
    | with_reducible apply keeps_replyData
    | with_reducible apply Keeps.foldl
    | with_reducible apply Keeps.foldr
    | split)

theorem keeps_execIdentify {m : Nat} (hm : sub 0x85600008 m) {s t : State} {a0 : _} (h : Keeps m s t) : KeepsOut m s (execIdentify a0 t) := by
  unfold execIdentify
  try dsimp only
  repeat' (first
    | with_reducible assumption
    | exact sub_trans (by decide) hm
    | with_reducible apply Keeps.next
    | with_reducible apply keeps_adminRun
    | with_reducible apply keeps_finishErr
    | with_reducible apply keeps_replyFixed
    | with_reducible apply Keeps.foldl
    | with_reducible apply Keeps.foldr
    | split
    | (intro; try dsimp only))

theorem keeps_resumeLane {m : Nat} (hm : sub 0x80000000000000 m) {s t : State} {a1 : _} (h : Keeps m s t) : Keeps m s (resumeLane t a1) := by
  unfold resumeLane
  try dsimp only
  repeat' (first
    | with_reducible assumption
    | exact sub_trans (by decide) hm
    | with_reducible apply keeps_updIte
    | with_reducible apply Keeps.foldl
    | with_reducible apply Keeps.foldr
    | split)

theorem keeps_iteTick {m : Nat} (hm : sub 0x80000000000000 m) {s t : State} (h : Keeps m s t) : Keeps m s (iteTick t) := by
  unfold iteTick
  try dsimp only
  repeat' (first
    | with_reducible assumption
    | exact sub_trans (by decide) hm
    | with_reducible apply keeps_resumeLane
    | with_reducible apply keeps_updIte
    | with_reducible apply Keeps.foldl
    | with_reducible apply Keeps.foldr
    | split
    | (intro; try dsimp only))

theorem keeps_tuTick {m : Nat} (hm : sub 0x10000 m) {s t : State} (h : Keeps m s t) : Keeps m s (tuTick t) := by
  unfold tuTick
  try dsimp only
  repeat' (first
    | with_reducible assumption
    | exact sub_trans (by decide) hm
    | with_reducible apply Keeps.foldl
    | with_reducible apply Keeps.foldr
    | split
    | (with_reducible apply filter_wf)
    | ((with_reducible apply Same.mk) <;> intro b <;> first | exact absurd b (by decide) | rfl)
    | with_reducible refine Keeps.mk' (a := 0x10000) ?_ ?_ (Eq.refl _) ?_)

theorem keeps_blockTick {m : Nat} (hm : sub 0x1cffc69cdf11bed m) {s t : State} (h : Keeps m s t) : Keeps m s (blockTick t) := by
  unfold blockTick
  try dsimp only
  repeat' (first
    | with_reducible assumption
    | exact sub_trans (by decide) hm
    | with_reducible apply keeps_quiesceAdvance
    | with_reducible apply keeps_releaseHeld
    | with_reducible apply keeps_iteTick
    | with_reducible apply keeps_tuTick)

theorem keeps_resetDev {m : Nat} (hm : sub 0x3fff9fffffc7fe3 m) {s t : State} (h : Keeps m s t) : Keeps m s (resetDev t) :=
  h.step' hm (by apply Same.mk <;> intro b <;> first | exact absurd b (by decide) | rfl) ⟨rfl, rfl, id, Nat.le_refl _, List.suffix_refl _, fun w => filter_wf w, fun _ => rfl, fun _ => Nat.zero_le _, fun _ => rfl,
    fun _ => Nat.zero_le _, fun _ => Nat.zero_le _⟩

theorem keeps_powerOff {m : Nat} (hm : sub 0x3fff9ffffffffe3 m) {s t : State} {a0 a1 : _} (h : Keeps m s t) : Keeps m s (powerOff a0 a1 t) :=
  h.step' hm (by apply Same.mk <;> intro b <;> first | exact absurd b (by decide) | rfl) ⟨rfl, rfl, id, Nat.le_refl _, List.suffix_refl _, fun _ => rfl, fun _ => rfl, fun _ => Nat.zero_le _, fun _ => rfl,
    fun _ => Nat.zero_le _, fun _ => Nat.zero_le _⟩

theorem keeps_execPorstNAssert {m : Nat} (hm : sub 0x3fff9ffffffffe3 m) {s t : State} {a0 : _} (h : Keeps m s t) : KeepsOut m s (execPorstNAssert a0 t) := by
  unfold execPorstNAssert
  try dsimp only
  repeat' (first
    | with_reducible assumption
    | exact sub_trans (by decide) hm
    | with_reducible apply Keeps.next
    | with_reducible apply keeps_powerOff)

theorem keeps_beginBoot {m : Nat} (hm : sub 0x421080ad m) {s t : State} (h : Keeps m s t) : Keeps m s (beginBoot t) := by
  unfold beginBoot
  try dsimp only
  repeat' (first
    | with_reducible assumption
    | exact sub_trans (by decide) hm
    | with_reducible apply keeps_setF
    | with_reducible apply keeps_enterDev
    | with_reducible apply keeps_fire
    | with_reducible apply Keeps.foldl
    | with_reducible apply Keeps.foldr
    | split
    | (with_reducible apply filter_wf)
    | ((with_reducible apply Same.mk) <;> intro b <;> first | exact absurd b (by decide) | rfl)
    | with_reducible refine Keeps.mk' (a := 0x421080ad) ?_ ?_ (Eq.refl _) ?_)

theorem keeps_enterCoast {m : Nat} (hm : sub 0x10800d m) {s t : State} (h : Keeps m s t) : Keeps m s (enterCoast t) := by
  unfold enterCoast
  try dsimp only
  repeat' (first
    | with_reducible assumption
    | exact sub_trans (by decide) hm
    | with_reducible apply keeps_updCru
    | with_reducible apply keeps_requestSwitch)

theorem keeps_doubleFault {m : Nat} (hm : sub 0xd0800d m) {s t : State} (h : Keeps m s t) : Keeps m s (doubleFault t) := by
  unfold doubleFault
  try dsimp only
  repeat' (first
    | with_reducible assumption
    | exact sub_trans (by decide) hm
    | with_reducible apply keeps_fire
    | with_reducible apply keeps_hfePortsDown
    | with_reducible apply keeps_updCru
    | with_reducible apply Keeps.foldl
    | with_reducible apply Keeps.foldr
    | split)

theorem keeps_execPorstNRelease {m : Nat} (hm : sub 0x42d280ad m) {s t : State} {a0 a1 a2 a3 a4 a5 : _} (h : Keeps m s t) : KeepsOut m s (execPorstNRelease a0 a1 a2 a3 a4 a5 t) := by
  unfold execPorstNRelease
  try dsimp only
  repeat' (first
    | with_reducible assumption
    | exact sub_trans (by decide) hm
    | with_reducible apply Keeps.next
    | with_reducible apply keeps_updPad
    | with_reducible apply keeps_setF
    | with_reducible apply keeps_updCru
    | with_reducible apply keeps_beginBoot
    | with_reducible apply keeps_fire
    | with_reducible apply keeps_enterCoast
    | with_reducible apply keeps_doubleFault
    | with_reducible apply Keeps.foldl
    | with_reducible apply Keeps.foldr
    | split)

theorem keeps_execRailFail {m : Nat} (hm : sub 0x3fff9ffffffffe3 m) {s t : State} {a0 : _} (h : Keeps m s t) : KeepsOut m s (execRailFail a0 t) := by
  unfold execRailFail
  try dsimp only
  repeat' (first
    | with_reducible assumption
    | exact sub_trans (by decide) hm
    | with_reducible apply Keeps.next
    | with_reducible apply keeps_powerOff)

theorem keeps_portTrainFull {m : Nat} (hm : sub 0xd1000d m) {s t : State} {a0 : _} (h : Keeps m s t) : Keeps m s (portTrainFull a0 t) := by
  unfold portTrainFull
  try dsimp only
  repeat' (first
    | with_reducible assumption
    | exact sub_trans (by decide) hm
    | with_reducible apply keeps_portTrain
    | with_reducible apply Keeps.foldl
    | with_reducible apply Keeps.foldr
    | split)

theorem keeps_execSignatureCheckDone {m : Nat} (hm : sub 0x80000d1800d m) {s t : State} (h : Keeps m s t) : KeepsOut m s (execSignatureCheckDone t) := by
  unfold execSignatureCheckDone
  try dsimp only
  repeat' (first
    | with_reducible assumption
    | exact sub_trans (by decide) hm
    | with_reducible apply Keeps.next
    | with_reducible apply keeps_updCru
    | with_reducible apply keeps_startTraining
    | with_reducible apply keeps_portTrainFull
    | with_reducible apply Keeps.foldl
    | with_reducible apply Keeps.foldr
    | split
    | (intro; try dsimp only))

theorem keeps_saveSetting {m : Nat} (hm : sub 0x40000 m) {s t : State} {a0 a1 : _} (h : Keeps m s t) : Keeps m s (saveSetting a0 a1 t) := by
  unfold saveSetting
  try dsimp only
  repeat' (first
    | with_reducible assumption
    | exact sub_trans (by decide) hm
    | with_reducible apply Keeps.foldl
    | with_reducible apply Keeps.foldr
    | split
    | (with_reducible apply filter_wf)
    | ((with_reducible apply Same.mk) <;> intro b <;> first | exact absurd b (by decide) | rfl)
    | with_reducible refine Keeps.mk' (a := 0x40000) ?_ ?_ (Eq.refl _) ?_)

theorem keeps_execDramTrainingDone {m : Nat} (hm : sub 0x30000000014800d m) {s t : State} {a0 a1 a2 a3 a4 a5 : _} (h : Keeps m s t) : KeepsOut m s (execDramTrainingDone a0 a1 a2 a3 a4 a5 t) := by
  unfold execDramTrainingDone
  try dsimp only
  repeat' (first
    | with_reducible assumption
    | exact sub_trans (by decide) hm
    | with_reducible apply Keeps.next
    | with_reducible apply keeps_updDmc
    | with_reducible apply keeps_saveSetting
    | with_reducible apply keeps_fire
    | with_reducible apply keeps_setF
    | with_reducible apply keeps_bpmInit
    | with_reducible apply keeps_updCru
    | with_reducible apply Keeps.foldl
    | with_reducible apply Keeps.foldr
    | split)

theorem keeps_execAdminServedPoint {m : Nat} (hm : sub 0x4000004010a0ad m) {s t : State} (h : Keeps m s t) : KeepsOut m s (execAdminServedPoint t) := by
  unfold execAdminServedPoint
  try dsimp only
  repeat' (first
    | with_reducible assumption
    | exact sub_trans (by decide) hm
    | with_reducible apply Keeps.next
    | with_reducible apply keeps_updCru
    | with_reducible apply keeps_updJnl (a := 0x4000004010a0ad)
    | ((with_reducible apply SameJnl.mk) <;> intro b <;> first | exact absurd b (by decide) | rfl)
    | with_reducible apply keeps_enterDev
    | with_reducible apply keeps_updTop (a := 0x4000004010a0ad)
    | ((with_reducible apply SameTop.mk) <;> intro b <;> first | exact absurd b (by decide) | rfl)
    | with_reducible apply Keeps.foldl
    | with_reducible apply Keeps.foldr
    | split
    | (intro; try dsimp only))

theorem keeps_keepLost {m : Nat} (hm : sub 0x10000000000 m) {s t : State} {a0 : _} (h : Keeps m s t) : Keeps m s (keepLost a0 t) := by
  unfold keepLost
  try dsimp only
  repeat' (first
    | with_reducible assumption
    | exact sub_trans (by decide) hm
    | with_reducible apply keeps_updTabs (a := 0x10000000000)
    | ((with_reducible apply SameTables.mk) <;> intro b <;> first | exact absurd b (by decide) | rfl)
    | with_reducible apply Keeps.foldl
    | with_reducible apply Keeps.foldr
    | split
    | (intro; try dsimp only))

theorem keeps_replayTables {m : Nat} (hm : sub 0x1807fc00000000 m) {s t : State} (h : Keeps m s t) : Keeps m s (replayTables t) := by
  unfold replayTables
  try dsimp only
  repeat' (first
    | with_reducible assumption
    | exact sub_trans (by decide) hm
    | with_reducible apply keeps_updJnl (a := 0x1807fc00000000)
    | ((with_reducible apply SameJnl.mk) <;> intro b <;> first | exact absurd b (by decide) | rfl)
    | with_reducible apply Keeps.foldl
    | with_reducible apply Keeps.foldr
    | split
    | (intro; try dsimp only)
    | (with_reducible apply filter_wf)
    | ((with_reducible apply Same.mk) <;> intro b <;> first | exact absurd b (by decide) | rfl)
    | with_reducible refine Keeps.mk' (a := 0x1807fc00000000) ?_ ?_ (Eq.refl _) ?_)

theorem keeps_markGap {m : Nat} (hm : sub 0x4000008d600008 m) {s t : State} (h : Keeps m s t) : Keeps m s (markGap t) := by
  unfold markGap
  try dsimp only
  repeat' (first
    | with_reducible assumption
    | exact sub_trans (by decide) hm
    | with_reducible apply keeps_raiseAenAll
    | with_reducible apply keeps_updJnl (a := 0x4000008d600008)
    | ((with_reducible apply SameJnl.mk) <;> intro b <;> first | exact absurd b (by decide) | rfl)
    | with_reducible apply Keeps.foldl
    | with_reducible apply Keeps.foldr
    | split
    | (intro; try dsimp only))

theorem keeps_markUnsafe {m : Nat} (hm : sub 0x4000000010400d m) {s t : State} (h : Keeps m s t) : Keeps m s (markUnsafe t) := by
  unfold markUnsafe
  try dsimp only
  repeat' (first
    | with_reducible assumption
    | exact sub_trans (by decide) hm
    | with_reducible apply keeps_updJnl (a := 0x4000000010400d)
    | ((with_reducible apply SameJnl.mk) <;> intro b <;> first | exact absurd b (by decide) | rfl)
    | with_reducible apply keeps_fire
    | with_reducible apply keeps_updTop (a := 0x4000000010400d)
    | ((with_reducible apply SameTop.mk) <;> intro b <;> first | exact absurd b (by decide) | rfl)
    | with_reducible apply Keeps.foldl
    | with_reducible apply Keeps.foldr
    | split
    | (intro; try dsimp only))

theorem keeps_setRegSaved {m : Nat} (hm : sub 0x40001 m) {s t : State} {a0 a1 : _} (h : Keeps m s t) : Keeps m s (setRegSaved a0 a1 t) := by
  unfold setRegSaved
  try dsimp only
  repeat' (first
    | with_reducible assumption
    | exact sub_trans (by decide) hm
    | with_reducible apply keeps_setReg
    | with_reducible apply keeps_saveSetting
    | with_reducible apply Keeps.foldl
    | with_reducible apply Keeps.foldr
    | split)

theorem keeps_suspendOwners {m : Nat} (hm : sub 0x40001 m) {s t : State} (h : Keeps m s t) : Keeps m s (suspendOwners t) := by
  unfold suspendOwners
  try dsimp only
  repeat' (first
    | with_reducible assumption
    | exact sub_trans (by decide) hm
    | with_reducible apply keeps_setRegSaved
    | with_reducible apply Keeps.foldl
    | with_reducible apply Keeps.foldr
    | split
    | (intro; try dsimp only))

theorem keeps_restoreLogs {m : Nat} (hm : sub 0x2000000000000 m) {s t : State} (h : Keeps m s t) : Keeps m s (restoreLogs t) := by
  unfold restoreLogs
  try dsimp only
  repeat' (first | with_reducible assumption | exact sub_trans (by decide) hm | with_reducible apply keeps_updWpe)

theorem keeps_carryTime {m : Nat} (hm : sub 0x11000d m) {s t : State} (h : Keeps m s t) : Keeps m s (carryTime t) := by
  unfold carryTime
  try dsimp only
  repeat' (first
    | with_reducible assumption
    | exact sub_trans (by decide) hm
    | with_reducible apply keeps_tuEnter
    | with_reducible apply keeps_updTu
    | with_reducible apply Keeps.foldl
    | with_reducible apply Keeps.foldr
    | split)

theorem keeps_areaSettle {m : Nat} (hm : sub 0x200000010000d m) {s t : State} (h : Keeps m s t) : Keeps m s (areaSettle t) := by
  unfold areaSettle
  try dsimp only
  repeat' (first
    | with_reducible assumption
    | exact sub_trans (by decide) hm
    | with_reducible apply keeps_fire
    | with_reducible apply keeps_updWpe
    | with_reducible apply Keeps.foldl
    | with_reducible apply Keeps.foldr
    | split)

theorem keeps_mirrorStart {m : Nat} (hm : sub 0x100000 m) {s t : State} (h : Keeps m s t) : Keeps m s (mirrorStart t) := by
  unfold mirrorStart
  try dsimp only
  repeat' (first
    | with_reducible assumption
    | exact sub_trans (by decide) hm
    | with_reducible apply keeps_updEvc
    | with_reducible apply Keeps.foldl
    | with_reducible apply Keeps.foldr
    | split
    | (intro; try dsimp only))

theorem keeps_loseLink {m : Nat} (hm : sub 0x12ffc389d70000d m) {s t : State} {a0 : _} (h : Keeps m s t) : Keeps m s (loseLink a0 t) := by
  unfold loseLink
  try dsimp only
  repeat' (first
    | with_reducible assumption
    | exact sub_trans (by decide) hm
    | with_reducible apply keeps_updLink
    | with_reducible apply keeps_withdrawDie
    | with_reducible apply keeps_loseBlocks
    | with_reducible apply keeps_issue
    | with_reducible apply Keeps.foldl
    | with_reducible apply Keeps.foldr
    | split
    | (intro; try dsimp only))

theorem keeps_journalLinkLost {m : Nat} (hm : sub 0x2838200010000d m) {s t : State} {a0 : _} (h : Keeps m s t) : Keeps m s (journalLinkLost a0 t) := by
  unfold journalLinkLost
  try dsimp only
  repeat' (first
    | with_reducible assumption
    | exact sub_trans (by decide) hm
    | with_reducible apply keeps_copyFailed
    | with_reducible apply Keeps.foldl
    | with_reducible apply Keeps.foldr
    | split
    | (intro; try dsimp only))

theorem keeps_linkFailActions {m : Nat} (hm : sub 0x12ffc389d70000d m) {s t : State} {a0 : _} (h : Keeps m s t) : Keeps m s (linkFailActions a0 t) := by
  unfold linkFailActions
  try dsimp only
  repeat' (first
    | with_reducible assumption
    | exact sub_trans (by decide) hm
    | with_reducible apply keeps_withdrawDie
    | with_reducible apply keeps_journalLinkLost
    | with_reducible apply keeps_dropReadyOn
    | with_reducible apply keeps_voidReserves
    | with_reducible apply keeps_memberGone
    | with_reducible apply keeps_loseLink
    | with_reducible apply Keeps.foldl
    | with_reducible apply Keeps.foldr
    | split
    | (intro; try dsimp only))

theorem keeps_lateLosses {m : Nat} (hm : sub 0x12ffc389d70000d m) {s t : State} (h : Keeps m s t) : Keeps m s (lateLosses t) := by
  unfold lateLosses
  try dsimp only
  repeat' (first
    | with_reducible assumption
    | exact sub_trans (by decide) hm
    | with_reducible apply keeps_loseLink
    | with_reducible apply keeps_linkFailActions
    | with_reducible apply keeps_loseBlocks
    | with_reducible apply keeps_issue
    | with_reducible apply Keeps.foldl
    | with_reducible apply Keeps.foldr
    | split
    | (intro; try dsimp only))

theorem keeps_skimUnverified {m : Nat} (hm : sub 0x2780000000008 m) {s t : State} (h : Keeps m s t) : Keeps m s (skimUnverified t) := by
  unfold skimUnverified
  try dsimp only
  repeat' (first
    | with_reducible assumption
    | exact sub_trans (by decide) hm
    | with_reducible apply keeps_updRow
    | with_reducible apply keeps_startSkim
    | with_reducible apply Keeps.foldl
    | with_reducible apply Keeps.foldr
    | split
    | (intro; try dsimp only))

theorem keeps_issueProbe {m : Nat} (hm : sub 0x1b8000010000d m) {s t : State} {a1 : _} (h : Keeps m s t) : Keeps m s (issueProbe t a1) := by
  unfold issueProbe
  try dsimp only
  repeat' (first
    | with_reducible assumption
    | exact sub_trans (by decide) hm
    | with_reducible apply keeps_updAge
    | with_reducible apply keeps_abandonProbe
    | with_reducible apply keeps_enqueue
    | with_reducible apply Keeps.foldl
    | with_reducible apply Keeps.foldr
    | split)

theorem keeps_execReadsServedPoint {m : Nat} (hm : sub 0x17ffffc9d75700d m) {s t : State} (h : Keeps m s t) : KeepsOut m s (execReadsServedPoint t) := by
  unfold execReadsServedPoint
  try dsimp only
  repeat' (first
    | with_reducible assumption
    | exact sub_trans (by decide) hm
    | with_reducible apply Keeps.next
    | with_reducible apply keeps_keepLost
    | with_reducible apply keeps_replayTables
    | with_reducible apply keeps_markGap
    | with_reducible apply keeps_markUnsafe
    | with_reducible apply keeps_updJnl (a := 0x17ffffc9d75700d)
    | ((with_reducible apply SameJnl.mk) <;> intro b <;> first | exact absurd b (by decide) | rfl)
    | with_reducible apply keeps_suspendOwners
    | with_reducible apply keeps_restoreLogs
    | with_reducible apply keeps_carryTime
    | with_reducible apply keeps_updTop (a := 0x17ffffc9d75700d)
    | ((with_reducible apply SameTop.mk) <;> intro b <;> first | exact absurd b (by decide) | rfl)
    | with_reducible apply keeps_areaSettle
    | with_reducible apply keeps_ageRestore
    | with_reducible apply keeps_mirrorStart
    | with_reducible apply keeps_lateLosses
    | with_reducible apply keeps_skimUnverified
    | with_reducible apply keeps_probesSettle
    | with_reducible apply keeps_issueProbe
    | with_reducible apply keeps_jnlSettle
    | with_reducible apply keeps_zmSettle
    | with_reducible apply keeps_skimSettle
    | with_reducible apply Keeps.foldl
    | with_reducible apply Keeps.foldr
    | split
    | (intro; try dsimp only))

theorem keeps_rebaseDone {m : Nat} (hm : sub 0x8000800000000 m) {s t : State} {a0 a1 a2 : _} (h : Keeps m s t) : Keeps m s (rebaseDone a0 a1 a2 t) := by
  unfold rebaseDone
  try dsimp only
  repeat' (first
    | with_reducible assumption
    | exact sub_trans (by decide) hm
    | with_reducible apply keeps_updZone
    | with_reducible apply keeps_issue)

theorem keeps_rebaseCopied {m : Nat} (hm : sub 0x8003000000000 m) {s t : State} {a0 a1 : _} (h : Keeps m s t) : Keeps m s (rebaseCopied a0 a1 t) := by
  unfold rebaseCopied
  try dsimp only
  repeat' (first
    | with_reducible assumption
    | exact sub_trans (by decide) hm
    | with_reducible apply keeps_updStripe
    | with_reducible apply keeps_updBlock
    | with_reducible apply keeps_issue
    | with_reducible apply Keeps.foldl
    | with_reducible apply Keeps.foldr
    | split
    | (intro; try dsimp only))

theorem keeps_finishRebase {m : Nat} (hm : sub 0x8003800000000 m) {s t : State} {a0 : _} (h : Keeps m s t) : Keeps m s (finishRebase a0 t) := by
  unfold finishRebase
  try dsimp only
  repeat' (first
    | with_reducible assumption
    | exact sub_trans (by decide) hm
    | with_reducible apply keeps_rebaseDone
    | with_reducible apply keeps_rebaseCopied
    | with_reducible apply Keeps.foldl
    | with_reducible apply Keeps.foldr
    | split
    | (intro; try dsimp only))

theorem keeps_allocFrom {m : Nat} (hm : sub 0x100000000000000 m) {s t u : State} {a0 a1 a2 : _} {x0 : _} (h : Keeps m s t) (e : (allocFrom a0 a1 a2 t) = some (x0, u)) : Keeps m s u := by
  unfold allocFrom at e
  try dsimp only at e
  repeat' (first | contradiction | (cases e) | (split at e))
  repeat' (first
    | with_reducible assumption
    | exact sub_trans (by decide) hm
    | with_reducible apply keeps_updBpm
    | with_reducible apply keeps_bpmCount)

end Sys2Proof.Machine
end

