-- ==== Sys2Proof/Laws/KeepsOpsD.lean ====
section
/-! SUPPORT. Each operation keeps the rules of `Keeps`, one lemma per operation, callees first (part 4). -/

namespace Sys2Proof.Machine

theorem keeps_allocNormal {m : Nat} (hm : sub 0x100000000000000 m) {s t : State} {a0 a1 a2 a3 a5 : Nat} (h : Keeps m s t) : Keeps m s (allocNormal a0 a1 a2 a3 t a5) := by
  induction a5 generalizing t a0 with
  | zero => exact keeps_bpmAnswer (sub_trans (by decide) hm) h
  | succ n ih =>
    unfold allocNormal
    split
    · exact keeps_allocFrom (sub_trans (by decide) hm) h ‹_›
    · split
      · exact ih (keeps_bpmCount (sub_trans (by decide) hm) h)
      · split
        · exact keeps_bpmAnswer (sub_trans (by decide) hm) (keeps_bpmCount (sub_trans (by decide) hm) (keeps_updPool (sub_trans (by decide) hm) h))
        · exact keeps_bpmAnswer (sub_trans (by decide) hm) (keeps_bpmCount (sub_trans (by decide) hm) h)

theorem keeps_bpmAllocate {m : Nat} (hm : sub 0x10000000010000d m) {s t : State} {a0 a1 a2 a3 a4 : _} (h : Keeps m s t) : Keeps m s (bpmAllocate a0 a1 a2 a3 a4 t) := by
  unfold bpmAllocate
  try dsimp only
  repeat' (first
    | with_reducible assumption
    | exact sub_trans (by decide) hm
    | with_reducible apply keeps_bpmRefuse
    | with_reducible apply keeps_bpmAnswer
    | with_reducible apply keeps_bpmCount
    | refine keeps_allocFrom ?_ ?_ (by with_reducible assumption)
    | with_reducible apply keeps_allocNormal
    | with_reducible apply Keeps.foldl
    | with_reducible apply Keeps.foldr
    | split)

theorem keeps_takeBuffer {m : Nat} (hm : sub 0x10000000010000d m) {s t u : State} {a0 a1 a2 : _} {x0 : _} (h : Keeps m s t) (e : (takeBuffer a0 a1 a2 t) = (x0, u)) : Keeps m s u := by
  unfold takeBuffer at e
  try dsimp only at e
  repeat' (first | contradiction | (cases e) | (split at e))
  repeat' (first | with_reducible assumption | exact sub_trans (by decide) hm | with_reducible apply keeps_bpmAllocate)
theorem keeps_takeBuffer' {m : Nat} (hm : sub 0x10000000010000d m) {s t : State} {a0 a1 a2 : _} (h : Keeps m s t) : Keeps m s (takeBuffer a0 a1 a2 t).2 := keeps_takeBuffer hm (x0 := (takeBuffer a0 a1 a2 t).1) h rfl

theorem keeps_vatAlloc {m : Nat} (hm : sub 0x10000000010000d m) {s t u : State} {a0 a1 a3 : Nat} {x0 : _} (h : Keeps m s t) (e : vatAlloc a0 a1 t a3 = some (x0, u)) : Keeps m s u := by
  induction a3 generalizing t a1 x0 with
  | zero =>
    unfold vatAlloc at e
    split at e <;> cases e
    exact h
  | succ n ih =>
    unfold vatAlloc at e
    split at e
    · cases e; exact h
    · split at e
      · split at e
        · cases e
          exact ih (keeps_takeBuffer (sub_trans (by decide) hm) h ‹_›) ‹_›
        · cases e
      · cases e

theorem keeps_loadRow {m : Nat} (hm : sub 0x10204000010000d m) {s t : State} {a0 a1 : _} (h : Keeps m s t) : Keeps m s (loadRow a0 a1 t) := by
  unfold loadRow
  try dsimp only
  repeat' (first
    | with_reducible assumption
    | exact sub_trans (by decide) hm
    | refine keeps_vatAlloc ?_ ?_ (by with_reducible assumption)
    | with_reducible apply keeps_fillAside
    | with_reducible apply keeps_updWpe
    | with_reducible apply keeps_updUnit
    | with_reducible apply Keeps.foldl
    | with_reducible apply Keeps.foldr
    | split
    | (intro; try dsimp only))

theorem keeps_rebaseZone {m : Nat} (hm : sub 0x14e04388d70000d m) {s t u : State} {a0 : _} (h : Keeps m s t) (e : (rebaseZone a0 t) = some u) : Keeps m s u := by
  unfold rebaseZone at e
  try dsimp only at e
  repeat' (first | contradiction | (cases e) | (split at e))
  repeat' (first
    | with_reducible assumption
    | exact sub_trans (by decide) hm
    | with_reducible apply keeps_finishRebase
    | with_reducible apply keeps_updZone
    | with_reducible apply keeps_zoneChanged
    | with_reducible apply keeps_issueZone
    | with_reducible apply keeps_sealZone
    | with_reducible apply keeps_updJnl (a := 0x14e04388d70000d)
    | ((with_reducible apply SameJnl.mk) <;> intro b <;> first | exact absurd b (by decide) | rfl)
    | refine keeps_takeStripe ?_ ?_ (by with_reducible assumption)
    | with_reducible apply keeps_takeStripe'
    | with_reducible apply keeps_updStripe
    | with_reducible apply keeps_issue
    | with_reducible apply keeps_loadRow
    | with_reducible apply keeps_rebaseDone
    | with_reducible apply Keeps.foldl
    | with_reducible apply Keeps.foldr
    | split
    | (intro; try dsimp only))

theorem keeps_rebaseAll {m : Nat} (hm : sub 0x14e04388d70000d m) {s t u : State} {a1 : List Nat} (h : Keeps m s t) (e : rebaseAll t a1 = some u) : Keeps m s u := by
  induction a1 generalizing t with
  | nil => cases e; exact h
  | cons z l ih =>
    unfold rebaseAll at e
    split at e
    · cases e
    · exact ih (keeps_rebaseZone (sub_trans (by decide) hm) h ‹_›) e

theorem keeps_readBack {m : Nat} (hm : sub 0x10204000010000d m) {s t : State} {a0 a1 : _} (h : Keeps m s t) : Keeps m s (readBack a0 a1 t) := by
  unfold readBack
  try dsimp only
  repeat' (first
    | with_reducible assumption
    | exact sub_trans (by decide) hm
    | refine keeps_vatAlloc ?_ ?_ (by with_reducible assumption)
    | with_reducible apply keeps_fillAside
    | with_reducible apply keeps_updWpe
    | with_reducible apply keeps_updUnit
    | with_reducible apply Keeps.foldl
    | with_reducible apply Keeps.foldr
    | split
    | (intro; try dsimp only))

theorem keeps_loadOpenRows {m : Nat} (hm : sub 0x10204000010000d m) {s t : State} (h : Keeps m s t) : Keeps m s (loadOpenRows t) := by
  unfold loadOpenRows
  try dsimp only
  repeat' (first
    | with_reducible assumption
    | exact sub_trans (by decide) hm
    | with_reducible apply keeps_readBack
    | with_reducible apply Keeps.foldl
    | with_reducible apply Keeps.foldr
    | split
    | (intro; try dsimp only))

theorem keeps_issueBind {m : Nat} (hm : sub 0x8000000000000 m) {s t : State} {a0 : _} (h : Keeps m s t) : Keeps m s (issueBind a0 t) := by
  unfold issueBind
  try dsimp only
  repeat' (first | with_reducible assumption | exact sub_trans (by decide) hm | with_reducible apply keeps_issue)

theorem keeps_reloadUnits {m : Nat} (hm : sub 0x10204000010000d m) {s t : State} {a0 a1 a2 a3 : _} (h : Keeps m s t) : Keeps m s (reloadUnits a0 a1 a2 a3 t) := by
  unfold reloadUnits
  try dsimp only
  repeat' (first
    | with_reducible assumption
    | exact sub_trans (by decide) hm
    | refine keeps_vatAlloc ?_ ?_ (by with_reducible assumption)
    | with_reducible apply keeps_updWpe
    | with_reducible apply keeps_updUnit
    | with_reducible apply Keeps.foldl
    | with_reducible apply Keeps.foldr
    | split
    | (intro; try dsimp only))

theorem keeps_replayLog {m : Nat} (hm : sub 0x14a04100010000d m) {s t : State} {a0 : _} (h : Keeps m s t) : Keeps m s (replayLog a0 t) := by
  unfold replayLog
  try dsimp only
  repeat' (first
    | with_reducible assumption
    | exact sub_trans (by decide) hm
    | with_reducible apply keeps_updStripe
    | with_reducible apply keeps_updWpe
    | with_reducible apply keeps_updJnl (a := 0x14a04100010000d)
    | ((with_reducible apply SameJnl.mk) <;> intro b <;> first | exact absurd b (by decide) | rfl)
    | with_reducible apply keeps_issueBind
    | with_reducible apply keeps_reloadUnits
    | with_reducible apply Keeps.foldl
    | with_reducible apply Keeps.foldr
    | split
    | (intro; try dsimp only))

theorem keeps_execOpenRowReplayDone {m : Nat} (hm : sub 0x14f8438dd7010ad m) {s t : State} (h : Keeps m s t) : KeepsOut m s (execOpenRowReplayDone t) := by
  unfold execOpenRowReplayDone
  try dsimp only
  repeat' (first
    | with_reducible assumption
    | exact sub_trans (by decide) hm
    | with_reducible apply Keeps.next
    | refine keeps_rebaseAll ?_ ?_ (by with_reducible assumption)
    | with_reducible apply keeps_loadOpenRows
    | with_reducible apply keeps_replayLog
    | with_reducible apply keeps_sealDark
    | with_reducible apply keeps_updJnl (a := 0x14f8438dd7010ad)
    | ((with_reducible apply SameJnl.mk) <;> intro b <;> first | exact absurd b (by decide) | rfl)
    | with_reducible apply keeps_zmSettle
    | with_reducible apply keeps_startCkpt
    | with_reducible apply keeps_enterDev
    | with_reducible apply Keeps.foldl
    | with_reducible apply Keeps.foldr
    | split
    | (intro; try dsimp only))

theorem keeps_execQuiesceRequest {m : Nat} (hm : sub 0x14ffc69cdf11bed m) {s t : State} (h : Keeps m s t) : KeepsOut m s (execQuiesceRequest t) := by
  unfold execQuiesceRequest
  try dsimp only
  repeat' (first
    | with_reducible assumption
    | exact sub_trans (by decide) hm
    | with_reducible apply Keeps.next
    | with_reducible apply keeps_stateRequest)

theorem keeps_execRetainedRequest {m : Nat} (hm : sub 0x14ffc69cdf11bed m) {s t : State} (h : Keeps m s t) : KeepsOut m s (execRetainedRequest t) := by
  unfold execRetainedRequest
  try dsimp only
  repeat' (first
    | with_reducible assumption
    | exact sub_trans (by decide) hm
    | with_reducible apply Keeps.next
    | with_reducible apply keeps_stateRequest)

theorem keeps_execResumeRequest {m : Nat} (hm : sub 0x14ffc69cdf11bed m) {s t : State} (h : Keeps m s t) : KeepsOut m s (execResumeRequest t) := by
  unfold execResumeRequest
  try dsimp only
  repeat' (first
    | with_reducible assumption
    | exact sub_trans (by decide) hm
    | with_reducible apply Keeps.next
    | with_reducible apply keeps_stateRequest)

theorem keeps_finishRetry {m : Nat} (hm : sub 0x85600008 m) {s t : State} {a0 a1 a2 : _} (h : Keeps m s t) : Keeps m s (finishRetry a0 a1 a2 t) := by
  unfold finishRetry
  try dsimp only
  repeat' (first | with_reducible assumption | exact sub_trans (by decide) hm | with_reducible apply keeps_finish)

theorem keeps_execQuiesceDrainExpire {m : Nat} (hm : sub 0x14f3c688570080d m) {s t : State} (h : Keeps m s t) : KeepsOut m s (execQuiesceDrainExpire t) := by
  unfold execQuiesceDrainExpire
  try dsimp only
  repeat' (first
    | with_reducible assumption
    | exact sub_trans (by decide) hm
    | with_reducible apply Keeps.next
    | with_reducible apply keeps_dropWrite
    | with_reducible apply keeps_finishRetry
    | with_reducible apply keeps_quiesceAdvance
    | with_reducible apply Keeps.foldl
    | with_reducible apply Keeps.foldr
    | split
    | (intro; try dsimp only))

theorem keeps_execQuiesceComplete {m : Nat} (hm : sub 0x14f7c688df10a4d m) {s t : State} (h : Keeps m s t) : KeepsOut m s (execQuiesceComplete t) := by
  unfold execQuiesceComplete
  try dsimp only
  repeat' (first
    | with_reducible assumption
    | exact sub_trans (by decide) hm
    | with_reducible apply Keeps.next
    | with_reducible apply keeps_quiesceAdvance
    | with_reducible apply keeps_fire
    | with_reducible apply keeps_updTop (a := 0x14f7c688df10a4d)
    | ((with_reducible apply SameTop.mk) <;> intro b <;> first | exact absurd b (by decide) | rfl)
    | with_reducible apply keeps_beginRetained
    | with_reducible apply Keeps.foldl
    | with_reducible apply Keeps.foldr
    | split
    | (intro; try dsimp only))

theorem keeps_dmcEnterSelfRefresh {m : Nat} (hm : sub 0x200000000000000 m) {s t : State} (h : Keeps m s t) : Keeps m s (dmcEnterSelfRefresh t) := by
  unfold dmcEnterSelfRefresh
  try dsimp only
  repeat' (first | with_reducible assumption | exact sub_trans (by decide) hm | with_reducible apply keeps_updDmc)

theorem keeps_dmcRetainedEntry {m : Nat} (hm : sub 0x200000000000000 m) {s t : State} (h : Keeps m s t) : Keeps m s (dmcRetainedEntry t) := by
  unfold dmcRetainedEntry
  try dsimp only
  repeat' (first
    | with_reducible assumption
    | exact sub_trans (by decide) hm
    | with_reducible apply keeps_updDmc
    | with_reducible apply keeps_dmcEnterSelfRefresh)

theorem keeps_gateAll {m : Nat} (hm : sub 0x280000000000 m) {s t : State} (h : Keeps m s t) : Keeps m s (gateAll t) := by
  unfold gateAll
  try dsimp only
  repeat' (first
    | with_reducible assumption
    | exact sub_trans (by decide) hm
    | with_reducible apply keeps_updLink
    | with_reducible apply keeps_setGroup
    | with_reducible apply Keeps.foldl
    | with_reducible apply Keeps.foldr
    | split
    | (intro; try dsimp only))

theorem keeps_execRetainedEntry {m : Nat} (hm : sub 0x201a800401002ed m) {s t : State} (h : Keeps m s t) : KeepsOut m s (execRetainedEntry t) := by
  unfold execRetainedEntry
  try dsimp only
  repeat' (first
    | with_reducible assumption
    | exact sub_trans (by decide) hm
    | with_reducible apply Keeps.next
    | with_reducible apply keeps_dmcRetainedEntry
    | with_reducible apply keeps_gateAll
    | with_reducible apply keeps_updRcu (a := 0x201a800401002ed)
    | ((with_reducible apply SameRcu.mk) <;> intro b <;> first | exact absurd b (by decide) | rfl)
    | with_reducible apply keeps_updTop (a := 0x201a800401002ed)
    | ((with_reducible apply SameTop.mk) <;> intro b <;> first | exact absurd b (by decide) | rfl)
    | with_reducible apply keeps_enterDev
    | with_reducible apply Keeps.foldl
    | with_reducible apply Keeps.foldr
    | split
    | (intro; try dsimp only))

theorem keeps_dmcTrack {m : Nat} (hm : sub 0x200000000000000 m) {s t : State} {a0 : _} (h : Keeps m s t) : Keeps m s (dmcTrack a0 t) := by
  unfold dmcTrack
  try dsimp only
  repeat' (first | with_reducible assumption | exact sub_trans (by decide) hm | with_reducible apply keeps_updDmc)

theorem keeps_dmcDriftTrackAll {m : Nat} (hm : sub 0x200000000000000 m) {s t : State} (h : Keeps m s t) : Keeps m s (dmcDriftTrackAll t) := by
  unfold dmcDriftTrackAll
  try dsimp only
  repeat' (first
    | with_reducible assumption
    | exact sub_trans (by decide) hm
    | with_reducible apply keeps_dmcTrack
    | with_reducible apply Keeps.foldl
    | with_reducible apply Keeps.foldr
    | split
    | (intro; try dsimp only))

theorem keeps_dmcZq {m : Nat} (hm : sub 0x200000000000000 m) {s t : State} {a0 : _} (h : Keeps m s t) : Keeps m s (dmcZq a0 t) := by
  unfold dmcZq
  try dsimp only
  repeat' (first | with_reducible assumption | exact sub_trans (by decide) hm | with_reducible apply keeps_updDmc)

theorem keeps_dmcLeaveSelfRefresh {m : Nat} (hm : sub 0x200000000000000 m) {s t : State} (h : Keeps m s t) : Keeps m s (dmcLeaveSelfRefresh t) := by
  unfold dmcLeaveSelfRefresh
  try dsimp only
  repeat' (first
    | with_reducible assumption
    | exact sub_trans (by decide) hm
    | with_reducible apply keeps_updDmc
    | with_reducible apply keeps_dmcDriftTrackAll
    | with_reducible apply keeps_dmcZq
    | with_reducible apply Keeps.foldl
    | with_reducible apply Keeps.foldr
    | split
    | (intro; try dsimp only))

theorem keeps_linkSettle {m : Nat} (hm : sub 0x2e00209d70000d m) {s t : State} {a0 : _} (h : Keeps m s t) : Keeps m s (linkSettle a0 t) := by
  unfold linkSettle
  try dsimp only
  repeat' (first
    | with_reducible assumption
    | exact sub_trans (by decide) hm
    | with_reducible apply keeps_jnlSettle
    | with_reducible apply keeps_coolerSettle
    | with_reducible apply keeps_zmSettle
    | with_reducible apply keeps_raiseAenAll
    | with_reducible apply keeps_fire
    | with_reducible apply Keeps.foldl
    | with_reducible apply Keeps.foldr
    | split)

theorem keeps_failLink {m : Nat} (hm : sub 0x12ffc389d70000d m) {s t : State} {a0 a1 a2 : _} (h : Keeps m s t) : Keeps m s (failLink a0 a1 a2 t) := by
  unfold failLink
  try dsimp only
  repeat' (first
    | with_reducible assumption
    | exact sub_trans (by decide) hm
    | with_reducible apply keeps_updLink
    | with_reducible apply keeps_fire
    | with_reducible apply keeps_linkSettle
    | with_reducible apply keeps_linkFailActions
    | with_reducible apply Keeps.foldl
    | with_reducible apply Keeps.foldr
    | split)

theorem keeps_trainFallback {m : Nat} (hm : sub 0x12ffc389d70000d m) {s t : State} {a0 : _} (h : Keeps m s t) : Keeps m s (trainFallback a0 t) := by
  unfold trainFallback
  try dsimp only
  repeat' (first
    | with_reducible assumption
    | exact sub_trans (by decide) hm
    | with_reducible apply keeps_updLink
    | with_reducible apply keeps_failLink
    | with_reducible apply Keeps.foldl
    | with_reducible apply Keeps.foldr
    | split)

theorem keeps_execRetainedResumeDone {m : Nat} (hm : sub 0x32ffc38ddf100ed m) {s t : State} {a0 : _} (h : Keeps m s t) : KeepsOut m s (execRetainedResumeDone a0 t) := by
  unfold execRetainedResumeDone
  try dsimp only
  repeat' (first
    | with_reducible assumption
    | exact sub_trans (by decide) hm
    | with_reducible apply Keeps.next
    | with_reducible apply keeps_bpmInit
    | with_reducible apply keeps_dmcLeaveSelfRefresh
    | with_reducible apply keeps_trainFallback
    | with_reducible apply keeps_enterDev
    | with_reducible apply keeps_updTop (a := 0x32ffc38ddf100ed)
    | ((with_reducible apply SameTop.mk) <;> intro b <;> first | exact absurd b (by decide) | rfl)
    | with_reducible apply keeps_linkSettle
    | with_reducible apply keeps_portTrainFull
    | with_reducible apply Keeps.foldl
    | with_reducible apply Keeps.foldr
    | split
    | (intro; try dsimp only))

theorem keeps_setPin {m : Nat} (hm : sub 0x20000 m) {s t : State} {a0 a1 : _} (h : Keeps m s t) : Keeps m s (setPin a0 a1 t) := by
  unfold setPin
  try dsimp only
  repeat' (first | with_reducible assumption | exact sub_trans (by decide) hm | with_reducible apply keeps_updPad)

theorem keeps_releaseStore {m : Nat} (hm : sub 0x80000 m) {s t : State} (h : Keeps m s t) : Keeps m s (releaseStore t) := by
  unfold releaseStore
  try dsimp only
  repeat' (first
    | with_reducible assumption
    | exact sub_trans (by decide) hm
    | with_reducible apply keeps_updFws (a := 0x80000)
    | ((with_reducible apply SameFws.mk) <;> intro b <;> first | exact absurd b (by decide) | rfl)
    | with_reducible apply Keeps.foldl
    | with_reducible apply Keeps.foldr
    | split
    | (intro; try dsimp only))

theorem keeps_resumeDies {m : Nat} (hm : sub 0x180000000008 m) {s t : State} (h : Keeps m s t) : Keeps m s (resumeDies t) := by
  unfold resumeDies
  try dsimp only
  repeat' (first
    | with_reducible assumption
    | exact sub_trans (by decide) hm
    | with_reducible apply keeps_tryResume
    | with_reducible apply Keeps.foldl
    | with_reducible apply Keeps.foldr
    | split
    | (intro; try dsimp only))

theorem keeps_pwrwarnEnd {m : Nat} (hm : sub 0x681820401804ad m) {s t : State} {a0 : _} (h : Keeps m s t) : Keeps m s (pwrwarnEnd a0 t) := by
  unfold pwrwarnEnd
  try dsimp only
  repeat' (first
    | with_reducible assumption
    | exact sub_trans (by decide) hm
    | with_reducible apply keeps_fire
    | with_reducible apply keeps_updTop (a := 0x681820401804ad)
    | ((with_reducible apply SameTop.mk) <;> intro b <;> first | exact absurd b (by decide) | rfl)
    | with_reducible apply keeps_releaseStore
    | with_reducible apply keeps_updJnl (a := 0x681820401804ad)
    | ((with_reducible apply SameJnl.mk) <;> intro b <;> first | exact absurd b (by decide) | rfl)
    | with_reducible apply keeps_jnlSettle
    | with_reducible apply keeps_resumeDies
    | with_reducible apply keeps_enterDev
    | with_reducible apply Keeps.foldl
    | with_reducible apply Keeps.foldr
    | split
    | (intro; try dsimp only))

theorem keeps_execPwrwarnStuck {m : Nat} (hm : sub 0x681820401a04ad m) {s t : State} (h : Keeps m s t) : KeepsOut m s (execPwrwarnStuck t) := by
  unfold execPwrwarnStuck
  try dsimp only
  repeat' (first
    | with_reducible assumption
    | exact sub_trans (by decide) hm
    | with_reducible apply Keeps.next
    | with_reducible apply keeps_setPin
    | with_reducible apply keeps_updPad
    | with_reducible apply keeps_fire
    | with_reducible apply keeps_updTop (a := 0x681820401a04ad)
    | ((with_reducible apply SameTop.mk) <;> intro b <;> first | exact absurd b (by decide) | rfl)
    | with_reducible apply keeps_pwrwarnEnd
    | with_reducible apply Keeps.foldl
    | with_reducible apply Keeps.foldr
    | split
    | (intro; try dsimp only))

theorem keeps_execPwrwarnUnstick {m : Nat} (hm : sub 0x20400 m) {s t : State} (h : Keeps m s t) : KeepsOut m s (execPwrwarnUnstick t) := by
  unfold execPwrwarnUnstick
  try dsimp only
  repeat' (first
    | with_reducible assumption
    | exact sub_trans (by decide) hm
    | with_reducible apply Keeps.next
    | with_reducible apply keeps_updTop (a := 0x20400)
    | ((with_reducible apply SameTop.mk) <;> intro b <;> first | exact absurd b (by decide) | rfl)
    | with_reducible apply keeps_updPad
    | with_reducible apply Keeps.foldl
    | with_reducible apply Keeps.foldr
    | split
    | (intro; try dsimp only))

theorem keeps_skimDueWrite {m : Nat} (hm : sub 0x8d74100d m) {s t : State} {a0 : _} (h : Keeps m s t) : Keeps m s (skimDueWrite a0 t) := by
  unfold skimDueWrite
  try dsimp only
  repeat' (first
    | with_reducible assumption
    | exact sub_trans (by decide) hm
    | with_reducible apply keeps_skimSettle
    | with_reducible apply keeps_setRegSaved)

theorem keeps_execSkimDueWrite {m : Nat} (hm : sub 0x8d74100d m) {s t : State} {a0 a1 : _} (h : Keeps m s t) : KeepsOut m s (execSkimDueWrite a0 a1 t) := by
  unfold execSkimDueWrite
  try dsimp only
  repeat' (first
    | with_reducible assumption
    | exact sub_trans (by decide) hm
    | with_reducible apply Keeps.next
    | with_reducible apply keeps_skimDueWrite
    | with_reducible apply Keeps.foldl
    | with_reducible apply Keeps.foldr
    | split)

theorem keeps_forgetReply {m : Nat} (hm : sub 0x40000000 m) {s t : State} {a0 : _} (h : Keeps m s t) : Keeps m s (forgetReply a0 t) := by
  unfold forgetReply
  try dsimp only
  repeat' (first
    | with_reducible assumption
    | exact sub_trans (by decide) hm
    | with_reducible apply Keeps.foldl
    | with_reducible apply Keeps.foldr
    | split
    | (with_reducible apply filter_wf)
    | ((with_reducible apply Same.mk) <;> intro b <;> first | exact absurd b (by decide) | rfl)
    | with_reducible refine Keeps.mk' (a := 0x40000000) ?_ ?_ (Eq.refl _) ?_)

theorem keeps_tearCtl {m : Nat} (hm : sub 0x1025008cd70000d m) {s t : State} {a0 a1 : _} (h : Keeps m s t) : Keeps m s (tearCtl a0 a1 t) := by
  unfold tearCtl
  try dsimp only
  repeat' (first
    | with_reducible assumption
    | exact sub_trans (by decide) hm
    | with_reducible apply keeps_dropConn
    | with_reducible apply keeps_forgetReply
    | with_reducible apply Keeps.foldl
    | with_reducible apply Keeps.foldr
    | split
    | (intro; try dsimp only)
    | (with_reducible apply filter_wf)
    | ((with_reducible apply Same.mk) <;> intro b <;> first | exact absurd b (by decide) | rfl)
    | with_reducible refine Keeps.mk' (a := 0x1025008cd70000d) ?_ ?_ (Eq.refl _) ?_)

theorem keeps_loseConn {m : Nat} (hm : sub 0x1025008cd70000d m) {s t : State} {a0 : _} (h : Keeps m s t) : Keeps m s (loseConn a0 t) := by
  unfold loseConn
  try dsimp only
  repeat' (first
    | with_reducible assumption
    | exact sub_trans (by decide) hm
    | with_reducible apply keeps_tearCtl
    | with_reducible apply keeps_dropConn
    | with_reducible apply Keeps.foldl
    | with_reducible apply Keeps.foldr
    | split)

theorem keeps_discChanged {m : Nat} (hm : sub 0x8f600008 m) {s t : State} (h : Keeps m s t) : Keeps m s (discChanged t) := by
  unfold discChanged
  try dsimp only
  repeat' (first
    | with_reducible assumption
    | exact sub_trans (by decide) hm
    | with_reducible apply keeps_raiseAenWhere
    | with_reducible apply Keeps.foldl
    | with_reducible apply Keeps.foldr
    | split
    | (with_reducible apply filter_wf)
    | ((with_reducible apply Same.mk) <;> intro b <;> first | exact absurd b (by decide) | rfl)
    | with_reducible refine Keeps.mk' (a := 0x8f600008) ?_ ?_ (Eq.refl _) ?_)

theorem keeps_modeApply {m : Nat} (hm : sub 0x1025008cff1000d m) {s t : State} {a0 : _} (h : Keeps m s t) : Keeps m s (modeApply a0 t) := by
  unfold modeApply
  try dsimp only
  repeat' (first
    | with_reducible assumption
    | exact sub_trans (by decide) hm
    | with_reducible apply keeps_loseConn
    | with_reducible apply keeps_portOff
    | with_reducible apply keeps_updHfe (a := 0x1025008cff1000d)
    | ((with_reducible apply SameHfe.mk) <;> intro b <;> first | exact absurd b (by decide) | rfl)
    | with_reducible apply keeps_portTrainFull
    | with_reducible apply keeps_discChanged
    | with_reducible apply keeps_fire
    | with_reducible apply keeps_trainSettle
    | with_reducible apply Keeps.foldl
    | with_reducible apply Keeps.foldr
    | split
    | (intro; try dsimp only))

theorem keeps_execModeApply {m : Nat} (hm : sub 0x1025008cff1000d m) {s t : State} (h : Keeps m s t) : KeepsOut m s (execModeApply t) := by
  unfold execModeApply
  try dsimp only
  repeat' (first
    | with_reducible assumption
    | exact sub_trans (by decide) hm
    | with_reducible apply Keeps.next
    | with_reducible apply keeps_modeApply)

theorem keeps_modeSave {m : Nat} (hm : sub 0x40000 m) {s t : State} (h : Keeps m s t) : Keeps m s (modeSave t) := by
  unfold modeSave
  try dsimp only
  repeat' (first | with_reducible assumption | exact sub_trans (by decide) hm | with_reducible apply keeps_saveSetting)

theorem keeps_execModeSave {m : Nat} (hm : sub 0x40000 m) {s t : State} {a0 : _} (h : Keeps m s t) : KeepsOut m s (execModeSave a0 t) := by
  unfold execModeSave
  try dsimp only
  repeat' (first
    | with_reducible assumption
    | exact sub_trans (by decide) hm
    | with_reducible apply Keeps.next
    | with_reducible apply keeps_modeSave
    | with_reducible apply Keeps.foldl
    | with_reducible apply Keeps.foldr
    | split)

theorem keeps_modeForget {m : Nat} (hm : sub 0x40000 m) {s t : State} (h : Keeps m s t) : Keeps m s (modeForget t) := by
  unfold modeForget
  try dsimp only
  repeat' (first | with_reducible assumption | exact sub_trans (by decide) hm | with_reducible apply keeps_saveSetting)

theorem keeps_execModeForget {m : Nat} (hm : sub 0x40000 m) {s t : State} {a0 : _} (h : Keeps m s t) : KeepsOut m s (execModeForget a0 t) := by
  unfold execModeForget
  try dsimp only
  repeat' (first
    | with_reducible assumption
    | exact sub_trans (by decide) hm
    | with_reducible apply Keeps.next
    | with_reducible apply keeps_modeForget
    | with_reducible apply Keeps.foldl
    | with_reducible apply Keeps.foldr
    | split)

theorem keeps_failLane {m : Nat} (hm : sub 0x90000d m) {s t : State} {a0 : _} (h : Keeps m s t) : Keeps m s (failLane a0 t) := by
  unfold failLane
  try dsimp only
  repeat' (first
    | with_reducible assumption
    | exact sub_trans (by decide) hm
    | with_reducible apply keeps_fire
    | with_reducible apply keeps_updLane
    | with_reducible apply Keeps.foldl
    | with_reducible apply Keeps.foldr
    | split)

theorem keeps_lanesLost {m : Nat} (hm : sub 0x2d1000d m) {s t : State} {a0 a1 : _} (h : Keeps m s t) : Keeps m s (lanesLost a0 a1 t) := by
  unfold lanesLost
  try dsimp only
  repeat' (first
    | with_reducible assumption
    | exact sub_trans (by decide) hm
    | with_reducible apply keeps_portDown
    | with_reducible apply keeps_narrow
    | with_reducible apply keeps_failLane
    | with_reducible apply Keeps.foldl
    | with_reducible apply Keeps.foldr
    | split)

theorem keeps_execLaneLossOfLockTimeout {m : Nat} (hm : sub 0x2d1000d m) {s t : State} {a0 a1 : _} (h : Keeps m s t) : KeepsOut m s (execLaneLossOfLockTimeout a0 a1 t) := by
  unfold execLaneLossOfLockTimeout
  try dsimp only
  repeat' (first
    | with_reducible assumption
    | exact sub_trans (by decide) hm
    | with_reducible apply Keeps.next
    | with_reducible apply keeps_updLane
    | with_reducible apply keeps_portDown
    | with_reducible apply keeps_lanesLost
    | with_reducible apply Keeps.foldl
    | with_reducible apply Keeps.foldr
    | split
    | (intro; try dsimp only))

theorem keeps_execLaneUncorrInterval {m : Nat} (hm : sub 0x3d1000d m) {s t : State} {a0 a1 : _} (h : Keeps m s t) : KeepsOut m s (execLaneUncorrInterval a0 a1 t) := by
  unfold execLaneUncorrInterval
  try dsimp only
  repeat' (first
    | with_reducible assumption
    | exact sub_trans (by decide) hm
    | with_reducible apply Keeps.next
    | with_reducible apply keeps_portCount
    | with_reducible apply keeps_updLane
    | with_reducible apply keeps_lanesLost
    | with_reducible apply Keeps.foldl
    | with_reducible apply Keeps.foldr
    | split)

theorem keeps_setNonOpt {m : Nat} (hm : sub 0x8d600008 m) {s t : State} {a0 a1 : _} (h : Keeps m s t) : Keeps m s (setNonOpt a0 a1 t) := by
  unfold setNonOpt
  try dsimp only
  repeat' (first
    | with_reducible assumption
    | exact sub_trans (by decide) hm
    | with_reducible apply keeps_updPort
    | with_reducible apply keeps_raiseAenWhere
    | with_reducible apply Keeps.foldl
    | with_reducible apply Keeps.foldr
    | split
    | (with_reducible apply filter_wf)
    | ((with_reducible apply Same.mk) <;> intro b <;> first | exact absurd b (by decide) | rfl)
    | with_reducible refine Keeps.mk' (a := 0x8d600008) ?_ ?_ (Eq.refl _) ?_)

theorem keeps_portUp {m : Nat} (hm : sub 0x8ff0000d m) {s t : State} {a0 : _} (h : Keeps m s t) : Keeps m s (portUp a0 t) := by
  unfold portUp
  try dsimp only
  repeat' (first
    | with_reducible assumption
    | exact sub_trans (by decide) hm
    | with_reducible apply keeps_updLane
    | with_reducible apply keeps_updPort
    | with_reducible apply keeps_fire
    | with_reducible apply keeps_updHfe (a := 0x8ff0000d)
    | ((with_reducible apply SameHfe.mk) <;> intro b <;> first | exact absurd b (by decide) | rfl)
    | with_reducible apply keeps_trainSettle
    | with_reducible apply keeps_setNonOpt
    | with_reducible apply Keeps.foldl
    | with_reducible apply Keeps.foldr
    | split
    | (intro; try dsimp only))

theorem keeps_execPortTrainingDone {m : Nat} (hm : sub 0x8ff1000d m) {s t : State} {a0 a1 a2 : _} (h : Keeps m s t) : KeepsOut m s (execPortTrainingDone a0 a1 a2 t) := by
  unfold execPortTrainingDone
  try dsimp only
  repeat' (first
    | with_reducible assumption
    | exact sub_trans (by decide) hm
    | with_reducible apply Keeps.next
    | with_reducible apply keeps_portUp
    | with_reducible apply keeps_portDown
    | with_reducible apply keeps_failLane
    | with_reducible apply keeps_narrow
    | with_reducible apply Keeps.foldl
    | with_reducible apply Keeps.foldr
    | split
    | (intro; try dsimp only))

theorem keeps_execNarrowCandidateTimeout {m : Nat} (hm : sub 0x2d1000d m) {s t : State} {a0 : _} (h : Keeps m s t) : KeepsOut m s (execNarrowCandidateTimeout a0 t) := by
  unfold execNarrowCandidateTimeout
  try dsimp only
  repeat' (first
    | with_reducible assumption
    | exact sub_trans (by decide) hm
    | with_reducible apply Keeps.next
    | with_reducible apply keeps_narrow
    | with_reducible apply Keeps.foldl
    | with_reducible apply Keeps.foldr
    | split)

theorem keeps_execPortRetrainTimer {m : Nat} (hm : sub 0xd1000d m) {s t : State} {a0 : _} (h : Keeps m s t) : KeepsOut m s (execPortRetrainTimer a0 t) := by
  unfold execPortRetrainTimer
  try dsimp only
  repeat' (first
    | with_reducible assumption
    | exact sub_trans (by decide) hm
    | with_reducible apply Keeps.next
    | with_reducible apply keeps_portTrainFull
    | with_reducible apply Keeps.foldl
    | with_reducible apply Keeps.foldr
    | split)

theorem keeps_portWiden {m : Nat} (hm : sub 0xd1000d m) {s t : State} {a0 : _} (h : Keeps m s t) : Keeps m s (portWiden a0 t) := by
  unfold portWiden
  try dsimp only
  repeat' (first
    | with_reducible assumption
    | exact sub_trans (by decide) hm
    | with_reducible apply keeps_updPort
    | with_reducible apply keeps_portTrainFull
    | with_reducible apply Keeps.foldl
    | with_reducible apply Keeps.foldr
    | split)

theorem keeps_execPortWiden {m : Nat} (hm : sub 0xd1000d m) {s t : State} {a0 : _} (h : Keeps m s t) : KeepsOut m s (execPortWiden a0 t) := by
  unfold execPortWiden
  try dsimp only
  repeat' (first
    | with_reducible assumption
    | exact sub_trans (by decide) hm
    | with_reducible apply Keeps.next
    | with_reducible apply keeps_portWiden)

theorem keeps_execAutoWidenTimer {m : Nat} (hm : sub 0xd1000d m) {s t : State} {a0 : _} (h : Keeps m s t) : KeepsOut m s (execAutoWidenTimer a0 t) := by
  unfold execAutoWidenTimer
  try dsimp only
  repeat' (first
    | with_reducible assumption
    | exact sub_trans (by decide) hm
    | with_reducible apply Keeps.next
    | with_reducible apply keeps_portWiden
    | with_reducible apply Keeps.foldl
    | with_reducible apply Keeps.foldr
    | split)

theorem keeps_acceptConn {m : Nat} (hm : sub 0x8 m) {s t : State} {a0 : _} (h : Keeps m s t) : Keeps m s (acceptConn a0 t) := by
  unfold acceptConn
  try dsimp only
  repeat' (first
    | with_reducible assumption
    | exact sub_trans (by decide) hm
    | with_reducible apply keeps_emit
    | with_reducible apply Keeps.foldl
    | with_reducible apply Keeps.foldr
    | split)

theorem keeps_updConn {m : Nat} (hm : sub 0x200000 m) {s t : State} {a0 a1 : _} (h : Keeps m s t) : Keeps m s (updConn a0 a1 t) := by
  unfold updConn
  try dsimp only
  repeat' (first
    | with_reducible assumption
    | exact sub_trans (by decide) hm
    | with_reducible apply Keeps.foldl
    | with_reducible apply Keeps.foldr
    | split
    | (with_reducible apply filter_wf)
    | ((with_reducible apply Same.mk) <;> intro b <;> first | exact absurd b (by decide) | rfl)
    | with_reducible refine Keeps.mk' (a := 0x200000) ?_ ?_ (Eq.refl _) ?_)

theorem keeps_execNextHopResolved {m : Nat} (hm : sub 0x2200008 m) {s t : State} {a0 : _} (h : Keeps m s t) : KeepsOut m s (execNextHopResolved a0 t) := by
  unfold execNextHopResolved
  try dsimp only
  repeat' (first
    | with_reducible assumption
    | exact sub_trans (by decide) hm
    | with_reducible apply Keeps.next
    | with_reducible apply keeps_updHfe (a := 0x2200008)
    | ((with_reducible apply SameHfe.mk) <;> intro b <;> first | exact absurd b (by decide) | rfl)
    | with_reducible apply keeps_acceptConn
    | with_reducible apply keeps_updConn
    | with_reducible apply Keeps.foldl
    | with_reducible apply Keeps.foldr
    | split
    | (intro; try dsimp only))

theorem keeps_execNextHopTimeout {m : Nat} (hm : sub 0x1025008cd70000d m) {s t : State} {a0 : _} (h : Keeps m s t) : KeepsOut m s (execNextHopTimeout a0 t) := by
  unfold execNextHopTimeout
  try dsimp only
  repeat' (first
    | with_reducible assumption
    | exact sub_trans (by decide) hm
    | with_reducible apply Keeps.next
    | with_reducible apply keeps_loseConn
    | with_reducible apply keeps_fire
    | with_reducible apply Keeps.foldl
    | with_reducible apply Keeps.foldr
    | split
    | (intro; try dsimp only))

theorem keeps_execFrameReceive {m : Nat} (hm : sub 0x1400008 m) {s t : State} {a0 a1 a2 a3 a4 a5 : _} (h : Keeps m s t) : KeepsOut m s (execFrameReceive a0 a1 a2 a3 a4 a5 t) := by
  unfold execFrameReceive
  try dsimp only
  repeat' (first
    | with_reducible assumption
    | exact sub_trans (by decide) hm
    | with_reducible apply Keeps.next
    | with_reducible apply keeps_portCount
    | with_reducible apply keeps_prioFill
    | with_reducible apply Keeps.foldl
    | with_reducible apply Keeps.foldr
    | split)

theorem keeps_execPfcXoffRepeat {m : Nat} (hm : sub 0x1000008 m) {s t : State} {a0 a1 : _} (h : Keeps m s t) : KeepsOut m s (execPfcXoffRepeat a0 a1 t) := by
  unfold execPfcXoffRepeat
  try dsimp only
  repeat' (first
    | with_reducible assumption
    | exact sub_trans (by decide) hm
    | with_reducible apply Keeps.next
    | with_reducible apply keeps_sendPfc
    | with_reducible apply Keeps.foldl
    | with_reducible apply Keeps.foldr
    | split)

theorem keeps_execPfcXon {m : Nat} (hm : sub 0x1400008 m) {s t : State} {a0 a1 a2 : _} (h : Keeps m s t) : KeepsOut m s (execPfcXon a0 a1 a2 t) := by
  unfold execPfcXon
  try dsimp only
  repeat' (first
    | with_reducible assumption
    | exact sub_trans (by decide) hm
    | with_reducible apply Keeps.next
    | with_reducible apply keeps_updPrio
    | with_reducible apply keeps_sendPfc
    | with_reducible apply Keeps.foldl
    | with_reducible apply Keeps.foldr
    | split)

theorem keeps_prioResume {m : Nat} (hm : sub 0x1400000 m) {s t : State} {a0 a1 : _} (h : Keeps m s t) : Keeps m s (prioResume a0 a1 t) := by
  unfold prioResume
  try dsimp only
  repeat' (first
    | with_reducible assumption
    | exact sub_trans (by decide) hm
    | with_reducible apply keeps_portCount
    | with_reducible apply keeps_updPrio)

theorem keeps_execPfcFrameReceive {m : Nat} (hm : sub 0x1400000 m) {s t : State} {a0 a1 a2 : _} (h : Keeps m s t) : KeepsOut m s (execPfcFrameReceive a0 a1 a2 t) := by
  unfold execPfcFrameReceive
  try dsimp only
  repeat' (first
    | with_reducible assumption
    | exact sub_trans (by decide) hm
    | with_reducible apply Keeps.next
    | with_reducible apply keeps_portCount
    | with_reducible apply keeps_prioResume
    | with_reducible apply keeps_updPrio
    | with_reducible apply Keeps.foldl
    | with_reducible apply Keeps.foldr
    | split)

theorem keeps_execPfcStormDetect {m : Nat} (hm : sub 0x150000d m) {s t : State} {a0 a1 : _} (h : Keeps m s t) : KeepsOut m s (execPfcStormDetect a0 a1 t) := by
  unfold execPfcStormDetect
  try dsimp only
  repeat' (first
    | with_reducible assumption
    | exact sub_trans (by decide) hm
    | with_reducible apply Keeps.next
    | with_reducible apply keeps_updPrio
    | with_reducible apply keeps_fire
    | with_reducible apply keeps_portCount
    | with_reducible apply Keeps.foldl
    | with_reducible apply Keeps.foldr
    | split)

theorem keeps_execPfcStormEnd {m : Nat} (hm : sub 0x400000 m) {s t : State} {a0 a1 : _} (h : Keeps m s t) : KeepsOut m s (execPfcStormEnd a0 a1 t) := by
  unfold execPfcStormEnd
  try dsimp only
  repeat' (first
    | with_reducible assumption
    | exact sub_trans (by decide) hm
    | with_reducible apply Keeps.next
    | with_reducible apply keeps_updPrio)

theorem keeps_nakConn {m : Nat} (hm : sub 0x1025008cd70000d m) {s t : State} {a0 a1 : _} (h : Keeps m s t) : Keeps m s (nakConn a0 a1 t) := by
  unfold nakConn
  try dsimp only
  repeat' (first
    | with_reducible assumption
    | exact sub_trans (by decide) hm
    | with_reducible apply keeps_loseConn
    | with_reducible apply keeps_emit)

theorem keeps_pushCapsule {m : Nat} (hm : sub 0x200000 m) {s t : State} {a0 a1 : _} (h : Keeps m s t) : Keeps m s (pushCapsule a0 a1 t) := by
  unfold pushCapsule
  try dsimp only
  repeat' (first | with_reducible assumption | exact sub_trans (by decide) hm | with_reducible apply keeps_updConn)

theorem keeps_landUnit {m : Nat} (hm : sub 0x4000000 m) {s t : State} {a0 a1 a2 a3 : _} (h : Keeps m s t) : Keeps m s (landUnit a0 a1 a2 a3 t) := by
  unfold landUnit
  try dsimp only
  repeat' (first | with_reducible assumption | exact sub_trans (by decide) hm | with_reducible apply keeps_updTask)

theorem keeps_landBytes {m : Nat} (hm : sub 0x4000000 m) {s t : State} {a0 a1 : Nat} {a2 : List Nat} {a4 : Nat} (h : Keeps m s t) : Keeps m s (landBytes a0 a1 a2 t a4) := by
  induction a4 generalizing t a1 a2 with
  | zero => exact h
  | succ n ih =>
    unfold landBytes
    split
    · exact h
    · exact ih (keeps_landUnit (sub_trans (by decide) hm) h)

theorem keeps_landData {m : Nat} (hm : sub 0x4000000 m) {s t : State} {a0 a1 a2 : _} (h : Keeps m s t) : Keeps m s (landData a0 a1 a2 t) := by
  unfold landData
  try dsimp only
  repeat' (first
    | with_reducible assumption
    | exact sub_trans (by decide) hm
    | with_reducible apply keeps_landBytes
    | with_reducible apply Keeps.foldl
    | with_reducible apply Keeps.foldr
    | split)

theorem keeps_landResponse {m : Nat} (hm : sub 0x4000000 m) {s t : State} {a0 a1 : _} (h : Keeps m s t) : Keeps m s (landResponse a0 a1 t) := by
  unfold landResponse
  try dsimp only
  repeat' (first
    | with_reducible assumption
    | exact sub_trans (by decide) hm
    | with_reducible apply keeps_landData
    | with_reducible apply Keeps.foldl
    | with_reducible apply Keeps.foldr
    | split)

theorem keeps_ackTo {m : Nat} (hm : sub 0x200000 m) {s t : State} {a0 a1 : _} (h : Keeps m s t) : Keeps m s (ackTo a0 a1 t) := by
  unfold ackTo
  try dsimp only
  repeat' (first | with_reducible assumption | exact sub_trans (by decide) hm | with_reducible apply keeps_updConn)

theorem keeps_resendConn {m : Nat} (hm : sub 0x1000000 m) {s t : State} {a0 : _} (h : Keeps m s t) : Keeps m s (resendConn a0 t) := by
  unfold resendConn
  try dsimp only
  repeat' (first | with_reducible assumption | exact sub_trans (by decide) hm | with_reducible apply keeps_portCount)

theorem keeps_goBack {m : Nat} (hm : sub 0x1025008cd70000d m) {s t : State} {a0 : _} (h : Keeps m s t) : Keeps m s (goBack a0 t) := by
  unfold goBack
  try dsimp only
  repeat' (first
    | with_reducible assumption
    | exact sub_trans (by decide) hm
    | with_reducible apply keeps_loseConn
    | with_reducible apply keeps_resendConn
    | with_reducible apply keeps_updConn
    | with_reducible apply Keeps.foldl
    | with_reducible apply Keeps.foldr
    | split)

theorem keeps_roceOp {m : Nat} (hm : sub 0x1025008cd70000d m) {s t : State} {a0 a1 a2 a3 a4 : _} (h : Keeps m s t) : Keeps m s (roceOp a0 a1 a2 a3 a4 t) := by
  unfold roceOp
  try dsimp only
  repeat' (first
    | with_reducible assumption
    | exact sub_trans (by decide) hm
    | with_reducible apply keeps_emit
    | with_reducible apply keeps_nakConn
    | with_reducible apply keeps_pushCapsule
    | with_reducible apply keeps_updConn
    | with_reducible apply keeps_landResponse
    | with_reducible apply keeps_ackTo
    | with_reducible apply keeps_goBack
    | with_reducible apply keeps_portCount
    | with_reducible apply Keeps.foldl
    | with_reducible apply Keeps.foldr
    | split)

theorem keeps_markCe {m : Nat} (hm : sub 0x1200008 m) {s t : State} {a0 : _} (h : Keeps m s t) : Keeps m s (markCe a0 t) := by
  unfold markCe
  try dsimp only
  repeat' (first
    | with_reducible assumption
    | exact sub_trans (by decide) hm
    | with_reducible apply keeps_portCount
    | with_reducible apply keeps_emit
    | with_reducible apply keeps_updConn
    | with_reducible apply Keeps.foldl
    | with_reducible apply Keeps.foldr
    | split)

theorem keeps_execRocePacketReceive {m : Nat} (hm : sub 0x1025008cd70000d m) {s t : State} {a0 a1 a2 a3 a4 a5 a6 : _} (h : Keeps m s t) : KeepsOut m s (execRocePacketReceive a0 a1 a2 a3 a4 a5 a6 t) := by
  unfold execRocePacketReceive
  try dsimp only
  repeat' (first
    | with_reducible assumption
    | exact sub_trans (by decide) hm
    | with_reducible apply Keeps.next
    | with_reducible apply keeps_portCount
    | with_reducible apply keeps_roceOp
    | with_reducible apply keeps_markCe
    | with_reducible apply Keeps.foldl
    | with_reducible apply Keeps.foldr
    | split)

theorem keeps_cutRate {m : Nat} (hm : sub 0x200000 m) {s t : State} {a0 : _} (h : Keeps m s t) : Keeps m s (cutRate a0 t) := by
  unfold cutRate
  try dsimp only
  repeat' (first
    | with_reducible assumption
    | exact sub_trans (by decide) hm
    | with_reducible apply keeps_updConn
    | with_reducible apply Keeps.foldl
    | with_reducible apply Keeps.foldr
    | split)

theorem keeps_execCnpReceive {m : Nat} (hm : sub 0x1200000 m) {s t : State} {a0 : _} (h : Keeps m s t) : KeepsOut m s (execCnpReceive a0 t) := by
  unfold execCnpReceive
  try dsimp only
  repeat' (first
    | with_reducible assumption
    | exact sub_trans (by decide) hm
    | with_reducible apply Keeps.next
    | with_reducible apply keeps_cutRate
    | with_reducible apply keeps_portCount
    | with_reducible apply Keeps.foldl
    | with_reducible apply Keeps.foldr
    | split)

theorem keeps_execRateRecoverTimer {m : Nat} (hm : sub 0x200000 m) {s t : State} {a0 : _} (h : Keeps m s t) : KeepsOut m s (execRateRecoverTimer a0 t) := by
  unfold execRateRecoverTimer
  try dsimp only
  repeat' (first
    | with_reducible assumption
    | exact sub_trans (by decide) hm
    | with_reducible apply Keeps.next
    | with_reducible apply keeps_updConn
    | with_reducible apply Keeps.foldl
    | with_reducible apply Keeps.foldr
    | split)

theorem keeps_execRdmaAckTimeout {m : Nat} (hm : sub 0x1025008cd70000d m) {s t : State} {a0 : _} (h : Keeps m s t) : KeepsOut m s (execRdmaAckTimeout a0 t) := by
  unfold execRdmaAckTimeout
  try dsimp only
  repeat' (first
    | with_reducible assumption
    | exact sub_trans (by decide) hm
    | with_reducible apply Keeps.next
    | with_reducible apply keeps_goBack
    | with_reducible apply Keeps.foldl
    | with_reducible apply Keeps.foldr
    | split)

theorem keeps_rejectConn {m : Nat} (hm : sub 0x8 m) {s t : State} {a0 a1 : _} (h : Keeps m s t) : Keeps m s (rejectConn a0 a1 t) := by
  unfold rejectConn
  try dsimp only
  repeat' (first | with_reducible assumption | exact sub_trans (by decide) hm | with_reducible apply keeps_emit)

theorem keeps_setConnTokens {m : Nat} (hm : sub 0x10000000 m) {s t : State} {a0 a1 : _} (h : Keeps m s t) : Keeps m s (setConnTokens a0 a1 t) := by
  unfold setConnTokens
  try dsimp only
  repeat' (first
    | with_reducible assumption
    | exact sub_trans (by decide) hm
    | with_reducible apply keeps_updTenant
    | with_reducible apply Keeps.foldl
    | with_reducible apply Keeps.foldr
    | split)

theorem keeps_takeToken {m : Nat} (hm : sub 0x1010000d m) {s t u : State} {a0 : _} {x0 : _} (h : Keeps m s t) (e : (takeToken a0 t) = (x0, u)) : Keeps m s u := by
  unfold takeToken at e
  try dsimp only at e
  repeat' (first | contradiction | (cases e) | (split at e))
  repeat' (first
    | with_reducible assumption
    | exact sub_trans (by decide) hm
    | with_reducible apply keeps_fire
    | with_reducible apply keeps_setConnTokens)
theorem keeps_takeToken' {m : Nat} (hm : sub 0x1010000d m) {s t : State} {a0 : _} (h : Keeps m s t) : Keeps m s (takeToken a0 t).2 := keeps_takeToken hm (x0 := (takeToken a0 t).1) h rfl

theorem keeps_newConn {m : Nat} (hm : sub 0x200000 m) {s t : State} {a0 a1 a2 a3 a4 : _} (h : Keeps m s t) : Keeps m s (newConn a0 a1 a2 a3 a4 t) := by
  unfold newConn
  try dsimp only
  repeat' (first
    | with_reducible assumption
    | exact sub_trans (by decide) hm
    | with_reducible apply keeps_updHfe (a := 0x200000)
    | ((with_reducible apply SameHfe.mk) <;> intro b <;> first | exact absurd b (by decide) | rfl)
    | with_reducible apply Keeps.foldl
    | with_reducible apply Keeps.foldr
    | split
    | (intro; try dsimp only))

theorem keeps_openConn {m : Nat} (hm : sub 0x200008 m) {s t : State} {a0 a1 a2 a3 a4 : _} (h : Keeps m s t) : Keeps m s (openConn a0 a1 a2 a3 a4 t) := by
  unfold openConn
  try dsimp only
  repeat' (first
    | with_reducible assumption
    | exact sub_trans (by decide) hm
    | with_reducible apply keeps_acceptConn
    | with_reducible apply keeps_newConn)

theorem keeps_execRdmaConnectRequest {m : Nat} (hm : sub 0x1030000d m) {s t : State} {a0 a1 a2 a3 a4 : _} (h : Keeps m s t) : KeepsOut m s (execRdmaConnectRequest a0 a1 a2 a3 a4 t) := by
  unfold execRdmaConnectRequest
  try dsimp only
  repeat' (first
    | with_reducible assumption
    | exact sub_trans (by decide) hm
    | with_reducible apply Keeps.next
    | with_reducible apply keeps_rejectConn
    | refine keeps_takeToken ?_ ?_ (by with_reducible assumption)
    | with_reducible apply keeps_takeToken'
    | with_reducible apply keeps_openConn
    | with_reducible apply Keeps.foldl
    | with_reducible apply Keeps.foldr
    | split)

theorem keeps_execTcpSyn {m : Nat} (hm : sub 0x1030000d m) {s t : State} {a0 a1 a2 a3 a4 : _} (h : Keeps m s t) : KeepsOut m s (execTcpSyn a0 a1 a2 a3 a4 t) := by
  unfold execTcpSyn
  try dsimp only
  repeat' (first
    | with_reducible assumption
    | exact sub_trans (by decide) hm
    | with_reducible apply Keeps.next
    | with_reducible apply keeps_rejectConn
    | refine keeps_takeToken ?_ ?_ (by with_reducible assumption)
    | with_reducible apply keeps_takeToken'
    | with_reducible apply keeps_openConn
    | with_reducible apply Keeps.foldl
    | with_reducible apply Keeps.foldr
    | split)

theorem keeps_execTcpIcreq {m : Nat} (hm : sub 0x1025008cd70000d m) {s t : State} {a0 a1 a2 a3 a4 : _} (h : Keeps m s t) : KeepsOut m s (execTcpIcreq a0 a1 a2 a3 a4 t) := by
  unfold execTcpIcreq
  try dsimp only
  repeat' (first
    | with_reducible assumption
    | exact sub_trans (by decide) hm
    | with_reducible apply Keeps.next
    | with_reducible apply keeps_loseConn
    | with_reducible apply keeps_updConn
    | with_reducible apply keeps_emit
    | with_reducible apply Keeps.foldl
    | with_reducible apply Keeps.foldr
    | split)

theorem keeps_tcpAck {m : Nat} (hm : sub 0x200000 m) {s t : State} {a0 : _} (h : Keeps m s t) : Keeps m s (tcpAck a0 t) := by
  unfold tcpAck
  try dsimp only
  repeat' (first | with_reducible assumption | exact sub_trans (by decide) hm | with_reducible apply keeps_updConn)

theorem keeps_execH2cDataPdu {m : Nat} (hm : sub 0x10200088570000d m) {s t : State} {a0 a1 a2 a3 a4 a5 : _} (h : Keeps m s t) : KeepsOut m s (execH2cDataPdu a0 a1 a2 a3 a4 a5 t) := by
  unfold execH2cDataPdu
  try dsimp only
  repeat' (first
    | with_reducible assumption
    | exact sub_trans (by decide) hm
    | with_reducible apply Keeps.next
    | with_reducible apply keeps_tcpAck
    | with_reducible apply keeps_dropWrite
    | with_reducible apply keeps_finishRetry
    | with_reducible apply keeps_portCount
    | with_reducible apply keeps_landData
    | with_reducible apply Keeps.foldl
    | with_reducible apply Keeps.foldr
    | split
    | (intro; try dsimp only))

theorem keeps_execTcpFatalPdu {m : Nat} (hm : sub 0x1025008cd70000d m) {s t : State} {a0 a1 a2 : _} (h : Keeps m s t) : KeepsOut m s (execTcpFatalPdu a0 a1 a2 t) := by
  unfold execTcpFatalPdu
  try dsimp only
  repeat' (first
    | with_reducible assumption
    | exact sub_trans (by decide) hm
    | with_reducible apply Keeps.next
    | with_reducible apply keeps_loseConn
    | with_reducible apply keeps_emit
    | with_reducible apply keeps_portCount
    | with_reducible apply Keeps.foldl
    | with_reducible apply Keeps.foldr
    | split)

theorem keeps_execTcpRetransmitTimeout {m : Nat} (hm : sub 0x1000000 m) {s t : State} {a0 : _} (h : Keeps m s t) : KeepsOut m s (execTcpRetransmitTimeout a0 t) := by
  unfold execTcpRetransmitTimeout
  try dsimp only
  repeat' (first
    | with_reducible assumption
    | exact sub_trans (by decide) hm
    | with_reducible apply Keeps.next
    | with_reducible apply keeps_portCount
    | with_reducible apply Keeps.foldl
    | with_reducible apply Keeps.foldr
    | split)

end Sys2Proof.Machine
end

