-- ==== Sys2Proof/Laws/KeepsOpsE.lean ====
section
/-! SUPPORT. Each operation keeps the rules of `Keeps`, one lemma per operation, callees first (part 5). -/

namespace Sys2Proof.Machine

theorem keeps_ptpPush {m : Nat} (hm : sub 0x210000d m) {s t : State} {a0 : _} (h : Keeps m s t) : Keeps m s (ptpPush a0 t) := by
  unfold ptpPush
  try dsimp only
  repeat' (first
    | with_reducible assumption
    | exact sub_trans (by decide) hm
    | with_reducible apply keeps_updHfe (a := 0x210000d)
    | ((with_reducible apply SameHfe.mk) <;> intro b <;> first | exact absurd b (by decide) | rfl)
    | with_reducible apply keeps_bumpF
    | with_reducible apply keeps_fire
    | with_reducible apply Keeps.foldl
    | with_reducible apply Keeps.foldr
    | split
    | (intro; try dsimp only))

theorem keeps_utcSettle {m : Nat} (hm : sub 0x11000d m) {s t : State} (h : Keeps m s t) : Keeps m s (utcSettle t) := by
  unfold utcSettle
  try dsimp only
  repeat' (first
    | with_reducible assumption
    | exact sub_trans (by decide) hm
    | with_reducible apply keeps_fire
    | with_reducible apply Keeps.foldl
    | with_reducible apply Keeps.foldr
    | split
    | (with_reducible apply filter_wf)
    | ((with_reducible apply Same.mk) <;> intro b <;> first | exact absurd b (by decide) | rfl)
    | with_reducible refine Keeps.mk' (a := 0x11000d) ?_ ?_ (Eq.refl _) ?_)

theorem keeps_announce {m : Nat} (hm : sub 0x211000d m) {s t : State} {a0 a1 a2 : _} (h : Keeps m s t) : Keeps m s (announce a0 a1 a2 t) := by
  unfold announce
  try dsimp only
  repeat' (first
    | with_reducible assumption
    | exact sub_trans (by decide) hm
    | with_reducible apply keeps_utcSettle
    | with_reducible apply keeps_updHfe (a := 0x211000d)
    | ((with_reducible apply SameHfe.mk) <;> intro b <;> first | exact absurd b (by decide) | rfl)
    | with_reducible apply Keeps.foldl
    | with_reducible apply Keeps.foldr
    | split
    | (intro; try dsimp only))

theorem keeps_execPtpMessageReceive {m : Nat} (hm : sub 0x211000d m) {s t : State} {a0 a1 a2 a3 a4 a5 a6 a7 a8 a9 a10 : _} (h : Keeps m s t) : KeepsOut m s (execPtpMessageReceive a0 a1 a2 a3 a4 a5 a6 a7 a8 a9 a10 t) := by
  unfold execPtpMessageReceive
  try dsimp only
  repeat' (first
    | with_reducible assumption
    | exact sub_trans (by decide) hm
    | with_reducible apply Keeps.next
    | with_reducible apply keeps_ptpPush
    | with_reducible apply keeps_announce
    | with_reducible apply keeps_emit
    | with_reducible apply Keeps.foldl
    | with_reducible apply Keeps.foldr
    | split)

theorem keeps_execPortCntClear {m : Nat} (hm : sub 0x1000000 m) {s t : State} {a0 a1 : _} (h : Keeps m s t) : KeepsOut m s (execPortCntClear a0 a1 t) := by
  unfold execPortCntClear
  try dsimp only
  repeat' (first
    | with_reducible assumption
    | exact sub_trans (by decide) hm
    | with_reducible apply Keeps.next
    | with_reducible apply keeps_updHfe (a := 0x1000000)
    | ((with_reducible apply SameHfe.mk) <;> intro b <;> first | exact absurd b (by decide) | rfl)
    | with_reducible apply Keeps.foldl
    | with_reducible apply Keeps.foldr
    | split
    | (intro; try dsimp only))

theorem keeps_tiuResult {m : Nat} (hm : sub 0x20000000 m) {s t : State} {a0 a1 : _} (h : Keeps m s t) : Keeps m s (tiuResult a0 a1 t) := by
  unfold tiuResult
  try dsimp only
  repeat' (first
    | with_reducible assumption
    | exact sub_trans (by decide) hm
    | with_reducible apply Keeps.foldl
    | with_reducible apply Keeps.foldr
    | split
    | (with_reducible apply filter_wf)
    | ((with_reducible apply Same.mk) <;> intro b <;> first | exact absurd b (by decide) | rfl)
    | with_reducible refine Keeps.mk' (a := 0x20000000) ?_ ?_ (Eq.refl _) ?_)

theorem keeps_closeTenant {m : Nat} (hm : sub 0x1025008cd70000d m) {s t : State} {a0 : _} (h : Keeps m s t) : Keeps m s (closeTenant a0 t) := by
  unfold closeTenant
  try dsimp only
  repeat' (first
    | with_reducible assumption
    | exact sub_trans (by decide) hm
    | with_reducible apply keeps_loseConn
    | with_reducible apply Keeps.foldl
    | with_reducible apply Keeps.foldr
    | split
    | (intro; try dsimp only))

theorem keeps_saveKeys {m : Nat} (hm : sub 0x40000 m) {s t : State} {a0 : _} (h : Keeps m s t) : Keeps m s (saveKeys a0 t) := by
  unfold saveKeys
  try dsimp only
  repeat' (first | with_reducible assumption | exact sub_trans (by decide) hm | with_reducible apply keeps_saveSetting)

theorem keeps_setAcl {m : Nat} (hm : sub 0x9f640008 m) {s t : State} {a0 a1 : _} (h : Keeps m s t) : Keeps m s (setAcl a0 a1 t) := by
  unfold setAcl
  try dsimp only
  repeat' (first
    | with_reducible assumption
    | exact sub_trans (by decide) hm
    | with_reducible apply keeps_discChanged
    | with_reducible apply keeps_saveSetting
    | with_reducible apply keeps_updTenant
    | with_reducible apply Keeps.foldl
    | with_reducible apply Keeps.foldr
    | split)

theorem keeps_deletePage {m : Nat} (hm : sub 0x1825008df74000d m) {s t : State} {a0 : _} (h : Keeps m s t) : Keeps m s (deletePage a0 t) := by
  unfold deletePage
  try dsimp only
  repeat' (first
    | with_reducible assumption
    | exact sub_trans (by decide) hm
    | with_reducible apply keeps_closeTenant
    | with_reducible apply keeps_saveKeys
    | with_reducible apply keeps_updKeys
    | with_reducible apply keeps_setAcl
    | with_reducible apply keeps_setRegSaved
    | with_reducible apply keeps_updTenant
    | with_reducible apply Keeps.foldl
    | with_reducible apply Keeps.foldr
    | split
    | (intro; try dsimp only))

theorem keeps_tenantCtl {m : Nat} (hm : sub 0x1825008ff74000d m) {s t : State} {a0 a1 : _} (h : Keeps m s t) : Keeps m s (tenantCtl a0 a1 t) := by
  unfold tenantCtl
  try dsimp only
  repeat' (first
    | with_reducible assumption
    | exact sub_trans (by decide) hm
    | with_reducible apply keeps_discChanged
    | with_reducible apply keeps_setRegSaved
    | with_reducible apply keeps_tiuResult
    | with_reducible apply keeps_fire
    | with_reducible apply keeps_deletePage
    | with_reducible apply keeps_updTenant
    | with_reducible apply keeps_closeTenant
    | with_reducible apply Keeps.foldl
    | with_reducible apply Keeps.foldr
    | split)

theorem keeps_execTenantCtlWrite {m : Nat} (hm : sub 0x1825008ff74000d m) {s t : State} {a0 a1 : _} (h : Keeps m s t) : KeepsOut m s (execTenantCtlWrite a0 a1 t) := by
  unfold execTenantCtlWrite
  try dsimp only
  repeat' (first
    | with_reducible assumption
    | exact sub_trans (by decide) hm
    | with_reducible apply Keeps.next
    | with_reducible apply keeps_tenantCtl)

theorem keeps_taskQuota {m : Nat} (hm : sub 0x20040001 m) {s t : State} {a0 a1 a2 : _} (h : Keeps m s t) : Keeps m s (taskQuota a0 a1 a2 t) := by
  unfold taskQuota
  try dsimp only
  repeat' (first
    | with_reducible assumption
    | exact sub_trans (by decide) hm
    | with_reducible apply keeps_tiuResult
    | with_reducible apply keeps_setRegSaved
    | with_reducible apply Keeps.foldl
    | with_reducible apply Keeps.foldr
    | split)

theorem keeps_execTaskQuotaWrite {m : Nat} (hm : sub 0x20040001 m) {s t : State} {a0 a1 a2 : _} (h : Keeps m s t) : KeepsOut m s (execTaskQuotaWrite a0 a1 a2 t) := by
  unfold execTaskQuotaWrite
  try dsimp only
  repeat' (first
    | with_reducible assumption
    | exact sub_trans (by decide) hm
    | with_reducible apply Keeps.next
    | with_reducible apply keeps_taskQuota)

theorem keeps_zoneQuota {m : Nat} (hm : sub 0x20040001 m) {s t : State} {a0 a1 : _} (h : Keeps m s t) : Keeps m s (zoneQuota a0 a1 t) := by
  unfold zoneQuota
  try dsimp only
  repeat' (first
    | with_reducible assumption
    | exact sub_trans (by decide) hm
    | with_reducible apply keeps_tiuResult
    | with_reducible apply keeps_setRegSaved
    | with_reducible apply Keeps.foldl
    | with_reducible apply Keeps.foldr
    | split)

theorem keeps_execZoneQuotaWrite {m : Nat} (hm : sub 0x20040001 m) {s t : State} {a0 a1 : _} (h : Keeps m s t) : KeepsOut m s (execZoneQuotaWrite a0 a1 t) := by
  unfold execZoneQuotaWrite
  try dsimp only
  repeat' (first
    | with_reducible assumption
    | exact sub_trans (by decide) hm
    | with_reducible apply Keeps.next
    | with_reducible apply keeps_zoneQuota)

theorem keeps_tiuPlain {m : Nat} (hm : sub 0x20040001 m) {s t : State} {a0 a1 a2 : _} (h : Keeps m s t) : Keeps m s (tiuPlain a0 a1 a2 t) := by
  unfold tiuPlain
  try dsimp only
  repeat' (first
    | with_reducible assumption
    | exact sub_trans (by decide) hm
    | with_reducible apply keeps_tiuResult
    | with_reducible apply keeps_setRegSaved)

theorem keeps_connQuota {m : Nat} (hm : sub 0x30040001 m) {s t : State} {a0 a1 : _} (h : Keeps m s t) : Keeps m s (connQuota a0 a1 t) := by
  unfold connQuota
  try dsimp only
  repeat' (first
    | with_reducible assumption
    | exact sub_trans (by decide) hm
    | with_reducible apply keeps_setConnTokens
    | with_reducible apply keeps_tiuPlain
    | with_reducible apply Keeps.foldl
    | with_reducible apply Keeps.foldr
    | split)

theorem keeps_execConnQuotaWrite {m : Nat} (hm : sub 0x30040001 m) {s t : State} {a0 a1 : _} (h : Keeps m s t) : KeepsOut m s (execConnQuotaWrite a0 a1 t) := by
  unfold execConnQuotaWrite
  try dsimp only
  repeat' (first
    | with_reducible assumption
    | exact sub_trans (by decide) hm
    | with_reducible apply Keeps.next
    | with_reducible apply keeps_connQuota)

theorem keeps_dieSet {m : Nat} (hm : sub 0x30040001 m) {s t : State} {a0 a1 : _} (h : Keeps m s t) : Keeps m s (dieSet a0 a1 t) := by
  unfold dieSet
  try dsimp only
  repeat' (first
    | with_reducible assumption
    | exact sub_trans (by decide) hm
    | with_reducible apply keeps_tiuResult
    | with_reducible apply keeps_spillSettle
    | with_reducible apply keeps_setRegSaved
    | with_reducible apply Keeps.foldl
    | with_reducible apply Keeps.foldr
    | split)

theorem keeps_execDiesetWrite {m : Nat} (hm : sub 0x30040001 m) {s t : State} {a0 a1 : _} (h : Keeps m s t) : KeepsOut m s (execDiesetWrite a0 a1 t) := by
  unfold execDiesetWrite
  try dsimp only
  repeat' (first | with_reducible assumption | exact sub_trans (by decide) hm | with_reducible apply Keeps.next | with_reducible apply keeps_dieSet)

theorem keeps_execConnBucketRefill {m : Nat} (hm : sub 0x10000000 m) {s t : State} (h : Keeps m s t) : KeepsOut m s (execConnBucketRefill t) := by
  unfold execConnBucketRefill
  try dsimp only
  repeat' (first
    | with_reducible assumption
    | exact sub_trans (by decide) hm
    | with_reducible apply Keeps.next
    | with_reducible apply keeps_setConnTokens
    | with_reducible apply keeps_updTenant
    | with_reducible apply Keeps.foldl
    | with_reducible apply Keeps.foldr
    | split
    | (intro; try dsimp only))

theorem keeps_execBwInterval {m : Nat} (hm : sub 0x12000000 m) {s t : State} {a0 : _} (h : Keeps m s t) : KeepsOut m s (execBwInterval a0 t) := by
  unfold execBwInterval
  extract_lets b q
  split
  extract_lets s1 s2
  have h1 : Keeps m s s1 := Keeps.mk' (a := 0x12000000) hm h rfl (by apply Same.mk <;> intro b <;> first | exact absurd b (by decide) | rfl)
  have h2 : Keeps m s s2 := Keeps.foldl (fun a u hu => keeps_updTenant (sub_trans (by decide) hm) hu) h1
  clear_value s2
  exact (Keeps.mk' (a := 0x12000000) hm h2 rfl (by apply Same.mk <;> intro b <;> first | exact absurd b (by decide) | rfl)).next

theorem keeps_execPowerEntitlementRecompute {m : Nat} (hm : sub 0x10000000 m) {s t : State} (h : Keeps m s t) : KeepsOut m s (execPowerEntitlementRecompute t) := by
  unfold execPowerEntitlementRecompute
  try dsimp only
  repeat' (first
    | with_reducible assumption
    | exact sub_trans (by decide) hm
    | with_reducible apply Keeps.next
    | with_reducible apply keeps_updTenant
    | with_reducible apply Keeps.foldl
    | with_reducible apply Keeps.foldr
    | split
    | (intro; try dsimp only)
    | (with_reducible apply filter_wf)
    | ((with_reducible apply Same.mk) <;> intro b <;> first | exact absurd b (by decide) | rfl)
    | with_reducible refine Keeps.mk' (a := 0x10000000) ?_ ?_ (Eq.refl _) ?_)

theorem keeps_fineIssued {m : Nat} (hm : sub 0x10204000010000d m) {s t : State} {a0 a1 : _} (h : Keeps m s t) : Keeps m s (fineIssued a0 a1 t) := by
  unfold fineIssued
  try dsimp only
  repeat' (first
    | with_reducible assumption
    | exact sub_trans (by decide) hm
    | with_reducible apply keeps_rowVatCheck
    | with_reducible apply keeps_updRow
    | with_reducible apply Keeps.foldl
    | with_reducible apply Keeps.foldr
    | split)

theorem keeps_countSense {m : Nat} (hm : sub 0x4002000000000 m) {s t : State} {a0 : _} (h : Keeps m s t) : Keeps m s (countSense a0 t) := by
  unfold countSense
  try dsimp only
  repeat' (first
    | with_reducible assumption
    | exact sub_trans (by decide) hm
    | with_reducible apply keeps_updBlock
    | with_reducible apply keeps_queueRefresh
    | with_reducible apply Keeps.foldl
    | with_reducible apply Keeps.foldr
    | split)

theorem keeps_sendOp {m : Nat} (hm : sub 0x4182000000008 m) {s t : State} {a0 a1 : _} (h : Keeps m s t) : Keeps m s (sendOp a0 a1 t) := by
  unfold sendOp
  try dsimp only
  repeat' (first
    | with_reducible assumption
    | exact sub_trans (by decide) hm
    | with_reducible apply keeps_updDie
    | with_reducible apply keeps_countSense
    | with_reducible apply keeps_sendTower
    | with_reducible apply Keeps.foldl
    | with_reducible apply Keeps.foldr
    | split)

theorem keeps_execPowerTokenGrant {m : Nat} (hm : sub 0x1061c200010000d m) {s t : State} {a0 : _} (h : Keeps m s t) : KeepsOut m s (execPowerTokenGrant a0 t) := by
  unfold execPowerTokenGrant
  try dsimp only
  repeat' (first
    | with_reducible assumption
    | exact sub_trans (by decide) hm
    | with_reducible apply Keeps.next
    | with_reducible apply keeps_fineIssued
    | with_reducible apply keeps_sendOp
    | with_reducible apply Keeps.foldl
    | with_reducible apply Keeps.foldr
    | split)

theorem keeps_fetchGrant {m : Nat} (hm : sub 0x10000000 m) {s t u : State} {x0 : _} (h : Keeps m s t) (e : (fetchGrant t) = some (x0, u)) : Keeps m s u := by
  unfold fetchGrant at e
  try dsimp only at e
  repeat' (first | contradiction | (cases e) | (split at e))
  repeat' (first
    | with_reducible assumption
    | exact sub_trans (by decide) hm
    | with_reducible apply keeps_updTenant
    | with_reducible apply Keeps.foldl
    | with_reducible apply Keeps.foldr
    | split
    | (intro; try dsimp only)
    | (with_reducible apply filter_wf)
    | ((with_reducible apply Same.mk) <;> intro b <;> first | exact absurd b (by decide) | rfl)
    | with_reducible refine Keeps.mk' (a := 0x10000000) ?_ ?_ (Eq.refl _) ?_)

theorem keeps_fetchChecks {m : Nat} (hm : sub 0x85600009 m) {s t : State} {a0 a1 : _} (h : Keeps m s t) : Keeps m s (fetchChecks a0 a1 t) := by
  unfold fetchChecks
  try dsimp only
  repeat' (first
    | with_reducible assumption
    | exact sub_trans (by decide) hm
    | with_reducible apply keeps_finishErr
    | with_reducible apply keeps_slowAdmit
    | with_reducible apply keeps_slowRefuse
    | with_reducible apply Keeps.foldl
    | with_reducible apply Keeps.foldr
    | split)

theorem keeps_execCommandFetch {m : Nat} (hm : sub 0x95600009 m) {s t : State} {a0 : _} (h : Keeps m s t) : KeepsOut m s (execCommandFetch a0 t) := by
  unfold execCommandFetch
  try dsimp only
  repeat' (first
    | with_reducible assumption
    | exact sub_trans (by decide) hm
    | with_reducible apply Keeps.next
    | refine keeps_fetchGrant ?_ ?_ (by with_reducible assumption)
    | with_reducible apply keeps_updTenant
    | with_reducible apply keeps_updConn
    | with_reducible apply keeps_fetchChecks
    | with_reducible apply keeps_updTask
    | with_reducible apply Keeps.foldl
    | with_reducible apply Keeps.foldr
    | split)

theorem keeps_logPage {m : Nat} (hm : sub 0x4 m) {s t u : State} {a0 a1 a2 x0 : _} (h : Keeps m s t) (e : logPage a0 a1 a2 t = some (x0, u)) : Keeps m s u := by
  unfold logPage at e
  split at e
  case h_2 => cases e; exact keeps_drawFree' (sub_trans (by decide) hm) (n := 128) h
  case h_9 =>
    rw [Option.map_eq_some_iff] at e
    obtain ⟨_, _, e⟩ := e
    cases e
    exact h
  all_goals (cases e; exact h)

theorem keeps_fillPage {m : Nat} (hm : sub 0x4 m) {s t u : State} {a0 a1 : _} {x0 : _} (h : Keeps m s t) (e : (fillPage a0 a1 t) = (x0, u)) : Keeps m s u := by
  unfold fillPage at e
  try dsimp only at e
  repeat' (first | contradiction | (cases e) | (split at e))
  repeat' (first
    | with_reducible assumption
    | exact sub_trans (by decide) hm
    | refine keeps_drawFree ?_ ?_ (by with_reducible assumption)
    | with_reducible apply keeps_drawFree')
theorem keeps_fillPage' {m : Nat} (hm : sub 0x4 m) {s t : State} {a0 a1 : _} (h : Keeps m s t) : Keeps m s (fillPage a0 a1 t).2 := keeps_fillPage hm (x0 := (fillPage a0 a1 t).1) h rfl

theorem keeps_logRead {m : Nat} (hm : sub 0x8000000 m) {s t : State} {a0 : _} (h : Keeps m s t) : Keeps m s (logRead a0 t) := by
  unfold logRead
  try dsimp only
  repeat' (first
    | with_reducible assumption
    | exact sub_trans (by decide) hm
    | with_reducible apply keeps_updCtl
    | with_reducible apply Keeps.foldl
    | with_reducible apply Keeps.foldr
    | split)

theorem keeps_getLog {m : Nat} (hm : sub 0x8d60000c m) {s t : State} {a0 a1 a2 : _} (h : Keeps m s t) : Keeps m s (getLog a0 a1 a2 t) := by
  unfold getLog
  try dsimp only
  repeat' (first
    | with_reducible assumption
    | exact sub_trans (by decide) hm
    | with_reducible apply keeps_finishErr
    | refine keeps_logPage ?_ ?_ (by with_reducible assumption)
    | refine keeps_fillPage ?_ ?_ (by with_reducible assumption)
    | with_reducible apply keeps_fillPage'
    | with_reducible apply keeps_replyData
    | with_reducible apply keeps_logRead
    | with_reducible apply Keeps.foldl
    | with_reducible apply Keeps.foldr
    | split)

theorem keeps_execGetLogPage {m : Nat} (hm : sub 0x8d60000c m) {s t : State} {a0 : _} (h : Keeps m s t) : KeepsOut m s (execGetLogPage a0 t) := by
  unfold execGetLogPage
  try dsimp only
  repeat' (first
    | with_reducible assumption
    | exact sub_trans (by decide) hm
    | with_reducible apply Keeps.next
    | with_reducible apply keeps_adminRun
    | with_reducible apply keeps_getLog
    | with_reducible apply Keeps.foldl
    | with_reducible apply Keeps.foldr
    | split
    | (intro; try dsimp only))

theorem keeps_abortTask {m : Nat} (hm : sub 0x10250088d70000d m) {s t u : State} {a0 : _} {x0 : _} (h : Keeps m s t) (e : (abortTask a0 t) = (x0, u)) : Keeps m s u := by
  unfold abortTask at e
  try dsimp only at e
  repeat' (first | contradiction | (cases e) | (split at e))
  repeat' (first
    | with_reducible assumption
    | exact sub_trans (by decide) hm
    | with_reducible apply keeps_finishErr
    | with_reducible apply keeps_updCtl
    | with_reducible apply keeps_dropWrite
    | with_reducible apply keeps_abandonReads
    | with_reducible apply Keeps.foldl
    | with_reducible apply Keeps.foldr
    | split
    | (intro; try dsimp only))
theorem keeps_abortTask' {m : Nat} (hm : sub 0x10250088d70000d m) {s t : State} {a0 : _} (h : Keeps m s t) : Keeps m s (abortTask a0 t).2 := keeps_abortTask hm (x0 := (abortTask a0 t).1) h rfl

theorem keeps_execAbort {m : Nat} (hm : sub 0x10250088d70000d m) {s t : State} {a0 : _} (h : Keeps m s t) : KeepsOut m s (execAbort a0 t) := by
  unfold execAbort
  try dsimp only
  repeat' (first
    | with_reducible assumption
    | exact sub_trans (by decide) hm
    | with_reducible apply Keeps.next
    | with_reducible apply keeps_adminRun
    | refine keeps_abortTask ?_ ?_ (by with_reducible assumption)
    | with_reducible apply keeps_abortTask'
    | with_reducible apply keeps_bumpF
    | with_reducible apply keeps_finish
    | with_reducible apply Keeps.foldl
    | with_reducible apply Keeps.foldr
    | split
    | (intro; try dsimp only))

theorem keeps_adminFetch {m : Nat} (hm : sub 0x5600008 m) {s t : State} {a0 a1 : _} (h : Keeps m s t) : Keeps m s (adminFetch a0 a1 t) := by
  unfold adminFetch
  try dsimp only
  repeat' (first
    | with_reducible assumption
    | exact sub_trans (by decide) hm
    | with_reducible apply keeps_updTask
    | with_reducible apply keeps_emit
    | with_reducible apply keeps_transmit
    | with_reducible apply Keeps.foldl
    | with_reducible apply Keeps.foldr
    | split)

theorem keeps_withData {m : Nat} (hm : sub 0x85600008 m) {s t : State} {a0 a1 : _} {a2 : List Nat → State → State} (h : Keeps m s t)
    (h2 : ∀ b u, Keeps m s u → Keeps m s (a2 b u)) : Keeps m s (withData a0 a1 a2 t) := by
  unfold withData
  dsimp only
  repeat' split
  · exact h2 _ _ h
  · exact keeps_finishErr (sub_trans (by decide) hm) h
  · exact keeps_finishErr (sub_trans (by decide) hm) h
  · exact h2 _ _ h
  · exact keeps_adminFetch (sub_trans (by decide) hm) h

theorem keeps_budgetChanged {m : Nat} (hm : sub 0x10000d m) {s t : State} {a0 : _} (h : Keeps m s t) : Keeps m s (budgetChanged a0 t) := by
  unfold budgetChanged
  try dsimp only
  repeat' (first
    | with_reducible assumption
    | exact sub_trans (by decide) hm
    | with_reducible apply keeps_fire
    | with_reducible apply Keeps.foldl
    | with_reducible apply Keeps.foldr
    | split)

theorem keeps_setFeature {m : Nat} (hm : sub 0x20000810000d m) {s t : State} {a0 a1 a2 : _} (h : Keeps m s t) : Keeps m s (setFeature a0 a1 a2 t) := by
  unfold setFeature
  try dsimp only
  repeat' (first
    | with_reducible assumption
    | exact sub_trans (by decide) hm
    | with_reducible apply keeps_updCtl
    | with_reducible apply keeps_budgetChanged
    | with_reducible apply keeps_updFlc (a := 0x20000810000d)
    | ((with_reducible apply SameFlc.mk) <;> intro b <;> first | exact absurd b (by decide) | rfl)
    | with_reducible apply Keeps.foldl
    | with_reducible apply Keeps.foldr
    | split
    | (intro; try dsimp only))

theorem keeps_execSetFeatures {m : Nat} (hm : sub 0x20008d70000d m) {s t : State} {a0 : _} (h : Keeps m s t) : KeepsOut m s (execSetFeatures a0 t) := by
  unfold execSetFeatures
  try dsimp only
  repeat' (first
    | with_reducible assumption
    | exact sub_trans (by decide) hm
    | with_reducible apply Keeps.next
    | with_reducible apply keeps_adminRun
    | with_reducible apply keeps_finishErr
    | with_reducible apply keeps_withData
    | with_reducible apply keeps_finishOk
    | with_reducible apply keeps_updCtl
    | with_reducible apply keeps_finish
    | with_reducible apply keeps_setFeature
    | with_reducible apply Keeps.foldl
    | with_reducible apply Keeps.foldr
    | split
    | (intro; try dsimp only))

theorem keeps_execGetFeatures {m : Nat} (hm : sub 0x8560000c m) {s t : State} {a0 : _} (h : Keeps m s t) : KeepsOut m s (execGetFeatures a0 t) := by
  unfold execGetFeatures
  try dsimp only
  repeat' (first
    | with_reducible assumption
    | exact sub_trans (by decide) hm
    | with_reducible apply Keeps.next
    | with_reducible apply keeps_adminRun
    | with_reducible apply keeps_finishErr
    | with_reducible apply keeps_finish
    | refine keeps_drawFree ?_ ?_ (by with_reducible assumption)
    | with_reducible apply keeps_drawFree'
    | with_reducible apply keeps_replyFixed
    | with_reducible apply Keeps.foldl
    | with_reducible apply Keeps.foldr
    | split
    | (intro; try dsimp only))

theorem keeps_execAsyncEventRequest {m : Nat} (hm : sub 0x8d600008 m) {s t : State} {a0 : _} (h : Keeps m s t) : KeepsOut m s (execAsyncEventRequest a0 t) := by
  unfold execAsyncEventRequest
  try dsimp only
  repeat' (first
    | with_reducible assumption
    | exact sub_trans (by decide) hm
    | with_reducible apply Keeps.next
    | with_reducible apply keeps_adminRun
    | with_reducible apply keeps_finishErr
    | with_reducible apply keeps_updCtl
    | with_reducible apply keeps_finish
    | with_reducible apply keeps_updTask
    | with_reducible apply Keeps.foldl
    | with_reducible apply Keeps.foldr
    | split
    | (intro; try dsimp only))

theorem keeps_execAsyncEventRaise {m : Nat} (hm : sub 0x8d600008 m) {s t : State} {a0 a1 a2 a3 : _} (h : Keeps m s t) : KeepsOut m s (execAsyncEventRaise a0 a1 a2 a3 t) := by
  unfold execAsyncEventRaise
  try dsimp only
  repeat' (first
    | with_reducible assumption
    | exact sub_trans (by decide) hm
    | with_reducible apply Keeps.next
    | with_reducible apply keeps_raiseAen
    | with_reducible apply Keeps.foldl
    | with_reducible apply Keeps.foldr
    | split)

theorem keeps_stageBytes {m : Nat} (hm : sub 0x80000 m) {s t : State} {a0 a1 : _} (h : Keeps m s t) : Keeps m s (stageBytes a0 a1 t) := by
  refine h.step' hm (by apply Same.mk <;> intro b <;> first | exact absurd b (by decide) | rfl) ⟨rfl, rfl, id, Nat.le_refl _, List.suffix_refl _, id, id, id, fun hm => ?_, id, id⟩
  exact mapWf_foldl (fun _ _ hm => mapSet_wf hm) hm

theorem keeps_execFirmwareImageDownload {m : Nat} (hm : sub 0x85680008 m) {s t : State} {a0 : _} (h : Keeps m s t) : KeepsOut m s (execFirmwareImageDownload a0 t) := by
  unfold execFirmwareImageDownload
  try dsimp only
  repeat' (first
    | with_reducible assumption
    | exact sub_trans (by decide) hm
    | with_reducible apply Keeps.next
    | with_reducible apply keeps_adminRun
    | with_reducible apply keeps_finishBusy
    | with_reducible apply keeps_finishErr
    | with_reducible apply keeps_withData
    | with_reducible apply keeps_finishOk
    | with_reducible apply keeps_stageBytes
    | with_reducible apply Keeps.foldl
    | with_reducible apply Keeps.foldr
    | split
    | (intro; try dsimp only))

theorem keeps_refuseJob {m : Nat} (hm : sub 0xc578000d m) {s t : State} {a0 a1 : _} (h : Keeps m s t) : Keeps m s (refuseJob a0 a1 t) := by
  unfold refuseJob
  try dsimp only
  repeat' (first
    | with_reducible assumption
    | exact sub_trans (by decide) hm
    | with_reducible apply keeps_fire
    | with_reducible apply keeps_answerJob
    | with_reducible apply keeps_updFws (a := 0xc578000d)
    | ((with_reducible apply SameFws.mk) <;> intro b <;> first | exact absurd b (by decide) | rfl)
    | with_reducible apply Keeps.foldl
    | with_reducible apply Keeps.foldr
    | split
    | (intro; try dsimp only))

theorem keeps_endJob {m : Nat} (hm : sub 0x1cd78000d m) {s t : State} {a0 : _} (h : Keeps m s t) : Keeps m s (endJob a0 t) := by
  unfold endJob
  try dsimp only
  repeat' (first
    | with_reducible assumption
    | exact sub_trans (by decide) hm
    | with_reducible apply keeps_refuseJob
    | with_reducible apply keeps_appendRecord
    | with_reducible apply keeps_updMgc (a := 0x1cd78000d)
    | ((with_reducible apply SameMgc.mk) <;> intro b <;> first | exact absurd b (by decide) | rfl)
    | with_reducible apply keeps_updFws (a := 0x1cd78000d)
    | ((with_reducible apply SameFws.mk) <;> intro b <;> first | exact absurd b (by decide) | rfl)
    | with_reducible apply keeps_raiseAenOperator
    | with_reducible apply keeps_fire
    | with_reducible apply keeps_answerJob
    | with_reducible apply Keeps.foldl
    | with_reducible apply Keeps.foldr
    | split
    | (intro; try dsimp only))

theorem keeps_beginProgram {m : Nat} (hm : sub 0x80004 m) {s t : State} {a0 a1 a2 a3 : _} (h : Keeps m s t) : Keeps m s (beginProgram a0 a1 a2 a3 t) := by
  unfold beginProgram
  try dsimp only
  repeat' (first
    | with_reducible assumption
    | exact sub_trans (by decide) hm
    | refine keeps_drawWords ?_ ?_ (by with_reducible assumption)
    | with_reducible apply keeps_drawWords'
    | with_reducible apply keeps_updSector
    | with_reducible apply keeps_putPage
    | with_reducible apply keeps_updFws (a := 0x80004)
    | ((with_reducible apply SameFws.mk) <;> intro b <;> first | exact absurd b (by decide) | rfl)
    | with_reducible apply keeps_dropLines
    | with_reducible apply Keeps.foldl
    | with_reducible apply Keeps.foldr
    | split
    | (intro; try dsimp only))

theorem keeps_jobAdvance {m : Nat} (hm : sub 0x1cd78000d m) {s t : State} (h : Keeps m s t) : Keeps m s (jobAdvance t) := by
  unfold jobAdvance
  try dsimp only
  repeat' (first
    | with_reducible assumption
    | exact sub_trans (by decide) hm
    | with_reducible apply keeps_endJob
    | with_reducible apply keeps_beginErase
    | with_reducible apply keeps_beginProgram
    | with_reducible apply Keeps.foldl
    | with_reducible apply Keeps.foldr
    | split)

theorem keeps_startJob {m : Nat} (hm : sub 0x1cd78000d m) {s t : State} {a0 : _} (h : Keeps m s t) : Keeps m s (startJob a0 t) := by
  unfold startJob
  try dsimp only
  repeat' (first
    | with_reducible assumption
    | exact sub_trans (by decide) hm
    | with_reducible apply keeps_endJob
    | with_reducible apply keeps_updFws (a := 0x1cd78000d)
    | ((with_reducible apply SameFws.mk) <;> intro b <;> first | exact absurd b (by decide) | rfl)
    | with_reducible apply keeps_jobAdvance
    | with_reducible apply Keeps.foldl
    | with_reducible apply Keeps.foldr
    | split
    | (intro; try dsimp only))

theorem keeps_commitStart {m : Nat} (hm : sub 0x1cd78000d m) {s t : State} {a0 a1 a2 a3 : _} {a4 : Nat → State → State} (h : Keeps m s t)
    (h4 : ∀ d u, Keeps m s u → Keeps m s (a4 d u)) : Keeps m s (commitStart a0 a1 a2 a3 a4 t) := by
  unfold commitStart
  split
  · refine h4 _ _ ?_
    split
    · exact keeps_fire (sub_trans (by decide) hm) h
    · exact h
  · exact keeps_startJob (sub_trans (by decide) hm) h

theorem keeps_execFirmwareCommit {m : Nat} (hm : sub 0x1cd78000d m) {s t : State} {a0 : _} (h : Keeps m s t) : KeepsOut m s (execFirmwareCommit a0 t) := by
  unfold execFirmwareCommit
  try dsimp only
  repeat' (first
    | with_reducible assumption
    | exact sub_trans (by decide) hm
    | with_reducible apply Keeps.next
    | with_reducible apply keeps_adminRun
    | with_reducible apply keeps_finishBusy
    | with_reducible apply keeps_commitStart
    | with_reducible apply keeps_finishErr
    | with_reducible apply keeps_updTask
    | with_reducible apply Keeps.foldl
    | with_reducible apply Keeps.foldr
    | split
    | (intro; try dsimp only))

theorem keeps_attachNs {m : Nat} (hm : sub 0x48d600008 m) {s t : State} {a0 a1 a2 : _} (h : Keeps m s t) : Keeps m s (attachNs a0 a1 a2 t) := by
  unfold attachNs
  try dsimp only
  repeat' (first
    | with_reducible assumption
    | exact sub_trans (by decide) hm
    | with_reducible apply keeps_finishErr
    | with_reducible apply keeps_finishOk
    | with_reducible apply keeps_nsChanged
    | with_reducible apply keeps_updNs
    | with_reducible apply Keeps.foldl
    | with_reducible apply Keeps.foldr
    | split)

theorem keeps_execNamespaceAttachment {m : Nat} (hm : sub 0x48d600008 m) {s t : State} {a0 : _} (h : Keeps m s t) : KeepsOut m s (execNamespaceAttachment a0 t) := by
  unfold execNamespaceAttachment
  try dsimp only
  repeat' (first
    | with_reducible assumption
    | exact sub_trans (by decide) hm
    | with_reducible apply Keeps.next
    | with_reducible apply keeps_adminRun
    | with_reducible apply keeps_finishErr
    | with_reducible apply keeps_withData
    | with_reducible apply keeps_attachNs
    | with_reducible apply Keeps.foldl
    | with_reducible apply Keeps.foldr
    | split
    | (intro; try dsimp only))

theorem keeps_execKeepAlive {m : Nat} (hm : sub 0x8d600008 m) {s t : State} {a0 : _} (h : Keeps m s t) : KeepsOut m s (execKeepAlive a0 t) := by
  unfold execKeepAlive
  try dsimp only
  repeat' (first
    | with_reducible assumption
    | exact sub_trans (by decide) hm
    | with_reducible apply Keeps.next
    | with_reducible apply keeps_adminRun
    | with_reducible apply keeps_finishOk
    | with_reducible apply keeps_updCtl
    | with_reducible apply Keeps.foldl
    | with_reducible apply Keeps.foldr
    | split
    | (intro; try dsimp only))

theorem keeps_execKeepAliveTimeout {m : Nat} (hm : sub 0x1025008cd70000d m) {s t : State} {a0 a1 : _} (h : Keeps m s t) : KeepsOut m s (execKeepAliveTimeout a0 a1 t) := by
  unfold execKeepAliveTimeout
  try dsimp only
  repeat' (first
    | with_reducible assumption
    | exact sub_trans (by decide) hm
    | with_reducible apply Keeps.next
    | with_reducible apply keeps_tearCtl
    | with_reducible apply keeps_fire
    | with_reducible apply Keeps.foldl
    | with_reducible apply Keeps.foldr
    | split)

theorem keeps_execFormatNvm {m : Nat} (hm : sub 0x8000085600008 m) {s t : State} {a0 : _} (h : Keeps m s t) : KeepsOut m s (execFormatNvm a0 t) := by
  unfold execFormatNvm
  try dsimp only
  repeat' (first
    | with_reducible assumption
    | exact sub_trans (by decide) hm
    | with_reducible apply Keeps.next
    | with_reducible apply keeps_adminRun
    | with_reducible apply keeps_finish
    | with_reducible apply keeps_finishErr
    | with_reducible apply keeps_issue
    | with_reducible apply keeps_updTask
    | with_reducible apply Keeps.foldl
    | with_reducible apply Keeps.foldr
    | split
    | (intro; try dsimp only))

theorem keeps_execSanitize {m : Nat} (hm : sub 0x8000085600008 m) {s t : State} {a0 : _} (h : Keeps m s t) : KeepsOut m s (execSanitize a0 t) := by
  unfold execSanitize
  try dsimp only
  repeat' (first
    | with_reducible assumption
    | exact sub_trans (by decide) hm
    | with_reducible apply Keeps.next
    | with_reducible apply keeps_adminRun
    | with_reducible apply keeps_finishErr
    | with_reducible apply keeps_finish
    | with_reducible apply keeps_issue
    | with_reducible apply keeps_updTask
    | with_reducible apply Keeps.foldl
    | with_reducible apply Keeps.foldr
    | split
    | (intro; try dsimp only))

theorem keeps_sanRecord {m : Nat} (hm : sub 0x8000000000000 m) {s t : State} {a0 a1 : _} (h : Keeps m s t) : Keeps m s (sanRecord a0 a1 t) := by
  unfold sanRecord
  try dsimp only
  repeat' (first
    | with_reducible assumption
    | exact sub_trans (by decide) hm
    | with_reducible apply keeps_issue
    | with_reducible apply Keeps.foldl
    | with_reducible apply Keeps.foldr
    | split)

theorem keeps_sanEnd {m : Nat} (hm : sub 0x800848d600008 m) {s t : State} {a0 : _} (h : Keeps m s t) : Keeps m s (sanEnd a0 t) := by
  unfold sanEnd
  try dsimp only
  repeat' (first
    | with_reducible assumption
    | exact sub_trans (by decide) hm
    | with_reducible apply keeps_sanRecord
    | with_reducible apply keeps_updTabs (a := 0x800848d600008)
    | ((with_reducible apply SameTables.mk) <;> intro b <;> first | exact absurd b (by decide) | rfl)
    | with_reducible apply keeps_raiseAenWhere
    | with_reducible apply keeps_updNs
    | with_reducible apply keeps_finishOk
    | with_reducible apply Keeps.foldl
    | with_reducible apply Keeps.foldr
    | split
    | (intro; try dsimp only))

theorem keeps_sanErase {m : Nat} (hm : sub 0x8002000000000 m) {s t : State} {a0 a1 : _} (h : Keeps m s t) : Keeps m s (sanErase a0 a1 t) := by
  unfold sanErase
  try dsimp only
  repeat' (first
    | with_reducible assumption
    | exact sub_trans (by decide) hm
    | with_reducible apply keeps_updBlock
    | with_reducible apply keeps_issue)

theorem keeps_sanBlock {m : Nat} (hm : sub 0x800200010000d m) {s t u : State} {a0 a1 a2 : _} {x0 : _} (h : Keeps m s t) (e : (sanBlock a0 a1 a2 t) = (x0, u)) : Keeps m s u := by
  unfold sanBlock at e
  try dsimp only at e
  repeat' (first | contradiction | (cases e) | (split at e))
  repeat' (first
    | with_reducible assumption
    | exact sub_trans (by decide) hm
    | with_reducible apply keeps_sanErase
    | with_reducible apply keeps_retireBlock
    | with_reducible apply Keeps.foldl
    | with_reducible apply Keeps.foldr
    | split)
theorem keeps_sanBlock' {m : Nat} (hm : sub 0x800200010000d m) {s t : State} {a0 a1 a2 : _} (h : Keeps m s t) : Keeps m s (sanBlock a0 a1 a2 t).2 := keeps_sanBlock hm (x0 := (sanBlock a0 a1 a2 t).1) h rfl

theorem keeps_execSanitizeBlockDone {m : Nat} (hm : sub 0xc00a49d70000d m) {s t : State} {a0 : _} (h : Keeps m s t) : KeepsOut m s (execSanitizeBlockDone a0 t) := by
  unfold execSanitizeBlockDone
  try dsimp only
  repeat' (first
    | with_reducible assumption
    | exact sub_trans (by decide) hm
    | with_reducible apply Keeps.next
    | with_reducible apply keeps_sanEnd
    | refine keeps_sanBlock ?_ ?_ (by with_reducible assumption)
    | with_reducible apply keeps_sanBlock'
    | with_reducible apply keeps_updTabs (a := 0xc00a49d70000d)
    | ((with_reducible apply SameTables.mk) <;> intro b <;> first | exact absurd b (by decide) | rfl)
    | with_reducible apply keeps_zmSettle
    | with_reducible apply keeps_sanRecord
    | with_reducible apply Keeps.foldl
    | with_reducible apply Keeps.foldr
    | split
    | (intro; try dsimp only))

theorem keeps_execSanitizeExitFailure {m : Nat} (hm : sub 0x8085600008 m) {s t : State} {a0 : _} (h : Keeps m s t) : KeepsOut m s (execSanitizeExitFailure a0 t) := by
  unfold execSanitizeExitFailure
  try dsimp only
  repeat' (first
    | with_reducible assumption
    | exact sub_trans (by decide) hm
    | with_reducible apply Keeps.next
    | with_reducible apply keeps_adminRun
    | with_reducible apply keeps_finishOk
    | with_reducible apply keeps_updTabs (a := 0x8085600008)
    | ((with_reducible apply SameTables.mk) <;> intro b <;> first | exact absurd b (by decide) | rfl)
    | with_reducible apply Keeps.foldl
    | with_reducible apply Keeps.foldr
    | split
    | (intro; try dsimp only))

theorem keeps_execSirsisInbandSubmit {m : Nat} (hm : sub 0xc5600009 m) {s t : State} {a0 : _} (h : Keeps m s t) : KeepsOut m s (execSirsisInbandSubmit a0 t) := by
  unfold execSirsisInbandSubmit
  try dsimp only
  repeat' (first
    | with_reducible assumption
    | exact sub_trans (by decide) hm
    | with_reducible apply Keeps.next
    | with_reducible apply keeps_adminRun
    | with_reducible apply keeps_finishErr
    | with_reducible apply keeps_finishBusy
    | with_reducible apply keeps_sirPacket
    | with_reducible apply Keeps.foldl
    | with_reducible apply Keeps.foldr
    | split
    | (intro; try dsimp only))

theorem keeps_execSirsisInbandFetch {m : Nat} (hm : sub 0x85600008 m) {s t : State} {a0 : _} (h : Keeps m s t) : KeepsOut m s (execSirsisInbandFetch a0 t) := by
  unfold execSirsisInbandFetch
  try dsimp only
  repeat' (first
    | with_reducible assumption
    | exact sub_trans (by decide) hm
    | with_reducible apply Keeps.next
    | with_reducible apply keeps_adminRun
    | with_reducible apply keeps_finishErr
    | with_reducible apply keeps_replyData
    | with_reducible apply Keeps.foldl
    | with_reducible apply Keeps.foldr
    | split
    | (intro; try dsimp only))

theorem keeps_connectAdmin {m : Nat} (hm : sub 0x8d600008 m) {s t : State} {a0 a1 : _} (h : Keeps m s t) : Keeps m s (connectAdmin a0 a1 t) := by
  unfold connectAdmin
  try dsimp only
  repeat' (first
    | with_reducible assumption
    | exact sub_trans (by decide) hm
    | with_reducible apply keeps_finish
    | with_reducible apply keeps_updConn
    | with_reducible apply keeps_updCtl
    | with_reducible apply Keeps.foldl
    | with_reducible apply Keeps.foldr
    | split)

theorem keeps_connectIo {m : Nat} (hm : sub 0x85600008 m) {s t : State} {a0 a1 a2 : _} (h : Keeps m s t) : Keeps m s (connectIo a0 a1 a2 t) := by
  unfold connectIo
  try dsimp only
  repeat' (first
    | with_reducible assumption
    | exact sub_trans (by decide) hm
    | with_reducible apply keeps_finish
    | with_reducible apply keeps_updConn
    | with_reducible apply Keeps.foldl
    | with_reducible apply Keeps.foldr
    | split)

theorem keeps_connectWith {m : Nat} (hm : sub 0x8d600008 m) {s t : State} {a0 a1 : _} (h : Keeps m s t) : Keeps m s (connectWith a0 a1 t) := by
  unfold connectWith
  try dsimp only
  repeat' (first
    | with_reducible assumption
    | exact sub_trans (by decide) hm
    | with_reducible apply keeps_finishErr
    | with_reducible apply keeps_finish
    | with_reducible apply keeps_connectAdmin
    | with_reducible apply keeps_connectIo
    | with_reducible apply Keeps.foldl
    | with_reducible apply Keeps.foldr
    | split)

theorem keeps_execConnect {m : Nat} (hm : sub 0x8d600008 m) {s t : State} {a0 : _} (h : Keeps m s t) : KeepsOut m s (execConnect a0 t) := by
  unfold execConnect
  try dsimp only
  repeat' (first
    | with_reducible assumption
    | exact sub_trans (by decide) hm
    | with_reducible apply Keeps.next
    | with_reducible apply keeps_finishErr
    | with_reducible apply keeps_withData
    | with_reducible apply keeps_connectWith
    | with_reducible apply Keeps.foldl
    | with_reducible apply Keeps.foldr
    | split
    | (intro; try dsimp only))

theorem keeps_execPropertySet {m : Nat} (hm : sub 0x8d600008 m) {s t : State} {a0 : _} (h : Keeps m s t) : KeepsOut m s (execPropertySet a0 t) := by
  unfold execPropertySet
  try dsimp only
  repeat' (first
    | with_reducible assumption
    | exact sub_trans (by decide) hm
    | with_reducible apply Keeps.next
    | with_reducible apply keeps_adminRun
    | with_reducible apply keeps_finishErr
    | with_reducible apply keeps_updCtl
    | with_reducible apply keeps_finishOk
    | with_reducible apply Keeps.foldl
    | with_reducible apply Keeps.foldr
    | split
    | (intro; try dsimp only))

theorem keeps_execShutdownNotification {m : Nat} (hm : sub 0xa3c640810000d m) {s t : State} {a0 a1 : _} (h : Keeps m s t) : KeepsOut m s (execShutdownNotification a0 a1 t) := by
  unfold execShutdownNotification
  try dsimp only
  repeat' (first
    | with_reducible assumption
    | exact sub_trans (by decide) hm
    | with_reducible apply Keeps.next
    | with_reducible apply keeps_shutFlush
    | with_reducible apply keeps_updCtl
    | with_reducible apply Keeps.foldl
    | with_reducible apply Keeps.foldr
    | split)

theorem keeps_execPropertyGet {m : Nat} (hm : sub 0x85600008 m) {s t : State} {a0 : _} (h : Keeps m s t) : KeepsOut m s (execPropertyGet a0 t) := by
  unfold execPropertyGet
  try dsimp only
  repeat' (first
    | with_reducible assumption
    | exact sub_trans (by decide) hm
    | with_reducible apply Keeps.next
    | with_reducible apply keeps_adminRun
    | with_reducible apply keeps_finish
    | with_reducible apply keeps_finishErr
    | with_reducible apply Keeps.foldl
    | with_reducible apply Keeps.foldr
    | split
    | (intro; try dsimp only))

theorem keeps_execDisconnect {m : Nat} (hm : sub 0x1025008cd70000d m) {s t : State} {a0 : _} (h : Keeps m s t) : KeepsOut m s (execDisconnect a0 t) := by
  unfold execDisconnect
  try dsimp only
  repeat' (first
    | with_reducible assumption
    | exact sub_trans (by decide) hm
    | with_reducible apply Keeps.next
    | with_reducible apply keeps_finishErr
    | with_reducible apply keeps_loseConn
    | with_reducible apply keeps_finishOk
    | with_reducible apply Keeps.foldl
    | with_reducible apply Keeps.foldr
    | split)

theorem keeps_taskGoes {m : Nat} (hm : sub 0x10780485600008 m) {s t : State} {a0 : _} (h : Keeps m s t) : Keeps m s (taskGoes a0 t) := by
  unfold taskGoes
  try dsimp only
  repeat' (first
    | with_reducible assumption
    | exact sub_trans (by decide) hm
    | with_reducible apply keeps_readStart
    | with_reducible apply keeps_updJnl (a := 0x10780485600008)
    | ((with_reducible apply SameJnl.mk) <;> intro b <;> first | exact absurd b (by decide) | rfl)
    | with_reducible apply keeps_finish
    | with_reducible apply Keeps.foldl
    | with_reducible apply Keeps.foldr
    | split
    | (intro; try dsimp only))

theorem keeps_settleTasks {m : Nat} (hm : sub 0x10780485600008 m) {s t : State} (h : Keeps m s t) : Keeps m s (settleTasks t) := by
  unfold settleTasks
  try dsimp only
  repeat' (first
    | with_reducible assumption
    | exact sub_trans (by decide) hm
    | with_reducible apply keeps_taskGoes
    | with_reducible apply Keeps.foldl
    | with_reducible apply Keeps.foldr
    | split
    | (intro; try dsimp only))

theorem keeps_execFlush {m : Nat} (hm : sub 0x1a7c648570000d m) {s t : State} {a0 : _} (h : Keeps m s t) : KeepsOut m s (execFlush a0 t) := by
  have run : ∀ ns : List Nat, Keeps m s (
      let p := ns.foldl (fun acc n => let (st, s) := drawStamp n acc.2; (acc.1 ++ [(n, st)], s)) (([] : List (Nat × Nat)), t)
      let s := updTask a0 (fun t => { t with st := .executing, waitDurable := p.1 }) p.2
      settleTasks ((p.1.filter (fun e => undurable s e.1 e.2 != [])).foldl (fun s e => serveFlush e.1 s)
        (if p.1 = [] then finishOk a0 s else s))) := by
    intro ns
    dsimp only
    refine keeps_settleTasks (sub_trans (by decide) hm) (Keeps.foldl (fun a u hu => keeps_serveFlush (sub_trans (by decide) hm) hu) ?_)
    have hp : ∀ (l : List Nat) (p : List (Nat × Nat) × State), Keeps m s p.2 → Keeps m s
        (l.foldl (fun acc n => (acc.1 ++ [(n, (drawStamp n acc.2).1)], (drawStamp n acc.2).2)) p).2 :=
      fun l p hp => Keeps.foldl_snd (fun a q hq => keeps_drawStamp' (sub_trans (by decide) hm) hq) hp
    split
    · exact keeps_finishOk (sub_trans (by decide) hm) (keeps_updTask (sub_trans (by decide) hm) (hp _ _ h))
    · exact keeps_updTask (sub_trans (by decide) hm) (hp _ _ h)
  unfold execFlush
  split
  · exact h.next
  · dsimp only
    split
    · split
      · exact (keeps_failIo (sub_trans (by decide) hm) h).next
      · split
        · exact (keeps_failIo (sub_trans (by decide) hm) h).next
        · exact (run _).next
    · split
      · exact (keeps_failIo (sub_trans (by decide) hm) h).next
      · exact (run _).next

theorem keeps_nextOrder {m : Nat} (hm : sub 0x20000000 m) {s t u : State} {x0 : _} (h : Keeps m s t) (e : (nextOrder t) = (x0, u)) : Keeps m s u := by
  unfold nextOrder at e
  try dsimp only at e
  repeat' (first | contradiction | (cases e) | (split at e))
  repeat' (first
    | with_reducible assumption
    | exact sub_trans (by decide) hm
    | with_reducible apply Keeps.foldl
    | with_reducible apply Keeps.foldr
    | split
    | (with_reducible apply filter_wf)
    | ((with_reducible apply Same.mk) <;> intro b <;> first | exact absurd b (by decide) | rfl)
    | with_reducible refine Keeps.mk' (a := 0x20000000) ?_ ?_ (Eq.refl _) ?_)
theorem keeps_nextOrder' {m : Nat} (hm : sub 0x20000000 m) {s t : State} (h : Keeps m s t) : Keeps m s (nextOrder t).2 := keeps_nextOrder hm (x0 := (nextOrder t).1) h rfl

theorem keeps_admitConvWrite {m : Nat} (hm : sub 0xa5600008 m) {s t : State} {a0 a1 : _} (h : Keeps m s t) : Keeps m s (admitConvWrite a0 a1 t) := by
  unfold admitConvWrite
  try dsimp only
  repeat' (first
    | with_reducible assumption
    | exact sub_trans (by decide) hm
    | with_reducible apply keeps_failIo
    | refine keeps_nextOrder ?_ ?_ (by with_reducible assumption)
    | with_reducible apply keeps_nextOrder'
    | with_reducible apply keeps_updTask
    | with_reducible apply Keeps.foldl
    | with_reducible apply Keeps.foldr
    | split)

theorem keeps_closeZone {m : Nat} (hm : sub 0x10e10380010000d m) {s t : State} {a0 a1 : _} (h : Keeps m s t) : Keeps m s (closeZone a0 a1 t) := by
  unfold closeZone
  try dsimp only
  repeat' (first
    | with_reducible assumption
    | exact sub_trans (by decide) hm
    | with_reducible apply keeps_clearZone
    | with_reducible apply keeps_issueZone
    | with_reducible apply keeps_updWpe
    | with_reducible apply keeps_updZone
    | with_reducible apply Keeps.foldl
    | with_reducible apply Keeps.foldr
    | split)

theorem keeps_openLimit {m : Nat} (hm : sub 0x10e10380010000d m) {s t u : State} {a0 a1 : _} (h : Keeps m s t) (e : (openLimit a0 a1 t) = some u) : Keeps m s u := by
  unfold openLimit at e
  try dsimp only at e
  repeat' (first | contradiction | (cases e) | (split at e))
  repeat' (first | with_reducible assumption | exact sub_trans (by decide) hm | with_reducible apply keeps_closeZone)

theorem keeps_takeReserve {m : Nat} (hm : sub 0x281010000d m) {s t u : State} {a0 a1 a3 : Nat} (h : Keeps m s t) (e : takeReserve a0 a1 t a3 = some u) : Keeps m s u := by
  induction a3 generalizing t with
  | zero => cases e; exact h
  | succ n ih =>
    unfold takeReserve at e
    dsimp only at e
    split at e
    · cases e
    · refine ih (keeps_updZone (sub_trans (by decide) hm) (keeps_updBlock (sub_trans (by decide) hm) ?_)) e
      split
      · exact keeps_setSpill (sub_trans (by decide) hm) h
      · exact h

theorem keeps_abandonRefresh {m : Nat} (hm : sub 0x10e10380010000d m) {s t : State} {a0 : _} (h : Keeps m s t) : Keeps m s (abandonRefresh a0 t) := by
  unfold abandonRefresh
  try dsimp only
  repeat' (first
    | with_reducible assumption
    | exact sub_trans (by decide) hm
    | with_reducible apply keeps_updMme
    | with_reducible apply keeps_updZone
    | with_reducible apply keeps_releaseStripe
    | with_reducible apply Keeps.foldl
    | with_reducible apply Keeps.foldr
    | split)

theorem keeps_openZone {m : Nat} (hm : sub 0x10e10381010000d m) {s t u : State} {a0 a1 : _} (h : Keeps m s t) (e : (openZone a0 a1 t) = .inr u) : Keeps m s u := by
  unfold openZone at e
  try dsimp only at e
  repeat' (first | contradiction | (cases e) | (split at e))
  repeat' (first
    | with_reducible assumption
    | exact sub_trans (by decide) hm
    | refine keeps_openLimit ?_ ?_ (by with_reducible assumption)
    | refine keeps_takeReserve ?_ ?_ (by with_reducible assumption)
    | with_reducible apply keeps_updZone
    | with_reducible apply keeps_abandonRefresh)

theorem keeps_bindZone {m : Nat} (hm : sub 0xc003800000001 m) {s t u : State} {a0 : _} (h : Keeps m s t) (e : (bindZone a0 t) = some u) : Keeps m s u := by
  unfold bindZone at e
  try dsimp only at e
  repeat' (first | contradiction | (cases e) | (split at e))
  repeat' (first
    | with_reducible assumption
    | exact sub_trans (by decide) hm
    | refine keeps_takeStripe ?_ ?_ (by with_reducible assumption)
    | with_reducible apply keeps_takeStripe'
    | with_reducible apply keeps_bumpF
    | with_reducible apply keeps_issueBind
    | with_reducible apply keeps_updZone
    | with_reducible apply Keeps.foldl
    | with_reducible apply Keeps.foldr
    | split)

theorem keeps_admitZoned {m : Nat} (hm : sub 0x10e10381010000d m) {s t u : State} {a0 a1 a2 : _} (h : Keeps m s t) (e : admitZoned a0 a1 a2 t = .inr u) : Keeps m s u := by
  have h1 : ∀ w, (if (getZone t a0).isOpen = true then Sum.inr t else openZone a0 false t) = .inr w → Keeps m s w := by
    intro w e1
    split at e1
    · cases e1; exact h
    · exact keeps_openZone (sub_trans (by decide) hm) h e1
  have h2 : ∀ w v, Keeps m s w → (if (getZone w a0).stripe.isSome = true then some w else bindZone a0 w) = some v → Keeps m s v := by
    intro w v hw e1
    split at e1
    · cases e1; exact hw
    · exact keeps_bindZone (sub_trans (by decide) hm) hw e1
  unfold admitZoned at e
  dsimp only at e
  repeat' (first | contradiction | (cases e) | split at e)
  have q := h2 _ _ (h1 _ ‹_›) ‹_›
  split
  · exact q
  · exact keeps_issueZone (sub_trans (by decide) hm) q

theorem keeps_closeSettle {m : Nat} (hm : sub 0x10204000010000d m) {s t : State} {a0 : _} (h : Keeps m s t) : Keeps m s (closeSettle a0 t) := by
  unfold closeSettle
  try dsimp only
  repeat' (first
    | with_reducible assumption
    | exact sub_trans (by decide) hm
    | with_reducible apply keeps_markRow
    | with_reducible apply keeps_dropVat
    | with_reducible apply Keeps.foldl
    | with_reducible apply Keeps.foldr
    | split)

theorem keeps_stageCurrent {m : Nat} (hm : sub 0xa046000000000 m) {s t : State} {a0 : _} (h : Keeps m s t) : Keeps m s (stageCurrent a0 t) := by
  unfold stageCurrent
  try dsimp only
  repeat' (first | with_reducible assumption | exact sub_trans (by decide) hm | with_reducible apply keeps_stageUnits)

theorem keeps_stageClosed {m : Nat} (hm : sub 0x10a04600010000d m) {s t : State} {a0 : _} (h : Keeps m s t) : Keeps m s (stageClosed a0 t) := by
  unfold stageClosed
  try dsimp only
  repeat' (first
    | with_reducible assumption
    | exact sub_trans (by decide) hm
    | with_reducible apply keeps_closeSettle
    | with_reducible apply keeps_coolerSettle
    | with_reducible apply keeps_stageCurrent
    | with_reducible apply Keeps.foldl
    | with_reducible apply Keeps.foldr
    | split)

theorem keeps_stageNewlyClosed {m : Nat} (hm : sub 0x10a04600010000d m) {s t : State} {a0 : _} (h : Keeps m s t) : Keeps m s (stageNewlyClosed a0 t) := by
  unfold stageNewlyClosed
  try dsimp only
  repeat' (first
    | with_reducible assumption
    | exact sub_trans (by decide) hm
    | with_reducible apply keeps_stageClosed
    | with_reducible apply Keeps.foldl
    | with_reducible apply Keeps.foldr
    | split
    | (intro; try dsimp only))

theorem keeps_admitZonedWrite {m : Nat} (hm : sub 0x10e1478bd70000d m) {s t : State} {a0 a1 : _} (h : Keeps m s t) : Keeps m s (admitZonedWrite a0 a1 t) := by
  unfold admitZonedWrite
  try dsimp only
  repeat' (first
    | with_reducible assumption
    | exact sub_trans (by decide) hm
    | refine keeps_admitZoned ?_ ?_ (by with_reducible assumption)
    | with_reducible apply keeps_failIo
    | refine keeps_nextOrder ?_ ?_ (by with_reducible assumption)
    | with_reducible apply keeps_nextOrder'
    | with_reducible apply keeps_updZone
    | with_reducible apply keeps_updTask
    | with_reducible apply keeps_zmSettle
    | with_reducible apply keeps_stageNewlyClosed
    | with_reducible apply Keeps.foldl
    | with_reducible apply Keeps.foldr
    | split)

theorem keeps_admitWrite {m : Nat} (hm : sub 0x10e1478bd70000d m) {s t : State} {a0 a1 a2 : _} (h : Keeps m s t) : Keeps m s (admitWrite a0 a1 a2 t) := by
  unfold admitWrite
  try dsimp only
  repeat' (first
    | with_reducible assumption
    | exact sub_trans (by decide) hm
    | with_reducible apply keeps_failIo
    | with_reducible apply keeps_admitConvWrite
    | with_reducible apply keeps_admitZonedWrite
    | with_reducible apply Keeps.foldl
    | with_reducible apply Keeps.foldr
    | split)

theorem keeps_execWrite {m : Nat} (hm : sub 0x10e1478bd70000d m) {s t : State} {a0 : _} (h : Keeps m s t) : KeepsOut m s (execWrite a0 t) := by
  unfold execWrite
  try dsimp only
  repeat' (first
    | with_reducible assumption
    | exact sub_trans (by decide) hm
    | with_reducible apply Keeps.next
    | with_reducible apply keeps_admitWrite)

theorem keeps_execWriteZeroes {m : Nat} (hm : sub 0x10e1478bd70000d m) {s t : State} {a0 : _} (h : Keeps m s t) : KeepsOut m s (execWriteZeroes a0 t) := by
  unfold execWriteZeroes
  try dsimp only
  repeat' (first
    | with_reducible assumption
    | exact sub_trans (by decide) hm
    | with_reducible apply Keeps.next
    | with_reducible apply keeps_admitWrite)

theorem keeps_execVerify {m : Nat} (hm : sub 0xa7c648570000d m) {s t : State} {a0 : _} (h : Keeps m s t) : KeepsOut m s (execVerify a0 t) := by
  unfold execVerify
  try dsimp only
  repeat' (first
    | with_reducible assumption
    | exact sub_trans (by decide) hm
    | with_reducible apply Keeps.next
    | with_reducible apply keeps_admitRead)

theorem keeps_execZoneAppend {m : Nat} (hm : sub 0x10e1478bd70000d m) {s t : State} {a0 : _} (h : Keeps m s t) : KeepsOut m s (execZoneAppend a0 t) := by
  unfold execZoneAppend
  try dsimp only
  repeat' (first
    | with_reducible assumption
    | exact sub_trans (by decide) hm
    | with_reducible apply Keeps.next
    | with_reducible apply keeps_admitWrite)

end Sys2Proof.Machine
end

