-- ==== Sys2Proof/Laws/KeepsOpsF.lean ====
section
/-! SUPPORT. Each operation keeps the rules of `Keeps`, one lemma per operation, callees first (part 6). -/

namespace Sys2Proof.Machine

theorem keeps_finishZone {m : Nat} (hm : sub 0x8002800000000 m) {s t : State} {a0 a1 : _} (h : Keeps m s t) : Keeps m s (finishZone a0 a1 t) := by
  unfold finishZone
  try dsimp only
  repeat' (first
    | with_reducible assumption
    | exact sub_trans (by decide) hm
    | with_reducible apply keeps_issueZone
    | with_reducible apply keeps_sealZone)

theorem keeps_resetZone {m : Nat} (hm : sub 0x10e10380010000d m) {s t : State} {a0 a1 : _} (h : Keeps m s t) : Keeps m s (resetZone a0 a1 t) := by
  unfold resetZone
  try dsimp only
  repeat' (first | with_reducible assumption | exact sub_trans (by decide) hm | with_reducible apply keeps_clearZone)

theorem keeps_staleSlices {m : Nat} (hm : sub 0x8044000000000 m) {s t : State} {a0 : _} (h : Keeps m s t) : Keeps m s (staleSlices a0 t) := by
  unfold staleSlices
  try dsimp only
  repeat' (first
    | with_reducible assumption
    | exact sub_trans (by decide) hm
    | with_reducible apply keeps_updTabs (a := 0x8044000000000)
    | ((with_reducible apply SameTables.mk) <;> intro b <;> first | exact absurd b (by decide) | rfl)
    | with_reducible apply keeps_issue
    | with_reducible apply Keeps.foldl
    | with_reducible apply Keeps.foldr
    | split
    | (intro; try dsimp only)
    | (with_reducible apply filter_wf)
    | ((with_reducible apply Same.mk) <;> intro b <;> first | exact absurd b (by decide) | rfl)
    | with_reducible refine Keeps.mk' (a := 0x8044000000000) ?_ ?_ (Eq.refl _) ?_)

theorem keeps_resetAll {m : Nat} (hm : sub 0x10e14780010000d m) {s t : State} {a0 a1 : _} (h : Keeps m s t) : Keeps m s (resetAll a0 a1 t) := by
  unfold resetAll
  try dsimp only
  repeat' (first
    | with_reducible assumption
    | exact sub_trans (by decide) hm
    | with_reducible apply keeps_resetZone
    | with_reducible apply keeps_staleSlices)

theorem keeps_zoneAction {m : Nat} (hm : sub 0x10e14781010000d m) {s t u : State} {a0 a1 a2 : _} (h : Keeps m s t) (e : (zoneAction a0 a1 a2 t) = .inr u) : Keeps m s u := by
  unfold zoneAction at e
  try dsimp only at e
  repeat' (first | contradiction | (cases e) | (split at e))
  repeat' (first
    | with_reducible assumption
    | exact sub_trans (by decide) hm
    | with_reducible apply keeps_stageClosed
    | with_reducible apply keeps_closeZone
    | with_reducible apply keeps_finishZone
    | refine keeps_openZone ?_ ?_ (by with_reducible assumption)
    | with_reducible apply keeps_issueZone
    | with_reducible apply keeps_stageNewlyClosed
    | with_reducible apply keeps_resetAll
    | with_reducible apply keeps_clearZone)

theorem keeps_zoneActions' {m : Nat} (hm : sub 0x10e14781010000d m) {s t : State} {a0 a1 : _} {a3 : List Nat} (h : Keeps m s t) : Keeps m s (zoneActions a0 a1 t a3).1 := by
  induction a3 generalizing t with
  | nil => exact h
  | cons z l ih =>
    unfold zoneActions
    split
    · exact h
    · exact ih (keeps_zoneAction (sub_trans (by decide) hm) h ‹_›)
theorem keeps_zoneActions {m : Nat} (hm : sub 0x10e14781010000d m) {s t u : State} {a0 a1 a3 x1 : _} (h : Keeps m s t) (e : zoneActions a0 a1 t a3 = (u, x1)) : Keeps m s u := by
  have := keeps_zoneActions' (sub_trans (by decide) hm) (a0 := a0) (a1 := a1) (a3 := a3) h
  rwa [e] at this

theorem keeps_zoneSend {m : Nat} (hm : sub 0x10e147cbd70000d m) {s t : State} {a0 a1 : _} (h : Keeps m s t) : Keeps m s (zoneSend a0 a1 t) := by
  unfold zoneSend
  try dsimp only
  repeat' (first
    | with_reducible assumption
    | exact sub_trans (by decide) hm
    | with_reducible apply keeps_failIo
    | refine keeps_nextOrder ?_ ?_ (by with_reducible assumption)
    | with_reducible apply keeps_nextOrder'
    | with_reducible apply keeps_updTask
    | refine keeps_drawStamp ?_ ?_ (by with_reducible assumption)
    | with_reducible apply keeps_drawStamp'
    | refine keeps_zoneActions ?_ ?_ (by with_reducible assumption)
    | with_reducible apply keeps_zoneActions'
    | with_reducible apply keeps_zmSettle
    | with_reducible apply keeps_finishOk
    | with_reducible apply Keeps.foldl
    | with_reducible apply Keeps.foldr
    | split)

theorem keeps_execZoneOpen {m : Nat} (hm : sub 0x10e147cbd70000d m) {s t : State} {a0 : _} (h : Keeps m s t) : KeepsOut m s (execZoneOpen a0 t) := by
  unfold execZoneOpen
  try dsimp only
  repeat' (first
    | with_reducible assumption
    | exact sub_trans (by decide) hm
    | with_reducible apply Keeps.next
    | with_reducible apply keeps_zoneSend)

theorem keeps_execZoneClose {m : Nat} (hm : sub 0x10e147cbd70000d m) {s t : State} {a0 : _} (h : Keeps m s t) : KeepsOut m s (execZoneClose a0 t) := by
  unfold execZoneClose
  try dsimp only
  repeat' (first
    | with_reducible assumption
    | exact sub_trans (by decide) hm
    | with_reducible apply Keeps.next
    | with_reducible apply keeps_zoneSend)

theorem keeps_execZoneFinish {m : Nat} (hm : sub 0x10e147cbd70000d m) {s t : State} {a0 : _} (h : Keeps m s t) : KeepsOut m s (execZoneFinish a0 t) := by
  unfold execZoneFinish
  try dsimp only
  repeat' (first
    | with_reducible assumption
    | exact sub_trans (by decide) hm
    | with_reducible apply Keeps.next
    | with_reducible apply keeps_zoneSend)

theorem keeps_execZoneReset {m : Nat} (hm : sub 0x10e147cbd70000d m) {s t : State} {a0 : _} (h : Keeps m s t) : KeepsOut m s (execZoneReset a0 t) := by
  unfold execZoneReset
  try dsimp only
  repeat' (first
    | with_reducible assumption
    | exact sub_trans (by decide) hm
    | with_reducible apply Keeps.next
    | with_reducible apply keeps_zoneSend)

theorem keeps_execZoneOffline {m : Nat} (hm : sub 0x10e147cbd70000d m) {s t : State} {a0 : _} (h : Keeps m s t) : KeepsOut m s (execZoneOffline a0 t) := by
  unfold execZoneOffline
  try dsimp only
  repeat' (first
    | with_reducible assumption
    | exact sub_trans (by decide) hm
    | with_reducible apply Keeps.next
    | with_reducible apply keeps_zoneSend)

theorem keeps_execInvalidIoOpcode {m : Nat} (hm : sub 0x85600008 m) {s t : State} {a0 : _} (h : Keeps m s t) : KeepsOut m s (execInvalidIoOpcode a0 t) := by
  unfold execInvalidIoOpcode
  try dsimp only
  repeat' (first
    | with_reducible assumption
    | exact sub_trans (by decide) hm
    | with_reducible apply Keeps.next
    | with_reducible apply keeps_failIo
    | with_reducible apply Keeps.foldl
    | with_reducible apply Keeps.foldr
    | split)

theorem keeps_nextFetch {m : Nat} (hm : sub 0x15600008 m) {s t : State} {a0 : _} (h : Keeps m s t) : Keeps m s (nextFetch a0 t) := by
  unfold nextFetch
  try dsimp only
  repeat' (first
    | with_reducible assumption
    | exact sub_trans (by decide) hm
    | with_reducible apply keeps_updTenant
    | with_reducible apply keeps_updTask
    | with_reducible apply keeps_emit
    | with_reducible apply keeps_transmit
    | with_reducible apply Keeps.foldl
    | with_reducible apply Keeps.foldr
    | split)

theorem keeps_makeAsides {m : Nat} (hm : sub 0x2000000000000 m) {s t : State} {a0 : _} (h : Keeps m s t) : Keeps m s (makeAsides a0 t) := by
  unfold makeAsides
  try dsimp only
  repeat' (first | with_reducible assumption | exact sub_trans (by decide) hm | with_reducible apply keeps_updWpe)

theorem keeps_startReceive {m : Nat} (hm : sub 0x10204000410000d m) {s t u : State} {a0 : _} (h : Keeps m s t) (e : (startReceive a0 t) = some u) : Keeps m s u := by
  unfold startReceive at e
  try dsimp only at e
  repeat' (first | contradiction | (cases e) | (split at e))
  repeat' (first
    | with_reducible assumption
    | exact sub_trans (by decide) hm
    | with_reducible apply keeps_readBack
    | with_reducible apply keeps_makeAsides
    | refine keeps_vatAlloc ?_ ?_ (by with_reducible assumption)
    | with_reducible apply keeps_updTask
    | with_reducible apply keeps_fillAside
    | with_reducible apply Keeps.foldl
    | with_reducible apply Keeps.foldr
    | split
    | (intro; try dsimp only))

theorem keeps_execDataPhaseStart {m : Nat} (hm : sub 0x10204001570000d m) {s t : State} {a0 : _} (h : Keeps m s t) : KeepsOut m s (execDataPhaseStart a0 t) := by
  unfold execDataPhaseStart
  try dsimp only
  repeat' (first
    | with_reducible assumption
    | exact sub_trans (by decide) hm
    | with_reducible apply Keeps.next
    | with_reducible apply keeps_nextFetch
    | refine keeps_startReceive ?_ ?_ (by with_reducible assumption)
    | with_reducible apply keeps_updTask
    | with_reducible apply Keeps.foldl
    | with_reducible apply Keeps.foldr
    | split)

theorem keeps_bpmReference {m : Nat} (hm : sub 0x10000000010000d m) {s t : State} {a0 a1 a2 : _} (h : Keeps m s t) : Keeps m s (bpmReference a0 a1 a2 t) := by
  unfold bpmReference
  try dsimp only
  repeat' (first
    | with_reducible assumption
    | exact sub_trans (by decide) hm
    | with_reducible apply keeps_bpmRefuse
    | with_reducible apply keeps_bpmAnswer
    | with_reducible apply keeps_updBpm
    | with_reducible apply Keeps.foldl
    | with_reducible apply Keeps.foldr
    | split)

theorem keeps_refBufs {m : Nat} (hm : sub 0x10200000010000d m) {s t : State} {a0 a1 a2 : _} (h : Keeps m s t) : Keeps m s (refBufs a0 a1 a2 t) := by
  unfold refBufs
  try dsimp only
  repeat' (first
    | with_reducible assumption
    | exact sub_trans (by decide) hm
    | with_reducible apply keeps_bpmReference
    | with_reducible apply keeps_updWpe
    | with_reducible apply Keeps.foldl
    | with_reducible apply Keeps.foldr
    | split
    | (intro; try dsimp only))

theorem keeps_commitConv {m : Nat} (hm : sub 0x11a04100010000d m) {s t : State} {a0 a1 : _} (h : Keeps m s t) : Keeps m s (commitConv a0 a1 t) := by
  unfold commitConv
  try dsimp only
  repeat' (first
    | with_reducible assumption
    | exact sub_trans (by decide) hm
    | with_reducible apply keeps_refBufs
    | with_reducible apply keeps_updUnit
    | with_reducible apply keeps_issueCommit
    | with_reducible apply keeps_landLog
    | with_reducible apply Keeps.foldl
    | with_reducible apply Keeps.foldr
    | split
    | (intro; try dsimp only))

theorem keeps_commitZoned {m : Nat} (hm : sub 0x11a04280010000d m) {s t : State} {a0 a1 : _} (h : Keeps m s t) : Keeps m s (commitZoned a0 a1 t) := by
  unfold commitZoned
  try dsimp only
  repeat' (first
    | with_reducible assumption
    | exact sub_trans (by decide) hm
    | with_reducible apply keeps_refBufs
    | with_reducible apply keeps_updUnit
    | with_reducible apply keeps_updZone
    | with_reducible apply keeps_issueCommit
    | with_reducible apply keeps_issueZone
    | with_reducible apply keeps_sealZone
    | with_reducible apply Keeps.foldl
    | with_reducible apply Keeps.foldr
    | split
    | (intro; try dsimp only))

theorem keeps_execWriteCommit {m : Nat} (hm : sub 0x11e3c7c9d70000d m) {s t : State} {a0 : _} (h : Keeps m s t) : KeepsOut m s (execWriteCommit a0 t) := by
  unfold execWriteCommit
  try dsimp only
  repeat' (first
    | with_reducible assumption
    | exact sub_trans (by decide) hm
    | with_reducible apply Keeps.next
    | refine keeps_drawStamp ?_ ?_ (by with_reducible assumption)
    | with_reducible apply keeps_drawStamp'
    | with_reducible apply keeps_commitGone
    | with_reducible apply keeps_commitConv
    | with_reducible apply keeps_commitZoned
    | with_reducible apply keeps_updTenant
    | with_reducible apply keeps_updTask
    | with_reducible apply keeps_zmSettle
    | with_reducible apply keeps_serveFlush
    | with_reducible apply Keeps.foldl
    | with_reducible apply Keeps.foldr
    | split)

theorem keeps_nextSend {m : Nat} (hm : sub 0x15600008 m) {s t : State} {a0 : _} (h : Keeps m s t) : Keeps m s (nextSend a0 t) := by
  unfold nextSend
  try dsimp only
  repeat' (first
    | with_reducible assumption
    | exact sub_trans (by decide) hm
    | with_reducible apply keeps_updTenant
    | with_reducible apply keeps_updTask
    | with_reducible apply keeps_emit
    | with_reducible apply keeps_transmit
    | with_reducible apply Keeps.foldl
    | with_reducible apply Keeps.foldr
    | split)

theorem keeps_logError {m : Nat} (hm : sub 0x8000000 m) {s t : State} {a0 a1 a2 a3 : _} (h : Keeps m s t) : Keeps m s (logError a0 a1 a2 a3 t) := by
  unfold logError
  try dsimp only
  repeat' (first | with_reducible assumption | exact sub_trans (by decide) hm | with_reducible apply keeps_updCtl)

theorem keeps_readFails {m : Nat} (hm : sub 0x9d70000d m) {s t : State} {a0 a1 : _} (h : Keeps m s t) : Keeps m s (readFails a0 a1 t) := by
  unfold readFails
  try dsimp only
  repeat' (first
    | with_reducible assumption
    | exact sub_trans (by decide) hm
    | with_reducible apply keeps_logError
    | with_reducible apply keeps_updTenant
    | with_reducible apply keeps_fire
    | with_reducible apply keeps_finishErr
    | with_reducible apply Keeps.foldl
    | with_reducible apply Keeps.foldr
    | split)

theorem keeps_countRead {m : Nat} (hm : sub 0x10000000 m) {s t : State} {a0 : _} (h : Keeps m s t) : Keeps m s (countRead a0 t) := by
  unfold countRead
  try dsimp only
  repeat' (first | with_reducible assumption | exact sub_trans (by decide) hm | with_reducible apply keeps_updTenant)

theorem keeps_execReadTransferStart {m : Nat} (hm : sub 0x9d70000d m) {s t : State} {a0 : _} (h : Keeps m s t) : KeepsOut m s (execReadTransferStart a0 t) := by
  unfold execReadTransferStart
  try dsimp only
  repeat' (first
    | with_reducible assumption
    | exact sub_trans (by decide) hm
    | with_reducible apply Keeps.next
    | with_reducible apply keeps_nextSend
    | with_reducible apply keeps_readFails
    | with_reducible apply keeps_finishOk
    | with_reducible apply keeps_countRead
    | with_reducible apply Keeps.foldl
    | with_reducible apply Keeps.foldr
    | split)

theorem keeps_execReadTransferDone {m : Nat} (hm : sub 0x95600008 m) {s t : State} {a0 : _} (h : Keeps m s t) : KeepsOut m s (execReadTransferDone a0 t) := by
  unfold execReadTransferDone
  try dsimp only
  repeat' (first
    | with_reducible assumption
    | exact sub_trans (by decide) hm
    | with_reducible apply Keeps.next
    | with_reducible apply keeps_finishOk
    | with_reducible apply keeps_countRead
    | with_reducible apply Keeps.foldl
    | with_reducible apply Keeps.foldr
    | split)

theorem keeps_execDataPhaseTimeout {m : Nat} (hm : sub 0x10200088570000d m) {s t : State} {a0 : _} (h : Keeps m s t) : KeepsOut m s (execDataPhaseTimeout a0 t) := by
  unfold execDataPhaseTimeout
  try dsimp only
  repeat' (first
    | with_reducible assumption
    | exact sub_trans (by decide) hm
    | with_reducible apply Keeps.next
    | with_reducible apply keeps_dropWrite
    | with_reducible apply keeps_finishRetry
    | with_reducible apply Keeps.foldl
    | with_reducible apply Keeps.foldr
    | split
    | (intro; try dsimp only))

theorem keeps_execConnectionLoss {m : Nat} (hm : sub 0x1025008cd70000d m) {s t : State} {a0 : _} (h : Keeps m s t) : KeepsOut m s (execConnectionLoss a0 t) := by
  unfold execConnectionLoss
  try dsimp only
  repeat' (first
    | with_reducible assumption
    | exact sub_trans (by decide) hm
    | with_reducible apply Keeps.next
    | with_reducible apply keeps_loseConn)

theorem keeps_shrinkDone {m : Nat} (hm : sub 0x800288d600008 m) {s t : State} {a0 : _} (h : Keeps m s t) : Keeps m s (shrinkDone a0 t) := by
  unfold shrinkDone
  try dsimp only
  repeat' (first
    | with_reducible assumption
    | exact sub_trans (by decide) hm
    | with_reducible apply keeps_zoneChanged
    | with_reducible apply keeps_issueZone
    | with_reducible apply keeps_sealZone
    | with_reducible apply Keeps.foldl
    | with_reducible apply Keeps.foldr
    | split)

theorem keeps_execShrinkFinish {m : Nat} (hm : sub 0xc00289d70000d m) {s t : State} {a0 : _} (h : Keeps m s t) : KeepsOut m s (execShrinkFinish a0 t) := by
  unfold execShrinkFinish
  try dsimp only
  repeat' (first
    | with_reducible assumption
    | exact sub_trans (by decide) hm
    | with_reducible apply Keeps.next
    | with_reducible apply keeps_zmSettle
    | with_reducible apply keeps_shrinkDone)

theorem keeps_execMemberLoss {m : Nat} (hm : sub 0x10e10389d70000d m) {s t : State} {a0 a1 : _} (h : Keeps m s t) : KeepsOut m s (execMemberLoss a0 a1 t) := by
  unfold execMemberLoss
  try dsimp only
  repeat' (first
    | with_reducible assumption
    | exact sub_trans (by decide) hm
    | with_reducible apply Keeps.next
    | with_reducible apply keeps_zmSettle
    | with_reducible apply keeps_loseMember)

theorem keeps_execSpareReplenish {m : Nat} (hm : sub 0xc00089d70000d m) {s t : State} (h : Keeps m s t) : KeepsOut m s (execSpareReplenish t) := by
  unfold execSpareReplenish
  try dsimp only
  repeat' (first
    | with_reducible assumption
    | exact sub_trans (by decide) hm
    | with_reducible apply Keeps.next
    | with_reducible apply keeps_zmSettle
    | with_reducible apply keeps_replenish)

theorem keeps_execReadyListRefill {m : Nat} (hm : sub 0x4002000000000 m) {s t : State} {a0 a1 : _} (h : Keeps m s t) : KeepsOut m s (execReadyListRefill a0 a1 t) := by
  unfold execReadyListRefill
  try dsimp only
  repeat' (first
    | with_reducible assumption
    | exact sub_trans (by decide) hm
    | with_reducible apply Keeps.next
    | with_reducible apply keeps_updBlock
    | with_reducible apply keeps_updMme
    | with_reducible apply Keeps.foldl
    | with_reducible apply Keeps.foldr
    | split
    | (intro; try dsimp only))

theorem keeps_execReservationReplace {m : Nat} (hm : sub 0xc00289d70000d m) {s t : State} {a0 a1 : _} (h : Keeps m s t) : KeepsOut m s (execReservationReplace a0 a1 t) := by
  unfold execReservationReplace
  try dsimp only
  repeat' (first
    | with_reducible assumption
    | exact sub_trans (by decide) hm
    | with_reducible apply Keeps.next
    | with_reducible apply keeps_voidReserve
    | refine keeps_takeReserve ?_ ?_ (by with_reducible assumption)
    | with_reducible apply keeps_zmSettle
    | with_reducible apply Keeps.foldl
    | with_reducible apply Keeps.foldr
    | split)

theorem keeps_chooseHome {m : Nat} (hm : sub 0x8010000000000 m) {s t : State} {a0 a1 a2 : _} (h : Keeps m s t) : Keeps m s (chooseHome a0 a1 a2 t) := by
  unfold chooseHome
  try dsimp only
  repeat' (first
    | with_reducible assumption
    | exact sub_trans (by decide) hm
    | with_reducible apply keeps_updTabs (a := 0x8010000000000)
    | ((with_reducible apply SameTables.mk) <;> intro b <;> first | exact absurd b (by decide) | rfl)
    | with_reducible apply keeps_issue
    | with_reducible apply Keeps.foldl
    | with_reducible apply Keeps.foldr
    | split
    | (intro; try dsimp only))

theorem keeps_execRehome {m : Nat} (hm : sub 0xc010000000000 m) {s t : State} {a0 : _} (h : Keeps m s t) : KeepsOut m s (execRehome a0 t) := by
  unfold execRehome
  try dsimp only
  repeat' (first
    | with_reducible assumption
    | exact sub_trans (by decide) hm
    | with_reducible apply Keeps.next
    | with_reducible apply keeps_updMme
    | with_reducible apply keeps_chooseHome
    | with_reducible apply Keeps.foldl
    | with_reducible apply Keeps.foldr
    | split)

theorem keeps_execLogStripeAssemble {m : Nat} (hm : sub 0x10a04300010000d m) {s t : State} {a0 a1 : _} (h : Keeps m s t) : KeepsOut m s (execLogStripeAssemble a0 a1 t) := by
  unfold execLogStripeAssemble
  try dsimp only
  repeat' (first
    | with_reducible assumption
    | exact sub_trans (by decide) hm
    | with_reducible apply Keeps.next
    | with_reducible apply keeps_updStripe
    | with_reducible apply keeps_updBlock
    | with_reducible apply keeps_issueBind
    | with_reducible apply keeps_updWpe
    | with_reducible apply keeps_updUnit
    | with_reducible apply keeps_bpmReference
    | with_reducible apply Keeps.foldl
    | with_reducible apply Keeps.foldr
    | split
    | (intro; try dsimp only))

theorem keeps_groupSettle {m : Nat} (hm : sub 0x200000000000 m) {s t : State} {a0 : _} (h : Keeps m s t) : Keeps m s (groupSettle a0 t) := by
  unfold groupSettle
  try dsimp only
  repeat' (first
    | with_reducible assumption
    | exact sub_trans (by decide) hm
    | with_reducible apply keeps_setGroup
    | with_reducible apply Keeps.foldl
    | with_reducible apply Keeps.foldr
    | split)

theorem keeps_linkUp {m : Nat} (hm : sub 0x2e28209d74000d m) {s t : State} {a0 : _} (h : Keeps m s t) : Keeps m s (linkUp a0 t) := by
  unfold linkUp
  try dsimp only
  repeat' (first
    | with_reducible assumption
    | exact sub_trans (by decide) hm
    | with_reducible apply keeps_updLink
    | with_reducible apply keeps_saveSetting
    | with_reducible apply keeps_sendTower
    | with_reducible apply keeps_issueRelease
    | with_reducible apply keeps_linkSettle
    | with_reducible apply keeps_groupSettle
    | with_reducible apply Keeps.foldl
    | with_reducible apply Keeps.foldr
    | split
    | (intro; try dsimp only))

theorem keeps_forgetTower {m : Nat} (hm : sub 0x832000000000 m) {s t : State} {a0 : _} (h : Keeps m s t) : Keeps m s (forgetTower a0 t) := by
  unfold forgetTower
  try dsimp only
  repeat' (first
    | with_reducible assumption
    | exact sub_trans (by decide) hm
    | with_reducible apply keeps_updTabs (a := 0x832000000000)
    | ((with_reducible apply SameTables.mk) <;> intro b <;> first | exact absurd b (by decide) | rfl)
    | with_reducible apply keeps_updRcu (a := 0x832000000000)
    | ((with_reducible apply SameRcu.mk) <;> intro b <;> first | exact absurd b (by decide) | rfl)
    | with_reducible apply Keeps.foldl
    | with_reducible apply Keeps.foldr
    | split
    | (intro; try dsimp only)
    | (with_reducible apply filter_wf)
    | ((with_reducible apply Same.mk) <;> intro b <;> first | exact absurd b (by decide) | rfl)
    | with_reducible refine Keeps.mk' (a := 0x832000000000) ?_ ?_ (Eq.refl _) ?_)

theorem keeps_awaitDefects {m : Nat} (hm : sub 0x180000000000 m) {s t : State} {a0 : _} (h : Keeps m s t) : Keeps m s (awaitDefects a0 t) := by
  unfold awaitDefects
  try dsimp only
  repeat' (first
    | with_reducible assumption
    | exact sub_trans (by decide) hm
    | with_reducible apply keeps_updLink
    | with_reducible apply keeps_updDie
    | with_reducible apply Keeps.foldl
    | with_reducible apply Keeps.foldr
    | split
    | (intro; try dsimp only))

theorem keeps_serialSeen {m : Nat} (hm : sub 0x12fff389d70000d m) {s t : State} {a0 a1 : _} (h : Keeps m s t) : Keeps m s (serialSeen a0 a1 t) := by
  unfold serialSeen
  try dsimp only
  repeat' (first
    | with_reducible assumption
    | exact sub_trans (by decide) hm
    | with_reducible apply keeps_updLink
    | with_reducible apply keeps_fire
    | with_reducible apply keeps_forgetTower
    | with_reducible apply keeps_loseLink
    | with_reducible apply keeps_awaitDefects
    | with_reducible apply Keeps.foldl
    | with_reducible apply Keeps.foldr
    | split)

theorem keeps_execLinkTrainingDone {m : Nat} (hm : sub 0x12fff389d74000d m) {s t : State} {a0 a1 a2 a3 : _} (h : Keeps m s t) : KeepsOut m s (execLinkTrainingDone a0 a1 a2 a3 t) := by
  unfold execLinkTrainingDone
  try dsimp only
  repeat' (first
    | with_reducible assumption
    | exact sub_trans (by decide) hm
    | with_reducible apply Keeps.next
    | with_reducible apply keeps_linkUp
    | with_reducible apply keeps_serialSeen
    | with_reducible apply keeps_trainFallback
    | with_reducible apply keeps_failLink
    | with_reducible apply Keeps.foldl
    | with_reducible apply Keeps.foldr
    | split)

theorem keeps_execStoredTrainingFallback {m : Nat} (hm : sub 0x12ffc389d70000d m) {s t : State} {a0 : _} (h : Keeps m s t) : KeepsOut m s (execStoredTrainingFallback a0 t) := by
  unfold execStoredTrainingFallback
  try dsimp only
  repeat' (first
    | with_reducible assumption
    | exact sub_trans (by decide) hm
    | with_reducible apply Keeps.next
    | with_reducible apply keeps_trainFallback
    | with_reducible apply Keeps.foldl
    | with_reducible apply Keeps.foldr
    | split)

theorem keeps_enterRetraining {m : Nat} (hm : sub 0x8000010000d m) {s t : State} {a0 a1 : _} (h : Keeps m s t) : Keeps m s (enterRetraining a0 a1 t) := by
  unfold enterRetraining
  try dsimp only
  repeat' (first
    | with_reducible assumption
    | exact sub_trans (by decide) hm
    | with_reducible apply keeps_fire
    | with_reducible apply keeps_updLink)

theorem keeps_execLockLossTimeout {m : Nat} (hm : sub 0x8000010000d m) {s t : State} {a0 : _} (h : Keeps m s t) : KeepsOut m s (execLockLossTimeout a0 t) := by
  unfold execLockLossTimeout
  try dsimp only
  repeat' (first
    | with_reducible assumption
    | exact sub_trans (by decide) hm
    | with_reducible apply Keeps.next
    | with_reducible apply keeps_enterRetraining
    | with_reducible apply Keeps.foldl
    | with_reducible apply Keeps.foldr
    | split)

theorem keeps_execRetrainTimeout {m : Nat} (hm : sub 0x12ffc389d70000d m) {s t : State} {a0 : _} (h : Keeps m s t) : KeepsOut m s (execRetrainTimeout a0 t) := by
  unfold execRetrainTimeout
  try dsimp only
  repeat' (first
    | with_reducible assumption
    | exact sub_trans (by decide) hm
    | with_reducible apply Keeps.next
    | with_reducible apply keeps_failLink
    | with_reducible apply Keeps.foldl
    | with_reducible apply Keeps.foldr
    | split)

theorem keeps_execLinkRetryTimer {m : Nat} (hm : sub 0x80000000000 m) {s t : State} {a0 : _} (h : Keeps m s t) : KeepsOut m s (execLinkRetryTimer a0 t) := by
  unfold execLinkRetryTimer
  try dsimp only
  repeat' (first
    | with_reducible assumption
    | exact sub_trans (by decide) hm
    | with_reducible apply Keeps.next
    | with_reducible apply keeps_updLink
    | with_reducible apply Keeps.foldl
    | with_reducible apply Keeps.foldr
    | split)

theorem keeps_execLinkFail {m : Nat} (hm : sub 0x12ffc389d70000d m) {s t : State} {a0 : _} (h : Keeps m s t) : KeepsOut m s (execLinkFail a0 t) := by
  unfold execLinkFail
  try dsimp only
  repeat' (first
    | with_reducible assumption
    | exact sub_trans (by decide) hm
    | with_reducible apply Keeps.next
    | with_reducible apply keeps_failLink
    | with_reducible apply Keeps.foldl
    | with_reducible apply Keeps.foldr
    | split)

theorem keeps_execLinkGraceExpire {m : Nat} (hm : sub 0x12ffc389d70000d m) {s t : State} {a0 : _} (h : Keeps m s t) : KeepsOut m s (execLinkGraceExpire a0 t) := by
  unfold execLinkGraceExpire
  try dsimp only
  repeat' (first
    | with_reducible assumption
    | exact sub_trans (by decide) hm
    | with_reducible apply Keeps.next
    | with_reducible apply keeps_linkSettle
    | with_reducible apply keeps_loseLink
    | with_reducible apply Keeps.foldl
    | with_reducible apply Keeps.foldr
    | split)

theorem keeps_linkDisable {m : Nat} (hm : sub 0x12ffc389d70000d m) {s t : State} {a0 : _} (h : Keeps m s t) : Keeps m s (linkDisable a0 t) := by
  unfold linkDisable
  try dsimp only
  repeat' (first
    | with_reducible assumption
    | exact sub_trans (by decide) hm
    | with_reducible apply keeps_setF
    | with_reducible apply keeps_failLink
    | with_reducible apply Keeps.foldl
    | with_reducible apply Keeps.foldr
    | split)

theorem keeps_execLinkDisable {m : Nat} (hm : sub 0x12ffc389d70000d m) {s t : State} {a0 : _} (h : Keeps m s t) : KeepsOut m s (execLinkDisable a0 t) := by
  unfold execLinkDisable
  try dsimp only
  repeat' (first
    | with_reducible assumption
    | exact sub_trans (by decide) hm
    | with_reducible apply Keeps.next
    | with_reducible apply keeps_linkDisable
    | with_reducible apply Keeps.foldl
    | with_reducible apply Keeps.foldr
    | split)

theorem keeps_linkEnable {m : Nat} (hm : sub 0x80000000001 m) {s t : State} {a0 : _} (h : Keeps m s t) : Keeps m s (linkEnable a0 t) := by
  unfold linkEnable
  try dsimp only
  repeat' (first
    | with_reducible assumption
    | exact sub_trans (by decide) hm
    | with_reducible apply keeps_setF
    | with_reducible apply keeps_startTraining
    | with_reducible apply Keeps.foldl
    | with_reducible apply Keeps.foldr
    | split)

theorem keeps_execLinkEnable {m : Nat} (hm : sub 0x80000000001 m) {s t : State} {a0 : _} (h : Keeps m s t) : KeepsOut m s (execLinkEnable a0 t) := by
  unfold execLinkEnable
  try dsimp only
  repeat' (first
    | with_reducible assumption
    | exact sub_trans (by decide) hm
    | with_reducible apply Keeps.next
    | with_reducible apply keeps_linkEnable
    | with_reducible apply Keeps.foldl
    | with_reducible apply Keeps.foldr
    | split)

theorem keeps_linkRetrain {m : Nat} (hm : sub 0x8000010000d m) {s t : State} {a0 : _} (h : Keeps m s t) : Keeps m s (linkRetrain a0 t) := by
  unfold linkRetrain
  try dsimp only
  repeat' (first
    | with_reducible assumption
    | exact sub_trans (by decide) hm
    | with_reducible apply keeps_enterRetraining
    | with_reducible apply Keeps.foldl
    | with_reducible apply Keeps.foldr
    | split)

theorem keeps_execLinkRetrainRequest {m : Nat} (hm : sub 0x8000010000d m) {s t : State} {a0 : _} (h : Keeps m s t) : KeepsOut m s (execLinkRetrainRequest a0 t) := by
  unfold execLinkRetrainRequest
  try dsimp only
  repeat' (first
    | with_reducible assumption
    | exact sub_trans (by decide) hm
    | with_reducible apply Keeps.next
    | with_reducible apply keeps_linkRetrain
    | with_reducible apply Keeps.foldl
    | with_reducible apply Keeps.foldr
    | split)

theorem keeps_linkFullTrain {m : Nat} (hm : sub 0x80000000000 m) {s t : State} {a0 : _} (h : Keeps m s t) : Keeps m s (linkFullTrain a0 t) := by
  unfold linkFullTrain
  try dsimp only
  repeat' (first
    | with_reducible assumption
    | exact sub_trans (by decide) hm
    | with_reducible apply keeps_updLink
    | with_reducible apply Keeps.foldl
    | with_reducible apply Keeps.foldr
    | split)

theorem keeps_execLinkFullTrainRequest {m : Nat} (hm : sub 0x80000000000 m) {s t : State} {a0 : _} (h : Keeps m s t) : KeepsOut m s (execLinkFullTrainRequest a0 t) := by
  unfold execLinkFullTrainRequest
  try dsimp only
  repeat' (first
    | with_reducible assumption
    | exact sub_trans (by decide) hm
    | with_reducible apply Keeps.next
    | with_reducible apply keeps_linkFullTrain
    | with_reducible apply Keeps.foldl
    | with_reducible apply Keeps.foldr
    | split)

theorem keeps_huntFrame {m : Nat} (hm : sub 0x80000000000 m) {s t : State} {a0 a1 a2 : _} (h : Keeps m s t) : Keeps m s (huntFrame a0 a1 a2 t) := by
  unfold huntFrame
  try dsimp only
  repeat' (first | with_reducible assumption | exact sub_trans (by decide) hm | with_reducible apply keeps_updLink)

theorem keeps_frameDiscard {m : Nat} (hm : sub 0x80000000008 m) {s t : State} {a0 : _} (h : Keeps m s t) : Keeps m s (frameDiscard a0 t) := by
  unfold frameDiscard
  try dsimp only
  repeat' (first
    | with_reducible assumption
    | exact sub_trans (by decide) hm
    | with_reducible apply keeps_emit
    | with_reducible apply keeps_updLink
    | with_reducible apply Keeps.foldl
    | with_reducible apply Keeps.foldr
    | split)

theorem keeps_missedMark {m : Nat} (hm : sub 0x80000000009 m) {s t : State} {a0 : _} (h : Keeps m s t) : Keeps m s (missedMark a0 t) := by
  unfold missedMark
  try dsimp only
  repeat' (first
    | with_reducible assumption
    | exact sub_trans (by decide) hm
    | with_reducible apply keeps_bumpF
    | with_reducible apply keeps_updLink
    | with_reducible apply keeps_frameDiscard
    | with_reducible apply Keeps.foldl
    | with_reducible apply Keeps.foldr
    | split)

theorem keeps_resend {m : Nat} (hm : sub 0x8000010000d m) {s t : State} {a0 : _} (h : Keeps m s t) : Keeps m s (resend a0 t) := by
  unfold resend
  try dsimp only
  repeat' (first
    | with_reducible assumption
    | exact sub_trans (by decide) hm
    | with_reducible apply keeps_bumpF
    | with_reducible apply keeps_updLink
    | with_reducible apply keeps_emit
    | with_reducible apply keeps_enterRetraining
    | with_reducible apply Keeps.foldl
    | with_reducible apply Keeps.foldr
    | split)

theorem keeps_takeAck {m : Nat} (hm : sub 0x80000000000 m) {s t : State} {a0 a1 : _} (h : Keeps m s t) : Keeps m s (takeAck a0 a1 t) := by
  unfold takeAck
  try dsimp only
  repeat' (first | with_reducible assumption | exact sub_trans (by decide) hm | with_reducible apply keeps_updLink)

theorem keeps_takeNak {m : Nat} (hm : sub 0x8000010000d m) {s t : State} {a0 a1 : _} (h : Keeps m s t) : Keeps m s (takeNak a0 a1 t) := by
  unfold takeNak
  try dsimp only
  repeat' (first
    | with_reducible assumption
    | exact sub_trans (by decide) hm
    | with_reducible apply keeps_resend
    | with_reducible apply keeps_takeAck
    | with_reducible apply keeps_updLink
    | with_reducible apply Keeps.foldl
    | with_reducible apply Keeps.foldr
    | split)

theorem keeps_execFlashFrameReceive {m : Nat} (hm : sub 0x8000010000d m) {s t : State} {a0 a1 a2 a3 a4 a5 : _} (h : Keeps m s t) : KeepsOut m s (execFlashFrameReceive a0 a1 a2 a3 a4 a5 t) := by
  unfold execFlashFrameReceive
  try dsimp only
  repeat' (first
    | with_reducible assumption
    | exact sub_trans (by decide) hm
    | with_reducible apply Keeps.next
    | with_reducible apply keeps_huntFrame
    | with_reducible apply keeps_missedMark
    | with_reducible apply keeps_updLink
    | with_reducible apply keeps_frameDiscard
    | with_reducible apply keeps_bumpF
    | with_reducible apply keeps_takeNak
    | with_reducible apply keeps_takeAck
    | with_reducible apply Keeps.foldl
    | with_reducible apply Keeps.foldr
    | split)

theorem keeps_execFlashNakReceive {m : Nat} (hm : sub 0x8000010000d m) {s t : State} {a0 a1 : _} (h : Keeps m s t) : KeepsOut m s (execFlashNakReceive a0 a1 t) := by
  unfold execFlashNakReceive
  try dsimp only
  repeat' (first
    | with_reducible assumption
    | exact sub_trans (by decide) hm
    | with_reducible apply Keeps.next
    | with_reducible apply keeps_takeNak
    | with_reducible apply Keeps.foldl
    | with_reducible apply Keeps.foldr
    | split)

theorem keeps_execFlashReplayTimeout {m : Nat} (hm : sub 0x8000010000d m) {s t : State} {a0 : _} (h : Keeps m s t) : KeepsOut m s (execFlashReplayTimeout a0 t) := by
  unfold execFlashReplayTimeout
  try dsimp only
  repeat' (first
    | with_reducible assumption
    | exact sub_trans (by decide) hm
    | with_reducible apply Keeps.next
    | with_reducible apply keeps_resend
    | with_reducible apply Keeps.foldl
    | with_reducible apply Keeps.foldr
    | split)

theorem keeps_takeTemp {m : Nat} (hm : sub 0x190000010000d m) {s t : State} {a0 a1 : _} (h : Keeps m s t) : Keeps m s (takeTemp a0 a1 t) := by
  unfold takeTemp
  try dsimp only
  repeat' (first
    | with_reducible assumption
    | exact sub_trans (by decide) hm
    | with_reducible apply keeps_updDie
    | with_reducible apply keeps_endDark
    | with_reducible apply keeps_fire
    | with_reducible apply Keeps.foldl
    | with_reducible apply Keeps.foldr
    | split)

theorem keeps_tempMax {m : Nat} (hm : sub 0x80000000000 m) {s t : State} {a0 : _} (h : Keeps m s t) : Keeps m s (tempMax a0 t) := by
  unfold tempMax
  try dsimp only
  repeat' (first
    | with_reducible assumption
    | exact sub_trans (by decide) hm
    | with_reducible apply keeps_updLink
    | with_reducible apply Keeps.foldl
    | with_reducible apply Keeps.foldr
    | split)

theorem keeps_execMaintFrameReceive {m : Nat} (hm : sub 0x12ffd389d70000d m) {s t : State} {a0 a1 a2 a3 a4 : _} (h : Keeps m s t) : KeepsOut m s (execMaintFrameReceive a0 a1 a2 a3 a4 t) := by
  unfold execMaintFrameReceive
  try dsimp only
  repeat' (first
    | with_reducible assumption
    | exact sub_trans (by decide) hm
    | with_reducible apply Keeps.next
    | with_reducible apply keeps_takeTemp
    | with_reducible apply keeps_tempMax
    | with_reducible apply keeps_loseDie
    | with_reducible apply keeps_zmSettle
    | with_reducible apply keeps_updLink
    | with_reducible apply keeps_failLink
    | with_reducible apply Keeps.foldl
    | with_reducible apply Keeps.foldr
    | split
    | (intro; try dsimp only))

theorem keeps_execMaintFrameSend {m : Nat} (hm : sub 0x8 m) {s t : State} {a0 : _} (h : Keeps m s t) : KeepsOut m s (execMaintFrameSend a0 t) := by
  unfold execMaintFrameSend
  try dsimp only
  repeat' (first
    | with_reducible assumption
    | exact sub_trans (by decide) hm
    | with_reducible apply Keeps.next
    | with_reducible apply keeps_emit
    | with_reducible apply Keeps.foldl
    | with_reducible apply Keeps.foldr
    | split)

theorem keeps_execDieLoss {m : Nat} (hm : sub 0x12ffd389d70000d m) {s t : State} {a0 : _} (h : Keeps m s t) : KeepsOut m s (execDieLoss a0 t) := by
  unfold execDieLoss
  try dsimp only
  repeat' (first
    | with_reducible assumption
    | exact sub_trans (by decide) hm
    | with_reducible apply Keeps.next
    | with_reducible apply keeps_zmSettle
    | with_reducible apply keeps_loseDie
    | with_reducible apply Keeps.foldl
    | with_reducible apply Keeps.foldr
    | split)

theorem keeps_execDieOpTimeout {m : Nat} (hm : sub 0x12ffd389d70000d m) {s t : State} {a0 : _} (h : Keeps m s t) : KeepsOut m s (execDieOpTimeout a0 t) := by
  unfold execDieOpTimeout
  try dsimp only
  repeat' (first
    | with_reducible assumption
    | exact sub_trans (by decide) hm
    | with_reducible apply Keeps.next
    | with_reducible apply keeps_updDie
    | with_reducible apply keeps_sendTower
    | with_reducible apply keeps_zmSettle
    | with_reducible apply keeps_loseDie
    | with_reducible apply Keeps.foldl
    | with_reducible apply Keeps.foldr
    | split)

theorem keeps_skimVerdict {m : Nat} (hm : sub 0x10e7c389d70000d m) {s t : State} {a0 a1 a2 : _} (h : Keeps m s t) : Keeps m s (skimVerdict a0 a1 a2 t) := by
  unfold skimVerdict
  try dsimp only
  repeat' (first
    | with_reducible assumption
    | exact sub_trans (by decide) hm
    | with_reducible apply keeps_progFail
    | with_reducible apply keeps_fire
    | with_reducible apply keeps_bumpF
    | with_reducible apply keeps_updRow
    | with_reducible apply keeps_queueRefresh
    | with_reducible apply keeps_rowSkimCheck
    | with_reducible apply Keeps.foldl
    | with_reducible apply Keeps.foldr
    | split)

theorem keeps_skimClass {m : Nat} (hm : sub 0x10e7c389d70000d m) {s t : State} {a0 a1 : _} (h : Keeps m s t) : Keeps m s (skimClass a0 a1 t) := by
  unfold skimClass
  try dsimp only
  repeat' (first
    | with_reducible assumption
    | exact sub_trans (by decide) hm
    | with_reducible apply keeps_updRow
    | with_reducible apply keeps_skimVerdict)

theorem keeps_enterStep {m : Nat} (hm : sub 0x780000000008 m) {s t : State} {a0 a1 : _} (h : Keeps m s t) : Keeps m s (enterStep a0 a1 t) := by
  unfold enterStep
  try dsimp only
  repeat' (first
    | with_reducible assumption
    | exact sub_trans (by decide) hm
    | with_reducible apply keeps_updCw
    | with_reducible apply keeps_enqueue
    | with_reducible apply keeps_toL5
    | with_reducible apply Keeps.foldl
    | with_reducible apply Keeps.foldr
    | split)

theorem keeps_climb {m : Nat} (hm : sub 0x780000000008 m) {s t : State} {a0 : _} (h : Keeps m s t) : Keeps m s (climb a0 t) := by
  unfold climb
  try dsimp only
  repeat' (first
    | with_reducible assumption
    | exact sub_trans (by decide) hm
    | with_reducible apply keeps_enterStep
    | with_reducible apply Keeps.foldl
    | with_reducible apply Keeps.foldr
    | split)

theorem keeps_readFailed {m : Nat} (hm : sub 0x10e7c389d70000d m) {s t : State} {a0 : _} (h : Keeps m s t) : Keeps m s (readFailed a0 t) := by
  unfold readFailed
  try dsimp only
  repeat' (first
    | with_reducible assumption
    | exact sub_trans (by decide) hm
    | with_reducible apply keeps_dropCw
    | with_reducible apply keeps_skimClass
    | with_reducible apply keeps_climb
    | with_reducible apply Keeps.foldl
    | with_reducible apply Keeps.foldr
    | split
    | (intro; try dsimp only))

theorem keeps_readStatus {m : Nat} (hm : sub 0x12ffd389d70000d m) {s t : State} {a0 a1 a2 : _} {a3 : State → State} (h : Keeps m s t) (h3 : ∀ u, Keeps m s u → Keeps m s (a3 u)) :
    Keeps m s (readStatus a0 a1 a2 a3 t) := by
  unfold readStatus
  dsimp only
  repeat' split
  · exact h3 _ h
  · exact keeps_loseDie (sub_trans (by decide) hm) (keeps_requeue (sub_trans (by decide) hm) h)
  · exact keeps_requeue (sub_trans (by decide) hm) h
  · exact keeps_readFailed (sub_trans (by decide) hm) (keeps_abandonProbe (sub_trans (by decide) hm) h)
  · exact keeps_readFailed (sub_trans (by decide) hm) h

theorem keeps_pageRead {m : Nat} (hm : sub 0x400000000000 m) {s t : State} {a0 a1 a2 : _} (h : Keeps m s t) : Keeps m s (pageRead a0 a1 a2 t) := by
  unfold pageRead
  try dsimp only
  repeat' (first
    | with_reducible assumption
    | exact sub_trans (by decide) hm
    | with_reducible apply keeps_updCw
    | with_reducible apply Keeps.foldl
    | with_reducible apply Keeps.foldr
    | split
    | (intro; try dsimp only))

theorem keeps_endRead {m : Nat} (hm : sub 0x100000000000 m) {s t : State} {a0 a1 : _} (h : Keeps m s t) : Keeps m s (endRead a0 a1 t) := by
  unfold endRead
  try dsimp only
  repeat' (first | with_reducible assumption | exact sub_trans (by decide) hm | with_reducible apply keeps_updDie)

theorem keeps_execReadPageDone {m : Nat} (hm : sub 0x12ffd389d70000d m) {s t : State} {a0 a1 a2 : _} (h : Keeps m s t) : KeepsOut m s (execReadPageDone a0 a1 a2 t) := by
  unfold execReadPageDone
  try dsimp only
  repeat' (first
    | with_reducible assumption
    | exact sub_trans (by decide) hm
    | with_reducible apply Keeps.next
    | with_reducible apply keeps_dieNext
    | with_reducible apply keeps_readStatus
    | with_reducible apply keeps_pageRead
    | with_reducible apply keeps_endRead
    | with_reducible apply Keeps.foldl
    | with_reducible apply Keeps.foldr
    | split
    | (intro; try dsimp only))

theorem keeps_postReport {m : Nat} (hm : sub 0x40000010000d m) {s t : State} {a0 a1 a2 a3 : _} (h : Keeps m s t) : Keeps m s (postReport a0 a1 a2 a3 t) := by
  unfold postReport
  try dsimp only
  repeat' (first
    | with_reducible assumption
    | exact sub_trans (by decide) hm
    | with_reducible apply keeps_bumpF
    | with_reducible apply keeps_fire
    | with_reducible apply keeps_updClc
    | with_reducible apply Keeps.foldl
    | with_reducible apply Keeps.foldr
    | split)

theorem keeps_scanSense {m : Nat} (hm : sub 0x4000000000000 m) {s t : State} {a0 a1 a2 : _} (h : Keeps m s t) : Keeps m s (scanSense a0 a1 a2 t) := by
  unfold scanSense
  try dsimp only
  repeat' (first
    | with_reducible assumption
    | exact sub_trans (by decide) hm
    | with_reducible apply keeps_updMme
    | with_reducible apply keeps_queueRefresh
    | with_reducible apply Keeps.foldl
    | with_reducible apply Keeps.foldr
    | split)

theorem keeps_skimPilots {m : Nat} (hm : sub 0x2000000000000 m) {s t : State} {a0 a1 a2 a3 a4 : _} (h : Keeps m s t) : Keeps m s (skimPilots a0 a1 a2 a3 a4 t) := by
  unfold skimPilots
  try dsimp only
  repeat' (first | with_reducible assumption | exact sub_trans (by decide) hm | with_reducible apply keeps_updRow)

theorem keeps_skimSense {m : Nat} (hm : sub 0x2000000000000 m) {s t : State} {a0 a1 : _} (h : Keeps m s t) : Keeps m s (skimSense a0 a1 t) := by
  unfold skimSense
  try dsimp only
  repeat' (first
    | with_reducible assumption
    | exact sub_trans (by decide) hm
    | with_reducible apply keeps_skimPilots
    | with_reducible apply Keeps.foldl
    | with_reducible apply Keeps.foldr
    | split)

theorem keeps_giveSense {m : Nat} (hm : sub 0x400000000000 m) {s t : State} {a0 a2 : _} (h : Keeps m s t) : Keeps m s (giveSense a0 t a2) := by
  unfold giveSense
  try dsimp only
  repeat' (first
    | with_reducible assumption
    | exact sub_trans (by decide) hm
    | with_reducible apply keeps_updCw
    | with_reducible apply Keeps.foldl
    | with_reducible apply Keeps.foldr
    | split)

theorem keeps_serveHeld {m : Nat} (hm : sub 0x500000000000 m) {s t : State} {a0 a1 a2 a3 : _} (h : Keeps m s t) : Keeps m s (serveHeld a0 a1 a2 a3 t) := by
  unfold serveHeld
  try dsimp only
  repeat' (first
    | with_reducible assumption
    | exact sub_trans (by decide) hm
    | with_reducible apply keeps_updDie
    | with_reducible apply keeps_giveSense
    | with_reducible apply Keeps.foldl
    | with_reducible apply Keeps.foldr
    | split
    | (intro; try dsimp only))

theorem keeps_holdSense {m : Nat} (hm : sub 0x10040000010000d m) {s t : State} {a0 a1 a2 : _} (h : Keeps m s t) : Keeps m s (holdSense a0 a1 a2 t) := by
  unfold holdSense
  try dsimp only
  repeat' (first
    | with_reducible assumption
    | exact sub_trans (by decide) hm
    | with_reducible apply keeps_bpmAllocate
    | with_reducible apply keeps_updClc
    | with_reducible apply Keeps.foldl
    | with_reducible apply Keeps.foldr
    | split)

theorem keeps_levelSensed {m : Nat} (hm : sub 0x10650000010000d m) {s t : State} {a0 a1 a2 : _} (h : Keeps m s t) : Keeps m s (levelSensed a0 a1 a2 t) := by
  unfold levelSensed
  try dsimp only
  repeat' (first
    | with_reducible assumption
    | exact sub_trans (by decide) hm
    | with_reducible apply keeps_postReport
    | with_reducible apply keeps_scanSense
    | with_reducible apply keeps_skimSense
    | with_reducible apply keeps_giveSense
    | with_reducible apply keeps_serveHeld
    | with_reducible apply keeps_holdSense
    | with_reducible apply Keeps.foldl
    | with_reducible apply Keeps.foldr
    | split
    | (intro; try dsimp only))

theorem keeps_execReadLevelDone {m : Nat} (hm : sub 0x12ffd389d70000d m) {s t : State} {a0 a1 a2 : _} (h : Keeps m s t) : KeepsOut m s (execReadLevelDone a0 a1 a2 t) := by
  unfold execReadLevelDone
  try dsimp only
  repeat' (first
    | with_reducible assumption
    | exact sub_trans (by decide) hm
    | with_reducible apply Keeps.next
    | with_reducible apply keeps_dieNext
    | with_reducible apply keeps_readStatus
    | with_reducible apply keeps_levelSensed
    | with_reducible apply keeps_endRead
    | with_reducible apply Keeps.foldl
    | with_reducible apply Keeps.foldr
    | split
    | (intro; try dsimp only))

theorem keeps_programStatus {m : Nat} (hm : sub 0x12ffd389d70000d m) {s t : State} {a0 a1 a2 : _} {a3 : State → State} (h : Keeps m s t) (h3 : ∀ u, Keeps m s u → Keeps m s (a3 u)) :
    Keeps m s (programStatus a0 a1 a2 a3 t) := by
  unfold programStatus
  dsimp only
  repeat' split
  · exact h3 _ h
  · exact keeps_opAbandoned (sub_trans (by decide) hm) h
  · exact keeps_loseDie (sub_trans (by decide) hm) h
  · exact keeps_requeue (sub_trans (by decide) hm) h
  · exact keeps_retireBlock (sub_trans (by decide) hm) (keeps_opAbandoned (sub_trans (by decide) hm) h)
  · exact h

theorem keeps_closeOthers {m : Nat} (hm : sub 0x380000000008 m) {s t : State} {a0 : _} (h : Keeps m s t) : Keeps m s (closeOthers a0 t) := by
  unfold closeOthers
  try dsimp only
  repeat' (first
    | with_reducible assumption
    | exact sub_trans (by decide) hm
    | with_reducible apply keeps_queueFine
    | with_reducible apply Keeps.foldl
    | with_reducible apply Keeps.foldr
    | split
    | (intro; try dsimp only))

theorem keeps_foggyDone {m : Nat} (hm : sub 0x2380000000008 m) {s t : State} {a0 a1 a2 : _} (h : Keeps m s t) : Keeps m s (foggyDone a0 a1 a2 t) := by
  unfold foggyDone
  try dsimp only
  repeat' (first
    | with_reducible assumption
    | exact sub_trans (by decide) hm
    | with_reducible apply keeps_updDie
    | with_reducible apply keeps_updRow
    | with_reducible apply keeps_queueFine
    | with_reducible apply keeps_closeOthers
    | with_reducible apply Keeps.foldl
    | with_reducible apply Keeps.foldr
    | split)

theorem keeps_execProgramFoggyDone {m : Nat} (hm : sub 0x12ffd389d70000d m) {s t : State} {a0 a1 a2 : _} (h : Keeps m s t) : KeepsOut m s (execProgramFoggyDone a0 a1 a2 t) := by
  unfold execProgramFoggyDone
  try dsimp only
  repeat' (first
    | with_reducible assumption
    | exact sub_trans (by decide) hm
    | with_reducible apply Keeps.next
    | with_reducible apply keeps_dieNext
    | with_reducible apply keeps_programStatus
    | with_reducible apply keeps_foggyDone
    | with_reducible apply keeps_endOp
    | with_reducible apply Keeps.foldl
    | with_reducible apply Keeps.foldr
    | split
    | (intro; try dsimp only))

theorem keeps_wordlineDone {m : Nat} (hm : sub 0x10b7c300010000d m) {s t : State} {a0 a1 : _} (h : Keeps m s t) : Keeps m s (wordlineDone a0 a1 t) := by
  unfold wordlineDone
  try dsimp only
  repeat' (first
    | with_reducible assumption
    | exact sub_trans (by decide) hm
    | with_reducible apply keeps_updBlock
    | with_reducible apply keeps_updRcu (a := 0x10b7c300010000d)
    | ((with_reducible apply SameRcu.mk) <;> intro b <;> first | exact absurd b (by decide) | rfl)
    | with_reducible apply keeps_updRow
    | with_reducible apply keeps_rowProgCheck
    | with_reducible apply keeps_rowVatCheck
    | with_reducible apply Keeps.foldl
    | with_reducible apply Keeps.foldr
    | split
    | (intro; try dsimp only))

theorem keeps_execProgramFineDone {m : Nat} (hm : sub 0x12ffd389d70000d m) {s t : State} {a0 a1 a2 : _} (h : Keeps m s t) : KeepsOut m s (execProgramFineDone a0 a1 a2 t) := by
  unfold execProgramFineDone
  try dsimp only
  repeat' (first
    | with_reducible assumption
    | exact sub_trans (by decide) hm
    | with_reducible apply Keeps.next
    | with_reducible apply keeps_updDie
    | with_reducible apply keeps_endOp
    | with_reducible apply keeps_dieNext
    | with_reducible apply keeps_programStatus
    | with_reducible apply keeps_wordlineDone
    | with_reducible apply Keeps.foldl
    | with_reducible apply Keeps.foldr
    | split
    | (intro; try dsimp only))

theorem keeps_execProgramOneDone {m : Nat} (hm : sub 0x12ffd389d70000d m) {s t : State} {a0 a1 a2 : _} (h : Keeps m s t) : KeepsOut m s (execProgramOneDone a0 a1 a2 t) := by
  unfold execProgramOneDone
  split
  · exact (keeps_dieNext (sub_trans (by decide) hm) (keeps_programStatus (sub_trans (by decide) hm) (keeps_endRead (sub_trans (by decide) hm) h) (fun _ hu => hu))).next
  · split
    · exact h.next
    · refine (keeps_dieNext (sub_trans (by decide) hm) (keeps_programStatus (sub_trans (by decide) hm) (keeps_endOp (sub_trans (by decide) hm) h) (fun u hu => ?_))).next
      split
      · exact keeps_wordlineDone (sub_trans (by decide) hm) hu
      · exact hu

end Sys2Proof.Machine
end

