-- ==== Sys2Proof/Laws/KeepsOpsG.lean ====
section
/-! SUPPORT. Each operation keeps the rules of `Keeps`, one lemma per operation, callees first (part 7). -/

namespace Sys2Proof.Machine

theorem keeps_queueVerify {m : Nat} (hm : sub 0x382000000008 m) {s t : State} {a0 : _} (h : Keeps m s t) : Keeps m s (queueVerify a0 t) := by
  unfold queueVerify
  try dsimp only
  repeat' (first
    | with_reducible assumption
    | exact sub_trans (by decide) hm
    | with_reducible apply keeps_enqueue
    | with_reducible apply keeps_updBlock)

theorem keeps_execEraseDone {m : Nat} (hm : sub 0x12ffd389d70000d m) {s t : State} {a0 a1 : _} (h : Keeps m s t) : KeepsOut m s (execEraseDone a0 a1 t) := by
  unfold execEraseDone
  try dsimp only
  repeat' (first
    | with_reducible assumption
    | exact sub_trans (by decide) hm
    | with_reducible apply Keeps.next
    | with_reducible apply keeps_endOp
    | with_reducible apply keeps_queueVerify
    | with_reducible apply keeps_retireBlock
    | with_reducible apply keeps_loseDie
    | with_reducible apply keeps_requeue
    | with_reducible apply keeps_eraseAgain
    | with_reducible apply keeps_zmSettle
    | with_reducible apply keeps_dieNext
    | with_reducible apply Keeps.foldl
    | with_reducible apply Keeps.foldr
    | split)

theorem keeps_execSuspendDone {m : Nat} (hm : sub 0x180000000008 m) {s t : State} {a0 a1 : _} (h : Keeps m s t) : KeepsOut m s (execSuspendDone a0 a1 t) := by
  unfold execSuspendDone
  try dsimp only
  repeat' (first
    | with_reducible assumption
    | exact sub_trans (by decide) hm
    | with_reducible apply Keeps.next
    | with_reducible apply keeps_updDie
    | with_reducible apply keeps_dieNext
    | with_reducible apply Keeps.foldl
    | with_reducible apply Keeps.foldr
    | split)

theorem keeps_execResumeDone {m : Nat} (hm : sub 0x12ffd389d70000d m) {s t : State} {a0 a1 : _} (h : Keeps m s t) : KeepsOut m s (execResumeDone a0 a1 t) := by
  unfold execResumeDone
  try dsimp only
  repeat' (first
    | with_reducible assumption
    | exact sub_trans (by decide) hm
    | with_reducible apply Keeps.next
    | with_reducible apply keeps_updDie
    | with_reducible apply keeps_zmSettle
    | with_reducible apply keeps_loseDie
    | with_reducible apply keeps_dieNext
    | with_reducible apply Keeps.foldl
    | with_reducible apply Keeps.foldr
    | split)

theorem keeps_execIdentifyDone {m : Nat} (hm : sub 0x12fff389d70000d m) {s t : State} {a0 a1 a2 a3 a4 : _} (h : Keeps m s t) : KeepsOut m s (execIdentifyDone a0 a1 a2 a3 a4 t) := by
  unfold execIdentifyDone
  try dsimp only
  repeat' (first
    | with_reducible assumption
    | exact sub_trans (by decide) hm
    | with_reducible apply Keeps.next
    | with_reducible apply keeps_failLink
    | with_reducible apply keeps_serialSeen
    | with_reducible apply keeps_zmSettle
    | with_reducible apply keeps_loseDie
    | with_reducible apply Keeps.foldl
    | with_reducible apply Keeps.foldr
    | split
    | (intro; try dsimp only))

theorem keeps_usableSettle {m : Nat} (hm : sub 0x100000000000 m) {s t : State} {a0 : _} (h : Keeps m s t) : Keeps m s (usableSettle a0 t) := by
  unfold usableSettle
  try dsimp only
  repeat' (first
    | with_reducible assumption
    | exact sub_trans (by decide) hm
    | with_reducible apply keeps_updDie
    | with_reducible apply Keeps.foldl
    | with_reducible apply Keeps.foldr
    | split)

theorem keeps_execReadCalDone {m : Nat} (hm : sub 0x98000010000d m) {s t : State} {a0 a1 a2 : _} (h : Keeps m s t) : KeepsOut m s (execReadCalDone a0 a1 a2 t) := by
  unfold execReadCalDone
  try dsimp only
  repeat' (first
    | with_reducible assumption
    | exact sub_trans (by decide) hm
    | with_reducible apply Keeps.next
    | with_reducible apply keeps_updAge
    | with_reducible apply keeps_fire
    | with_reducible apply keeps_updLink
    | with_reducible apply keeps_usableSettle
    | with_reducible apply Keeps.foldl
    | with_reducible apply Keeps.foldr
    | split
    | (intro; try dsimp only))

theorem keeps_execReadDefectsDone {m : Nat} (hm : sub 0x8130000000000 m) {s t : State} {a0 a1 a2 : _} (h : Keeps m s t) : KeepsOut m s (execReadDefectsDone a0 a1 a2 t) := by
  unfold execReadDefectsDone
  try dsimp only
  repeat' (first
    | with_reducible assumption
    | exact sub_trans (by decide) hm
    | with_reducible apply Keeps.next
    | with_reducible apply keeps_updTabs (a := 0x8130000000000)
    | ((with_reducible apply SameTables.mk) <;> intro b <;> first | exact absurd b (by decide) | rfl)
    | with_reducible apply keeps_issue
    | with_reducible apply keeps_usableSettle
    | with_reducible apply keeps_updDie
    | with_reducible apply Keeps.foldl
    | with_reducible apply Keeps.foldr
    | split
    | (intro; try dsimp only)
    | (with_reducible apply filter_wf)
    | ((with_reducible apply Same.mk) <;> intro b <;> first | exact absurd b (by decide) | rfl)
    | with_reducible refine Keeps.mk' (a := 0x8130000000000) ?_ ?_ (Eq.refl _) ?_)

theorem keeps_execDieStatusDone {m : Nat} (hm : sub 0x12ffd389d70000d m) {s t : State} {a0 a1 a2 a3 : _} (h : Keeps m s t) : KeepsOut m s (execDieStatusDone a0 a1 a2 a3 t) := by
  unfold execDieStatusDone
  try dsimp only
  repeat' (first
    | with_reducible assumption
    | exact sub_trans (by decide) hm
    | with_reducible apply Keeps.next
    | with_reducible apply keeps_zmSettle
    | with_reducible apply keeps_loseDie
    | with_reducible apply Keeps.foldl
    | with_reducible apply Keeps.foldr
    | split)

theorem keeps_execStandbyDone {m : Nat} (hm : sub 0x2e28209d70000d m) {s t : State} {a0 : _} (h : Keeps m s t) : KeepsOut m s (execStandbyDone a0 t) := by
  unfold execStandbyDone
  try dsimp only
  repeat' (first
    | with_reducible assumption
    | exact sub_trans (by decide) hm
    | with_reducible apply Keeps.next
    | with_reducible apply keeps_updLink
    | with_reducible apply keeps_setGroup
    | with_reducible apply keeps_updFlc (a := 0x2e28209d70000d)
    | ((with_reducible apply SameFlc.mk) <;> intro b <;> first | exact absurd b (by decide) | rfl)
    | with_reducible apply keeps_linkSettle
    | with_reducible apply keeps_wakeGroup
    | with_reducible apply Keeps.foldl
    | with_reducible apply Keeps.foldr
    | split
    | (intro; try dsimp only))

theorem keeps_execResetDieDone {m : Nat} (hm : sub 0x12e7c389d70000d m) {s t : State} {a0 : _} (h : Keeps m s t) : KeepsOut m s (execResetDieDone a0 t) := by
  unfold execResetDieDone
  try dsimp only
  repeat' (first
    | with_reducible assumption
    | exact sub_trans (by decide) hm
    | with_reducible apply Keeps.next
    | with_reducible apply keeps_updDie
    | with_reducible apply keeps_opAbandoned
    | with_reducible apply keeps_progFail
    | with_reducible apply keeps_zmSettle
    | with_reducible apply keeps_dieNext
    | with_reducible apply Keeps.foldl
    | with_reducible apply Keeps.foldr
    | split
    | (intro; try dsimp only))

theorem keeps_execEchoDone {m : Nat} (hm : sub 0x0 m) {s t : State} {a0 a1 : _} (h : Keeps m s t) : KeepsOut m s (execEchoDone a0 a1 t) := by
  unfold execEchoDone
  try dsimp only
  repeat' (first | with_reducible assumption | exact sub_trans (by decide) hm | with_reducible apply Keeps.next)

theorem keeps_execSuspendDeferred {m : Nat} (hm : sub 0x180000000008 m) {s t : State} {a0 : _} (h : Keeps m s t) : KeepsOut m s (execSuspendDeferred a0 t) := by
  unfold execSuspendDeferred
  try dsimp only
  repeat' (first
    | with_reducible assumption
    | exact sub_trans (by decide) hm
    | with_reducible apply Keeps.next
    | with_reducible apply keeps_trySuspend)

theorem keeps_execGroupDrainStart {m : Nat} (hm : sub 0x2e28209d70000d m) {s t : State} {a0 : _} (h : Keeps m s t) : KeepsOut m s (execGroupDrainStart a0 t) := by
  unfold execGroupDrainStart
  try dsimp only
  repeat' (first
    | with_reducible assumption
    | exact sub_trans (by decide) hm
    | with_reducible apply Keeps.next
    | with_reducible apply keeps_setGroup
    | with_reducible apply keeps_updFlc (a := 0x2e28209d70000d)
    | ((with_reducible apply SameFlc.mk) <;> intro b <;> first | exact absurd b (by decide) | rfl)
    | with_reducible apply keeps_sendTower
    | with_reducible apply keeps_linkSettle
    | with_reducible apply Keeps.foldl
    | with_reducible apply Keeps.foldr
    | split
    | (intro; try dsimp only))

theorem keeps_execGroupWake {m : Nat} (hm : sub 0x280000000000 m) {s t : State} {a0 : _} (h : Keeps m s t) : KeepsOut m s (execGroupWake a0 t) := by
  unfold execGroupWake
  try dsimp only
  repeat' (first
    | with_reducible assumption
    | exact sub_trans (by decide) hm
    | with_reducible apply Keeps.next
    | with_reducible apply keeps_groupSettle
    | with_reducible apply keeps_wakeGroup
    | with_reducible apply Keeps.foldl
    | with_reducible apply Keeps.foldr
    | split)

theorem keeps_gateCtlWrite {m : Nat} (hm : sub 0x280000000001 m) {s t : State} {a0 : _} (h : Keeps m s t) : Keeps m s (gateCtlWrite a0 t) := by
  unfold gateCtlWrite
  try dsimp only
  repeat' (first
    | with_reducible assumption
    | exact sub_trans (by decide) hm
    | with_reducible apply keeps_setF
    | with_reducible apply keeps_groupSettle
    | with_reducible apply keeps_wakeGroup
    | with_reducible apply Keeps.foldl
    | with_reducible apply Keeps.foldr
    | split
    | (intro; try dsimp only))

theorem keeps_execGroupWakeWrite {m : Nat} (hm : sub 0x280000000001 m) {s t : State} {a0 : _} (h : Keeps m s t) : KeepsOut m s (execGroupWakeWrite a0 t) := by
  unfold execGroupWakeWrite
  try dsimp only
  repeat' (first
    | with_reducible assumption
    | exact sub_trans (by decide) hm
    | with_reducible apply Keeps.next
    | with_reducible apply keeps_gateCtlWrite)

theorem keeps_execGroupWakeTimeout {m : Nat} (hm : sub 0x12ffc389d70000d m) {s t : State} {a0 : _} (h : Keeps m s t) : KeepsOut m s (execGroupWakeTimeout a0 t) := by
  unfold execGroupWakeTimeout
  try dsimp only
  repeat' (first
    | with_reducible assumption
    | exact sub_trans (by decide) hm
    | with_reducible apply Keeps.next
    | with_reducible apply keeps_fire
    | with_reducible apply keeps_setGroup
    | with_reducible apply keeps_failLink
    | with_reducible apply Keeps.foldl
    | with_reducible apply Keeps.foldr
    | split
    | (intro; try dsimp only))

theorem keeps_plainWrite {m : Nat} (hm : sub 0x40001 m) {s t : State} {a0 a1 : _} (h : Keeps m s t) : Keeps m s (plainWrite a0 a1 t) := by
  unfold plainWrite
  try dsimp only
  repeat' (first
    | with_reducible assumption
    | exact sub_trans (by decide) hm
    | with_reducible apply keeps_setRegSaved
    | with_reducible apply Keeps.foldl
    | with_reducible apply Keeps.foldr
    | split)

theorem keeps_budgetWrite {m : Nat} (hm : sub 0x14000d m) {s t : State} {a0 : _} (h : Keeps m s t) : Keeps m s (budgetWrite a0 t) := by
  unfold budgetWrite
  try dsimp only
  repeat' (first
    | with_reducible assumption
    | exact sub_trans (by decide) hm
    | with_reducible apply keeps_budgetChanged
    | with_reducible apply keeps_plainWrite)

theorem keeps_execPowerBudgetWrite {m : Nat} (hm : sub 0x14000d m) {s t : State} {a0 a1 : _} (h : Keeps m s t) : KeepsOut m s (execPowerBudgetWrite a0 a1 t) := by
  unfold execPowerBudgetWrite
  try dsimp only
  repeat' (first
    | with_reducible assumption
    | exact sub_trans (by decide) hm
    | with_reducible apply Keeps.next
    | with_reducible apply keeps_budgetWrite
    | with_reducible apply Keeps.foldl
    | with_reducible apply Keeps.foldr
    | split)

theorem keeps_scoreHit {m : Nat} (hm : sub 0xc51000010000d m) {s t : State} {a0 a1 a2 a4 : _} (h : Keeps m s t) : Keeps m s (scoreHit a0 a1 a2 t a4) := by
  unfold scoreHit
  try dsimp only
  repeat' (first
    | with_reducible assumption
    | exact sub_trans (by decide) hm
    | with_reducible apply keeps_updClc
    | with_reducible apply keeps_updTabs (a := 0xc51000010000d)
    | ((with_reducible apply SameTables.mk) <;> intro b <;> first | exact absurd b (by decide) | rfl)
    | with_reducible apply keeps_issue
    | with_reducible apply keeps_drainDie
    | with_reducible apply keeps_fire
    | with_reducible apply Keeps.foldl
    | with_reducible apply Keeps.foldr
    | split
    | (intro; try dsimp only))

theorem keeps_scoreHits {m : Nat} (hm : sub 0xc51000010000d m) {s t : State} {a0 a1 : _} (h : Keeps m s t) : Keeps m s (scoreHits a0 a1 t) := by
  unfold scoreHits
  try dsimp only
  repeat' (first
    | with_reducible assumption
    | exact sub_trans (by decide) hm
    | with_reducible apply keeps_scoreHit
    | with_reducible apply Keeps.foldl
    | with_reducible apply Keeps.foldr
    | split
    | (intro; try dsimp only))

theorem keeps_skimDecoded {m : Nat} (hm : sub 0x10e7d389d70000d m) {s t : State} {a0 a1 : _} (h : Keeps m s t) : Keeps m s (skimDecoded a0 a1 t) := by
  unfold skimDecoded
  try dsimp only
  repeat' (first
    | with_reducible assumption
    | exact sub_trans (by decide) hm
    | with_reducible apply keeps_fire
    | with_reducible apply keeps_exitCount
    | with_reducible apply keeps_scoreHits
    | with_reducible apply keeps_skimClass
    | with_reducible apply keeps_dropCw
    | with_reducible apply keeps_enterStep
    | with_reducible apply Keeps.foldl
    | with_reducible apply Keeps.foldr
    | split)

theorem keeps_scanDecoded {m : Nat} (hm : sub 0x4000000000000 m) {s t : State} {a0 a1 : _} (h : Keeps m s t) : Keeps m s (scanDecoded a0 a1 t) := by
  unfold scanDecoded
  try dsimp only
  repeat' (first
    | with_reducible assumption
    | exact sub_trans (by decide) hm
    | with_reducible apply keeps_queueRefresh
    | with_reducible apply Keeps.foldl
    | with_reducible apply Keeps.foldr
    | split)

theorem keeps_cwPassed {m : Nat} (hm : sub 0x400000000000 m) {s t : State} {a0 a1 : _} (h : Keeps m s t) : Keeps m s (cwPassed a0 a1 t) := by
  unfold cwPassed
  try dsimp only
  repeat' (first
    | with_reducible assumption
    | exact sub_trans (by decide) hm
    | with_reducible apply keeps_updCw
    | with_reducible apply keeps_dropCw
    | with_reducible apply Keeps.foldl
    | with_reducible apply Keeps.foldr
    | split)

theorem keeps_endDecode {m : Nat} (hm : sub 0xc79000010000d m) {s t : State} {a0 a1 : _} (h : Keeps m s t) : Keeps m s (endDecode a0 a1 t) := by
  unfold endDecode
  try dsimp only
  repeat' (first
    | with_reducible assumption
    | exact sub_trans (by decide) hm
    | with_reducible apply keeps_updCw
    | with_reducible apply keeps_fire
    | with_reducible apply keeps_exitCount
    | with_reducible apply keeps_cwPassed
    | with_reducible apply keeps_scoreHits
    | with_reducible apply keeps_climb
    | with_reducible apply Keeps.foldl
    | with_reducible apply Keeps.foldr
    | split)

theorem keeps_execCodewordDecodeDone {m : Nat} (hm : sub 0x10e7d389d70000d m) {s t : State} {a0 : _} (h : Keeps m s t) : KeepsOut m s (execCodewordDecodeDone a0 t) := by
  unfold execCodewordDecodeDone
  try dsimp only
  repeat' (first
    | with_reducible assumption
    | exact sub_trans (by decide) hm
    | with_reducible apply Keeps.next
    | with_reducible apply keeps_skimDecoded
    | with_reducible apply keeps_scanDecoded
    | with_reducible apply keeps_dropCw
    | with_reducible apply keeps_endDecode
    | with_reducible apply Keeps.foldl
    | with_reducible apply Keeps.foldr
    | split)

theorem keeps_execL5Reconstruct {m : Nat} (hm : sub 0x400000000000 m) {s t : State} {a0 : _} (h : Keeps m s t) : KeepsOut m s (execL5Reconstruct a0 t) := by
  unfold execL5Reconstruct
  try dsimp only
  repeat' (first
    | with_reducible assumption
    | exact sub_trans (by decide) hm
    | with_reducible apply Keeps.next
    | with_reducible apply keeps_dropParts
    | with_reducible apply keeps_cwPassed
    | with_reducible apply keeps_exitCount
    | with_reducible apply keeps_updCw
    | with_reducible apply Keeps.foldl
    | with_reducible apply Keeps.foldr
    | split)

theorem keeps_dropHeld {m : Nat} (hm : sub 0x10040000010000d m) {s t : State} {a0 : _} (h : Keeps m s t) : Keeps m s (dropHeld a0 t) := by
  unfold dropHeld
  try dsimp only
  repeat' (first
    | with_reducible assumption
    | exact sub_trans (by decide) hm
    | with_reducible apply keeps_bpmRelease
    | with_reducible apply keeps_updClc
    | with_reducible apply Keeps.foldl
    | with_reducible apply Keeps.foldr
    | split)

theorem keeps_execSampleHoldExpire {m : Nat} (hm : sub 0x10040000010000d m) {s t : State} {a0 : _} (h : Keeps m s t) : KeepsOut m s (execSampleHoldExpire a0 t) := by
  unfold execSampleHoldExpire
  try dsimp only
  repeat' (first
    | with_reducible assumption
    | exact sub_trans (by decide) hm
    | with_reducible apply Keeps.next
    | with_reducible apply keeps_dropHeld)

theorem keeps_exitClear {m : Nat} (hm : sub 0x400000000001 m) {s t : State} {a0 : _} (h : Keeps m s t) : Keeps m s (exitClear a0 t) := by
  unfold exitClear
  try dsimp only
  repeat' (first | with_reducible assumption | exact sub_trans (by decide) hm | with_reducible apply keeps_setF | with_reducible apply keeps_updClc)

theorem keeps_execExitCntClear {m : Nat} (hm : sub 0x400000000001 m) {s t : State} {a0 : _} (h : Keeps m s t) : KeepsOut m s (execExitCntClear a0 t) := by
  unfold execExitCntClear
  try dsimp only
  repeat' (first
    | with_reducible assumption
    | exact sub_trans (by decide) hm
    | with_reducible apply Keeps.next
    | with_reducible apply keeps_exitClear)

theorem keeps_tickDie {m : Nat} (hm : sub 0x80000010000d m) {s t : State} {a1 : _} (h : Keeps m s t) : Keeps m s (tickDie t a1) := by
  unfold tickDie
  try dsimp only
  repeat' (first
    | with_reducible assumption
    | exact sub_trans (by decide) hm
    | with_reducible apply keeps_satCheck
    | with_reducible apply keeps_updAge
    | with_reducible apply Keeps.foldl
    | with_reducible apply Keeps.foldr
    | split)

theorem keeps_execAgeTick {m : Nat} (hm : sub 0x80008d70500d m) {s t : State} (h : Keeps m s t) : KeepsOut m s (execAgeTick t) := by
  unfold execAgeTick
  try dsimp only
  repeat' (first
    | with_reducible assumption
    | exact sub_trans (by decide) hm
    | with_reducible apply Keeps.next
    | with_reducible apply keeps_skimSettle
    | with_reducible apply keeps_tickDie
    | with_reducible apply Keeps.foldl
    | with_reducible apply Keeps.foldr
    | split
    | (intro; try dsimp only)
    | (with_reducible apply filter_wf)
    | ((with_reducible apply Same.mk) <;> intro b <;> first | exact absurd b (by decide) | rfl)
    | with_reducible refine Keeps.mk' (a := 0x80008d70500d) ?_ ?_ (Eq.refl _) ?_)

theorem keeps_execArrheniusConstantWrite {m : Nat} (hm : sub 0x1000000040001 m) {s t : State} {a0 a1 a2 : _} (h : Keeps m s t) : KeepsOut m s (execArrheniusConstantWrite a0 a1 a2 t) := by
  unfold execArrheniusConstantWrite
  try dsimp only
  repeat' (first
    | with_reducible assumption
    | exact sub_trans (by decide) hm
    | with_reducible apply Keeps.next
    | with_reducible apply keeps_plainWrite
    | with_reducible apply keeps_updRcu (a := 0x1000000040001)
    | ((with_reducible apply SameRcu.mk) <;> intro b <;> first | exact absurd b (by decide) | rfl)
    | with_reducible apply Keeps.foldl
    | with_reducible apply Keeps.foldr
    | split
    | (intro; try dsimp only))

theorem keeps_shelfTempWrite {m : Nat} (hm : sub 0x1000000040001 m) {s t : State} {a0 : _} (h : Keeps m s t) : Keeps m s (shelfTempWrite a0 t) := by
  unfold shelfTempWrite
  try dsimp only
  repeat' (first
    | with_reducible assumption
    | exact sub_trans (by decide) hm
    | with_reducible apply keeps_updRcu (a := 0x1000000040001)
    | ((with_reducible apply SameRcu.mk) <;> intro b <;> first | exact absurd b (by decide) | rfl)
    | with_reducible apply keeps_plainWrite
    | with_reducible apply Keeps.foldl
    | with_reducible apply Keeps.foldr
    | split
    | (intro; try dsimp only))

theorem keeps_execShelfTempWrite {m : Nat} (hm : sub 0x1000000040001 m) {s t : State} {a0 : _} (h : Keeps m s t) : KeepsOut m s (execShelfTempWrite a0 t) := by
  unfold execShelfTempWrite
  try dsimp only
  repeat' (first
    | with_reducible assumption
    | exact sub_trans (by decide) hm
    | with_reducible apply Keeps.next
    | with_reducible apply keeps_shelfTempWrite)

theorem keeps_execShelfTempExpire {m : Nat} (hm : sub 0x1000000000000 m) {s t : State} (h : Keeps m s t) : KeepsOut m s (execShelfTempExpire t) := by
  unfold execShelfTempExpire
  try dsimp only
  repeat' (first
    | with_reducible assumption
    | exact sub_trans (by decide) hm
    | with_reducible apply Keeps.next
    | with_reducible apply keeps_updRcu (a := 0x1000000000000)
    | ((with_reducible apply SameRcu.mk) <;> intro b <;> first | exact absurd b (by decide) | rfl)
    | with_reducible apply Keeps.foldl
    | with_reducible apply Keeps.foldr
    | split
    | (intro; try dsimp only))

theorem keeps_darkRecompute {m : Nat} (hm : sub 0x180208d70100d m) {s t : State} (h : Keeps m s t) : Keeps m s (darkRecompute t) := by
  unfold darkRecompute
  try dsimp only
  repeat' (first
    | with_reducible assumption
    | exact sub_trans (by decide) hm
    | with_reducible apply keeps_darkAll
    | with_reducible apply Keeps.foldl
    | with_reducible apply Keeps.foldr
    | split)

theorem keeps_execDarkRecompute {m : Nat} (hm : sub 0x180208d70100d m) {s t : State} (h : Keeps m s t) : KeepsOut m s (execDarkRecompute t) := by
  unfold execDarkRecompute
  try dsimp only
  repeat' (first
    | with_reducible assumption
    | exact sub_trans (by decide) hm
    | with_reducible apply Keeps.next
    | with_reducible apply keeps_darkRecompute)

theorem keeps_popReport {m : Nat} (hm : sub 0x400000000000 m) {s t u : State} {a0 x0 : _} (h : Keeps m s t) (e : popReport a0 t = some (x0, u)) : Keeps m s u := by
  unfold popReport at e
  split at e
  · cases e
  · rw [Option.map_eq_some_iff] at e
    obtain ⟨_, _, e⟩ := e
    cases e
    exact keeps_updClc (sub_trans (by decide) hm) h

theorem keeps_execProbeResult {m : Nat} (hm : sub 0x1c0208d70100d m) {s t : State} {a0 : _} (h : Keeps m s t) : KeepsOut m s (execProbeResult a0 t) := by
  unfold execProbeResult
  try dsimp only
  repeat' (first
    | with_reducible assumption
    | exact sub_trans (by decide) hm
    | with_reducible apply Keeps.next
    | refine keeps_popReport ?_ ?_ (by with_reducible assumption)
    | with_reducible apply keeps_abandonProbe
    | with_reducible apply keeps_updAge
    | with_reducible apply keeps_probesSettle
    | with_reducible apply keeps_skimSettle
    | with_reducible apply keeps_darkDie
    | with_reducible apply Keeps.foldl
    | with_reducible apply Keeps.foldr
    | split)

theorem keeps_takeReport {m : Nat} (hm : sub 0x80000010000d m) {s t : State} {a0 : _} (h : Keeps m s t) : Keeps m s (takeReport a0 t) := by
  unfold takeReport
  try dsimp only
  repeat' (first
    | with_reducible assumption
    | exact sub_trans (by decide) hm
    | with_reducible apply keeps_fire
    | with_reducible apply keeps_bumpF
    | with_reducible apply keeps_updAge
    | with_reducible apply Keeps.foldl
    | with_reducible apply Keeps.foldr
    | split)

theorem keeps_execPilotReport {m : Nat} (hm : sub 0xc0000010000d m) {s t : State} (h : Keeps m s t) : KeepsOut m s (execPilotReport t) := by
  unfold execPilotReport
  try dsimp only
  repeat' (first
    | with_reducible assumption
    | exact sub_trans (by decide) hm
    | with_reducible apply Keeps.next
    | refine keeps_popReport ?_ ?_ (by with_reducible assumption)
    | with_reducible apply keeps_takeReport
    | with_reducible apply Keeps.foldl
    | with_reducible apply Keeps.foldr
    | split)

theorem keeps_execLearnResetDie {m : Nat} (hm : sub 0x800000000000 m) {s t : State} {a0 : _} (h : Keeps m s t) : KeepsOut m s (execLearnResetDie a0 t) := by
  unfold execLearnResetDie
  try dsimp only
  repeat' (first | with_reducible assumption | exact sub_trans (by decide) hm | with_reducible apply Keeps.next | with_reducible apply keeps_updAge)

theorem keeps_execLearnResetAll {m : Nat} (hm : sub 0x800000000000 m) {s t : State} (h : Keeps m s t) : KeepsOut m s (execLearnResetAll t) := by
  unfold execLearnResetAll
  try dsimp only
  repeat' (first
    | with_reducible assumption
    | exact sub_trans (by decide) hm
    | with_reducible apply Keeps.next
    | with_reducible apply keeps_updRcu (a := 0x800000000000)
    | ((with_reducible apply SameRcu.mk) <;> intro b <;> first | exact absurd b (by decide) | rfl)
    | with_reducible apply Keeps.foldl
    | with_reducible apply Keeps.foldr
    | split
    | (intro; try dsimp only))

theorem keeps_placeLogRow {m : Nat} (hm : sub 0x41000000000 m) {s t : State} {a0 a1 : _} (h : Keeps m s t) : Keeps m s (placeLogRow a0 a1 t) := by
  unfold placeLogRow
  try dsimp only
  repeat' (first
    | with_reducible assumption
    | exact sub_trans (by decide) hm
    | with_reducible apply keeps_updUnit
    | with_reducible apply keeps_updStripe
    | with_reducible apply Keeps.foldl
    | with_reducible apply Keeps.foldr
    | split
    | (intro; try dsimp only))

theorem keeps_issueRow {m : Nat} (hm : sub 0xa041000000000 m) {s t : State} {a0 a1 : _} (h : Keeps m s t) : Keeps m s (issueRow a0 a1 t) := by
  unfold issueRow
  try dsimp only
  repeat' (first
    | with_reducible assumption
    | exact sub_trans (by decide) hm
    | with_reducible apply keeps_placeLogRow
    | with_reducible apply keeps_updStripe
    | with_reducible apply keeps_updWpe
    | with_reducible apply keeps_updRow
    | with_reducible apply keeps_issue
    | with_reducible apply Keeps.foldl
    | with_reducible apply Keeps.foldr
    | split)

theorem keeps_execRowComplete {m : Nat} (hm : sub 0xa041000000000 m) {s t : State} {a0 : _} (h : Keeps m s t) : KeepsOut m s (execRowComplete a0 t) := by
  unfold execRowComplete
  try dsimp only
  repeat' (first
    | with_reducible assumption
    | exact sub_trans (by decide) hm
    | with_reducible apply Keeps.next
    | with_reducible apply keeps_issueRow
    | with_reducible apply Keeps.foldl
    | with_reducible apply Keeps.foldr
    | split)

theorem keeps_execParkTimeout {m : Nat} (hm : sub 0x380000000008 m) {s t : State} {a0 : _} (h : Keeps m s t) : KeepsOut m s (execParkTimeout a0 t) := by
  unfold execParkTimeout
  try dsimp only
  repeat' (first
    | with_reducible assumption
    | exact sub_trans (by decide) hm
    | with_reducible apply Keeps.next
    | with_reducible apply keeps_queueFine
    | with_reducible apply Keeps.foldl
    | with_reducible apply Keeps.foldr
    | split
    | (intro; try dsimp only))

theorem keeps_stageStripe {m : Nat} (hm : sub 0xa046000000000 m) {s t : State} {a0 : _} (h : Keeps m s t) : Keeps m s (stageStripe a0 t) := by
  unfold stageStripe
  try dsimp only
  repeat' (first | with_reducible assumption | exact sub_trans (by decide) hm | with_reducible apply keeps_stageUnits)

theorem keeps_execStageHorizon {m : Nat} (hm : sub 0xa04600010000d m) {s t : State} {a0 : _} (h : Keeps m s t) : KeepsOut m s (execStageHorizon a0 t) := by
  unfold execStageHorizon
  try dsimp only
  repeat' (first
    | with_reducible assumption
    | exact sub_trans (by decide) hm
    | with_reducible apply Keeps.next
    | with_reducible apply keeps_coolerSettle
    | with_reducible apply keeps_stageStripe
    | with_reducible apply Keeps.foldl
    | with_reducible apply Keeps.foldr
    | split)

theorem keeps_execHorizonMiss {m : Nat} (hm : sub 0x1000000010000d m) {s t : State} {a0 : _} (h : Keeps m s t) : KeepsOut m s (execHorizonMiss a0 t) := by
  unfold execHorizonMiss
  try dsimp only
  repeat' (first
    | with_reducible assumption
    | exact sub_trans (by decide) hm
    | with_reducible apply Keeps.next
    | with_reducible apply keeps_updJnl (a := 0x1000000010000d)
    | ((with_reducible apply SameJnl.mk) <;> intro b <;> first | exact absurd b (by decide) | rfl)
    | with_reducible apply keeps_fire
    | with_reducible apply keeps_bumpF
    | with_reducible apply Keeps.foldl
    | with_reducible apply Keeps.foldr
    | split
    | (intro; try dsimp only))

theorem keeps_restage {m : Nat} (hm : sub 0xa046000000000 m) {s t : State} {a1 : _} (h : Keeps m s t) : Keeps m s (restage t a1) := by
  unfold restage
  try dsimp only
  repeat' (first
    | with_reducible assumption
    | exact sub_trans (by decide) hm
    | with_reducible apply keeps_writeSlice
    | with_reducible apply keeps_staleSlices
    | with_reducible apply Keeps.foldl
    | with_reducible apply Keeps.foldr
    | split)

theorem keeps_execCoolerBlockReclaim {m : Nat} (hm : sub 0xa04600010000d m) {s t : State} {a0 : _} (h : Keeps m s t) : KeepsOut m s (execCoolerBlockReclaim a0 t) := by
  unfold execCoolerBlockReclaim
  try dsimp only
  repeat' (first
    | with_reducible assumption
    | exact sub_trans (by decide) hm
    | with_reducible apply Keeps.next
    | with_reducible apply keeps_updBlock
    | with_reducible apply keeps_restage
    | with_reducible apply keeps_issueRelease
    | with_reducible apply keeps_coolerSettle
    | with_reducible apply Keeps.foldl
    | with_reducible apply Keeps.foldr
    | split
    | (intro; try dsimp only))

theorem keeps_execProgramFailure {m : Nat} (hm : sub 0x10e7c389d70000d m) {s t : State} {a0 a1 : _} (h : Keeps m s t) : KeepsOut m s (execProgramFailure a0 a1 t) := by
  unfold execProgramFailure
  try dsimp only
  repeat' (first
    | with_reducible assumption
    | exact sub_trans (by decide) hm
    | with_reducible apply Keeps.next
    | with_reducible apply keeps_zmSettle
    | with_reducible apply keeps_progFail)

theorem keeps_crcNote {m : Nat} (hm : sub 0x20000000010000d m) {s t : State} {a0 a1 : _} (h : Keeps m s t) : Keeps m s (crcNote a0 a1 t) := by
  unfold crcNote
  try dsimp only
  repeat' (first
    | with_reducible assumption
    | exact sub_trans (by decide) hm
    | with_reducible apply keeps_fire
    | with_reducible apply keeps_updDmc
    | with_reducible apply keeps_bumpF)

theorem keeps_refetchUnit {m : Nat} (hm : sub 0x5600008 m) {s t : State} {a0 a1 : _} (h : Keeps m s t) : Keeps m s (refetchUnit a0 a1 t) := by
  unfold refetchUnit
  try dsimp only
  repeat' (first
    | with_reducible assumption
    | exact sub_trans (by decide) hm
    | with_reducible apply keeps_updTask
    | with_reducible apply keeps_emit
    | with_reducible apply keeps_transmit
    | with_reducible apply Keeps.foldl
    | with_reducible apply Keeps.foldr
    | split)

theorem keeps_rereadCw {m : Nat} (hm : sub 0x780000000008 m) {s t : State} {a0 : _} (h : Keeps m s t) : Keeps m s (rereadCw a0 t) := by
  unfold rereadCw
  try dsimp only
  repeat' (first
    | with_reducible assumption
    | exact sub_trans (by decide) hm
    | with_reducible apply keeps_startCw
    | with_reducible apply keeps_dropCw
    | with_reducible apply Keeps.foldl
    | with_reducible apply Keeps.foldr
    | split)

theorem keeps_contextLost {m : Nat} (hm : sub 0x1025008cd70000d m) {s t : State} {a0 : _} (h : Keeps m s t) : Keeps m s (contextLost a0 t) := by
  unfold contextLost
  try dsimp only
  repeat' (first
    | with_reducible assumption
    | exact sub_trans (by decide) hm
    | with_reducible apply keeps_loseConn
    | with_reducible apply keeps_fire
    | with_reducible apply Keeps.foldl
    | with_reducible apply Keeps.foldr
    | split)

theorem keeps_retireBuffer {m : Nat} (hm : sub 0x10000000010000d m) {s t : State} {a0 : _} (h : Keeps m s t) : Keeps m s (retireBuffer a0 t) := by
  unfold retireBuffer
  try dsimp only
  repeat' (first
    | with_reducible assumption
    | exact sub_trans (by decide) hm
    | with_reducible apply keeps_updBpm
    | with_reducible apply keeps_fire
    | with_reducible apply keeps_bpmCount)

theorem keeps_execDramCrcMismatch {m : Nat} (hm : sub 0x3027808cd70000d m) {s t : State} {a0 a1 a2 a3 : _} (h : Keeps m s t) : KeepsOut m s (execDramCrcMismatch a0 a1 a2 a3 t) := by
  unfold execDramCrcMismatch
  try dsimp only
  repeat' (first
    | with_reducible assumption
    | exact sub_trans (by decide) hm
    | with_reducible apply Keeps.next
    | with_reducible apply keeps_fire
    | with_reducible apply keeps_bumpF
    | with_reducible apply keeps_crcNote
    | with_reducible apply keeps_refetchUnit
    | with_reducible apply keeps_rereadCw
    | with_reducible apply keeps_dropHeld
    | with_reducible apply keeps_contextLost
    | with_reducible apply keeps_retireBuffer
    | with_reducible apply Keeps.foldl
    | with_reducible apply Keeps.foldr
    | split)

theorem keeps_loseUnit {m : Nat} (hm : sub 0x801000010000d m) {s t : State} {a0 a1 a2 : _} (h : Keeps m s t) : Keeps m s (loseUnit a0 a1 a2 t) := by
  unfold loseUnit
  try dsimp only
  repeat' (first
    | with_reducible assumption
    | exact sub_trans (by decide) hm
    | with_reducible apply keeps_updTabs (a := 0x801000010000d)
    | ((with_reducible apply SameTables.mk) <;> intro b <;> first | exact absurd b (by decide) | rfl)
    | with_reducible apply keeps_fire
    | with_reducible apply keeps_issue
    | with_reducible apply Keeps.foldl
    | with_reducible apply Keeps.foldr
    | split
    | (intro; try dsimp only))

theorem keeps_churnUnit {m : Nat} (hm : sub 0x805100010000d m) {s t : State} {a0 a2 : _} (h : Keeps m s t) : Keeps m s (churnUnit a0 t a2) := by
  unfold churnUnit
  try dsimp only
  repeat' (first
    | with_reducible assumption
    | exact sub_trans (by decide) hm
    | with_reducible apply keeps_loseUnit
    | with_reducible apply keeps_relocateCount
    | with_reducible apply keeps_landLog
    | with_reducible apply Keeps.foldl
    | with_reducible apply Keeps.foldr
    | split)

theorem keeps_execChurnStart {m : Nat} (hm : sub 0xc05100010000d m) {s t : State} (h : Keeps m s t) : KeepsOut m s (execChurnStart t) := by
  unfold execChurnStart
  try dsimp only
  repeat' (first
    | with_reducible assumption
    | exact sub_trans (by decide) hm
    | with_reducible apply Keeps.next
    | with_reducible apply keeps_updMme
    | with_reducible apply keeps_churnUnit
    | with_reducible apply Keeps.foldl
    | with_reducible apply Keeps.foldr
    | split
    | (intro; try dsimp only))

theorem keeps_execUnitRemap {m : Nat} (hm : sub 0xc040000000000 m) {s t : State} {a0 a1 a2 a3 : _} (h : Keeps m s t) : KeepsOut m s (execUnitRemap a0 a1 a2 a3 t) := by
  unfold execUnitRemap
  try dsimp only
  repeat' (first
    | with_reducible assumption
    | exact sub_trans (by decide) hm
    | with_reducible apply Keeps.next
    | with_reducible apply keeps_updUnit
    | with_reducible apply keeps_updMme
    | with_reducible apply keeps_issue
    | with_reducible apply Keeps.foldl
    | with_reducible apply Keeps.foldr
    | split)

theorem keeps_dropLogStripe {m : Nat} (hm : sub 0x10e14300010000d m) {s t : State} {a0 : _} (h : Keeps m s t) : Keeps m s (dropLogStripe a0 t) := by
  unfold dropLogStripe
  try dsimp only
  repeat' (first
    | with_reducible assumption
    | exact sub_trans (by decide) hm
    | with_reducible apply keeps_releaseStripe
    | with_reducible apply keeps_updMme
    | with_reducible apply Keeps.foldl
    | with_reducible apply Keeps.foldr
    | split
    | (with_reducible apply filter_wf)
    | ((with_reducible apply Same.mk) <;> intro b <;> first | exact absurd b (by decide) | rfl)
    | with_reducible refine Keeps.mk' (a := 0x10e14300010000d) ?_ ?_ (Eq.refl _) ?_)

theorem keeps_execBlockRelease {m : Nat} (hm : sub 0x10e14300010000d m) {s t : State} {a0 : _} (h : Keeps m s t) : KeepsOut m s (execBlockRelease a0 t) := by
  unfold execBlockRelease
  try dsimp only
  repeat' (first
    | with_reducible assumption
    | exact sub_trans (by decide) hm
    | with_reducible apply Keeps.next
    | with_reducible apply keeps_issueRelease
    | with_reducible apply keeps_dropLogStripe
    | with_reducible apply Keeps.foldl
    | with_reducible apply Keeps.foldr
    | split)

theorem keeps_execEraseBegin {m : Nat} (hm : sub 0xc00209d70000d m) {s t : State} {a0 : _} (h : Keeps m s t) : KeepsOut m s (execEraseBegin a0 t) := by
  unfold execEraseBegin
  try dsimp only
  repeat' (first
    | with_reducible assumption
    | exact sub_trans (by decide) hm
    | with_reducible apply Keeps.next
    | with_reducible apply keeps_zmSettle
    | with_reducible apply keeps_retireBlock
    | with_reducible apply keeps_issueErase
    | with_reducible apply Keeps.foldl
    | with_reducible apply Keeps.foldr
    | split)

theorem keeps_execBlockFree {m : Nat} (hm : sub 0x600209d70000d m) {s t : State} {a0 : _} (h : Keeps m s t) : KeepsOut m s (execBlockFree a0 t) := by
  unfold execBlockFree
  try dsimp only
  repeat' (first
    | with_reducible assumption
    | exact sub_trans (by decide) hm
    | with_reducible apply Keeps.next
    | with_reducible apply keeps_updBlock
    | with_reducible apply keeps_updMme
    | with_reducible apply keeps_zmSettle
    | with_reducible apply keeps_coolerSettle
    | with_reducible apply Keeps.foldl
    | with_reducible apply Keeps.foldr
    | split)

theorem keeps_execRefreshStart {m : Nat} (hm : sub 0xc003800000000 m) {s t : State} (h : Keeps m s t) : KeepsOut m s (execRefreshStart t) := by
  unfold execRefreshStart
  try dsimp only
  repeat' (first
    | with_reducible assumption
    | exact sub_trans (by decide) hm
    | with_reducible apply Keeps.next
    | refine keeps_takeStripe ?_ ?_ (by with_reducible assumption)
    | with_reducible apply keeps_takeStripe'
    | with_reducible apply keeps_updMme
    | with_reducible apply keeps_updZone
    | with_reducible apply keeps_issueBind
    | with_reducible apply Keeps.foldl
    | with_reducible apply Keeps.foldr
    | split)

theorem keeps_fillTarget {m : Nat} (hm : sub 0x2000000000 m) {s t : State} {a0 a1 : _} (h : Keeps m s t) : Keeps m s (fillTarget a0 a1 t) := by
  unfold fillTarget
  try dsimp only
  repeat' (first
    | with_reducible assumption
    | exact sub_trans (by decide) hm
    | with_reducible apply keeps_updBlock
    | with_reducible apply Keeps.foldl
    | with_reducible apply Keeps.foldr
    | split
    | (intro; try dsimp only))

theorem keeps_execRefreshRemap {m : Nat} (hm : sub 0xc04389d70100d m) {s t : State} {a0 : _} (h : Keeps m s t) : KeepsOut m s (execRefreshRemap a0 t) := by
  unfold execRefreshRemap
  try dsimp only
  repeat' (first
    | with_reducible assumption
    | exact sub_trans (by decide) hm
    | with_reducible apply Keeps.next
    | with_reducible apply keeps_relocateCount
    | with_reducible apply keeps_updUnit
    | with_reducible apply keeps_updStripe
    | with_reducible apply keeps_fillTarget
    | with_reducible apply keeps_updZone
    | with_reducible apply keeps_issue
    | with_reducible apply keeps_updMme
    | with_reducible apply keeps_zmSettle
    | with_reducible apply keeps_skimSettle
    | with_reducible apply Keeps.foldl
    | with_reducible apply Keeps.foldr
    | split
    | (intro; try dsimp only))

theorem keeps_execRefreshPassComplete {m : Nat} (hm : sub 0x480008d70100d m) {s t : State} (h : Keeps m s t) : KeepsOut m s (execRefreshPassComplete t) := by
  unfold execRefreshPassComplete
  try dsimp only
  repeat' (first
    | with_reducible assumption
    | exact sub_trans (by decide) hm
    | with_reducible apply Keeps.next
    | with_reducible apply keeps_updAge
    | with_reducible apply keeps_updMme
    | with_reducible apply keeps_skimSettle
    | with_reducible apply keeps_fire
    | with_reducible apply Keeps.foldl
    | with_reducible apply Keeps.foldr
    | split
    | (intro; try dsimp only))

theorem keeps_execWearLevelCheck {m : Nat} (hm : sub 0x4000000000000 m) {s t : State} (h : Keeps m s t) : KeepsOut m s (execWearLevelCheck t) := by
  unfold execWearLevelCheck
  try dsimp only
  repeat' (first
    | with_reducible assumption
    | exact sub_trans (by decide) hm
    | with_reducible apply Keeps.next
    | with_reducible apply keeps_updMme
    | with_reducible apply keeps_queueRefresh
    | with_reducible apply Keeps.foldl
    | with_reducible apply Keeps.foldr
    | split)

theorem keeps_rebuildStep {m : Nat} (hm : sub 0x10a7c300010000d m) {s t : State} {a0 a1 a2 : _} (h : Keeps m s t) : Keeps m s (rebuildStep a0 a1 a2 t) := by
  unfold rebuildStep
  try dsimp only
  repeat' (first
    | with_reducible assumption
    | exact sub_trans (by decide) hm
    | with_reducible apply keeps_updBlock
    | with_reducible apply keeps_updStripe
    | with_reducible apply keeps_updRow
    | with_reducible apply keeps_issue
    | with_reducible apply keeps_rowSkimCheck
    | with_reducible apply keeps_rowProgCheck
    | with_reducible apply keeps_rowVatCheck)

theorem keeps_execRebuildRow {m : Nat} (hm : sub 0x10e7d300010000d m) {s t : State} {a0 : _} (h : Keeps m s t) : KeepsOut m s (execRebuildRow a0 t) := by
  unfold execRebuildRow
  try dsimp only
  repeat' (first
    | with_reducible assumption
    | exact sub_trans (by decide) hm
    | with_reducible apply Keeps.next
    | with_reducible apply keeps_updStripe
    | with_reducible apply keeps_rebuildStep
    | with_reducible apply keeps_loseUnit
    | with_reducible apply keeps_queueRefresh
    | with_reducible apply Keeps.foldl
    | with_reducible apply Keeps.foldr
    | split
    | (intro; try dsimp only))

theorem keeps_execRebuildReplacementRetry {m : Nat} (hm : sub 0xc00389d70000d m) {s t : State} (h : Keeps m s t) : KeepsOut m s (execRebuildReplacementRetry t) := by
  unfold execRebuildReplacementRetry
  try dsimp only
  repeat' (first
    | with_reducible assumption
    | exact sub_trans (by decide) hm
    | with_reducible apply Keeps.next
    | with_reducible apply keeps_zmSettle
    | with_reducible apply keeps_replaceLost
    | with_reducible apply Keeps.foldl
    | with_reducible apply Keeps.foldr
    | split
    | (intro; try dsimp only))

theorem keeps_execMmeRateWindow {m : Nat} (hm : sub 0x4000000000000 m) {s t : State} {a0 a1 a2 : _} (h : Keeps m s t) : KeepsOut m s (execMmeRateWindow a0 a1 a2 t) := by
  unfold execMmeRateWindow
  try dsimp only
  repeat' (first | with_reducible assumption | exact sub_trans (by decide) hm | with_reducible apply Keeps.next | with_reducible apply keeps_updMme)

theorem keeps_floorWrite {m : Nat} (hm : sub 0x40001 m) {s t : State} {a0 : _} (h : Keeps m s t) : Keeps m s (floorWrite a0 t) := by
  unfold floorWrite
  try dsimp only
  repeat' (first
    | with_reducible assumption
    | exact sub_trans (by decide) hm
    | with_reducible apply keeps_plainWrite
    | with_reducible apply Keeps.foldl
    | with_reducible apply Keeps.foldr
    | split)

theorem keeps_execMmeFloorWrite {m : Nat} (hm : sub 0x40001 m) {s t : State} {a0 a1 : _} (h : Keeps m s t) : KeepsOut m s (execMmeFloorWrite a0 a1 t) := by
  unfold execMmeFloorWrite
  try dsimp only
  repeat' (first
    | with_reducible assumption
    | exact sub_trans (by decide) hm
    | with_reducible apply Keeps.next
    | with_reducible apply keeps_floorWrite
    | with_reducible apply Keeps.foldl
    | with_reducible apply Keeps.foldr
    | split)

theorem keeps_execJournalPageSeal {m : Nat} (hm : sub 0x8382000000008 m) {s t : State} (h : Keeps m s t) : KeepsOut m s (execJournalPageSeal t) := by
  unfold execJournalPageSeal
  try dsimp only
  repeat' (first
    | with_reducible assumption
    | exact sub_trans (by decide) hm
    | with_reducible apply Keeps.next
    | with_reducible apply keeps_sealPage)

theorem keeps_dropJournalOps {m : Nat} (hm : sub 0x100000000000 m) {s t : State} {a0 : _} (h : Keeps m s t) : Keeps m s (dropJournalOps a0 t) := by
  unfold dropJournalOps
  try dsimp only
  repeat' (first
    | with_reducible assumption
    | exact sub_trans (by decide) hm
    | with_reducible apply keeps_updFlc (a := 0x100000000000)
    | ((with_reducible apply SameFlc.mk) <;> intro b <;> first | exact absurd b (by decide) | rfl)
    | with_reducible apply Keeps.foldl
    | with_reducible apply Keeps.foldr
    | split
    | (intro; try dsimp only))

theorem keeps_settleCommits {m : Nat} (hm : sub 0x10040000000000 m) {s t : State} (h : Keeps m s t) : Keeps m s (settleCommits t) := by
  unfold settleCommits
  try dsimp only
  repeat' (first
    | with_reducible assumption
    | exact sub_trans (by decide) hm
    | with_reducible apply keeps_updJnl (a := 0x10040000000000)
    | ((with_reducible apply SameJnl.mk) <;> intro b <;> first | exact absurd b (by decide) | rfl)
    | with_reducible apply keeps_updUnit
    | with_reducible apply Keeps.foldl
    | with_reducible apply Keeps.foldr
    | split
    | (intro; try dsimp only))

theorem keeps_settle {m : Nat} (hm : sub 0x107c0485600008 m) {s t : State} (h : Keeps m s t) : Keeps m s (settle t) := by
  unfold settle
  try dsimp only
  repeat' (first
    | with_reducible assumption
    | exact sub_trans (by decide) hm
    | with_reducible apply keeps_settleTasks
    | with_reducible apply keeps_settleCommits)

theorem keeps_freeMember {m : Nat} (hm : sub 0x102000000000 m) {s t : State} {a1 : _} (h : Keeps m s t) : Keeps m s (freeMember t a1) := by
  unfold freeMember
  try dsimp only
  repeat' (first
    | with_reducible assumption
    | exact sub_trans (by decide) hm
    | with_reducible apply keeps_dropPrograms
    | with_reducible apply keeps_updBlock
    | with_reducible apply Keeps.foldl
    | with_reducible apply Keeps.foldr
    | split)

theorem keeps_dropStripe {m : Nat} (hm : sub 0x10610700010000d m) {s t : State} {a1 : _} (h : Keeps m s t) : Keeps m s (dropStripe t a1) := by
  unfold dropStripe
  try dsimp only
  repeat' (first
    | with_reducible assumption
    | exact sub_trans (by decide) hm
    | with_reducible apply keeps_forgetStripe
    | with_reducible apply keeps_freeMember
    | with_reducible apply keeps_updTabs (a := 0x10610700010000d)
    | ((with_reducible apply SameTables.mk) <;> intro b <;> first | exact absurd b (by decide) | rfl)
    | with_reducible apply keeps_updMme
    | with_reducible apply keeps_updWpe
    | with_reducible apply Keeps.foldl
    | with_reducible apply Keeps.foldr
    | split
    | (intro; try dsimp only))

theorem keeps_wipeZone {m : Nat} (hm : sub 0x2800000000 m) {s t : State} {a1 : _} (h : Keeps m s t) : Keeps m s (wipeZone t a1) := by
  unfold wipeZone
  try dsimp only
  repeat' (first
    | with_reducible assumption
    | exact sub_trans (by decide) hm
    | with_reducible apply keeps_updZone
    | with_reducible apply keeps_dropReserve
    | with_reducible apply Keeps.foldl
    | with_reducible apply Keeps.foldr
    | split)

theorem keeps_dropWaiting {m : Nat} (hm : sub 0x10200000010000d m) {s t : State} {a0 : _} (h : Keeps m s t) : Keeps m s (dropWaiting a0 t) := by
  unfold dropWaiting
  try dsimp only
  repeat' (first
    | with_reducible assumption
    | exact sub_trans (by decide) hm
    | with_reducible apply keeps_dropVat
    | with_reducible apply Keeps.foldl
    | with_reducible apply Keeps.foldr
    | split)

theorem keeps_forgetHome {m : Nat} (hm : sub 0x4010000000000 m) {s t : State} {a1 : _} (h : Keeps m s t) : Keeps m s (forgetHome t a1) := by
  unfold forgetHome
  try dsimp only
  repeat' (first
    | with_reducible assumption
    | exact sub_trans (by decide) hm
    | with_reducible apply keeps_updMme
    | with_reducible apply keeps_updTabs (a := 0x4010000000000)
    | ((with_reducible apply SameTables.mk) <;> intro b <;> first | exact absurd b (by decide) | rfl)
    | with_reducible apply Keeps.foldl
    | with_reducible apply Keeps.foldr
    | split
    | (intro; try dsimp only))

theorem keeps_wipeDurable {m : Nat} (hm : sub 0x20000000000 m) {s t : State} {a0 a1 a2 a3 : _} (h : Keeps m s t) : Keeps m s (wipeDurable a0 a1 a2 a3 t) := by
  unfold wipeDurable
  try dsimp only
  repeat' (first
    | with_reducible assumption
    | exact sub_trans (by decide) hm
    | with_reducible apply Keeps.foldl
    | with_reducible apply Keeps.foldr
    | split
    | (with_reducible apply filter_wf)
    | ((with_reducible apply Same.mk) <;> intro b <;> first | exact absurd b (by decide) | rfl)
    | with_reducible refine Keeps.mk' (a := 0x20000000000) ?_ ?_ (Eq.refl _) ?_)

theorem keeps_vacate {m : Nat} (hm : sub 0xa046000000000 m) {s t : State} {a1 : _} (h : Keeps m s t) : Keeps m s (vacate t a1) := by
  unfold vacate
  try dsimp only
  repeat' (first
    | with_reducible assumption
    | exact sub_trans (by decide) hm
    | with_reducible apply keeps_updBlock
    | with_reducible apply keeps_restage
    | with_reducible apply keeps_issueRelease
    | with_reducible apply Keeps.foldl
    | with_reducible apply Keeps.foldr
    | split
    | (intro; try dsimp only))

theorem keeps_runWipe {m : Nat} (hm : sub 0x10e17fc9d70000d m) {s t : State} {a1 : _} (h : Keeps m s t) : Keeps m s (runWipe t a1) := by
  unfold runWipe
  extract_lets s0 fail s1 zks ks refs staged s2 s3 s4 s5 s5b s6 s7 w1 w2 q1 w3 s8
  have hf : ∀ k u, Keeps m s u → Keeps m s (fail k u) := by
    intro k u hu
    show Keeps m s (if a1.kind = 2 then _ else _)
    split
    · exact keeps_finishErr (sub_trans (by decide) hm) hu
    · exact keeps_finishRetry (sub_trans (by decide) hm) hu
  have h1 : Keeps m s s1 := Keeps.foldl (fun k u hu => by
    split
    · exact keeps_dropWrite (sub_trans (by decide) hm) hu (fun v hv => hf _ v hv)
    · exact hu) h
  have h2 : Keeps m s s2 := Keeps.foldl (fun a u hu => keeps_dropStripe (sub_trans (by decide) hm) hu) (Keeps.foldl (fun a u hu => keeps_wipeZone (sub_trans (by decide) hm) hu) h1)
  clear_value s2
  have h3 : Keeps m s s3 := Keeps.mk' (a := 0x10e17fc9d70000d) hm h2 rfl (by apply Same.mk <;> intro b <;> first | exact absurd b (by decide) | rfl)
  have h4 : Keeps m s s4 := keeps_updTabs (a := 0x10e17fc9d70000d) hm (fun _ => by apply SameTables.mk <;> intro b <;> first | exact absurd b (by decide) | rfl) h3
  have h5 : Keeps m s s5 := keeps_dropWaiting (sub_trans (by decide) hm) h4
  clear_value s5
  have h6 : Keeps m s s6 := by
    show Keeps m s (if a1.kind = 1 then _ else _)
    split
    · exact Keeps.foldl (fun a u hu => keeps_updNs (sub_trans (by decide) hm) hu) h5
    · split
      · exact Keeps.foldl (fun a u hu => keeps_forgetHome (sub_trans (by decide) hm) hu) (Keeps.foldl (fun a u hu => keeps_updNs (sub_trans (by decide) hm) hu) (show Keeps m s s5b from keeps_updTabs (a := 0x10e17fc9d70000d) hm (fun _ => by apply SameTables.mk <;> intro b <;> first | exact absurd b (by decide) | rfl) h5))
      · exact h5
  have h7 : Keeps m s s7 := keeps_wipeDurable (sub_trans (by decide) hm) h6
  clear_value s7
  have h8 : Keeps m s s8 := by
    show Keeps m s (if a1.kind = 1 ∨ a1.kind = 2 then _ else _)
    split
    · have hw : Keeps m s w1 := Keeps.foldl (fun a u hu => keeps_vacate (sub_trans (by decide) hm) hu) h7
      exact Keeps.mk' (a := 0x10e17fc9d70000d) hm hw rfl (by apply Same.mk <;> intro b <;> first | exact absurd b (by decide) | rfl)
    · exact h7
  exact keeps_zmSettle (sub_trans (by decide) hm) (keeps_coolerSettle (sub_trans (by decide) hm) h8)

theorem keeps_runWipes {m : Nat} (hm : sub 0x14e17fc9d70000d m) {s t : State} (h : Keeps m s t) : Keeps m s (runWipes t) := by
  unfold runWipes
  try dsimp only
  repeat' (first
    | with_reducible assumption
    | exact sub_trans (by decide) hm
    | with_reducible apply keeps_runWipe
    | with_reducible apply keeps_updJnl (a := 0x14e17fc9d70000d)
    | ((with_reducible apply SameJnl.mk) <;> intro b <;> first | exact absurd b (by decide) | rfl)
    | with_reducible apply Keeps.foldl
    | with_reducible apply Keeps.foldr
    | split
    | (intro; try dsimp only))

theorem keeps_queueOne {m : Nat} (hm : sub 0x380000000008 m) {s t : State} {a0 a1 a2 a3 a4 a5 : _} (h : Keeps m s t) : Keeps m s (queueOne a0 a1 a2 a3 a4 a5 t) := by
  unfold queueOne
  try dsimp only
  repeat' (first | with_reducible assumption | exact sub_trans (by decide) hm | with_reducible apply keeps_enqueue)

theorem keeps_queueFoggy {m : Nat} (hm : sub 0x380000000008 m) {s t : State} {a0 a1 a2 a3 a4 : _} (h : Keeps m s t) : Keeps m s (queueFoggy a0 a1 a2 a3 a4 t) := by
  unfold queueFoggy
  try dsimp only
  repeat' (first
    | with_reducible assumption
    | exact sub_trans (by decide) hm
    | with_reducible apply keeps_closeOthers
    | with_reducible apply keeps_enqueue)

theorem keeps_startRow {m : Nat} (hm : sub 0x2380000000008 m) {s t : State} {a0 a1 : _} (h : Keeps m s t) : Keeps m s (startRow a0 a1 t) := by
  unfold startRow
  try dsimp only
  repeat' (first
    | with_reducible assumption
    | exact sub_trans (by decide) hm
    | with_reducible apply keeps_updRow
    | with_reducible apply keeps_queueOne
    | with_reducible apply keeps_queueFoggy
    | with_reducible apply Keeps.foldl
    | with_reducible apply Keeps.foldr
    | split
    | (intro; try dsimp only))

theorem keeps_rowVerified {m : Nat} (hm : sub 0x10a04400010000d m) {s t : State} {a0 a1 : _} (h : Keeps m s t) : Keeps m s (rowVerified a0 a1 t) := by
  unfold rowVerified
  try dsimp only
  repeat' (first
    | with_reducible assumption
    | exact sub_trans (by decide) hm
    | with_reducible apply keeps_updWpe
    | with_reducible apply keeps_dropVat
    | with_reducible apply keeps_staleSlices)

theorem keeps_sliceDurable {m : Nat} (hm : sub 0x10204000010000d m) {s t : State} {a0 : _} (h : Keeps m s t) : Keeps m s (sliceDurable a0 t) := by
  unfold sliceDurable
  try dsimp only
  repeat' (first
    | with_reducible assumption
    | exact sub_trans (by decide) hm
    | with_reducible apply keeps_closeSettle
    | with_reducible apply keeps_updUnit
    | with_reducible apply Keeps.foldl
    | with_reducible apply Keeps.foldr
    | split
    | (intro; try dsimp only))

end Sys2Proof.Machine
end

