-- ==== Sys2Proof/Laws/KeepsOpsH.lean ====
section
/-! SUPPORT. Each operation keeps the rules of `Keeps`, one lemma per operation, callees first (part 8). -/

namespace Sys2Proof.Machine

theorem keeps_clearLost {m : Nat} (hm : sub 0x30000000000 m) {s t : State} {a0 a1 a2 : _} (h : Keeps m s t) : Keeps m s (clearLost a0 a1 a2 t) := by
  unfold clearLost
  try dsimp only
  repeat' (first
    | with_reducible assumption
    | exact sub_trans (by decide) hm
    | with_reducible apply keeps_updTabs (a := 0x30000000000)
    | ((with_reducible apply SameTables.mk) <;> intro b <;> first | exact absurd b (by decide) | rfl)
    | with_reducible apply Keeps.foldl
    | with_reducible apply Keeps.foldr
    | split
    | (intro; try dsimp only)
    | (with_reducible apply filter_wf)
    | ((with_reducible apply Same.mk) <;> intro b <;> first | exact absurd b (by decide) | rfl)
    | with_reducible refine Keeps.mk' (a := 0x30000000000) ?_ ?_ (Eq.refl _) ?_)

theorem keeps_dropUnits {m : Nat} (hm : sub 0x70000000000 m) {s t : State} {a0 a1 a2 a3 : _} (h : Keeps m s t) : Keeps m s (dropUnits a0 a1 a2 a3 t) := by
  unfold dropUnits
  try dsimp only
  repeat' (first
    | with_reducible assumption
    | exact sub_trans (by decide) hm
    | with_reducible apply keeps_clearLost
    | with_reducible apply keeps_updUnit
    | with_reducible apply Keeps.foldl
    | with_reducible apply Keeps.foldr
    | split
    | (intro; try dsimp only))

theorem keeps_dropDealloc {m : Nat} (hm : sub 0x70000000000 m) {s t : State} {a0 a1 a2 a3 : _} (h : Keeps m s t) : Keeps m s (dropDealloc a0 a1 a2 a3 t) := by
  unfold dropDealloc
  try dsimp only
  repeat' (first
    | with_reducible assumption
    | exact sub_trans (by decide) hm
    | with_reducible apply keeps_clearLost
    | with_reducible apply keeps_updUnit
    | with_reducible apply Keeps.foldl
    | with_reducible apply Keeps.foldr
    | split
    | (intro; try dsimp only))

theorem keeps_releaseSource {m : Nat} (hm : sub 0x10e10309d70000d m) {s t : State} {a0 : _} (h : Keeps m s t) : Keeps m s (releaseSource a0 t) := by
  unfold releaseSource
  try dsimp only
  repeat' (first
    | with_reducible assumption
    | exact sub_trans (by decide) hm
    | with_reducible apply keeps_zmSettle
    | with_reducible apply keeps_releaseStripe
    | with_reducible apply Keeps.foldl
    | with_reducible apply Keeps.foldr
    | split)

theorem keeps_ckptCaptured {m : Nat} (hm : sub 0x9000000000000 m) {s t : State} (h : Keeps m s t) : Keeps m s (ckptCaptured t) := by
  unfold ckptCaptured
  try dsimp only
  repeat' (first
    | with_reducible assumption
    | exact sub_trans (by decide) hm
    | with_reducible apply keeps_updRcu (a := 0x9000000000000)
    | ((with_reducible apply SameRcu.mk) <;> intro b <;> first | exact absurd b (by decide) | rfl)
    | with_reducible apply keeps_issue
    | with_reducible apply Keeps.foldl
    | with_reducible apply Keeps.foldr
    | split
    | (intro; try dsimp only))

theorem keeps_runAfter {m : Nat} (hm : sub 0x14f3f709d70080d m) {s t : State} {a0 : _} (h : Keeps m s t) : Keeps m s (runAfter a0 t) := by
  unfold runAfter
  try dsimp only
  repeat' (first
    | with_reducible assumption
    | exact sub_trans (by decide) hm
    | with_reducible apply keeps_enqueue
    | with_reducible apply keeps_updBlock
    | with_reducible apply keeps_startRow
    | with_reducible apply keeps_rowDurable
    | with_reducible apply keeps_rowVerified
    | with_reducible apply keeps_sliceDurable
    | with_reducible apply keeps_dropUnits
    | with_reducible apply keeps_dropDealloc
    | with_reducible apply keeps_updRcu (a := 0x14f3f709d70080d)
    | ((with_reducible apply SameRcu.mk) <;> intro b <;> first | exact absurd b (by decide) | rfl)
    | with_reducible apply keeps_releaseSource
    | with_reducible apply keeps_updJnl (a := 0x14f3f709d70080d)
    | ((with_reducible apply SameJnl.mk) <;> intro b <;> first | exact absurd b (by decide) | rfl)
    | with_reducible apply keeps_ckptCaptured
    | with_reducible apply Keeps.foldl
    | with_reducible apply Keeps.foldr
    | split
    | (intro; try dsimp only)
    | (with_reducible apply filter_wf)
    | ((with_reducible apply Same.mk) <;> intro b <;> first | exact absurd b (by decide) | rfl)
    | with_reducible refine Keeps.mk' (a := 0x14f3f709d70080d) ?_ ?_ (Eq.refl _) ?_)

theorem keeps_acceptRec {m : Nat} (hm : sub 0x14f3ffc9d70080d m) {s t : State} {a0 : _} (h : Keeps m s t) : Keeps m s (acceptRec a0 t) := by
  unfold acceptRec
  try dsimp only
  repeat' (first
    | with_reducible assumption
    | exact sub_trans (by decide) hm
    | with_reducible apply keeps_updJnl (a := 0x14f3ffc9d70080d)
    | ((with_reducible apply SameJnl.mk) <;> intro b <;> first | exact absurd b (by decide) | rfl)
    | with_reducible apply keeps_runAfter
    | with_reducible apply Keeps.foldl
    | with_reducible apply Keeps.foldr
    | split
    | (intro; try dsimp only)
    | (with_reducible apply filter_wf)
    | ((with_reducible apply Same.mk) <;> intro b <;> first | exact absurd b (by decide) | rfl)
    | with_reducible refine Keeps.mk' (a := 0x14f3ffc9d70080d) ?_ ?_ (Eq.refl _) ?_)

theorem keeps_acceptPages {m : Nat} (hm : sub 0x14f3ffc9d70080d m) {s t : State} {a1 : Nat} (h : Keeps m s t) : Keeps m s (acceptPages t a1) := by
  induction a1 generalizing t with
  | zero => exact h
  | succ n ih =>
    unfold acceptPages
    split
    · exact h
    · split
      · exact ih (Keeps.foldl (fun a u hu => keeps_acceptRec (sub_trans (by decide) hm) hu) (keeps_updJnl (a := 0x14f3ffc9d70080d) hm (fun _ => by apply SameJnl.mk <;> intro b <;> first | exact absurd b (by decide) | rfl) h))
      · exact h

theorem keeps_pageReturned {m : Nat} (hm : sub 0x17f7ffc9d70080d m) {s t : State} {a0 : _} (h : Keeps m s t) : Keeps m s (pageReturned a0 t) := by
  unfold pageReturned
  try dsimp only
  repeat' (first
    | with_reducible assumption
    | exact sub_trans (by decide) hm
    | with_reducible apply keeps_dropJournalOps
    | with_reducible apply keeps_updJnl (a := 0x17f7ffc9d70080d)
    | ((with_reducible apply SameJnl.mk) <;> intro b <;> first | exact absurd b (by decide) | rfl)
    | with_reducible apply keeps_jnlSettle
    | with_reducible apply keeps_settle
    | with_reducible apply keeps_runWipes
    | with_reducible apply keeps_acceptPages
    | with_reducible apply Keeps.foldl
    | with_reducible apply Keeps.foldr
    | split
    | (intro; try dsimp only))

theorem keeps_execJournalPageAccept {m : Nat} (hm : sub 0x17f7ffc9d70080d m) {s t : State} {a0 : _} (h : Keeps m s t) : KeepsOut m s (execJournalPageAccept a0 t) := by
  unfold execJournalPageAccept
  try dsimp only
  repeat' (first
    | with_reducible assumption
    | exact sub_trans (by decide) hm
    | with_reducible apply Keeps.next
    | with_reducible apply keeps_pageReturned)

theorem keeps_execJournalCopyFail {m : Nat} (hm : sub 0x2838200010000d m) {s t : State} {a0 a1 a2 : _} (h : Keeps m s t) : KeepsOut m s (execJournalCopyFail a0 a1 a2 t) := by
  unfold execJournalCopyFail
  try dsimp only
  repeat' (first
    | with_reducible assumption
    | exact sub_trans (by decide) hm
    | with_reducible apply Keeps.next
    | with_reducible apply keeps_jnlSettle
    | with_reducible apply keeps_copyFailed
    | with_reducible apply keeps_dropJournalOps)

theorem keeps_execCheckpointStart {m : Nat} (hm : sub 0x4d000000000000 m) {s t : State} (h : Keeps m s t) : KeepsOut m s (execCheckpointStart t) := by
  unfold execCheckpointStart
  try dsimp only
  repeat' (first
    | with_reducible assumption
    | exact sub_trans (by decide) hm
    | with_reducible apply Keeps.next
    | with_reducible apply keeps_startCkpt
    | with_reducible apply Keeps.foldl
    | with_reducible apply Keeps.foldr
    | split)

theorem keeps_ckptCfgWrite {m : Nat} (hm : sub 0x4d000000040001 m) {s t : State} {a0 a1 : _} (h : Keeps m s t) : Keeps m s (ckptCfgWrite a0 a1 t) := by
  unfold ckptCfgWrite
  try dsimp only
  repeat' (first
    | with_reducible assumption
    | exact sub_trans (by decide) hm
    | with_reducible apply keeps_plainWrite
    | with_reducible apply keeps_startCkpt
    | with_reducible apply Keeps.foldl
    | with_reducible apply Keeps.foldr
    | split)

theorem keeps_execCheckpointStartWrite {m : Nat} (hm : sub 0x4d000000040001 m) {s t : State} (h : Keeps m s t) : KeepsOut m s (execCheckpointStartWrite t) := by
  unfold execCheckpointStartWrite
  try dsimp only
  repeat' (first
    | with_reducible assumption
    | exact sub_trans (by decide) hm
    | with_reducible apply Keeps.next
    | with_reducible apply keeps_ckptCfgWrite)

theorem keeps_writeAnchor {m : Nat} (hm : sub 0x2000000000 m) {s t : State} {a0 : _} (h : Keeps m s t) : Keeps m s (writeAnchor a0 t) := by
  unfold writeAnchor
  try dsimp only
  repeat' (first
    | with_reducible assumption
    | exact sub_trans (by decide) hm
    | with_reducible apply keeps_updBlock
    | with_reducible apply Keeps.foldl
    | with_reducible apply Keeps.foldr
    | split)

theorem keeps_releaseOld {m : Nat} (hm : sub 0x28002000000000 m) {s t : State} (h : Keeps m s t) : Keeps m s (releaseOld t) := by
  unfold releaseOld
  try dsimp only
  repeat' (first
    | with_reducible assumption
    | exact sub_trans (by decide) hm
    | with_reducible apply keeps_issueRelease
    | with_reducible apply keeps_updJnl (a := 0x28002000000000)
    | ((with_reducible apply SameJnl.mk) <;> intro b <;> first | exact absurd b (by decide) | rfl)
    | with_reducible apply Keeps.foldl
    | with_reducible apply Keeps.foldr
    | split
    | (intro; try dsimp only))

theorem keeps_completeCkpt {m : Nat} (hm : sub 0x6d02200010080d m) {s t : State} (h : Keeps m s t) : Keeps m s (completeCkpt t) := by
  unfold completeCkpt
  extract_lets q ts s1 next s2 s3 s4 q1 s5 s6 q2 s7
  have h1 : Keeps m s s1 := Keeps.foldl (fun a u hu => keeps_writeAnchor (sub_trans (by decide) hm) hu) h
  clear_value s1
  have h4 : Keeps m s s4 := keeps_updMme (sub_trans (by decide) hm) (keeps_updRcu (a := 0x6d02200010080d) hm (fun _ => by apply SameRcu.mk <;> intro b <;> first | exact absurd b (by decide) | rfl) (keeps_updJnl (a := 0x6d02200010080d) hm (fun _ => by apply SameJnl.mk <;> intro b <;> first | exact absurd b (by decide) | rfl) h1))
  clear_value s4
  have h5 : Keeps m s s5 := Keeps.mk' (a := 0x6d02200010080d) hm h4 rfl (by apply Same.mk <;> intro b <;> first | exact absurd b (by decide) | rfl)
  have h6 : Keeps m s s6 := keeps_releaseOld (sub_trans (by decide) hm) (keeps_fire (sub_trans (by decide) hm) h5)
  clear_value s6
  have h7 : Keeps m s s7 := by
    show Keeps m s (if q = true then _ else _)
    split
    · exact Keeps.mk' (a := 0x6d02200010080d) hm h6 rfl (by apply Same.mk <;> intro b <;> first | exact absurd b (by decide) | rfl)
    · exact h6
  clear_value s7
  split
  · exact keeps_startCkpt (sub_trans (by decide) hm) (keeps_updJnl (a := 0x6d02200010080d) hm (fun _ => by apply SameJnl.mk <;> intro b <;> first | exact absurd b (by decide) | rfl) h7)
  · exact h7

theorem keeps_execCheckpointComplete {m : Nat} (hm : sub 0x6d02200010080d m) {s t : State} (h : Keeps m s t) : KeepsOut m s (execCheckpointComplete t) := by
  unfold execCheckpointComplete
  try dsimp only
  repeat' (first
    | with_reducible assumption
    | exact sub_trans (by decide) hm
    | with_reducible apply Keeps.next
    | with_reducible apply keeps_completeCkpt
    | with_reducible apply Keeps.foldl
    | with_reducible apply Keeps.foldr
    | split)

theorem keeps_execRebaseCopyRow {m : Nat} (hm : sub 0x8003800000000 m) {s t : State} {a0 : _} (h : Keeps m s t) : KeepsOut m s (execRebaseCopyRow a0 t) := by
  unfold execRebaseCopyRow
  try dsimp only
  repeat' (first
    | with_reducible assumption
    | exact sub_trans (by decide) hm
    | with_reducible apply Keeps.next
    | with_reducible apply keeps_rebaseCopied
    | with_reducible apply keeps_rebaseDone
    | with_reducible apply Keeps.foldl
    | with_reducible apply Keeps.foldr
    | split)

theorem keeps_iteBegin {m : Nat} (hm : sub 0x80000000000001 m) {s t : State} {a0 : _} (h : Keeps m s t) : Keeps m s (iteBegin a0 t) := by
  unfold iteBegin
  try dsimp only
  repeat' (first
    | with_reducible assumption
    | exact sub_trans (by decide) hm
    | with_reducible apply keeps_updIte
    | with_reducible apply keeps_bumpF
    | with_reducible apply Keeps.foldl
    | with_reducible apply Keeps.foldr
    | split)

theorem keeps_execTagCompute {m : Nat} (hm : sub 0x18200088570000d m) {s t : State} {a0 a1 : _} (h : Keeps m s t) : KeepsOut m s (execTagCompute a0 a1 t) := by
  unfold execTagCompute
  try dsimp only
  repeat' (first
    | with_reducible assumption
    | exact sub_trans (by decide) hm
    | with_reducible apply Keeps.next
    | with_reducible apply keeps_iteBegin
    | with_reducible apply keeps_updTask
    | with_reducible apply keeps_dropWrite
    | with_reducible apply keeps_finishRetry
    | with_reducible apply Keeps.foldl
    | with_reducible apply Keeps.foldr
    | split
    | (intro; try dsimp only))

theorem keeps_waive {m : Nat} (hm : sub 0x410000d m) {s t : State} {a0 a1 a2 a3 : _} (h : Keeps m s t) : Keeps m s (waive a0 a1 a2 a3 t) := by
  unfold waive
  try dsimp only
  repeat' (first
    | with_reducible assumption
    | exact sub_trans (by decide) hm
    | with_reducible apply keeps_unitPassed
    | with_reducible apply keeps_fire
    | with_reducible apply keeps_bumpF)

theorem keeps_countFirst {m : Nat} (hm : sub 0x10000d m) {s t : State} {a0 a1 : _} (h : Keeps m s t) : Keeps m s (countFirst a0 a1 t) := by
  unfold countFirst
  try dsimp only
  repeat' (first
    | with_reducible assumption
    | exact sub_trans (by decide) hm
    | with_reducible apply keeps_fire
    | with_reducible apply keeps_bumpF
    | with_reducible apply Keeps.foldl
    | with_reducible apply Keeps.foldr
    | split)

theorem keeps_execTagCheck {m : Nat} (hm : sub 0x8078000410000d m) {s t : State} {a0 : _} (h : Keeps m s t) : KeepsOut m s (execTagCheck a0 t) := by
  unfold execTagCheck
  try dsimp only
  repeat' (first
    | with_reducible assumption
    | exact sub_trans (by decide) hm
    | with_reducible apply Keeps.next
    | with_reducible apply keeps_unitFailed
    | with_reducible apply keeps_dropCw
    | with_reducible apply keeps_iteBegin
    | with_reducible apply keeps_unitPassed
    | with_reducible apply keeps_bumpF
    | with_reducible apply keeps_waive
    | with_reducible apply keeps_toL5
    | with_reducible apply keeps_updCw
    | with_reducible apply keeps_countFirst
    | with_reducible apply Keeps.foldl
    | with_reducible apply Keeps.foldr
    | split)

theorem keeps_updSlot {m : Nat} (hm : sub 0x80000000000000 m) {s t : State} {a0 a1 a2 : _} (h : Keeps m s t) : Keeps m s (updSlot a0 a1 a2 t) := by
  unfold updSlot
  try dsimp only
  repeat' (first | with_reducible assumption | exact sub_trans (by decide) hm | with_reducible apply keeps_updKeys)

theorem keeps_keyWord {m : Nat} (hm : sub 0x80000000000000 m) {s t : State} {a0 a1 a2 a3 : _} (h : Keeps m s t) : Keeps m s (keyWord a0 a1 a2 a3 t) := by
  unfold keyWord
  try dsimp only
  repeat' (first
    | with_reducible assumption
    | exact sub_trans (by decide) hm
    | with_reducible apply keeps_updSlot
    | with_reducible apply Keeps.foldl
    | with_reducible apply Keeps.foldr
    | split)

theorem keeps_execKeyWordWrite {m : Nat} (hm : sub 0x80000000000000 m) {s t : State} {a0 a1 a2 a3 : _} (h : Keeps m s t) : KeepsOut m s (execKeyWordWrite a0 a1 a2 a3 t) := by
  unfold execKeyWordWrite
  try dsimp only
  repeat' (first
    | with_reducible assumption
    | exact sub_trans (by decide) hm
    | with_reducible apply Keeps.next
    | with_reducible apply keeps_keyWord)

theorem keeps_keyRefuse {m : Nat} (hm : sub 0x8000000010000d m) {s t : State} {a0 a1 : _} (h : Keeps m s t) : Keeps m s (keyRefuse a0 a1 t) := by
  unfold keyRefuse
  try dsimp only
  repeat' (first | with_reducible assumption | exact sub_trans (by decide) hm | with_reducible apply keeps_fire | with_reducible apply keeps_updIte)

theorem keeps_keyAccept {m : Nat} (hm : sub 0x80000000040000 m) {s t : State} {a0 a1 : _} (h : Keeps m s t) : Keeps m s (keyAccept a0 a1 t) := by
  unfold keyAccept
  try dsimp only
  repeat' (first
    | with_reducible assumption
    | exact sub_trans (by decide) hm
    | with_reducible apply keeps_saveKeys
    | with_reducible apply keeps_updIte)

theorem keeps_keyCommit {m : Nat} (hm : sub 0x8000000014000d m) {s t : State} {a0 a1 : _} (h : Keeps m s t) : Keeps m s (keyCommit a0 a1 t) := by
  unfold keyCommit
  try dsimp only
  repeat' (first
    | with_reducible assumption
    | exact sub_trans (by decide) hm
    | with_reducible apply keeps_keyRefuse
    | with_reducible apply keeps_updSlot
    | with_reducible apply keeps_updKeys
    | with_reducible apply keeps_keyAccept
    | with_reducible apply keeps_iteBegin
    | with_reducible apply Keeps.foldl
    | with_reducible apply Keeps.foldr
    | split)

theorem keeps_execKeyCommit {m : Nat} (hm : sub 0x8000000014000d m) {s t : State} {a0 a1 : _} (h : Keeps m s t) : KeepsOut m s (execKeyCommit a0 a1 t) := by
  unfold execKeyCommit
  try dsimp only
  repeat' (first
    | with_reducible assumption
    | exact sub_trans (by decide) hm
    | with_reducible apply Keeps.next
    | with_reducible apply keeps_keyCommit)

theorem keeps_keyActivate {m : Nat} (hm : sub 0x8000000014000d m) {s t : State} {a0 a1 : _} (h : Keeps m s t) : Keeps m s (keyActivate a0 a1 t) := by
  unfold keyActivate
  try dsimp only
  repeat' (first
    | with_reducible assumption
    | exact sub_trans (by decide) hm
    | with_reducible apply keeps_keyRefuse
    | with_reducible apply keeps_keyAccept
    | with_reducible apply keeps_updKeys
    | with_reducible apply Keeps.foldl
    | with_reducible apply Keeps.foldr
    | split)

theorem keeps_execKeyActivate {m : Nat} (hm : sub 0x8000000014000d m) {s t : State} {a0 a1 : _} (h : Keeps m s t) : KeepsOut m s (execKeyActivate a0 a1 t) := by
  unfold execKeyActivate
  try dsimp only
  repeat' (first
    | with_reducible assumption
    | exact sub_trans (by decide) hm
    | with_reducible apply Keeps.next
    | with_reducible apply keeps_keyActivate)

theorem keeps_clearNow {m : Nat} (hm : sub 0x80000000040000 m) {s t : State} {a0 a1 : _} (h : Keeps m s t) : Keeps m s (clearNow a0 a1 t) := by
  unfold clearNow
  try dsimp only
  repeat' (first
    | with_reducible assumption
    | exact sub_trans (by decide) hm
    | with_reducible apply keeps_updKeys
    | with_reducible apply keeps_saveKeys
    | with_reducible apply keeps_updIte)

theorem keeps_keyClear {m : Nat} (hm : sub 0x8000000014000d m) {s t : State} {a0 a1 : _} (h : Keeps m s t) : Keeps m s (keyClear a0 a1 t) := by
  unfold keyClear
  try dsimp only
  repeat' (first
    | with_reducible assumption
    | exact sub_trans (by decide) hm
    | with_reducible apply keeps_keyRefuse
    | with_reducible apply keeps_updIte
    | with_reducible apply keeps_clearNow
    | with_reducible apply Keeps.foldl
    | with_reducible apply Keeps.foldr
    | split)

theorem keeps_execKeyClear {m : Nat} (hm : sub 0x8000000014000d m) {s t : State} {a0 a1 : _} (h : Keeps m s t) : KeepsOut m s (execKeyClear a0 a1 t) := by
  unfold execKeyClear
  try dsimp only
  repeat' (first
    | with_reducible assumption
    | exact sub_trans (by decide) hm
    | with_reducible apply Keeps.next
    | with_reducible apply keeps_keyClear)

theorem keeps_execKeyActionResult {m : Nat} (hm : sub 0x8000000014000d m) {s t : State} (h : Keeps m s t) : KeepsOut m s (execKeyActionResult t) := by
  unfold execKeyActionResult
  try dsimp only
  repeat' (first
    | with_reducible assumption
    | exact sub_trans (by decide) hm
    | with_reducible apply Keeps.next
    | with_reducible apply keeps_clearNow
    | with_reducible apply keeps_fire
    | with_reducible apply keeps_updIte
    | with_reducible apply Keeps.foldl
    | with_reducible apply Keeps.foldr
    | split)

theorem keeps_startRebuild {m : Nat} (hm : sub 0x100000000000000 m) {s t : State} {a0 : _} (h : Keeps m s t) : Keeps m s (startRebuild a0 t) := by
  unfold startRebuild
  try dsimp only
  repeat' (first
    | with_reducible assumption
    | exact sub_trans (by decide) hm
    | with_reducible apply keeps_bpmCount
    | with_reducible apply keeps_updPool)

theorem keeps_execBufferAllocate {m : Nat} (hm : sub 0x10000000010000d m) {s t : State} {a0 a1 a2 a3 a4 a5 : _} (h : Keeps m s t) : KeepsOut m s (execBufferAllocate a0 a1 a2 a3 a4 a5 t) := by
  unfold execBufferAllocate
  try dsimp only
  repeat' (first
    | with_reducible assumption
    | exact sub_trans (by decide) hm
    | with_reducible apply Keeps.next
    | with_reducible apply keeps_bpmAllocate
    | with_reducible apply keeps_startRebuild
    | with_reducible apply Keeps.foldl
    | with_reducible apply Keeps.foldr
    | split)

theorem keeps_execBufferRelease {m : Nat} (hm : sub 0x10000000010000d m) {s t : State} {a0 a1 a2 : _} (h : Keeps m s t) : KeepsOut m s (execBufferRelease a0 a1 a2 t) := by
  unfold execBufferRelease
  try dsimp only
  repeat' (first
    | with_reducible assumption
    | exact sub_trans (by decide) hm
    | with_reducible apply Keeps.next
    | with_reducible apply keeps_bpmRelease)

theorem keeps_bpmHandOver {m : Nat} (hm : sub 0x10000000010000d m) {s t : State} {a0 a1 a2 a3 : _} (h : Keeps m s t) : Keeps m s (bpmHandOver a0 a1 a2 a3 t) := by
  unfold bpmHandOver
  try dsimp only
  repeat' (first
    | with_reducible assumption
    | exact sub_trans (by decide) hm
    | with_reducible apply keeps_bpmRefuse
    | with_reducible apply keeps_bpmAnswer
    | with_reducible apply keeps_updBpm
    | with_reducible apply Keeps.foldl
    | with_reducible apply Keeps.foldr
    | split)

theorem keeps_execBufferHandOver {m : Nat} (hm : sub 0x10000000010000d m) {s t : State} {a0 a1 a2 a3 : _} (h : Keeps m s t) : KeepsOut m s (execBufferHandOver a0 a1 a2 a3 t) := by
  unfold execBufferHandOver
  try dsimp only
  repeat' (first
    | with_reducible assumption
    | exact sub_trans (by decide) hm
    | with_reducible apply Keeps.next
    | with_reducible apply keeps_bpmHandOver)

theorem keeps_execBufferReference {m : Nat} (hm : sub 0x10000000010000d m) {s t : State} {a0 a1 a2 : _} (h : Keeps m s t) : KeepsOut m s (execBufferReference a0 a1 a2 t) := by
  unfold execBufferReference
  try dsimp only
  repeat' (first
    | with_reducible assumption
    | exact sub_trans (by decide) hm
    | with_reducible apply Keeps.next
    | with_reducible apply keeps_bpmReference)

theorem keeps_bpmCancel {m : Nat} (hm : sub 0x100000000000000 m) {s t : State} {a0 : _} (h : Keeps m s t) : Keeps m s (bpmCancel a0 t) := by
  unfold bpmCancel
  try dsimp only
  repeat' (first
    | with_reducible assumption
    | exact sub_trans (by decide) hm
    | with_reducible apply keeps_bpmCount
    | with_reducible apply keeps_updPool
    | with_reducible apply keeps_bpmAnswer
    | with_reducible apply Keeps.foldl
    | with_reducible apply Keeps.foldr
    | split
    | (intro; try dsimp only))

theorem keeps_execBufferCancel {m : Nat} (hm : sub 0x10000000010000d m) {s t : State} {a0 a1 : _} (h : Keeps m s t) : KeepsOut m s (execBufferCancel a0 a1 t) := by
  unfold execBufferCancel
  try dsimp only
  repeat' (first
    | with_reducible assumption
    | exact sub_trans (by decide) hm
    | with_reducible apply Keeps.next
    | with_reducible apply keeps_bpmCancel
    | with_reducible apply keeps_bpmRefuse
    | with_reducible apply Keeps.foldl
    | with_reducible apply Keeps.foldr
    | split)

theorem keeps_execFreeListRebuildDone {m : Nat} (hm : sub 0x10000000010000d m) {s t : State} {a0 : _} (h : Keeps m s t) : KeepsOut m s (execFreeListRebuildDone a0 t) := by
  unfold execFreeListRebuildDone
  try dsimp only
  repeat' (first
    | with_reducible assumption
    | exact sub_trans (by decide) hm
    | with_reducible apply Keeps.next
    | with_reducible apply keeps_fire
    | with_reducible apply keeps_updPool
    | with_reducible apply Keeps.foldl
    | with_reducible apply Keeps.foldr
    | split)

theorem keeps_execBpmCntClear {m : Nat} (hm : sub 0x100000000000001 m) {s t : State} {a0 a1 : _} (h : Keeps m s t) : KeepsOut m s (execBpmCntClear a0 a1 t) := by
  unfold execBpmCntClear
  try dsimp only
  repeat' (first
    | with_reducible assumption
    | exact sub_trans (by decide) hm
    | with_reducible apply Keeps.next
    | with_reducible apply keeps_setF
    | with_reducible apply keeps_updBpm
    | with_reducible apply Keeps.foldl
    | with_reducible apply Keeps.foldr
    | split)

theorem keeps_execDramRefresh {m : Nat} (hm : sub 0x200000000000004 m) {s t : State} {a0 a1 : _} (h : Keeps m s t) : KeepsOut m s (execDramRefresh a0 a1 t) := by
  unfold execDramRefresh
  try dsimp only
  repeat' (first
    | with_reducible assumption
    | exact sub_trans (by decide) hm
    | with_reducible apply Keeps.next
    | refine keeps_drawFree ?_ ?_ (by with_reducible assumption)
    | with_reducible apply keeps_drawFree'
    | with_reducible apply keeps_updBank)

theorem keeps_execRefreshRatePoll {m : Nat} (hm : sub 0x200000000000000 m) {s t : State} {a0 a1 : _} (h : Keeps m s t) : KeepsOut m s (execRefreshRatePoll a0 a1 t) := by
  unfold execRefreshRatePoll
  try dsimp only
  repeat' (first | with_reducible assumption | exact sub_trans (by decide) hm | with_reducible apply Keeps.next | with_reducible apply keeps_updDmc)

theorem keeps_execActivationWindowEnd {m : Nat} (hm : sub 0x200000000000000 m) {s t : State} (h : Keeps m s t) : KeepsOut m s (execActivationWindowEnd t) := by
  unfold execActivationWindowEnd
  try dsimp only
  repeat' (first | with_reducible assumption | exact sub_trans (by decide) hm | with_reducible apply Keeps.next | with_reducible apply keeps_updDmc)

theorem keeps_execThrottleExpire {m : Nat} (hm : sub 0x200000000000000 m) {s t : State} {a0 a1 : _} (h : Keeps m s t) : KeepsOut m s (execThrottleExpire a0 a1 t) := by
  unfold execThrottleExpire
  try dsimp only
  repeat' (first | with_reducible assumption | exact sub_trans (by decide) hm | with_reducible apply Keeps.next | with_reducible apply keeps_updDmc)

theorem keeps_execPanicAssert {m : Nat} (hm : sub 0x200000000000000 m) {s t : State} {a0 : _} (h : Keeps m s t) : KeepsOut m s (execPanicAssert a0 t) := by
  unfold execPanicAssert
  try dsimp only
  repeat' (first | with_reducible assumption | exact sub_trans (by decide) hm | with_reducible apply Keeps.next | with_reducible apply keeps_updDmc)

theorem keeps_execPanicRelease {m : Nat} (hm : sub 0x200000000000000 m) {s t : State} {a0 : _} (h : Keeps m s t) : KeepsOut m s (execPanicRelease a0 t) := by
  unfold execPanicRelease
  try dsimp only
  repeat' (first | with_reducible assumption | exact sub_trans (by decide) hm | with_reducible apply Keeps.next | with_reducible apply keeps_updDmc)

theorem keeps_execPanicLong {m : Nat} (hm : sub 0x10000d m) {s t : State} {a0 : _} (h : Keeps m s t) : KeepsOut m s (execPanicLong a0 t) := by
  unfold execPanicLong
  try dsimp only
  repeat' (first
    | with_reducible assumption
    | exact sub_trans (by decide) hm
    | with_reducible apply Keeps.next
    | with_reducible apply keeps_fire
    | with_reducible apply keeps_bumpF
    | with_reducible apply Keeps.foldl
    | with_reducible apply Keeps.foldr
    | split)

theorem keeps_execRowCloseTimer {m : Nat} (hm : sub 0x200000000000000 m) {s t : State} {a0 a1 : _} (h : Keeps m s t) : KeepsOut m s (execRowCloseTimer a0 a1 t) := by
  unfold execRowCloseTimer
  try dsimp only
  repeat' (first
    | with_reducible assumption
    | exact sub_trans (by decide) hm
    | with_reducible apply Keeps.next
    | with_reducible apply keeps_updBank)

theorem keeps_execDqsTracking {m : Nat} (hm : sub 0x200000000000000 m) {s t : State} {a0 : _} (h : Keeps m s t) : KeepsOut m s (execDqsTracking a0 t) := by
  unfold execDqsTracking
  try dsimp only
  repeat' (first
    | with_reducible assumption
    | exact sub_trans (by decide) hm
    | with_reducible apply Keeps.next
    | with_reducible apply keeps_dmcTrack)

theorem keeps_execZqCalibration {m : Nat} (hm : sub 0x200000000000000 m) {s t : State} {a0 : _} (h : Keeps m s t) : KeepsOut m s (execZqCalibration a0 t) := by
  unfold execZqCalibration
  try dsimp only
  repeat' (first | with_reducible assumption | exact sub_trans (by decide) hm | with_reducible apply Keeps.next | with_reducible apply keeps_dmcZq)

theorem keeps_coreBecomesBad {m : Nat} (hm : sub 0xd0800d m) {s t : State} {a0 : _} (h : Keeps m s t) : Keeps m s (coreBecomesBad a0 t) := by
  unfold coreBecomesBad
  try dsimp only
  repeat' (first
    | with_reducible assumption
    | exact sub_trans (by decide) hm
    | with_reducible apply keeps_updCru
    | with_reducible apply keeps_fire
    | with_reducible apply keeps_bumpF
    | with_reducible apply keeps_enterCoast
    | with_reducible apply keeps_doubleFault
    | with_reducible apply Keeps.foldl
    | with_reducible apply Keeps.foldr
    | split)

theorem keeps_netBecomesBad {m : Nat} (hm : sub 0xd1800d m) {s t : State} {a0 : _} (h : Keeps m s t) : Keeps m s (netBecomesBad a0 t) := by
  unfold netBecomesBad
  try dsimp only
  repeat' (first
    | with_reducible assumption
    | exact sub_trans (by decide) hm
    | with_reducible apply keeps_updCru
    | with_reducible apply keeps_fire
    | with_reducible apply keeps_bumpF
    | with_reducible apply keeps_updTu
    | with_reducible apply keeps_hfePortsDown
    | with_reducible apply keeps_doubleFault
    | with_reducible apply keeps_tuHoldover
    | with_reducible apply Keeps.foldl
    | with_reducible apply Keeps.foldr
    | split
    | (with_reducible apply filter_wf)
    | ((with_reducible apply Same.mk) <;> intro b <;> first | exact absurd b (by decide) | rfl)
    | with_reducible refine Keeps.mk' (a := 0xd1800d) ?_ ?_ (Eq.refl _) ?_)

theorem keeps_execMonitorWindow {m : Nat} (hm : sub 0xd1800d m) {s t : State} {a0 a1 : _} (h : Keeps m s t) : KeepsOut m s (execMonitorWindow a0 a1 t) := by
  unfold execMonitorWindow
  try dsimp only
  repeat' (first
    | with_reducible assumption
    | exact sub_trans (by decide) hm
    | with_reducible apply Keeps.next
    | with_reducible apply keeps_updCru
    | with_reducible apply keeps_coreBecomesBad
    | with_reducible apply keeps_netBecomesBad
    | with_reducible apply Keeps.foldl
    | with_reducible apply Keeps.foldr
    | split)

theorem keeps_flcRetrainAll {m : Nat} (hm : sub 0x80000000000 m) {s t : State} (h : Keeps m s t) : Keeps m s (flcRetrainAll t) := by
  unfold flcRetrainAll
  try dsimp only
  repeat' (first
    | with_reducible assumption
    | exact sub_trans (by decide) hm
    | with_reducible apply Keeps.foldl
    | with_reducible apply Keeps.foldr
    | split
    | (with_reducible apply filter_wf)
    | ((with_reducible apply Same.mk) <;> intro b <;> first | exact absurd b (by decide) | rfl)
    | with_reducible refine Keeps.mk' (a := 0x80000000000) ?_ ?_ (Eq.refl _) ?_)

theorem keeps_leaveDoubleFault {m : Nat} (hm : sub 0x200080000000000 m) {s t : State} (h : Keeps m s t) : Keeps m s (leaveDoubleFault t) := by
  unfold leaveDoubleFault
  try dsimp only
  repeat' (first
    | with_reducible assumption
    | exact sub_trans (by decide) hm
    | with_reducible apply keeps_flcRetrainAll
    | with_reducible apply keeps_dmcLeaveSelfRefresh
    | with_reducible apply Keeps.foldl
    | with_reducible apply Keeps.foldr
    | split)

theorem keeps_returnToCore {m : Nat} (hm : sub 0x10800d m) {s t : State} (h : Keeps m s t) : Keeps m s (returnToCore t) := by
  unfold returnToCore
  try dsimp only
  repeat' (first
    | with_reducible assumption
    | exact sub_trans (by decide) hm
    | with_reducible apply keeps_updCru
    | with_reducible apply keeps_requestSwitch
    | with_reducible apply Keeps.foldl
    | with_reducible apply Keeps.foldr
    | split)

theorem keeps_execReferenceGood {m : Nat} (hm : sub 0x20008000011800d m) {s t : State} {a0 : _} (h : Keeps m s t) : KeepsOut m s (execReferenceGood a0 t) := by
  unfold execReferenceGood
  try dsimp only
  repeat' (first
    | with_reducible assumption
    | exact sub_trans (by decide) hm
    | with_reducible apply Keeps.next
    | with_reducible apply keeps_updCru
    | with_reducible apply keeps_leaveDoubleFault
    | with_reducible apply keeps_updTu
    | with_reducible apply keeps_returnToCore
    | with_reducible apply Keeps.foldl
    | with_reducible apply Keeps.foldr
    | split)

theorem keeps_pllUnlock {m : Nat} (hm : sub 0xd1800d m) {s t : State} {a0 : _} (h : Keeps m s t) : Keeps m s (pllUnlock a0 t) := by
  unfold pllUnlock
  try dsimp only
  repeat' (first
    | with_reducible assumption
    | exact sub_trans (by decide) hm
    | with_reducible apply keeps_fire
    | with_reducible apply keeps_bumpF
    | with_reducible apply keeps_coreBecomesBad
    | with_reducible apply keeps_updCru
    | with_reducible apply keeps_tuHoldover
    | with_reducible apply keeps_updTu
    | with_reducible apply Keeps.foldl
    | with_reducible apply Keeps.foldr
    | split)

theorem keeps_execStoppedClockTrip {m : Nat} (hm : sub 0xd1800d m) {s t : State} {a0 : _} (h : Keeps m s t) : KeepsOut m s (execStoppedClockTrip a0 t) := by
  unfold execStoppedClockTrip
  try dsimp only
  repeat' (first
    | with_reducible assumption
    | exact sub_trans (by decide) hm
    | with_reducible apply Keeps.next
    | with_reducible apply keeps_coreBecomesBad
    | with_reducible apply keeps_updCru
    | with_reducible apply keeps_netBecomesBad
    | with_reducible apply keeps_pllUnlock
    | with_reducible apply Keeps.foldl
    | with_reducible apply Keeps.foldr
    | split)

theorem keeps_execPllLockLoss {m : Nat} (hm : sub 0xd1800d m) {s t : State} {a0 : _} (h : Keeps m s t) : KeepsOut m s (execPllLockLoss a0 t) := by
  unfold execPllLockLoss
  try dsimp only
  repeat' (first
    | with_reducible assumption
    | exact sub_trans (by decide) hm
    | with_reducible apply Keeps.next
    | with_reducible apply keeps_pllUnlock
    | with_reducible apply Keeps.foldl
    | with_reducible apply Keeps.foldr
    | split)

theorem keeps_restartRc {m : Nat} (hm : sub 0x8000 m) {s t : State} (h : Keeps m s t) : Keeps m s (restartRc t) := by
  unfold restartRc
  try dsimp only
  repeat' (first | with_reducible assumption | exact sub_trans (by decide) hm | with_reducible apply keeps_updCru)

theorem keeps_execRcCheckWindow {m : Nat} (hm : sub 0xd0800d m) {s t : State} {a0 : _} (h : Keeps m s t) : KeepsOut m s (execRcCheckWindow a0 t) := by
  unfold execRcCheckWindow
  try dsimp only
  repeat' (first
    | with_reducible assumption
    | exact sub_trans (by decide) hm
    | with_reducible apply Keeps.next
    | with_reducible apply keeps_updCru
    | with_reducible apply keeps_restartRc
    | with_reducible apply keeps_fire
    | with_reducible apply keeps_bumpF
    | with_reducible apply keeps_returnToCore
    | with_reducible apply keeps_doubleFault
    | with_reducible apply Keeps.foldl
    | with_reducible apply Keeps.foldr
    | split)

theorem keeps_execRcReady {m : Nat} (hm : sub 0x8000 m) {s t : State} (h : Keeps m s t) : KeepsOut m s (execRcReady t) := by
  unfold execRcReady
  try dsimp only
  repeat' (first
    | with_reducible assumption
    | exact sub_trans (by decide) hm
    | with_reducible apply Keeps.next
    | with_reducible apply keeps_updCru
    | with_reducible apply Keeps.foldl
    | with_reducible apply Keeps.foldr
    | split)

theorem keeps_execRcTrimWrite {m : Nat} (hm : sub 0x8001 m) {s t : State} {a0 a1 : _} (h : Keeps m s t) : KeepsOut m s (execRcTrimWrite a0 a1 t) := by
  unfold execRcTrimWrite
  try dsimp only
  repeat' (first
    | with_reducible assumption
    | exact sub_trans (by decide) hm
    | with_reducible apply Keeps.next
    | with_reducible apply keeps_restartRc
    | with_reducible apply keeps_setF
    | with_reducible apply Keeps.foldl
    | with_reducible apply Keeps.foldr
    | split)

theorem keeps_execSwitchRetry {m : Nat} (hm : sub 0x8001 m) {s t : State} (h : Keeps m s t) : KeepsOut m s (execSwitchRetry t) := by
  unfold execSwitchRetry
  try dsimp only
  repeat' (first
    | with_reducible assumption
    | exact sub_trans (by decide) hm
    | with_reducible apply Keeps.next
    | with_reducible apply keeps_updCru
    | with_reducible apply keeps_bumpF
    | with_reducible apply Keeps.foldl
    | with_reducible apply Keeps.foldr
    | split)

theorem keeps_execClockSwitchDone {m : Nat} (hm : sub 0x10800d m) {s t : State} {a0 : _} (h : Keeps m s t) : KeepsOut m s (execClockSwitchDone a0 t) := by
  unfold execClockSwitchDone
  try dsimp only
  repeat' (first
    | with_reducible assumption
    | exact sub_trans (by decide) hm
    | with_reducible apply Keeps.next
    | with_reducible apply keeps_updCru
    | with_reducible apply keeps_bumpF
    | with_reducible apply keeps_fire
    | with_reducible apply keeps_requestSwitch
    | with_reducible apply Keeps.foldl
    | with_reducible apply Keeps.foldr
    | split)

theorem keeps_execRootPllLock {m : Nat} (hm : sub 0x10800d m) {s t : State} (h : Keeps m s t) : KeepsOut m s (execRootPllLock t) := by
  unfold execRootPllLock
  try dsimp only
  repeat' (first
    | with_reducible assumption
    | exact sub_trans (by decide) hm
    | with_reducible apply Keeps.next
    | with_reducible apply keeps_updCru
    | with_reducible apply keeps_fire
    | with_reducible apply Keeps.foldl
    | with_reducible apply Keeps.foldr
    | split)

theorem keeps_execAccPllRelock {m : Nat} (hm : sub 0x200000000008000 m) {s t : State} (h : Keeps m s t) : KeepsOut m s (execAccPllRelock t) := by
  unfold execAccPllRelock
  try dsimp only
  repeat' (first
    | with_reducible assumption
    | exact sub_trans (by decide) hm
    | with_reducible apply Keeps.next
    | with_reducible apply keeps_dmcDriftTrackAll
    | with_reducible apply keeps_updCru
    | with_reducible apply Keeps.foldl
    | with_reducible apply Keeps.foldr
    | split)

theorem keeps_execDoubleFaultSelfRefresh {m : Nat} (hm : sub 0x200000000000000 m) {s t : State} (h : Keeps m s t) : KeepsOut m s (execDoubleFaultSelfRefresh t) := by
  unfold execDoubleFaultSelfRefresh
  try dsimp only
  repeat' (first
    | with_reducible assumption
    | exact sub_trans (by decide) hm
    | with_reducible apply Keeps.next
    | with_reducible apply keeps_dmcEnterSelfRefresh
    | with_reducible apply Keeps.foldl
    | with_reducible apply Keeps.foldr
    | split)

theorem keeps_execClockSwitchRequest {m : Nat} (hm : sub 0x10800d m) {s t : State} {a0 a1 a2 : _} (h : Keeps m s t) : KeepsOut m s (execClockSwitchRequest a0 a1 a2 t) := by
  unfold execClockSwitchRequest
  try dsimp only
  repeat' (first
    | with_reducible assumption
    | exact sub_trans (by decide) hm
    | with_reducible apply Keeps.next
    | with_reducible apply keeps_setF
    | with_reducible apply keeps_updCru
    | with_reducible apply keeps_bumpF
    | with_reducible apply keeps_enterCoast
    | with_reducible apply keeps_requestSwitch
    | with_reducible apply keeps_returnToCore
    | with_reducible apply Keeps.foldl
    | with_reducible apply Keeps.foldr
    | split)

theorem keeps_deviceReset {m : Nat} (hm : sub 0x3fff9fffffcffef m) {s t : State} {a0 : _} (h : Keeps m s t) : Keeps m s (deviceReset a0 t) := by
  unfold deviceReset
  try dsimp only
  repeat' (first
    | with_reducible assumption
    | exact sub_trans (by decide) hm
    | with_reducible apply keeps_resetDev
    | with_reducible apply keeps_beginBoot
    | with_reducible apply Keeps.foldl
    | with_reducible apply Keeps.foldr
    | split
    | (with_reducible apply filter_wf)
    | ((with_reducible apply Same.mk) <;> intro b <;> first | exact absurd b (by decide) | rfl)
    | with_reducible refine Keeps.mk' (a := 0x3fff9fffffcffef) ?_ ?_ (Eq.refl _) ?_)

theorem keeps_execDeviceReset {m : Nat} (hm : sub 0x3fff9fffffcffef m) {s t : State} {a0 a1 : _} (h : Keeps m s t) : KeepsOut m s (execDeviceReset a0 a1 t) := by
  unfold execDeviceReset
  try dsimp only
  repeat' (first
    | with_reducible assumption
    | exact sub_trans (by decide) hm
    | with_reducible apply Keeps.next
    | with_reducible apply keeps_deviceReset
    | with_reducible apply Keeps.foldl
    | with_reducible apply Keeps.foldr
    | split)

theorem keeps_execScWatchdogExpire {m : Nat} (hm : sub 0x3fff9fffffcffef m) {s t : State} (h : Keeps m s t) : KeepsOut m s (execScWatchdogExpire t) := by
  unfold execScWatchdogExpire
  try dsimp only
  repeat' (first
    | with_reducible assumption
    | exact sub_trans (by decide) hm
    | with_reducible apply Keeps.next
    | with_reducible apply keeps_deviceReset
    | with_reducible apply Keeps.foldl
    | with_reducible apply Keeps.foldr
    | split)

theorem keeps_execCcWatchdogExpire {m : Nat} (hm : sub 0x10000d m) {s t : State} {a0 : _} (h : Keeps m s t) : KeepsOut m s (execCcWatchdogExpire a0 t) := by
  unfold execCcWatchdogExpire
  try dsimp only
  repeat' (first
    | with_reducible assumption
    | exact sub_trans (by decide) hm
    | with_reducible apply Keeps.next
    | with_reducible apply keeps_fire
    | with_reducible apply keeps_setF
    | with_reducible apply Keeps.foldl
    | with_reducible apply Keeps.foldr
    | split)

theorem keeps_execTrstAssert {m : Nat} (hm : sub 0x20000 m) {s t : State} (h : Keeps m s t) : KeepsOut m s (execTrstAssert t) := by
  unfold execTrstAssert
  try dsimp only
  repeat' (first | with_reducible assumption | exact sub_trans (by decide) hm | with_reducible apply Keeps.next | with_reducible apply keeps_updPad)

theorem keeps_tuApplyStep {m : Nat} (hm : sub 0x11000d m) {s t u : State} {a0 : _} {x0 : _} (h : Keeps m s t) (e : (tuApplyStep a0 t) = (x0, u)) : Keeps m s u := by
  unfold tuApplyStep at e
  try dsimp only at e
  repeat' (first | contradiction | (cases e) | (split at e))
  repeat' (first
    | with_reducible assumption
    | exact sub_trans (by decide) hm
    | with_reducible apply keeps_fire
    | with_reducible apply keeps_updTu
    | with_reducible apply keeps_bumpF)
theorem keeps_tuApplyStep' {m : Nat} (hm : sub 0x11000d m) {s t : State} {a0 : _} (h : Keeps m s t) : Keeps m s (tuApplyStep a0 t).2 := keeps_tuApplyStep hm (x0 := (tuApplyStep a0 t).1) h rfl

theorem keeps_execTuStep {m : Nat} (hm : sub 0x11000d m) {s t : State} {a0 : _} (h : Keeps m s t) : KeepsOut m s (execTuStep a0 t) := by
  unfold execTuStep
  try dsimp only
  repeat' (first
    | with_reducible assumption
    | exact sub_trans (by decide) hm
    | with_reducible apply Keeps.next
    | refine keeps_tuApplyStep ?_ ?_ (by with_reducible assumption)
    | with_reducible apply keeps_tuApplyStep'
    | with_reducible apply keeps_tuEnter
    | with_reducible apply Keeps.foldl
    | with_reducible apply Keeps.foldr
    | split)

theorem keeps_tuReadNow {m : Nat} (hm : sub 0x10000 m) {s t u : State} {x0 : _} (h : Keeps m s t) (e : (tuReadNow t) = (x0, u)) : Keeps m s u := by
  unfold tuReadNow at e
  try dsimp only at e
  repeat' (first | contradiction | (cases e) | (split at e))
  repeat' (first | with_reducible assumption | exact sub_trans (by decide) hm | with_reducible apply keeps_updTu)
theorem keeps_tuReadNow' {m : Nat} (hm : sub 0x10000 m) {s t : State} (h : Keeps m s t) : Keeps m s (tuReadNow t).2 := keeps_tuReadNow hm (x0 := (tuReadNow t).1) h rfl

theorem keeps_execTuNowRead {m : Nat} (hm : sub 0x10008 m) {s t : State} (h : Keeps m s t) : KeepsOut m s (execTuNowRead t) := by
  unfold execTuNowRead
  try dsimp only
  repeat' (first
    | with_reducible assumption
    | exact sub_trans (by decide) hm
    | with_reducible apply Keeps.next
    | refine keeps_tuReadNow ?_ ?_ (by with_reducible assumption)
    | with_reducible apply keeps_tuReadNow'
    | with_reducible apply keeps_emit)

theorem keeps_lockLateCheck {m : Nat} (hm : sub 0x100000010000d m) {s t : State} {a0 : _} (h : Keeps m s t) : Keeps m s (lockLateCheck a0 t) := by
  unfold lockLateCheck
  try dsimp only
  repeat' (first
    | with_reducible assumption
    | exact sub_trans (by decide) hm
    | with_reducible apply keeps_fire
    | with_reducible apply keeps_updRcu (a := 0x100000010000d)
    | ((with_reducible apply SameRcu.mk) <;> intro b <;> first | exact absurd b (by decide) | rfl)
    | with_reducible apply Keeps.foldl
    | with_reducible apply Keeps.foldr
    | split
    | (intro; try dsimp only))

theorem keeps_servoUpdate {m : Nat} (hm : sub 0x11000d m) {s t : State} {a0 a1 a2 : _} (h : Keeps m s t) : Keeps m s (servoUpdate a0 a1 a2 t) := by
  unfold servoUpdate
  extract_lets s1 s2
  have h1 : Keeps m s s1 := keeps_updTu (sub_trans (by decide) hm) h
  have h2 : Keeps m s s2 := by
    show Keeps m s (if s1.tu.st = 0 ∨ s1.tu.st = 1 ∨ s1.tu.st = 4 then tuEnter 2 s1 else s1)
    split
    · exact keeps_tuEnter (sub_trans (by decide) hm) h1
    · exact h1
  split
  · split
    · exact keeps_tuApplyStep (sub_trans (by decide) hm) h1 ‹_›
    · exact keeps_updTu (sub_trans (by decide) hm) (keeps_tuEnter (sub_trans (by decide) hm) (keeps_tuApplyStep (sub_trans (by decide) hm) h1 ‹_›))
  · repeat' split
    all_goals first
      | exact keeps_tuEnter (sub_trans (by decide) hm) (keeps_updTu (sub_trans (by decide) hm) (keeps_setAddend (sub_trans (by decide) hm) (keeps_updTu (sub_trans (by decide) hm) h2)))
      | exact keeps_updTu (sub_trans (by decide) hm) (keeps_setAddend (sub_trans (by decide) hm) (keeps_updTu (sub_trans (by decide) hm) h2))
      | exact keeps_setAddend (sub_trans (by decide) hm) (keeps_updTu (sub_trans (by decide) hm) h2)

theorem keeps_execPtpServoUpdate {m : Nat} (hm : sub 0x100000011000d m) {s t : State} {a0 a1 a2 : _} (h : Keeps m s t) : KeepsOut m s (execPtpServoUpdate a0 a1 a2 t) := by
  unfold execPtpServoUpdate
  try dsimp only
  repeat' (first
    | with_reducible assumption
    | exact sub_trans (by decide) hm
    | with_reducible apply Keeps.next
    | with_reducible apply keeps_lockLateCheck
    | with_reducible apply keeps_servoUpdate)

theorem keeps_execPtpSyncTimeout {m : Nat} (hm : sub 0x11000d m) {s t : State} (h : Keeps m s t) : KeepsOut m s (execPtpSyncTimeout t) := by
  unfold execPtpSyncTimeout
  try dsimp only
  repeat' (first
    | with_reducible assumption
    | exact sub_trans (by decide) hm
    | with_reducible apply Keeps.next
    | with_reducible apply keeps_tuHoldover)

theorem keeps_execHoldoverExpire {m : Nat} (hm : sub 0x11000d m) {s t : State} (h : Keeps m s t) : KeepsOut m s (execHoldoverExpire t) := by
  unfold execHoldoverExpire
  try dsimp only
  repeat' (first
    | with_reducible assumption
    | exact sub_trans (by decide) hm
    | with_reducible apply Keeps.next
    | with_reducible apply keeps_tuEnter
    | with_reducible apply Keeps.foldl
    | with_reducible apply Keeps.foldr
    | split)

theorem keeps_execLoadWindow {m : Nat} (hm : sub 0x20010000d m) {s t : State} {a0 a1 a2 a3 a4 a5 a6 : _} (h : Keeps m s t) : KeepsOut m s (execLoadWindow a0 a1 a2 a3 a4 a5 a6 t) := by
  unfold execLoadWindow
  try dsimp only
  repeat' (first
    | with_reducible assumption
    | exact sub_trans (by decide) hm
    | with_reducible apply Keeps.next
    | with_reducible apply keeps_updMgc (a := 0x20010000d)
    | ((with_reducible apply SameMgc.mk) <;> intro b <;> first | exact absurd b (by decide) | rfl)
    | with_reducible apply keeps_fire
    | with_reducible apply Keeps.foldl
    | with_reducible apply Keeps.foldr
    | split
    | (intro; try dsimp only))

theorem keeps_portByte {m : Nat} (hm : sub 0x2c5600009 m) {s t : State} {a0 a2 : _} (h : Keeps m s t) : Keeps m s (portByte a0 t a2) := by
  unfold portByte
  dsimp only
  repeat' split
  all_goals first
    | exact h
    | exact keeps_taskGo (sub_trans (by decide) hm) h
    | exact keeps_updMgc (a := 0x2c5600009) hm (fun _ => by apply SameMgc.mk <;> intro b <;> first | exact absurd b (by decide) | rfl) (fun _ hm => hm) (fun _ hm => hm) h
    | exact keeps_updMgc (a := 0x2c5600009) hm (fun _ => by apply SameMgc.mk <;> intro b <;> first | exact absurd b (by decide) | rfl) (fun _ hm => mapSet_wf hm) (fun _ hm => hm) h

theorem keeps_execMgmtPortWrite {m : Nat} (hm : sub 0x2c5600009 m) {s t : State} {a0 a1 a2 : _} (h : Keeps m s t) : KeepsOut m s (execMgmtPortWrite a0 a1 a2 t) := by
  unfold execMgmtPortWrite
  try dsimp only
  repeat' (first
    | with_reducible assumption
    | exact sub_trans (by decide) hm
    | with_reducible apply Keeps.next
    | with_reducible apply keeps_emit
    | with_reducible apply keeps_updMgc (a := 0x2c5600009)
    | ((with_reducible apply SameMgc.mk) <;> intro b <;> first | exact absurd b (by decide) | rfl)
    | with_reducible apply keeps_portByte
    | with_reducible apply Keeps.foldl
    | with_reducible apply Keeps.foldr
    | split
    | (intro; try dsimp only))

theorem keeps_execTaskGo {m : Nat} (hm : sub 0x2c5600009 m) {s t : State} (h : Keeps m s t) : KeepsOut m s (execTaskGo t) := by
  unfold execTaskGo
  try dsimp only
  repeat' (first
    | with_reducible assumption
    | exact sub_trans (by decide) hm
    | with_reducible apply Keeps.next
    | with_reducible apply keeps_taskGo
    | with_reducible apply Keeps.foldl
    | with_reducible apply Keeps.foldr
    | split)

theorem keeps_execEntdaa {m : Nat} (hm : sub 0x200000000 m) {s t : State} {a0 : _} (h : Keeps m s t) : KeepsOut m s (execEntdaa a0 t) := by
  unfold execEntdaa
  try dsimp only
  repeat' (first
    | with_reducible assumption
    | exact sub_trans (by decide) hm
    | with_reducible apply Keeps.next
    | with_reducible apply keeps_updMgc (a := 0x200000000)
    | ((with_reducible apply SameMgc.mk) <;> intro b <;> first | exact absurd b (by decide) | rfl)
    | with_reducible apply Keeps.foldl
    | with_reducible apply Keeps.foldr
    | split
    | (intro; try dsimp only))

theorem keeps_execSetdasa {m : Nat} (hm : sub 0x200000000 m) {s t : State} {a0 a1 : _} (h : Keeps m s t) : KeepsOut m s (execSetdasa a0 a1 t) := by
  unfold execSetdasa
  try dsimp only
  repeat' (first
    | with_reducible assumption
    | exact sub_trans (by decide) hm
    | with_reducible apply Keeps.next
    | with_reducible apply keeps_updMgc (a := 0x200000000)
    | ((with_reducible apply SameMgc.mk) <;> intro b <;> first | exact absurd b (by decide) | rfl)
    | with_reducible apply Keeps.foldl
    | with_reducible apply Keeps.foldr
    | split
    | (intro; try dsimp only))

theorem keeps_execRstdaa {m : Nat} (hm : sub 0x200000000 m) {s t : State} (h : Keeps m s t) : KeepsOut m s (execRstdaa t) := by
  unfold execRstdaa
  try dsimp only
  repeat' (first
    | with_reducible assumption
    | exact sub_trans (by decide) hm
    | with_reducible apply Keeps.next
    | with_reducible apply keeps_updMgc (a := 0x200000000)
    | ((with_reducible apply SameMgc.mk) <;> intro b <;> first | exact absurd b (by decide) | rfl)
    | with_reducible apply Keeps.foldl
    | with_reducible apply Keeps.foldr
    | split
    | (intro; try dsimp only))

theorem keeps_execEnec {m : Nat} (hm : sub 0x200000000 m) {s t : State} {a0 : _} (h : Keeps m s t) : KeepsOut m s (execEnec a0 t) := by
  unfold execEnec
  try dsimp only
  repeat' (first
    | with_reducible assumption
    | exact sub_trans (by decide) hm
    | with_reducible apply Keeps.next
    | with_reducible apply keeps_updMgc (a := 0x200000000)
    | ((with_reducible apply SameMgc.mk) <;> intro b <;> first | exact absurd b (by decide) | rfl)
    | with_reducible apply Keeps.foldl
    | with_reducible apply Keeps.foldr
    | split
    | (intro; try dsimp only))

theorem keeps_execDisec {m : Nat} (hm : sub 0x200000000 m) {s t : State} {a0 : _} (h : Keeps m s t) : KeepsOut m s (execDisec a0 t) := by
  unfold execDisec
  try dsimp only
  repeat' (first
    | with_reducible assumption
    | exact sub_trans (by decide) hm
    | with_reducible apply Keeps.next
    | with_reducible apply keeps_updMgc (a := 0x200000000)
    | ((with_reducible apply SameMgc.mk) <;> intro b <;> first | exact absurd b (by decide) | rfl)
    | with_reducible apply Keeps.foldl
    | with_reducible apply Keeps.foldr
    | split
    | (intro; try dsimp only))

end Sys2Proof.Machine
end

