-- ==== Sys2Proof/Laws/KeepsOpsI.lean ====
section
/-! SUPPORT. Each operation keeps the rules of `Keeps`, one lemma per operation, callees first (part 9). -/

namespace Sys2Proof.Machine

theorem keeps_execGetbcr {m : Nat} (hm : sub 0x8 m) {s t : State} (h : Keeps m s t) : KeepsOut m s (execGetbcr t) := by
  unfold execGetbcr
  try dsimp only
  repeat' (first
    | with_reducible assumption
    | exact sub_trans (by decide) hm
    | with_reducible apply Keeps.next
    | with_reducible apply keeps_cccReply)

theorem keeps_execGetdcr {m : Nat} (hm : sub 0x8 m) {s t : State} (h : Keeps m s t) : KeepsOut m s (execGetdcr t) := by
  unfold execGetdcr
  try dsimp only
  repeat' (first
    | with_reducible assumption
    | exact sub_trans (by decide) hm
    | with_reducible apply Keeps.next
    | with_reducible apply keeps_cccReply)

theorem keeps_execGetstatus {m : Nat} (hm : sub 0xc m) {s t : State} (h : Keeps m s t) : KeepsOut m s (execGetstatus t) := by
  unfold execGetstatus
  try dsimp only
  repeat' (first
    | with_reducible assumption
    | exact sub_trans (by decide) hm
    | with_reducible apply Keeps.next
    | refine keeps_drawFree ?_ ?_ (by with_reducible assumption)
    | with_reducible apply keeps_drawFree'
    | with_reducible apply keeps_cccReply)

theorem keeps_execGetmwl {m : Nat} (hm : sub 0x8 m) {s t : State} (h : Keeps m s t) : KeepsOut m s (execGetmwl t) := by
  unfold execGetmwl
  try dsimp only
  repeat' (first
    | with_reducible assumption
    | exact sub_trans (by decide) hm
    | with_reducible apply Keeps.next
    | with_reducible apply keeps_cccReply)

theorem keeps_execNvmeMiBasicRead {m : Nat} (hm : sub 0x8 m) {s t : State} {a0 : _} (h : Keeps m s t) : KeepsOut m s (execNvmeMiBasicRead a0 t) := by
  unfold execNvmeMiBasicRead
  try dsimp only
  repeat' (first
    | with_reducible assumption
    | exact sub_trans (by decide) hm
    | with_reducible apply Keeps.next
    | with_reducible apply keeps_emit
    | with_reducible apply Keeps.foldl
    | with_reducible apply Keeps.foldr
    | split)

theorem keeps_execNop {m : Nat} (hm : sub 0xc5600008 m) {s t : State} {a0 : _} (h : Keeps m s t) : KeepsOut m s (execNop a0 t) := by
  unfold execNop
  try dsimp only
  repeat' (first
    | with_reducible assumption
    | exact sub_trans (by decide) hm
    | with_reducible apply Keeps.next
    | with_reducible apply keeps_sirRun
    | with_reducible apply keeps_sirOk
    | with_reducible apply Keeps.foldl
    | with_reducible apply Keeps.foldr
    | split
    | (intro; try dsimp only))

theorem keeps_sirFail {m : Nat} (hm : sub 0xc5600008 m) {s t : State} {a0 a1 a2 : _} (h : Keeps m s t) : Keeps m s (sirFail a0 a1 a2 t) := by
  unfold sirFail
  try dsimp only
  repeat' (first | with_reducible assumption | exact sub_trans (by decide) hm | with_reducible apply keeps_sirAnswer)

theorem keeps_creadNext {m : Nat} (hm : sub 0x80005 m) {s t u : State} {x0 : _} (h : Keeps m s t) (e : (creadNext t) = (x0, u)) : Keeps m s u := by
  unfold creadNext at e
  try dsimp only at e
  repeat' (first | contradiction | (cases e) | (split at e))
  repeat' (first
    | with_reducible assumption
    | exact sub_trans (by decide) hm
    | with_reducible apply keeps_updFws (a := 0x80005)
    | ((with_reducible apply SameFws.mk) <;> intro b <;> first | exact absurd b (by decide) | rfl)
    | refine keeps_creadWord ?_ ?_ (by with_reducible assumption)
    | with_reducible apply keeps_creadWord'
    | with_reducible apply keeps_setF
    | with_reducible apply Keeps.foldl
    | with_reducible apply Keeps.foldr
    | split
    | (intro; try dsimp only))
theorem keeps_creadNext' {m : Nat} (hm : sub 0x80005 m) {s t : State} (h : Keeps m s t) : Keeps m s (creadNext t).2 := keeps_creadNext hm (x0 := (creadNext t).1) h rfl

theorem keeps_clearRc {m : Nat} (hm : sub 0x1 m) {s t : State} {a0 : _} (h : Keeps m s t) : Keeps m s (clearRc a0 t) := by
  unfold clearRc
  try dsimp only
  repeat' (first
    | with_reducible assumption
    | exact sub_trans (by decide) hm
    | with_reducible apply keeps_setReg
    | with_reducible apply Keeps.foldl
    | with_reducible apply Keeps.foldr
    | split)

theorem keeps_readPlain {m : Nat} (hm : sub 0x3 m) {s t u : State} {a0 : _} {x0 : _} (h : Keeps m s t) (e : (readPlain a0 t) = (x0, u)) : Keeps m s u := by
  unfold readPlain at e
  try dsimp only at e
  repeat' (first | contradiction | (cases e) | (split at e))
  repeat' (first
    | with_reducible assumption
    | exact sub_trans (by decide) hm
    | with_reducible apply keeps_clearRc
    | with_reducible apply Keeps.foldl
    | with_reducible apply Keeps.foldr
    | split
    | (with_reducible apply filter_wf)
    | ((with_reducible apply Same.mk) <;> intro b <;> first | exact absurd b (by decide) | rfl)
    | with_reducible refine Keeps.mk' (a := 0x3) ?_ ?_ (Eq.refl _) ?_)
theorem keeps_readPlain' {m : Nat} (hm : sub 0x3 m) {s t : State} {a0 : _} (h : Keeps m s t) : Keeps m s (readPlain a0 t).2 := keeps_readPlain hm (x0 := (readPlain a0 t).1) h rfl

theorem keeps_readAccess' {m : Nat} (hm : sub 0x100000002090007 m) {s t : State} {a0 : _} (h : Keeps m s t) : Keeps m s (readAccess a0 t).2 := by
  unfold readAccess
  repeat' split
  all_goals first
    | exact h
    | exact keeps_ptpPop' (sub_trans (by decide) hm) h
    | exact keeps_tuReadNow' (sub_trans (by decide) hm) h
    | exact keeps_creadNext' (sub_trans (by decide) hm) h
    | exact keeps_updBpm (sub_trans (by decide) hm) h
    | exact keeps_readPlain' (sub_trans (by decide) hm) h
    | exact Keeps.mk' (a := 0x100000002090007) hm h rfl (by apply Same.mk <;> intro b <;> first | exact absurd b (by decide) | rfl)
    | exact keeps_creadNext (sub_trans (by decide) hm) h ‹_›
theorem keeps_readAccess {m : Nat} (hm : sub 0x100000002090007 m) {s t u : State} {a0 x0 : _} (h : Keeps m s t) (e : readAccess a0 t = (x0, u)) : Keeps m s u := by
  have := keeps_readAccess' (sub_trans (by decide) hm) (a0 := a0) h
  rwa [e] at this

theorem keeps_regReadAt {m : Nat} (hm : sub 0x100000002090007 m) {s t u : State} {a0 : _} {x0 : _} (h : Keeps m s t) (e : (regReadAt a0 t) = (x0, u)) : Keeps m s u := by
  unfold regReadAt at e
  try dsimp only at e
  repeat' (first | contradiction | (cases e) | (split at e))
  repeat' (first | with_reducible assumption | exact sub_trans (by decide) hm | refine keeps_readAccess ?_ ?_ (by with_reducible assumption))
theorem keeps_regReadAt' {m : Nat} (hm : sub 0x100000002090007 m) {s t : State} {a0 : _} (h : Keeps m s t) : Keeps m s (regReadAt a0 t).2 := keeps_regReadAt hm (x0 := (regReadAt a0 t).1) h rfl

theorem keeps_sirReads' {m : Nat} (hm : sub 0x100000002090007 m) {s t : State} {a0 : List Nat} {a1 a2 a3 : _} (h : Keeps m s t) : Keeps m s (sirReads a0 a1 a2 a3 t).2.2 := by
  induction a0 generalizing t a1 a2 a3 with
  | nil => exact h
  | cons a l ih => exact ih (keeps_regReadAt' (sub_trans (by decide) hm) h)
theorem keeps_sirReads {m : Nat} (hm : sub 0x100000002090007 m) {s t u : State} {a0 a1 a2 a3 x0 x1 : _} (h : Keeps m s t) (e : sirReads a0 a1 a2 a3 t = (x0, x1, u)) : Keeps m s u := by
  have := keeps_sirReads' (sub_trans (by decide) hm) (a0 := a0) (a1 := a1) (a2 := a2) (a3 := a3) h
  rwa [e] at this

theorem keeps_sirAccessed {m : Nat} (hm : sub 0xc5600008 m) {s t : State} {a0 a1 a2 : _} (h : Keeps m s t) : Keeps m s (sirAccessed a0 a1 a2 t) := by
  unfold sirAccessed
  try dsimp only
  repeat' (first
    | with_reducible assumption
    | exact sub_trans (by decide) hm
    | with_reducible apply keeps_sirOk
    | with_reducible apply keeps_sirAnswer
    | with_reducible apply Keeps.foldl
    | with_reducible apply Keeps.foldr
    | split)

theorem keeps_execRegRead {m : Nat} (hm : sub 0x1000000c769000f m) {s t : State} {a0 : _} (h : Keeps m s t) : KeepsOut m s (execRegRead a0 t) := by
  unfold execRegRead
  try dsimp only
  repeat' (first
    | with_reducible assumption
    | exact sub_trans (by decide) hm
    | with_reducible apply Keeps.next
    | with_reducible apply keeps_sirRun
    | with_reducible apply keeps_sirFail
    | refine keeps_sirReads ?_ ?_ (by with_reducible assumption)
    | with_reducible apply keeps_sirReads'
    | with_reducible apply keeps_sirAccessed
    | with_reducible apply Keeps.foldl
    | with_reducible apply Keeps.foldr
    | split
    | (intro; try dsimp only))

theorem keeps_writeTop {m : Nat} (hm : sub 0x14ffc69cdf51bed m) {s t : State} {a0 a1 : _} (h : Keeps m s t) : Keeps m s (writeTop a0 a1 t) := by
  unfold writeTop
  try dsimp only
  repeat' (first
    | with_reducible assumption
    | exact sub_trans (by decide) hm
    | with_reducible apply keeps_stateRequest
    | with_reducible apply keeps_skimDueWrite
    | with_reducible apply keeps_plainWrite
    | with_reducible apply Keeps.foldl
    | with_reducible apply Keeps.foldr
    | split)

theorem keeps_writeW1c {m : Nat} (hm : sub 0x1 m) {s t : State} {a0 a1 : _} (h : Keeps m s t) : Keeps m s (writeW1c a0 a1 t) := by
  unfold writeW1c
  try dsimp only
  repeat' (first
    | with_reducible assumption
    | exact sub_trans (by decide) hm
    | with_reducible apply keeps_setReg
    | with_reducible apply Keeps.foldl
    | with_reducible apply Keeps.foldr
    | split)

theorem keeps_writeCru {m : Nat} (hm : sub 0x3fff9fffffcffef m) {s t : State} {a0 a1 : _} (h : Keeps m s t) : Keeps m s (writeCru a0 a1 t) := by
  unfold writeCru
  try dsimp only
  repeat' (first
    | with_reducible assumption
    | exact sub_trans (by decide) hm
    | with_reducible apply keeps_outcomeState
    | with_reducible apply keeps_execClockSwitchRequest
    | with_reducible apply keeps_plainWrite
    | with_reducible apply keeps_execRcTrimWrite
    | with_reducible apply keeps_writeW1c
    | with_reducible apply keeps_execDeviceReset
    | with_reducible apply Keeps.foldl
    | with_reducible apply Keeps.foldr
    | split)

theorem keeps_writeAddend {m : Nat} (hm : sub 0x3 m) {s t : State} {a0 : _} (h : Keeps m s t) : Keeps m s (writeAddend a0 t) := by
  unfold writeAddend
  try dsimp only
  repeat' (first
    | with_reducible assumption
    | exact sub_trans (by decide) hm
    | with_reducible apply keeps_setAddend
    | with_reducible apply Keeps.foldl
    | with_reducible apply Keeps.foldr
    | split
    | (with_reducible apply filter_wf)
    | ((with_reducible apply Same.mk) <;> intro b <;> first | exact absurd b (by decide) | rfl)
    | with_reducible refine Keeps.mk' (a := 0x3) ?_ ?_ (Eq.refl _) ?_)

theorem keeps_writeTu {m : Nat} (hm : sub 0x15000f m) {s t : State} {a0 a1 : _} (h : Keeps m s t) : Keeps m s (writeTu a0 a1 t) := by
  unfold writeTu
  try dsimp only
  repeat' (first
    | with_reducible assumption
    | exact sub_trans (by decide) hm
    | with_reducible apply keeps_writeAddend
    | with_reducible apply keeps_plainWrite
    | with_reducible apply keeps_outcomeState
    | with_reducible apply keeps_execTuStep
    | with_reducible apply Keeps.foldl
    | with_reducible apply Keeps.foldr
    | split
    | (with_reducible apply filter_wf)
    | ((with_reducible apply Same.mk) <;> intro b <;> first | exact absurd b (by decide) | rfl)
    | with_reducible refine Keeps.mk' (a := 0x15000f) ?_ ?_ (Eq.refl _) ?_)

theorem keeps_modeCtl {m : Nat} (hm : sub 0x1025008cff5000d m) {s t : State} {a0 : _} (h : Keeps m s t) : Keeps m s (modeCtl a0 t) := by
  unfold modeCtl
  try dsimp only
  repeat' (first
    | with_reducible assumption
    | exact sub_trans (by decide) hm
    | with_reducible apply keeps_plainWrite
    | with_reducible apply keeps_modeSave
    | with_reducible apply keeps_modeForget
    | with_reducible apply keeps_modeApply
    | with_reducible apply Keeps.foldl
    | with_reducible apply Keeps.foldr
    | split)

theorem keeps_writePtpCfg {m : Nat} (hm : sub 0x15000d m) {s t : State} {a0 : _} (h : Keeps m s t) : Keeps m s (writePtpCfg a0 t) := by
  unfold writePtpCfg
  try dsimp only
  repeat' (first
    | with_reducible assumption
    | exact sub_trans (by decide) hm
    | with_reducible apply keeps_plainWrite
    | with_reducible apply keeps_tuHoldover
    | with_reducible apply Keeps.foldl
    | with_reducible apply Keeps.foldr
    | split)

theorem keeps_closePort {m : Nat} (hm : sub 0x1025008cd70000d m) {s t : State} {a0 : _} (h : Keeps m s t) : Keeps m s (closePort a0 t) := by
  unfold closePort
  try dsimp only
  repeat' (first
    | with_reducible assumption
    | exact sub_trans (by decide) hm
    | with_reducible apply keeps_loseConn
    | with_reducible apply Keeps.foldl
    | with_reducible apply Keeps.foldr
    | split
    | (intro; try dsimp only))

theorem keeps_portCtl {m : Nat} (hm : sub 0x1025008cff5000d m) {s t : State} {a0 a1 : _} (h : Keeps m s t) : Keeps m s (portCtl a0 a1 t) := by
  unfold portCtl
  try dsimp only
  repeat' (first
    | with_reducible assumption
    | exact sub_trans (by decide) hm
    | with_reducible apply keeps_plainWrite
    | with_reducible apply keeps_closePort
    | with_reducible apply keeps_portDown
    | with_reducible apply keeps_portTrainFull
    | with_reducible apply keeps_portWiden
    | with_reducible apply Keeps.foldl
    | with_reducible apply Keeps.foldr
    | split)

theorem keeps_guardedWrite {m : Nat} (hm : sub 0x40001 m) {s t : State} {a0 a1 a2 : _} (h : Keeps m s t) : Keeps m s (guardedWrite a0 a1 a2 t) := by
  unfold guardedWrite
  try dsimp only
  repeat' (first
    | with_reducible assumption
    | exact sub_trans (by decide) hm
    | with_reducible apply keeps_plainWrite
    | with_reducible apply Keeps.foldl
    | with_reducible apply Keeps.foldr
    | split)

theorem keeps_writeCntSel {m : Nat} (hm : sub 0x1040001 m) {s t : State} {a0 a1 : _} (h : Keeps m s t) : Keeps m s (writeCntSel a0 a1 t) := by
  unfold writeCntSel
  try dsimp only
  repeat' (first
    | with_reducible assumption
    | exact sub_trans (by decide) hm
    | with_reducible apply keeps_plainWrite
    | with_reducible apply keeps_updHfe (a := 0x1040001)
    | ((with_reducible apply SameHfe.mk) <;> intro b <;> first | exact absurd b (by decide) | rfl)
    | with_reducible apply Keeps.foldl
    | with_reducible apply Keeps.foldr
    | split
    | (intro; try dsimp only))

theorem keeps_writeHfe {m : Nat} (hm : sub 0x1025008cff5000d m) {s t : State} {a0 a1 : _} (h : Keeps m s t) : Keeps m s (writeHfe a0 a1 t) := by
  unfold writeHfe
  try dsimp only
  repeat' (first
    | with_reducible assumption
    | exact sub_trans (by decide) hm
    | with_reducible apply keeps_modeCtl
    | with_reducible apply keeps_writePtpCfg
    | with_reducible apply keeps_portCtl
    | with_reducible apply keeps_guardedWrite
    | with_reducible apply keeps_writeCntSel
    | with_reducible apply keeps_plainWrite
    | with_reducible apply Keeps.foldl
    | with_reducible apply Keeps.foldr
    | split)

theorem keeps_writeTiu {m : Nat} (hm : sub 0x1825008ff74000d m) {s t : State} {a0 a1 : _} (h : Keeps m s t) : Keeps m s (writeTiu a0 a1 t) := by
  unfold writeTiu
  try dsimp only
  repeat' (first
    | with_reducible assumption
    | exact sub_trans (by decide) hm
    | with_reducible apply keeps_keyWord
    | with_reducible apply keeps_tenantCtl
    | with_reducible apply keeps_taskQuota
    | with_reducible apply keeps_zoneQuota
    | with_reducible apply keeps_connQuota
    | with_reducible apply keeps_dieSet
    | with_reducible apply keeps_tiuPlain
    | with_reducible apply Keeps.foldl
    | with_reducible apply Keeps.foldr
    | split)

theorem keeps_writeLink {m : Nat} (hm : sub 0x12ffc389d74000d m) {s t : State} {a0 a1 : _} (h : Keeps m s t) : Keeps m s (writeLink a0 a1 t) := by
  unfold writeLink
  try dsimp only
  repeat' (first
    | with_reducible assumption
    | exact sub_trans (by decide) hm
    | with_reducible apply keeps_linkDisable
    | with_reducible apply keeps_linkEnable
    | with_reducible apply keeps_linkFullTrain
    | with_reducible apply keeps_linkRetrain
    | with_reducible apply keeps_saveSetting
    | with_reducible apply Keeps.foldl
    | with_reducible apply Keeps.foldr
    | split)

theorem keeps_writeFlc {m : Nat} (hm : sub 0x12ffc389d74000d m) {s t : State} {a0 a1 : _} (h : Keeps m s t) : Keeps m s (writeFlc a0 a1 t) := by
  unfold writeFlc
  try dsimp only
  repeat' (first
    | with_reducible assumption
    | exact sub_trans (by decide) hm
    | with_reducible apply keeps_budgetWrite
    | with_reducible apply keeps_gateCtlWrite
    | with_reducible apply keeps_writeLink
    | with_reducible apply keeps_plainWrite
    | with_reducible apply Keeps.foldl
    | with_reducible apply Keeps.foldr
    | split)

theorem keeps_writeClc {m : Nat} (hm : sub 0x400000040001 m) {s t : State} {a0 a1 : _} (h : Keeps m s t) : Keeps m s (writeClc a0 a1 t) := by
  unfold writeClc
  try dsimp only
  repeat' (first
    | with_reducible assumption
    | exact sub_trans (by decide) hm
    | with_reducible apply keeps_plainWrite
    | with_reducible apply keeps_exitClear
    | with_reducible apply Keeps.foldl
    | with_reducible apply Keeps.foldr
    | split)

theorem keeps_learnResetWrite {m : Nat} (hm : sub 0x800000000000 m) {s t : State} {a0 : _} (h : Keeps m s t) : Keeps m s (learnResetWrite a0 t) := by
  unfold learnResetWrite
  try dsimp only
  repeat' (first
    | with_reducible assumption
    | exact sub_trans (by decide) hm
    | with_reducible apply keeps_outcomeState
    | with_reducible apply keeps_execLearnResetAll
    | with_reducible apply keeps_execLearnResetDie
    | with_reducible apply Keeps.foldl
    | with_reducible apply Keeps.foldr
    | split)

theorem keeps_writeRcu {m : Nat} (hm : sub 0x1800000040001 m) {s t : State} {a0 a1 : _} (h : Keeps m s t) : Keeps m s (writeRcu a0 a1 t) := by
  unfold writeRcu
  try dsimp only
  repeat' (first
    | with_reducible assumption
    | exact sub_trans (by decide) hm
    | with_reducible apply keeps_outcomeState
    | with_reducible apply keeps_execArrheniusConstantWrite
    | with_reducible apply keeps_shelfTempWrite
    | with_reducible apply keeps_learnResetWrite
    | with_reducible apply keeps_plainWrite
    | with_reducible apply Keeps.foldl
    | with_reducible apply Keeps.foldr
    | split)

theorem keeps_writeMme {m : Nat} (hm : sub 0x40001 m) {s t : State} {a0 a1 : _} (h : Keeps m s t) : Keeps m s (writeMme a0 a1 t) := by
  unfold writeMme
  try dsimp only
  repeat' (first
    | with_reducible assumption
    | exact sub_trans (by decide) hm
    | with_reducible apply keeps_guardedWrite
    | with_reducible apply keeps_floorWrite
    | with_reducible apply keeps_plainWrite
    | with_reducible apply Keeps.foldl
    | with_reducible apply Keeps.foldr
    | split)

theorem keeps_keyCtlWrite {m : Nat} (hm : sub 0x8000000014000d m) {s t : State} {a0 : _} (h : Keeps m s t) : Keeps m s (keyCtlWrite a0 t) := by
  unfold keyCtlWrite
  try dsimp only
  repeat' (first
    | with_reducible assumption
    | exact sub_trans (by decide) hm
    | with_reducible apply keeps_keyRefuse
    | with_reducible apply keeps_keyCommit
    | with_reducible apply keeps_keyActivate
    | with_reducible apply keeps_keyClear
    | with_reducible apply Keeps.foldl
    | with_reducible apply Keeps.foldr
    | split)

theorem keeps_writeIte {m : Nat} (hm : sub 0x8000000014000d m) {s t : State} {a0 a1 : _} (h : Keeps m s t) : Keeps m s (writeIte a0 a1 t) := by
  unfold writeIte
  try dsimp only
  repeat' (first
    | with_reducible assumption
    | exact sub_trans (by decide) hm
    | with_reducible apply keeps_guardedWrite
    | with_reducible apply keeps_keyCtlWrite
    | with_reducible apply keeps_saveKeys
    | with_reducible apply keeps_updKeys
    | with_reducible apply keeps_plainWrite
    | with_reducible apply Keeps.foldl
    | with_reducible apply Keeps.foldr
    | split)

theorem keeps_writeBpm {m : Nat} (hm : sub 0x100000000040001 m) {s t : State} {a0 a1 : _} (h : Keeps m s t) : Keeps m s (writeBpm a0 a1 t) := by
  unfold writeBpm
  try dsimp only
  repeat' (first
    | with_reducible assumption
    | exact sub_trans (by decide) hm
    | with_reducible apply keeps_outcomeState
    | with_reducible apply keeps_execBpmCntClear
    | with_reducible apply keeps_plainWrite
    | with_reducible apply Keeps.foldl
    | with_reducible apply Keeps.foldr
    | split)

theorem keeps_writeDmc {m : Nat} (hm : sub 0x40001 m) {s t : State} {a0 a1 : _} (h : Keeps m s t) : Keeps m s (writeDmc a0 a1 t) := by
  unfold writeDmc
  try dsimp only
  repeat' (first
    | with_reducible assumption
    | exact sub_trans (by decide) hm
    | with_reducible apply keeps_guardedWrite
    | with_reducible apply keeps_saveSetting
    | with_reducible apply keeps_plainWrite
    | with_reducible apply Keeps.foldl
    | with_reducible apply Keeps.foldr
    | split)

theorem keeps_writeMgc {m : Nat} (hm : sub 0x40001 m) {s t : State} {a0 a1 : _} (h : Keeps m s t) : Keeps m s (writeMgc a0 a1 t) := by
  unfold writeMgc
  try dsimp only
  repeat' (first
    | with_reducible assumption
    | exact sub_trans (by decide) hm
    | with_reducible apply keeps_guardedWrite
    | with_reducible apply keeps_plainWrite
    | with_reducible apply Keeps.foldl
    | with_reducible apply Keeps.foldr
    | split)

theorem keeps_cmdBusy {m : Nat} (hm : sub 0x80000 m) {s t : State} (h : Keeps m s t) : Keeps m s (cmdBusy t) := by
  unfold cmdBusy
  try dsimp only
  repeat' (first
    | with_reducible assumption
    | exact sub_trans (by decide) hm
    | with_reducible apply keeps_updFws (a := 0x80000)
    | ((with_reducible apply SameFws.mk) <;> intro b <;> first | exact absurd b (by decide) | rfl)
    | with_reducible apply Keeps.foldl
    | with_reducible apply Keeps.foldr
    | split
    | (intro; try dsimp only))

theorem keeps_cmdResult {m : Nat} (hm : sub 0x80000 m) {s t : State} {a0 a1 : _} (h : Keeps m s t) : Keeps m s (cmdResult a0 a1 t) := by
  unfold cmdResult
  try dsimp only
  repeat' (first
    | with_reducible assumption
    | exact sub_trans (by decide) hm
    | with_reducible apply keeps_updFws (a := 0x80000)
    | ((with_reducible apply SameFws.mk) <;> intro b <;> first | exact absurd b (by decide) | rfl)
    | with_reducible apply Keeps.foldl
    | with_reducible apply Keeps.foldr
    | split
    | (intro; try dsimp only))

theorem keeps_dropRing {m : Nat} (hm : sub 0x100000 m) {s t : State} {a0 : _} (h : Keeps m s t) : Keeps m s (dropRing a0 t) := by
  unfold dropRing
  try dsimp only
  repeat' (first
    | with_reducible assumption
    | exact sub_trans (by decide) hm
    | with_reducible apply keeps_updEvc
    | with_reducible apply Keeps.foldl
    | with_reducible apply Keeps.foldr
    | split
    | (intro; try dsimp only))

theorem keeps_forgetSector {m : Nat} (hm : sub 0x140000 m) {s t : State} {a0 : _} (h : Keeps m s t) : Keeps m s (forgetSector a0 t) := by
  unfold forgetSector
  try dsimp only
  repeat' (first
    | with_reducible assumption
    | exact sub_trans (by decide) hm
    | with_reducible apply keeps_updFws (a := 0x140000)
    | ((with_reducible apply SameFws.mk) <;> intro b <;> first | exact absurd b (by decide) | rfl)
    | with_reducible apply keeps_dropRing
    | with_reducible apply Keeps.foldl
    | with_reducible apply Keeps.foldr
    | split
    | (intro; try dsimp only))

theorem keeps_execSectorErase {m : Nat} (hm : sub 0x1c0000 m) {s t : State} {a0 a1 : _} (h : Keeps m s t) : KeepsOut m s (execSectorErase a0 a1 t) := by
  unfold execSectorErase
  try dsimp only
  repeat' (first
    | with_reducible assumption
    | exact sub_trans (by decide) hm
    | with_reducible apply Keeps.next
    | with_reducible apply keeps_cmdBusy
    | with_reducible apply keeps_cmdResult
    | with_reducible apply keeps_beginErase
    | with_reducible apply keeps_forgetSector
    | with_reducible apply Keeps.foldl
    | with_reducible apply Keeps.foldr
    | split)

theorem keeps_execPageProgram {m : Nat} (hm : sub 0x80004 m) {s t : State} {a0 a1 a2 : _} (h : Keeps m s t) : KeepsOut m s (execPageProgram a0 a1 a2 t) := by
  unfold execPageProgram
  try dsimp only
  repeat' (first
    | with_reducible assumption
    | exact sub_trans (by decide) hm
    | with_reducible apply Keeps.next
    | with_reducible apply keeps_cmdBusy
    | with_reducible apply keeps_cmdResult
    | with_reducible apply keeps_updSector
    | with_reducible apply keeps_dropLines
    | with_reducible apply keeps_beginProgram
    | with_reducible apply Keeps.foldl
    | with_reducible apply Keeps.foldr
    | split)

theorem keeps_fwsCmd {m : Nat} (hm : sub 0x1c0004 m) {s t : State} {a0 a1 : _} (h : Keeps m s t) : Keeps m s (fwsCmd a0 a1 t) := by
  unfold fwsCmd
  try dsimp only
  repeat' (first
    | with_reducible assumption
    | exact sub_trans (by decide) hm
    | with_reducible apply keeps_outcomeState
    | with_reducible apply keeps_execSectorErase
    | with_reducible apply keeps_execPageProgram
    | with_reducible apply keeps_cmdBusy
    | with_reducible apply keeps_cmdResult
    | with_reducible apply Keeps.foldl
    | with_reducible apply Keeps.foldr
    | split)

theorem keeps_writeFws {m : Nat} (hm : sub 0x1c0005 m) {s t : State} {a0 a1 a2 : _} (h : Keeps m s t) : Keeps m s (writeFws a0 a1 a2 t) := by
  unfold writeFws
  try dsimp only
  repeat' (first
    | with_reducible assumption
    | exact sub_trans (by decide) hm
    | with_reducible apply keeps_fwsCmd
    | with_reducible apply keeps_plainWrite
    | with_reducible apply Keeps.foldl
    | with_reducible apply Keeps.foldr
    | split)

theorem keeps_writeEvcMask {m : Nat} (hm : sub 0x40001 m) {s t : State} {a0 a1 : _} (h : Keeps m s t) : Keeps m s (writeEvcMask a0 a1 t) := by
  unfold writeEvcMask
  try dsimp only
  repeat' (first | with_reducible assumption | exact sub_trans (by decide) hm | with_reducible apply keeps_setRegSaved)

theorem keeps_execSwRaise {m : Nat} (hm : sub 0x100009 m) {s t : State} {a0 : _} (h : Keeps m s t) : KeepsOut m s (execSwRaise a0 t) := by
  unfold execSwRaise
  try dsimp only
  repeat' (first
    | with_reducible assumption
    | exact sub_trans (by decide) hm
    | with_reducible apply Keeps.next
    | with_reducible apply keeps_fireSev
    | with_reducible apply Keeps.foldl
    | with_reducible apply Keeps.foldr
    | split)

theorem keeps_writeEvc {m : Nat} (hm : sub 0x140009 m) {s t : State} {a0 a1 : _} (h : Keeps m s t) : Keeps m s (writeEvc a0 a1 t) := by
  unfold writeEvc
  try dsimp only
  repeat' (first
    | with_reducible assumption
    | exact sub_trans (by decide) hm
    | with_reducible apply keeps_writeW1c
    | with_reducible apply keeps_writeEvcMask
    | with_reducible apply keeps_outcomeState
    | with_reducible apply keeps_execSwRaise
    | with_reducible apply keeps_plainWrite
    | with_reducible apply Keeps.foldl
    | with_reducible apply Keeps.foldr
    | split)

theorem keeps_writeEffect {m : Nat} (hm : sub 0x3fffdfffffdffef m) {s t : State} {a0 a1 a2 : _} (h : Keeps m s t) : Keeps m s (writeEffect a0 a1 a2 t) := by
  unfold writeEffect
  try dsimp only
  repeat' (first
    | with_reducible assumption
    | exact sub_trans (by decide) hm
    | with_reducible apply keeps_writeTop
    | with_reducible apply keeps_writeCru
    | with_reducible apply keeps_writeTu
    | with_reducible apply keeps_writeHfe
    | with_reducible apply keeps_writeTiu
    | with_reducible apply keeps_zmSettle
    | with_reducible apply keeps_plainWrite
    | with_reducible apply keeps_writeFlc
    | with_reducible apply keeps_writeClc
    | with_reducible apply keeps_writeRcu
    | with_reducible apply keeps_writeMme
    | with_reducible apply keeps_ckptCfgWrite
    | with_reducible apply keeps_writeIte
    | with_reducible apply keeps_writeBpm
    | with_reducible apply keeps_writeDmc
    | with_reducible apply keeps_writeMgc
    | with_reducible apply keeps_writeFws
    | with_reducible apply keeps_writeEvc
    | with_reducible apply Keeps.foldl
    | with_reducible apply Keeps.foldr
    | split)

theorem keeps_regWriteAt {m : Nat} (hm : sub 0x3fffdfffffdffef m) {s t : State} {a0 a1 a2 : _} (h : Keeps m s t) : Keeps m s (regWriteAt a0 a1 a2 t) := by
  unfold regWriteAt
  try dsimp only
  repeat' (first
    | with_reducible assumption
    | exact sub_trans (by decide) hm
    | with_reducible apply keeps_writeEffect
    | with_reducible apply Keeps.foldl
    | with_reducible apply Keeps.foldr
    | split)

theorem keeps_sirWrites' {m : Nat} (hm : sub 0x3fffdfffffdffef m) {s t : State} {a0 : _} {a1 : List (Nat × Nat)} {a2 a3 : _} (h : Keeps m s t) : Keeps m s (sirWrites a0 a1 a2 a3 t).2 := by
  induction a1 generalizing t a2 a3 with
  | nil => exact h
  | cons a l ih =>
    unfold sirWrites
    split
    · exact h
    · exact ih (keeps_regWriteAt (sub_trans (by decide) hm) h)
theorem keeps_sirWrites {m : Nat} (hm : sub 0x3fffdfffffdffef m) {s t u : State} {a0 a1 a2 a3 x0 : _} (h : Keeps m s t) (e : sirWrites a0 a1 a2 a3 t = (x0, u)) : Keeps m s u := by
  have := keeps_sirWrites' (sub_trans (by decide) hm) (a0 := a0) (a1 := a1) (a2 := a2) (a3 := a3) h
  rwa [e] at this

theorem keeps_execRegWrite {m : Nat} (hm : sub 0x3fffdfffffdffef m) {s t : State} {a0 : _} (h : Keeps m s t) : KeepsOut m s (execRegWrite a0 t) := by
  unfold execRegWrite
  try dsimp only
  repeat' (first
    | with_reducible assumption
    | exact sub_trans (by decide) hm
    | with_reducible apply Keeps.next
    | with_reducible apply keeps_sirRun
    | with_reducible apply keeps_sirFail
    | refine keeps_sirWrites ?_ ?_ (by with_reducible assumption)
    | with_reducible apply keeps_sirWrites'
    | with_reducible apply keeps_sirAccessed
    | with_reducible apply Keeps.foldl
    | with_reducible apply Keeps.foldr
    | split
    | (intro; try dsimp only))

theorem keeps_execRegRmw {m : Nat} (hm : sub 0x3fffdfffffdffef m) {s t : State} {a0 : _} (h : Keeps m s t) : KeepsOut m s (execRegRmw a0 t) := by
  unfold execRegRmw
  try dsimp only
  repeat' (first
    | with_reducible assumption
    | exact sub_trans (by decide) hm
    | with_reducible apply Keeps.next
    | with_reducible apply keeps_sirRun
    | with_reducible apply keeps_sirFail
    | refine keeps_regReadAt ?_ ?_ (by with_reducible assumption)
    | with_reducible apply keeps_regReadAt'
    | with_reducible apply keeps_regWriteAt
    | with_reducible apply keeps_sirAccessed
    | with_reducible apply Keeps.foldl
    | with_reducible apply Keeps.foldr
    | split
    | (intro; try dsimp only))

theorem keeps_execStateReq {m : Nat} (hm : sub 0x14ffc69cdf11bed m) {s t : State} {a0 : _} (h : Keeps m s t) : KeepsOut m s (execStateReq a0 t) := by
  unfold execStateReq
  try dsimp only
  repeat' (first
    | with_reducible assumption
    | exact sub_trans (by decide) hm
    | with_reducible apply Keeps.next
    | with_reducible apply keeps_sirRun
    | with_reducible apply keeps_stateRequest
    | with_reducible apply keeps_sirOk
    | with_reducible apply Keeps.foldl
    | with_reducible apply Keeps.foldr
    | split
    | (intro; try dsimp only))

theorem keeps_sirDone {m : Nat} (hm : sub 0xc5600008 m) {s t : State} {a0 : _} (h : Keeps m s t) : Keeps m s (sirDone a0 t) := by
  unfold sirDone
  try dsimp only
  repeat' (first | with_reducible assumption | exact sub_trans (by decide) hm | with_reducible apply keeps_sirOk)

theorem keeps_execDevReset {m : Nat} (hm : sub 0x1c5600008 m) {s t : State} {a0 : _} (h : Keeps m s t) : KeepsOut m s (execDevReset a0 t) := by
  unfold execDevReset
  try dsimp only
  repeat' (first
    | with_reducible assumption
    | exact sub_trans (by decide) hm
    | with_reducible apply Keeps.next
    | with_reducible apply keeps_sirRun
    | with_reducible apply keeps_sirDone
    | with_reducible apply keeps_updMgc (a := 0x1c5600008)
    | ((with_reducible apply SameMgc.mk) <;> intro b <;> first | exact absurd b (by decide) | rfl)
    | with_reducible apply Keeps.foldl
    | with_reducible apply Keeps.foldr
    | split
    | (intro; try dsimp only))

theorem keeps_execDevResetDelayExpire {m : Nat} (hm : sub 0x3fff9fffffcffef m) {s t : State} (h : Keeps m s t) : KeepsOut m s (execDevResetDelayExpire t) := by
  unfold execDevResetDelayExpire
  try dsimp only
  repeat' (first
    | with_reducible assumption
    | exact sub_trans (by decide) hm
    | with_reducible apply Keeps.next
    | with_reducible apply keeps_deviceReset
    | with_reducible apply Keeps.foldl
    | with_reducible apply Keeps.foldr
    | split)

theorem keeps_execTimeSet {m : Nat} (hm : sub 0xc571000d m) {s t : State} {a0 : _} (h : Keeps m s t) : KeepsOut m s (execTimeSet a0 t) := by
  unfold execTimeSet
  try dsimp only
  repeat' (first
    | with_reducible assumption
    | exact sub_trans (by decide) hm
    | with_reducible apply Keeps.next
    | with_reducible apply keeps_sirRun
    | with_reducible apply keeps_sirDone
    | with_reducible apply keeps_tuEnter
    | with_reducible apply keeps_updTu
    | with_reducible apply Keeps.foldl
    | with_reducible apply Keeps.foldr
    | split
    | (intro; try dsimp only))

theorem keeps_execPortCfg {m : Nat} (hm : sub 0x1025008cf74000d m) {s t : State} {a0 : _} (h : Keeps m s t) : KeepsOut m s (execPortCfg a0 t) := by
  unfold execPortCfg
  try dsimp only
  repeat' (first
    | with_reducible assumption
    | exact sub_trans (by decide) hm
    | with_reducible apply Keeps.next
    | with_reducible apply keeps_sirRun
    | with_reducible apply keeps_loseConn
    | with_reducible apply keeps_updHfe (a := 0x1025008cf74000d)
    | ((with_reducible apply SameHfe.mk) <;> intro b <;> first | exact absurd b (by decide) | rfl)
    | with_reducible apply keeps_saveSetting
    | with_reducible apply keeps_sirDone
    | with_reducible apply keeps_discChanged
    | with_reducible apply Keeps.foldl
    | with_reducible apply Keeps.foldr
    | split
    | (intro; try dsimp only))

theorem keeps_execPortRead {m : Nat} (hm : sub 0xc5600008 m) {s t : State} {a0 : _} (h : Keeps m s t) : KeepsOut m s (execPortRead a0 t) := by
  unfold execPortRead
  try dsimp only
  repeat' (first
    | with_reducible assumption
    | exact sub_trans (by decide) hm
    | with_reducible apply Keeps.next
    | with_reducible apply keeps_sirRun
    | with_reducible apply keeps_sirOk
    | with_reducible apply Keeps.foldl
    | with_reducible apply Keeps.foldr
    | split
    | (intro; try dsimp only))

theorem keeps_execAclAdd {m : Nat} (hm : sub 0xdf640008 m) {s t : State} {a0 : _} (h : Keeps m s t) : KeepsOut m s (execAclAdd a0 t) := by
  unfold execAclAdd
  try dsimp only
  repeat' (first
    | with_reducible assumption
    | exact sub_trans (by decide) hm
    | with_reducible apply Keeps.next
    | with_reducible apply keeps_sirRun
    | with_reducible apply keeps_sirDone
    | with_reducible apply keeps_sirFail
    | with_reducible apply keeps_setAcl
    | with_reducible apply Keeps.foldl
    | with_reducible apply Keeps.foldr
    | split
    | (intro; try dsimp only))

theorem keeps_execAclRemove {m : Nat} (hm : sub 0x1025008df74000d m) {s t : State} {a0 : _} (h : Keeps m s t) : KeepsOut m s (execAclRemove a0 t) := by
  unfold execAclRemove
  try dsimp only
  repeat' (first
    | with_reducible assumption
    | exact sub_trans (by decide) hm
    | with_reducible apply Keeps.next
    | with_reducible apply keeps_sirRun
    | with_reducible apply keeps_sirFail
    | with_reducible apply keeps_setAcl
    | with_reducible apply keeps_sirDone
    | with_reducible apply keeps_tearCtl
    | with_reducible apply Keeps.foldl
    | with_reducible apply Keeps.foldr
    | split
    | (intro; try dsimp only))

theorem keeps_execAclList {m : Nat} (hm : sub 0xc5600008 m) {s t : State} {a0 : _} (h : Keeps m s t) : KeepsOut m s (execAclList a0 t) := by
  unfold execAclList
  try dsimp only
  repeat' (first
    | with_reducible assumption
    | exact sub_trans (by decide) hm
    | with_reducible apply Keeps.next
    | with_reducible apply keeps_sirRun
    | with_reducible apply keeps_sirOk
    | with_reducible apply Keeps.foldl
    | with_reducible apply Keeps.foldr
    | split
    | (intro; try dsimp only))

theorem keeps_nsRecord {m : Nat} (hm : sub 0x8000000000000 m) {s t : State} {a0 a1 a2 a3 : _} (h : Keeps m s t) : Keeps m s (nsRecord a0 a1 a2 a3 t) := by
  unfold nsRecord
  try dsimp only
  repeat' (first | with_reducible assumption | exact sub_trans (by decide) hm | with_reducible apply keeps_issue)

theorem keeps_execNsCreate {m : Nat} (hm : sub 0xc0004dd70000d m) {s t : State} {a0 : _} (h : Keeps m s t) : KeepsOut m s (execNsCreate a0 t) := by
  unfold execNsCreate
  try dsimp only
  repeat' (first
    | with_reducible assumption
    | exact sub_trans (by decide) hm
    | with_reducible apply Keeps.next
    | with_reducible apply keeps_sirRecord
    | with_reducible apply keeps_sirFail
    | with_reducible apply keeps_updNs
    | with_reducible apply keeps_zmSettle
    | with_reducible apply keeps_nsRecord
    | with_reducible apply keeps_sirOk
    | with_reducible apply Keeps.foldl
    | with_reducible apply Keeps.foldr
    | split
    | (intro; try dsimp only))

theorem keeps_onNs {m : Nat} (hm : sub 0xc5600008 m) {s t : State} {a0 a1 : _} {a2 : Nat → Ns → State} (h : Keeps m s t) (h2 : ∀ n x, Keeps m s (a2 n x)) :
    Keeps m s (onNs a0 a1 a2 t) := by
  unfold onNs
  dsimp only
  split
  · exact h2 _ _
  · exact keeps_sirFail (sub_trans (by decide) hm) h

theorem keeps_execNsDelete {m : Nat} (hm : sub 0xc0004dd70000d m) {s t : State} {a0 : _} (h : Keeps m s t) : KeepsOut m s (execNsDelete a0 t) := by
  unfold execNsDelete
  try dsimp only
  repeat' (first
    | with_reducible assumption
    | exact sub_trans (by decide) hm
    | with_reducible apply Keeps.next
    | with_reducible apply keeps_sirRecord
    | with_reducible apply keeps_onNs
    | with_reducible apply keeps_sirFail
    | with_reducible apply keeps_nsRecord
    | with_reducible apply keeps_sirDone
    | with_reducible apply keeps_zmSettle
    | with_reducible apply keeps_updNs
    | with_reducible apply Keeps.foldl
    | with_reducible apply Keeps.foldr
    | split
    | (intro; try dsimp only))

theorem keeps_moveStripes {m : Nat} (hm : sub 0x3000000000 m) {s t : State} {a0 a1 : _} (h : Keeps m s t) : Keeps m s (moveStripes a0 a1 t) := by
  unfold moveStripes
  try dsimp only
  repeat' (first
    | with_reducible assumption
    | exact sub_trans (by decide) hm
    | with_reducible apply keeps_updBlock
    | with_reducible apply keeps_updStripe
    | with_reducible apply Keeps.foldl
    | with_reducible apply Keeps.foldr
    | split
    | (intro; try dsimp only))

theorem keeps_execNsMove {m : Nat} (hm : sub 0xc0034dd70000d m) {s t : State} {a0 : _} (h : Keeps m s t) : KeepsOut m s (execNsMove a0 t) := by
  unfold execNsMove
  try dsimp only
  repeat' (first
    | with_reducible assumption
    | exact sub_trans (by decide) hm
    | with_reducible apply Keeps.next
    | with_reducible apply keeps_sirRecord
    | with_reducible apply keeps_onNs
    | with_reducible apply keeps_sirFail
    | with_reducible apply keeps_moveStripes
    | with_reducible apply keeps_updNs
    | with_reducible apply keeps_nsRecord
    | with_reducible apply keeps_sirOk
    | with_reducible apply keeps_zmSettle
    | with_reducible apply Keeps.foldl
    | with_reducible apply Keeps.foldr
    | split
    | (intro; try dsimp only))

theorem keeps_execNsResize {m : Nat} (hm : sub 0x80404cd600008 m) {s t : State} {a0 : _} (h : Keeps m s t) : KeepsOut m s (execNsResize a0 t) := by
  unfold execNsResize
  try dsimp only
  repeat' (first
    | with_reducible assumption
    | exact sub_trans (by decide) hm
    | with_reducible apply Keeps.next
    | with_reducible apply keeps_sirRecord
    | with_reducible apply keeps_onNs
    | with_reducible apply keeps_sirFail
    | with_reducible apply keeps_updNs
    | refine keeps_drawStamp ?_ ?_ (by with_reducible assumption)
    | with_reducible apply keeps_drawStamp'
    | with_reducible apply keeps_updUnit
    | with_reducible apply keeps_sirDone
    | with_reducible apply keeps_nsChanged
    | with_reducible apply keeps_nsRecord
    | with_reducible apply Keeps.foldl
    | with_reducible apply Keeps.foldr
    | split
    | (intro; try dsimp only))

theorem keeps_execNsInfo {m : Nat} (hm : sub 0xc5600008 m) {s t : State} {a0 : _} (h : Keeps m s t) : KeepsOut m s (execNsInfo a0 t) := by
  unfold execNsInfo
  try dsimp only
  repeat' (first
    | with_reducible assumption
    | exact sub_trans (by decide) hm
    | with_reducible apply Keeps.next
    | with_reducible apply keeps_sirRun
    | with_reducible apply keeps_onNs
    | with_reducible apply keeps_sirOk
    | with_reducible apply Keeps.foldl
    | with_reducible apply Keeps.foldr
    | split
    | (intro; try dsimp only))

theorem keeps_execZoneHint {m : Nat} (hm : sub 0xc0108c5600008 m) {s t : State} {a0 : _} (h : Keeps m s t) : KeepsOut m s (execZoneHint a0 t) := by
  unfold execZoneHint
  try dsimp only
  repeat' (first
    | with_reducible assumption
    | exact sub_trans (by decide) hm
    | with_reducible apply Keeps.next
    | with_reducible apply keeps_sirRecord
    | with_reducible apply keeps_onNs
    | with_reducible apply keeps_sirFail
    | with_reducible apply keeps_updTabs (a := 0xc0108c5600008)
    | ((with_reducible apply SameTables.mk) <;> intro b <;> first | exact absurd b (by decide) | rfl)
    | with_reducible apply keeps_issue
    | with_reducible apply keeps_chooseHome
    | with_reducible apply keeps_forgetHome
    | with_reducible apply keeps_sirDone
    | with_reducible apply Keeps.foldl
    | with_reducible apply Keeps.foldr
    | split
    | (intro; try dsimp only))

theorem keeps_execHomeRead {m : Nat} (hm : sub 0xc5600008 m) {s t : State} {a0 : _} (h : Keeps m s t) : KeepsOut m s (execHomeRead a0 t) := by
  unfold execHomeRead
  try dsimp only
  repeat' (first
    | with_reducible assumption
    | exact sub_trans (by decide) hm
    | with_reducible apply Keeps.next
    | with_reducible apply keeps_sirRun
    | with_reducible apply keeps_sirOk
    | with_reducible apply Keeps.foldl
    | with_reducible apply Keeps.foldr
    | split
    | (intro; try dsimp only))

theorem keeps_execShelfClimate {m : Nat} (hm : sub 0x18020cd70100d m) {s t : State} {a0 : _} (h : Keeps m s t) : KeepsOut m s (execShelfClimate a0 t) := by
  unfold execShelfClimate
  try dsimp only
  repeat' (first
    | with_reducible assumption
    | exact sub_trans (by decide) hm
    | with_reducible apply Keeps.next
    | with_reducible apply keeps_sirRun
    | with_reducible apply keeps_sirFail
    | with_reducible apply keeps_sirDone
    | with_reducible apply keeps_darkRecompute
    | with_reducible apply keeps_updRcu (a := 0x18020cd70100d)
    | ((with_reducible apply SameRcu.mk) <;> intro b <;> first | exact absurd b (by decide) | rfl)
    | with_reducible apply Keeps.foldl
    | with_reducible apply Keeps.foldr
    | split
    | (intro; try dsimp only))

theorem keeps_execModelLoad {m : Nat} (hm : sub 0x98000c5600008 m) {s t : State} {a0 : _} (h : Keeps m s t) : KeepsOut m s (execModelLoad a0 t) := by
  unfold execModelLoad
  try dsimp only
  repeat' (first
    | with_reducible assumption
    | exact sub_trans (by decide) hm
    | with_reducible apply Keeps.next
    | with_reducible apply keeps_sirRecord
    | with_reducible apply keeps_updAge
    | with_reducible apply keeps_updRcu (a := 0x98000c5600008)
    | ((with_reducible apply SameRcu.mk) <;> intro b <;> first | exact absurd b (by decide) | rfl)
    | with_reducible apply keeps_sirDone
    | with_reducible apply keeps_issue
    | with_reducible apply Keeps.foldl
    | with_reducible apply Keeps.foldr
    | split
    | (intro; try dsimp only))

theorem keeps_execFwDownload {m : Nat} (hm : sub 0xc5680008 m) {s t : State} {a0 : _} (h : Keeps m s t) : KeepsOut m s (execFwDownload a0 t) := by
  unfold execFwDownload
  try dsimp only
  repeat' (first
    | with_reducible assumption
    | exact sub_trans (by decide) hm
    | with_reducible apply Keeps.next
    | with_reducible apply keeps_sirRun
    | with_reducible apply keeps_sirFail
    | with_reducible apply keeps_sirDone
    | with_reducible apply keeps_stageBytes
    | with_reducible apply Keeps.foldl
    | with_reducible apply Keeps.foldr
    | split
    | (intro; try dsimp only))

theorem keeps_execFwCommit {m : Nat} (hm : sub 0x1cd78000d m) {s t : State} {a0 : _} (h : Keeps m s t) : KeepsOut m s (execFwCommit a0 t) := by
  unfold execFwCommit
  try dsimp only
  repeat' (first
    | with_reducible assumption
    | exact sub_trans (by decide) hm
    | with_reducible apply Keeps.next
    | with_reducible apply keeps_sirRun
    | with_reducible apply keeps_sirFail
    | with_reducible apply keeps_commitStart
    | with_reducible apply Keeps.foldl
    | with_reducible apply Keeps.foldr
    | split
    | (intro; try dsimp only))

theorem keeps_protSet' {m : Nat} (hm : sub 0x18001d m) {s t : State} {a0 a1 : _} (h : Keeps m s t) : Keeps m s (protSet a0 a1 t).2.2 := by
  unfold protSet
  dsimp only
  repeat' split
  all_goals try dsimp only
  all_goals first
    | exact h
    | (show Keeps m s (fire _ _ _); exact keeps_fire (sub_trans (by decide) hm) (keeps_updFws (a := 0x18001d) hm (fun _ => by apply SameFws.mk <;> intro b <;> first | exact absurd b (by decide) | rfl) (fun _ hm => hm) h))
    | exact keeps_updFws (a := 0x18001d) hm (fun _ => by apply SameFws.mk <;> intro b <;> first | exact absurd b (by decide) | rfl) (fun _ hm => hm) h
    | (show Keeps m s (fire _ _ _); refine keeps_fire (sub_trans (by decide) hm) ?_; exact h.step' hm (by apply Same.mk <;> intro b <;> first | exact absurd b (by decide) | rfl) ⟨rfl, rfl, fun _ => rfl, Nat.le_refl _, List.suffix_refl _, id, id, id, id, id, id⟩)
theorem keeps_protSet {m : Nat} (hm : sub 0x18001d m) {s t u : State} {a0 a1 x0 x1 : _} (h : Keeps m s t) (e : protSet a0 a1 t = (x0, x1, u)) : Keeps m s u := by
  have := keeps_protSet' (sub_trans (by decide) hm) (a0 := a0) (a1 := a1) h
  rwa [e] at this

theorem keeps_execProtSet {m : Nat} (hm : sub 0xc578001d m) {s t : State} {a0 : _} (h : Keeps m s t) : KeepsOut m s (execProtSet a0 t) := by
  unfold execProtSet
  try dsimp only
  repeat' (first
    | with_reducible assumption
    | exact sub_trans (by decide) hm
    | with_reducible apply Keeps.next
    | with_reducible apply keeps_sirRun
    | refine keeps_protSet ?_ ?_ (by with_reducible assumption)
    | with_reducible apply keeps_protSet'
    | with_reducible apply keeps_sirAnswer
    | with_reducible apply Keeps.foldl
    | with_reducible apply Keeps.foldr
    | split
    | (intro; try dsimp only))

theorem keeps_eraseStore {m : Nat} (hm : sub 0x80004 m) {s t : State} (h : Keeps m s t) : Keeps m s (eraseStore t) := by
  unfold eraseStore
  try dsimp only
  repeat' (first
    | with_reducible assumption
    | exact sub_trans (by decide) hm
    | refine keeps_drawFree ?_ ?_ (by with_reducible assumption)
    | with_reducible apply keeps_drawFree'
    | with_reducible apply keeps_headSector
    | with_reducible apply keeps_wipeSector
    | with_reducible apply Keeps.foldl
    | with_reducible apply Keeps.foldr
    | split
    | (intro; try dsimp only))

theorem keeps_execProtectionEraseDone {m : Nat} (hm : sub 0x3fff9fffffcffef m) {s t : State} (h : Keeps m s t) : KeepsOut m s (execProtectionEraseDone t) := by
  unfold execProtectionEraseDone
  try dsimp only
  repeat' (first
    | with_reducible assumption
    | exact sub_trans (by decide) hm
    | with_reducible apply Keeps.next
    | with_reducible apply keeps_eraseStore
    | with_reducible apply keeps_updFws (a := 0x3fff9fffffcffef)
    | ((with_reducible apply SameFws.mk) <;> intro b <;> first | exact absurd b (by decide) | rfl)
    | with_reducible apply keeps_updEvc
    | with_reducible apply keeps_deviceReset
    | with_reducible apply keeps_fire
    | with_reducible apply Keeps.foldl
    | with_reducible apply Keeps.foldr
    | split
    | (intro; try dsimp only))

theorem keeps_execHealthRead {m : Nat} (hm : sub 0xc5600008 m) {s t : State} {a0 : _} (h : Keeps m s t) : KeepsOut m s (execHealthRead a0 t) := by
  unfold execHealthRead
  try dsimp only
  repeat' (first
    | with_reducible assumption
    | exact sub_trans (by decide) hm
    | with_reducible apply Keeps.next
    | with_reducible apply keeps_sirRun
    | with_reducible apply keeps_sirOk
    | with_reducible apply Keeps.foldl
    | with_reducible apply Keeps.foldr
    | split
    | (intro; try dsimp only))

theorem keeps_execActivationAbandon {m : Nat} (hm : sub 0x14ffc69cdf91bed m) {s t : State} {a0 : _} (h : Keeps m s t) : KeepsOut m s (execActivationAbandon a0 t) := by
  unfold execActivationAbandon
  try dsimp only
  repeat' (first
    | with_reducible assumption
    | exact sub_trans (by decide) hm
    | with_reducible apply Keeps.next
    | with_reducible apply keeps_releaseHeld
    | with_reducible apply keeps_abandonActivation
    | with_reducible apply Keeps.foldl
    | with_reducible apply Keeps.foldr
    | split)

theorem keeps_execProbationEnd {m : Nat} (hm : sub 0x100080004 m) {s t : State} (h : Keeps m s t) : KeepsOut m s (execProbationEnd t) := by
  unfold execProbationEnd
  try dsimp only
  repeat' (first
    | with_reducible assumption
    | exact sub_trans (by decide) hm
    | with_reducible apply Keeps.next
    | with_reducible apply keeps_updMgc (a := 0x100080004)
    | ((with_reducible apply SameMgc.mk) <;> intro b <;> first | exact absurd b (by decide) | rfl)
    | with_reducible apply keeps_appendRecord
    | with_reducible apply Keeps.foldl
    | with_reducible apply Keeps.foldr
    | split
    | (intro; try dsimp only))

theorem keeps_endStoreOp {m : Nat} (hm : sub 0x80000 m) {s t : State} {a0 a1 a2 : _} (h : Keeps m s t) : Keeps m s (endStoreOp a0 a1 a2 t) := by
  unfold endStoreOp
  try dsimp only
  repeat' (first
    | with_reducible assumption
    | exact sub_trans (by decide) hm
    | with_reducible apply keeps_updFws (a := 0x80000)
    | ((with_reducible apply SameFws.mk) <;> intro b <;> first | exact absurd b (by decide) | rfl)
    | with_reducible apply Keeps.foldl
    | with_reducible apply Keeps.foldr
    | split
    | (intro; try dsimp only))

theorem keeps_markBad {m : Nat} (hm : sub 0x18000d m) {s t : State} {a0 : _} (h : Keeps m s t) : Keeps m s (markBad a0 t) := by
  unfold markBad
  try dsimp only
  repeat' (first
    | with_reducible assumption
    | exact sub_trans (by decide) hm
    | with_reducible apply keeps_updSector
    | with_reducible apply keeps_fire
    | with_reducible apply Keeps.foldl
    | with_reducible apply Keeps.foldr
    | split)

theorem keeps_hbEraseAhead {m : Nat} (hm : sub 0x180000 m) {s t : State} (h : Keeps m s t) : Keeps m s (hbEraseAhead t) := by
  unfold hbEraseAhead
  try dsimp only
  repeat' (first
    | with_reducible assumption
    | exact sub_trans (by decide) hm
    | with_reducible apply keeps_beginErase
    | with_reducible apply keeps_dropRing
    | with_reducible apply Keeps.foldl
    | with_reducible apply Keeps.foldr
    | split)

theorem keeps_hbSectorFail {m : Nat} (hm : sub 0x18000d m) {s t : State} {a0 a1 : _} (h : Keeps m s t) : Keeps m s (hbSectorFail a0 a1 t) := by
  unfold hbSectorFail
  try dsimp only
  repeat' (first
    | with_reducible assumption
    | exact sub_trans (by decide) hm
    | with_reducible apply keeps_latchSource
    | with_reducible apply keeps_updSector
    | with_reducible apply keeps_updEvc
    | with_reducible apply keeps_dropRing
    | with_reducible apply keeps_fire
    | with_reducible apply keeps_hbEraseAhead
    | with_reducible apply Keeps.foldl
    | with_reducible apply Keeps.foldr
    | split
    | (intro; try dsimp only))

theorem keeps_jobStep {m : Nat} (hm : sub 0x80000 m) {s t : State} {a0 : _} (h : Keeps m s t) : Keeps m s (jobStep a0 t) := by
  unfold jobStep
  try dsimp only
  repeat' (first
    | with_reducible assumption
    | exact sub_trans (by decide) hm
    | with_reducible apply keeps_updFws (a := 0x80000)
    | ((with_reducible apply SameFws.mk) <;> intro b <;> first | exact absurd b (by decide) | rfl)
    | with_reducible apply Keeps.foldl
    | with_reducible apply Keeps.foldr
    | split
    | (intro; try dsimp only))

theorem keeps_execSectorEraseDone {m : Nat} (hm : sub 0x1cd78000d m) {s t : State} {a0 a1 : _} (h : Keeps m s t) : KeepsOut m s (execSectorEraseDone a0 a1 t) := by
  unfold execSectorEraseDone
  try dsimp only
  repeat' (first
    | with_reducible assumption
    | exact sub_trans (by decide) hm
    | with_reducible apply Keeps.next
    | with_reducible apply keeps_updFws (a := 0x1cd78000d)
    | ((with_reducible apply SameFws.mk) <;> intro b <;> first | exact absurd b (by decide) | rfl)
    | with_reducible apply keeps_endStoreOp
    | with_reducible apply keeps_headSector
    | with_reducible apply keeps_markBad
    | with_reducible apply keeps_updEvc
    | with_reducible apply keeps_retryBad
    | with_reducible apply keeps_jobAdvance
    | with_reducible apply keeps_hbSectorFail
    | with_reducible apply keeps_jobStep
    | with_reducible apply keeps_updSector
    | with_reducible apply Keeps.foldl
    | with_reducible apply Keeps.foldr
    | split
    | (intro; try dsimp only))

theorem keeps_hbPageDone {m : Nat} (hm : sub 0x180000 m) {s t : State} (h : Keeps m s t) : Keeps m s (hbPageDone t) := by
  unfold hbPageDone
  try dsimp only
  repeat' (first
    | with_reducible assumption
    | exact sub_trans (by decide) hm
    | with_reducible apply keeps_ringAdd
    | with_reducible apply keeps_updEvc
    | with_reducible apply keeps_hbEraseAhead
    | with_reducible apply Keeps.foldl
    | with_reducible apply Keeps.foldr
    | split
    | (intro; try dsimp only))

theorem keeps_execPageProgramDone {m : Nat} (hm : sub 0x1cd78000d m) {s t : State} {a0 a1 : _} (h : Keeps m s t) : KeepsOut m s (execPageProgramDone a0 a1 t) := by
  unfold execPageProgramDone
  try dsimp only
  repeat' (first
    | with_reducible assumption
    | exact sub_trans (by decide) hm
    | with_reducible apply Keeps.next
    | with_reducible apply keeps_updFws (a := 0x1cd78000d)
    | ((with_reducible apply SameFws.mk) <;> intro b <;> first | exact absurd b (by decide) | rfl)
    | with_reducible apply keeps_endStoreOp
    | with_reducible apply keeps_putPage
    | with_reducible apply keeps_jobAdvance
    | with_reducible apply keeps_hbPageDone
    | with_reducible apply keeps_hbSectorFail
    | with_reducible apply keeps_jobStep
    | with_reducible apply Keeps.foldl
    | with_reducible apply Keeps.foldr
    | split
    | (intro; try dsimp only))

theorem keeps_execStoreEraseResume {m : Nat} (hm : sub 0x80000 m) {s t : State} (h : Keeps m s t) : KeepsOut m s (execStoreEraseResume t) := by
  unfold execStoreEraseResume
  try dsimp only
  repeat' (first
    | with_reducible assumption
    | exact sub_trans (by decide) hm
    | with_reducible apply Keeps.next
    | with_reducible apply keeps_updFws (a := 0x80000)
    | ((with_reducible apply SameFws.mk) <;> intro b <;> first | exact absurd b (by decide) | rfl)
    | with_reducible apply Keeps.foldl
    | with_reducible apply Keeps.foldr
    | split
    | (intro; try dsimp only))

theorem keeps_execContinuousRead {m : Nat} (hm : sub 0x8000d m) {s t : State} (h : Keeps m s t) : KeepsOut m s (execContinuousRead t) := by
  unfold execContinuousRead
  try dsimp only
  repeat' (first
    | with_reducible assumption
    | exact sub_trans (by decide) hm
    | with_reducible apply Keeps.next
    | refine keeps_creadNext ?_ ?_ (by with_reducible assumption)
    | with_reducible apply keeps_creadNext'
    | with_reducible apply keeps_emit)

theorem keeps_execSettingsCompact {m : Nat} (hm : sub 0xc0004 m) {s t : State} (h : Keeps m s t) : KeepsOut m s (execSettingsCompact t) := by
  unfold execSettingsCompact
  try dsimp only
  repeat' (first
    | with_reducible assumption
    | exact sub_trans (by decide) hm
    | with_reducible apply Keeps.next
    | with_reducible apply keeps_eraseNow
    | refine keeps_drawFree ?_ ?_ (by with_reducible assumption)
    | with_reducible apply keeps_drawFree'
    | with_reducible apply keeps_updSector
    | with_reducible apply keeps_updFws (a := 0xc0004)
    | ((with_reducible apply SameFws.mk) <;> intro b <;> first | exact absurd b (by decide) | rfl)
    | with_reducible apply Keeps.foldl
    | with_reducible apply Keeps.foldr
    | split
    | (intro; try dsimp only))

theorem keeps_execSettingsPageProgram {m : Nat} (hm : sub 0xc0004 m) {s t : State} (h : Keeps m s t) : KeepsOut m s (execSettingsPageProgram t) := by
  unfold execSettingsPageProgram
  try dsimp only
  repeat' (first
    | with_reducible assumption
    | exact sub_trans (by decide) hm
    | with_reducible apply Keeps.next
    | with_reducible apply keeps_eraseNow
    | with_reducible apply keeps_updFws (a := 0xc0004)
    | ((with_reducible apply SameFws.mk) <;> intro b <;> first | exact absurd b (by decide) | rfl)
    | with_reducible apply keeps_writePage
    | with_reducible apply Keeps.foldl
    | with_reducible apply Keeps.foldr
    | split
    | (intro; try dsimp only))

theorem keeps_execEventFire {m : Nat} (hm : sub 0x10000d m) {s t : State} {a0 a1 a2 a3 : _} (h : Keeps m s t) : KeepsOut m s (execEventFire a0 a1 a2 a3 t) := by
  unfold execEventFire
  try dsimp only
  repeat' (first
    | with_reducible assumption
    | exact sub_trans (by decide) hm
    | with_reducible apply Keeps.next
    | with_reducible apply keeps_fireSev
    | with_reducible apply keeps_fire
    | with_reducible apply Keeps.foldl
    | with_reducible apply Keeps.foldr
    | split)

theorem keeps_enterSummary {m : Nat} (hm : sub 0x100000 m) {s t : State} {a0 : _} (hl : t.evc.fifo.length < 60) (h : Keeps m s t) : Keeps m s (enterSummary a0 t) :=
  keeps_updSrc (sub_trans (by decide) hm) (keeps_fifoPush (sub_trans (by decide) hm) (show t.evc.fifo.length < 64 by omega) (keeps_setTokens (sub_trans (by decide) hm) h))

end Sys2Proof.Machine
end

