-- ==== Sys2Proof/Laws/KeepsOpsJ.lean ====
section
/-! SUPPORT. Each operation keeps the rules of `Keeps`, one lemma per operation, callees first (part 10). -/

namespace Sys2Proof.Machine

theorem summaryReady_room {s : State} {src : Nat} (h : summaryReady s src = true) : s.evc.fifo.length < 60 := by
  simp only [summaryReady, Bool.and_eq_true, decide_eq_true_eq] at h
  exact h.2
theorem keeps_execSummaryEnter {m : Nat} (hm : sub 0x100000 m) {s t : State} {a0 : _} (h : Keeps m s t) : KeepsOut m s (execSummaryEnter a0 t) := by
  unfold execSummaryEnter
  split
  · exact (keeps_enterSummary (sub_trans (by decide) hm) (summaryReady_room ‹_›) h).next
  · exact h.next

-- keeps_execSummaryEnter (sub_trans (by decide) hm)
theorem keeps_execEventTokenRefill {m : Nat} (hm : sub 0x100000 m) {s t : State} {a0 : _} (h : Keeps m s t) : KeepsOut m s (execEventTokenRefill a0 t) := by
  unfold execEventTokenRefill
  dsimp only
  split
  · split
    · rename_i hr
      exact (keeps_enterSummary (sub_trans (by decide) hm) (summaryReady_room (src := a0) hr) (keeps_setTokens (sub_trans (by decide) hm) h)).next
    · exact (keeps_setTokens (sub_trans (by decide) hm) h).next
  · exact h.next

theorem keeps_drainHead {m : Nat} (hm : sub 0x8d700009 m) {s t : State} (h : Keeps m s t) : Keeps m s (drainHead t) := by
  unfold drainHead
  split
  · exact h
  · rename_i r rest hf
    extract_lets r1 q1 s1 s2 n q2 s4 occ s5
    have h1 : Keeps m s s1 := h.step' hm (by apply Same.mk <;> intro b <;> first | exact absurd b (by decide) | rfl) ⟨rfl, rfl, id, Nat.le_refl _, List.suffix_refl _, id, id, id, id, fun hm => by
      simp only [State.core, s1] at hm ⊢
      rw [hf] at hm
      simp only [List.length_cons] at hm
      omega, id⟩
    have h2 : Keeps m s s2 := by
      show Keeps m s (if r1.typ = 2 then _ else _)
      split
      · exact keeps_bumpF (sub_trans (by decide) hm) h1
      · exact h1
    have h5 : Keeps m s s5 := by
      show Keeps m s (if 0 < s2.evc.lost ∧ s2.evc.fifo.length < 64 then _ else _)
      split
      · rename_i hr
        have h4 : Keeps m s s4 := Keeps.mk' (a := 0x8d700009) hm h2 rfl (by apply Same.mk <;> intro b <;> first | exact absurd b (by decide) | rfl)
        split
        · exact keeps_fifoPush (sub_trans (by decide) hm) hr.2 h4
        · exact h4
      · exact h2
    split
    · exact keeps_raiseAenOperator (sub_trans (by decide) hm) h5
    · exact h5

theorem keeps_execEventFifoDrain {m : Nat} (hm : sub 0x8d700009 m) {s t : State} (h : Keeps m s t) : KeepsOut m s (execEventFifoDrain t) := by
  unfold execEventFifoDrain
  try dsimp only
  repeat' (first
    | with_reducible assumption
    | exact sub_trans (by decide) hm
    | with_reducible apply Keeps.next
    | with_reducible apply keeps_drainHead
    | with_reducible apply Keeps.foldl
    | with_reducible apply Keeps.foldr
    | split)

theorem sramAdd_len (rs : List HbRec) (s : State) : (sramAdd rs s).evc.sramRing.length ≤ 1024 := by
  simp only [sramAdd, List.length_drop]
  omega
theorem keeps_sramAdd {m : Nat} (hm : sub 0x100000 m) {s t : State} {a0 : _} (h : Keeps m s t) : Keeps m s (sramAdd a0 t) := by
  have hl := sramAdd_len a0 t
  have e : (sramAdd a0 t).core = { t.core with sram := (sramAdd a0 t).evc.sramRing } := rfl
  refine h.step' hm (by unfold sramAdd; apply Same.mk <;> intro b <;> first | exact absurd b (by decide) | rfl) ?_
  rw [e]
  generalize (sramAdd a0 t).evc.sramRing = r at hl ⊢
  exact { Core.Keeps.refl _ with sram := fun _ => hl }

theorem keeps_hbProgram {m : Nat} (hm : sub 0x180004 m) {s t : State} (h : Keeps m s t) : Keeps m s (hbProgram t) := by
  unfold hbProgram
  try dsimp only
  repeat' (first
    | with_reducible assumption
    | exact sub_trans (by decide) hm
    | with_reducible apply keeps_sramAdd
    | with_reducible apply keeps_updEvc
    | with_reducible apply keeps_beginErase
    | with_reducible apply keeps_dropRing
    | with_reducible apply keeps_beginProgram
    | with_reducible apply Keeps.foldl
    | with_reducible apply Keeps.foldr
    | split
    | (intro; try dsimp only))

theorem keeps_execHerdbookPageProgram {m : Nat} (hm : sub 0x180004 m) {s t : State} (h : Keeps m s t) : KeepsOut m s (execHerdbookPageProgram t) := by
  unfold execHerdbookPageProgram
  try dsimp only
  repeat' (first
    | with_reducible assumption
    | exact sub_trans (by decide) hm
    | with_reducible apply Keeps.next
    | with_reducible apply keeps_hbProgram)

theorem keeps_execHerdbookSectorFail {m : Nat} (hm : sub 0x18000d m) {s t : State} {a0 : _} (h : Keeps m s t) : KeepsOut m s (execHerdbookSectorFail a0 t) := by
  unfold execHerdbookSectorFail
  try dsimp only
  repeat' (first
    | with_reducible assumption
    | exact sub_trans (by decide) hm
    | with_reducible apply Keeps.next
    | with_reducible apply keeps_hbSectorFail)

theorem keeps_execMirrorProgram {m : Nat} (hm : sub 0x10000d m) {s t : State} {a0 : _} (h : Keeps m s t) : KeepsOut m s (execMirrorProgram a0 t) := by
  unfold execMirrorProgram
  try dsimp only
  repeat' (first
    | with_reducible assumption
    | exact sub_trans (by decide) hm
    | with_reducible apply Keeps.next
    | with_reducible apply keeps_fire
    | with_reducible apply Keeps.foldl
    | with_reducible apply Keeps.foldr
    | split
    | (with_reducible apply filter_wf)
    | ((with_reducible apply Same.mk) <;> intro b <;> first | exact absurd b (by decide) | rfl)
    | with_reducible refine Keeps.mk' (a := 0x10000d) ?_ ?_ (Eq.refl _) ?_)

theorem keeps_execInputTransition {m : Nat} (hm : sub 0x681820401a04ad m) {s t : State} {a0 a1 : _} (h : Keeps m s t) : KeepsOut m s (execInputTransition a0 a1 t) := by
  unfold execInputTransition
  try dsimp only
  repeat' (first
    | with_reducible assumption
    | exact sub_trans (by decide) hm
    | with_reducible apply Keeps.next
    | with_reducible apply keeps_setPin
    | with_reducible apply keeps_fire
    | with_reducible apply keeps_pwrwarnEnd
    | with_reducible apply Keeps.foldl
    | with_reducible apply Keeps.foldr
    | split)

theorem keeps_execChatterMaskEnd {m : Nat} (hm : sub 0x20000 m) {s t : State} {a0 : _} (h : Keeps m s t) : KeepsOut m s (execChatterMaskEnd a0 t) := by
  unfold execChatterMaskEnd
  try dsimp only
  repeat' (first
    | with_reducible assumption
    | exact sub_trans (by decide) hm
    | with_reducible apply Keeps.next
    | with_reducible apply keeps_setPin
    | with_reducible apply Keeps.foldl
    | with_reducible apply Keeps.foldr
    | split)

theorem keeps_execChatterWindowEnd {m : Nat} (hm : sub 0x20000 m) {s t : State} {a0 : _} (h : Keeps m s t) : KeepsOut m s (execChatterWindowEnd a0 t) := by
  unfold execChatterWindowEnd
  try dsimp only
  repeat' (first
    | with_reducible assumption
    | exact sub_trans (by decide) hm
    | with_reducible apply Keeps.next
    | with_reducible apply keeps_setPin
    | with_reducible apply Keeps.foldl
    | with_reducible apply Keeps.foldr
    | split)

theorem keeps_suspendStore {m : Nat} (hm : sub 0x80000 m) {s t : State} (h : Keeps m s t) : Keeps m s (suspendStore t) := by
  unfold suspendStore
  try dsimp only
  repeat' (first
    | with_reducible assumption
    | exact sub_trans (by decide) hm
    | with_reducible apply keeps_updFws (a := 0x80000)
    | ((with_reducible apply SameFws.mk) <;> intro b <;> first | exact absurd b (by decide) | rfl)
    | with_reducible apply Keeps.foldl
    | with_reducible apply Keeps.foldr
    | split
    | (intro; try dsimp only))

theorem keeps_sealAll {m : Nat} (hm : sub 0x8382000000008 m) {s t : State} {a0 : List Nat} {a2 : Nat} (h : Keeps m s t) : Keeps m s (sealAll a0 t a2) := by
  induction a2 generalizing t a0 with
  | zero => exact h
  | succ n ih =>
    unfold sealAll
    split
    · exact h
    · split
      · exact h
      · exact ih (keeps_sealOn (sub_trans (by decide) hm) h)

theorem keeps_emergencyWrites {m : Nat} (hm : sub 0x48382000000008 m) {s t : State} (h : Keeps m s t) : Keeps m s (emergencyWrites t) := by
  unfold emergencyWrites
  try dsimp only
  repeat' (first
    | with_reducible assumption
    | exact sub_trans (by decide) hm
    | with_reducible apply keeps_issueTime
    | with_reducible apply keeps_abandonCkpt
    | with_reducible apply keeps_updJnl (a := 0x48382000000008)
    | ((with_reducible apply SameJnl.mk) <;> intro b <;> first | exact absurd b (by decide) | rfl)
    | with_reducible apply keeps_sealAll
    | with_reducible apply Keeps.foldl
    | with_reducible apply Keeps.foldr
    | split
    | (intro; try dsimp only))

theorem keeps_suspendDies {m : Nat} (hm : sub 0x180000000008 m) {s t : State} (h : Keeps m s t) : Keeps m s (suspendDies t) := by
  unfold suspendDies
  try dsimp only
  repeat' (first
    | with_reducible assumption
    | exact sub_trans (by decide) hm
    | with_reducible apply keeps_sendSuspend
    | with_reducible apply Keeps.foldl
    | with_reducible apply Keeps.foldr
    | split
    | (intro; try dsimp only))

theorem keeps_powerFailing {m : Nat} (hm : sub 0x14a3828c57002ed m) {s t : State} (h : Keeps m s t) : Keeps m s (powerFailing t) := by
  unfold powerFailing
  try dsimp only
  repeat' (first
    | with_reducible assumption
    | exact sub_trans (by decide) hm
    | with_reducible apply keeps_updTop (a := 0x14a3828c57002ed)
    | ((with_reducible apply SameTop.mk) <;> intro b <;> first | exact absurd b (by decide) | rfl)
    | with_reducible apply keeps_enterDev
    | with_reducible apply keeps_dropWrite
    | with_reducible apply keeps_finishRetry
    | with_reducible apply keeps_fire
    | with_reducible apply keeps_emergencyWrites
    | with_reducible apply keeps_suspendDies
    | with_reducible apply Keeps.foldl
    | with_reducible apply Keeps.foldr
    | split
    | (intro; try dsimp only))

theorem keeps_pwrwarnAccept {m : Nat} (hm : sub 0x14a3829c57806ed m) {s t : State} (h : Keeps m s t) : Keeps m s (pwrwarnAccept t) := by
  unfold pwrwarnAccept
  try dsimp only
  repeat' (first
    | with_reducible assumption
    | exact sub_trans (by decide) hm
    | with_reducible apply keeps_fire
    | with_reducible apply keeps_updTop (a := 0x14a3829c57806ed)
    | ((with_reducible apply SameTop.mk) <;> intro b <;> first | exact absurd b (by decide) | rfl)
    | with_reducible apply keeps_abandonActivation
    | with_reducible apply keeps_suspendStore
    | with_reducible apply keeps_powerFailing
    | with_reducible apply keeps_suspendDies
    | with_reducible apply Keeps.foldl
    | with_reducible apply Keeps.foldr
    | split
    | (intro; try dsimp only))

theorem keeps_execInputFilterChange {m : Nat} (hm : sub 0x16a3829c57a06ed m) {s t : State} {a0 : _} (h : Keeps m s t) : KeepsOut m s (execInputFilterChange a0 t) := by
  unfold execInputFilterChange
  try dsimp only
  repeat' (first
    | with_reducible assumption
    | exact sub_trans (by decide) hm
    | with_reducible apply Keeps.next
    | with_reducible apply keeps_setPin
    | with_reducible apply keeps_pwrwarnEnd
    | with_reducible apply keeps_pwrwarnAccept
    | with_reducible apply Keeps.foldl
    | with_reducible apply Keeps.foldr
    | split)

theorem keeps_thermTrip {m : Nat} (hm : sub 0x3fff9ffffffffeb m) {s t : State} {a0 : _} (h : Keeps m s t) : Keeps m s (thermTrip a0 t) := by
  unfold thermTrip
  try dsimp only
  repeat' (first
    | with_reducible assumption
    | exact sub_trans (by decide) hm
    | with_reducible apply keeps_powerOff
    | with_reducible apply keeps_emit
    | with_reducible apply keeps_updPad)

theorem keeps_holdSettle {m : Nat} (hm : sub 0x12000d m) {s t : State} {a0 : _} (h : Keeps m s t) : Keeps m s (holdSettle a0 t) := by
  unfold holdSettle
  try dsimp only
  repeat' (first
    | with_reducible assumption
    | exact sub_trans (by decide) hm
    | with_reducible apply keeps_fire
    | with_reducible apply keeps_updPad
    | with_reducible apply Keeps.foldl
    | with_reducible apply Keeps.foldr
    | split)

theorem keeps_throttleSettle {m : Nat} (hm : sub 0x12000d m) {s t : State} {a0 : _} (h : Keeps m s t) : Keeps m s (throttleSettle a0 t) := by
  unfold throttleSettle
  try dsimp only
  repeat' (first
    | with_reducible assumption
    | exact sub_trans (by decide) hm
    | with_reducible apply keeps_fire
    | with_reducible apply keeps_updPad
    | with_reducible apply Keeps.foldl
    | with_reducible apply Keeps.foldr
    | split)

theorem keeps_execThermalSample {m : Nat} (hm : sub 0x3fff9ffffffffef m) {s t : State} {a0 : _} (h : Keeps m s t) : KeepsOut m s (execThermalSample a0 t) := by
  unfold execThermalSample
  try dsimp only
  repeat' (first
    | with_reducible assumption
    | exact sub_trans (by decide) hm
    | with_reducible apply Keeps.next
    | with_reducible apply keeps_thermTrip
    | with_reducible apply keeps_thresholdSettle
    | with_reducible apply keeps_updPad
    | with_reducible apply keeps_holdSettle
    | with_reducible apply keeps_throttleSettle
    | with_reducible apply Keeps.foldl
    | with_reducible apply Keeps.foldr
    | split)

theorem keeps_tapDrive {m : Nat} (hm : sub 0x20000 m) {s t : State} {a0 a1 : _} (h : Keeps m s t) : Keeps m s (tapDrive a0 a1 t) := by
  unfold tapDrive
  try dsimp only
  repeat' (first
    | with_reducible assumption
    | exact sub_trans (by decide) hm
    | with_reducible apply keeps_updPad
    | with_reducible apply Keeps.foldl
    | with_reducible apply Keeps.foldr
    | split)

theorem keeps_execExtest {m : Nat} (hm : sub 0x20000 m) {s t : State} {a0 : _} (h : Keeps m s t) : KeepsOut m s (execExtest a0 t) := by
  unfold execExtest
  try dsimp only
  repeat' (first
    | with_reducible assumption
    | exact sub_trans (by decide) hm
    | with_reducible apply Keeps.next
    | with_reducible apply keeps_updPad
    | with_reducible apply keeps_tapDrive
    | with_reducible apply Keeps.foldl
    | with_reducible apply Keeps.foldr
    | split)

theorem keeps_execIdcode {m : Nat} (hm : sub 0x20008 m) {s t : State} (h : Keeps m s t) : KeepsOut m s (execIdcode t) := by
  unfold execIdcode
  try dsimp only
  repeat' (first
    | with_reducible assumption
    | exact sub_trans (by decide) hm
    | with_reducible apply Keeps.next
    | with_reducible apply keeps_emit
    | with_reducible apply keeps_updPad)

theorem keeps_execSamplePreload {m : Nat} (hm : sub 0x20000 m) {s t : State} {a0 : _} (h : Keeps m s t) : KeepsOut m s (execSamplePreload a0 t) := by
  unfold execSamplePreload
  try dsimp only
  repeat' (first | with_reducible assumption | exact sub_trans (by decide) hm | with_reducible apply Keeps.next | with_reducible apply keeps_updPad)

theorem keeps_execClamp {m : Nat} (hm : sub 0x20000 m) {s t : State} (h : Keeps m s t) : KeepsOut m s (execClamp t) := by
  unfold execClamp
  try dsimp only
  repeat' (first
    | with_reducible assumption
    | exact sub_trans (by decide) hm
    | with_reducible apply Keeps.next
    | with_reducible apply keeps_tapDrive)

theorem keeps_execHighz {m : Nat} (hm : sub 0x20000 m) {s t : State} (h : Keeps m s t) : KeepsOut m s (execHighz t) := by
  unfold execHighz
  try dsimp only
  repeat' (first
    | with_reducible assumption
    | exact sub_trans (by decide) hm
    | with_reducible apply Keeps.next
    | with_reducible apply keeps_tapDrive)

theorem keeps_execBypass {m : Nat} (hm : sub 0x20000 m) {s t : State} {a0 : _} (h : Keeps m s t) : KeepsOut m s (execBypass a0 t) := by
  unfold execBypass
  try dsimp only
  repeat' (first | with_reducible assumption | exact sub_trans (by decide) hm | with_reducible apply Keeps.next | with_reducible apply keeps_updPad)

theorem keeps_execManufacturingTest {m : Nat} (hm : sub 0x20000 m) {s t : State} {a0 : _} (h : Keeps m s t) : KeepsOut m s (execManufacturingTest a0 t) := by
  unfold execManufacturingTest
  try dsimp only
  repeat' (first
    | with_reducible assumption
    | exact sub_trans (by decide) hm
    | with_reducible apply Keeps.next
    | with_reducible apply keeps_updPad
    | with_reducible apply Keeps.foldl
    | with_reducible apply Keeps.foldr
    | split)

theorem keeps_readOut {m : Nat} (hm : sub 0x10000000209000f m) {s t : State} {a0 : _} (h : Keeps m s t) : Keeps m s (readOut a0 t) := by
  unfold readOut
  try dsimp only
  repeat' (first
    | with_reducible assumption
    | exact sub_trans (by decide) hm
    | with_reducible apply keeps_emit
    | refine keeps_regReadAt ?_ ?_ (by with_reducible assumption)
    | with_reducible apply keeps_regReadAt'
    | with_reducible apply Keeps.foldl
    | with_reducible apply Keeps.foldr
    | split)

theorem keeps_execRegPairLowRead {m : Nat} (hm : sub 0x10000000209000f m) {s t : State} {a0 : _} (h : Keeps m s t) : KeepsOut m s (execRegPairLowRead a0 t) := by
  unfold execRegPairLowRead
  try dsimp only
  repeat' (first
    | with_reducible assumption
    | exact sub_trans (by decide) hm
    | with_reducible apply Keeps.next
    | with_reducible apply keeps_readOut)

theorem keeps_execRegPairHighRead {m : Nat} (hm : sub 0x10000000209000f m) {s t : State} {a0 : _} (h : Keeps m s t) : KeepsOut m s (execRegPairHighRead a0 t) := by
  unfold execRegPairHighRead
  try dsimp only
  repeat' (first
    | with_reducible assumption
    | exact sub_trans (by decide) hm
    | with_reducible apply Keeps.next
    | with_reducible apply keeps_readOut)

theorem keeps_writeIn {m : Nat} (hm : sub 0x3fffdfffffdffef m) {s t : State} {a0 a1 a2 : _} (h : Keeps m s t) : Keeps m s (writeIn a0 a1 a2 t) := by
  unfold writeIn
  try dsimp only
  repeat' (first
    | with_reducible assumption
    | exact sub_trans (by decide) hm
    | with_reducible apply keeps_emit
    | with_reducible apply keeps_regWriteAt
    | with_reducible apply Keeps.foldl
    | with_reducible apply Keeps.foldr
    | split)

theorem keeps_execRegPairHighWrite {m : Nat} (hm : sub 0x3fffdfffffdffef m) {s t : State} {a0 a1 : _} (h : Keeps m s t) : KeepsOut m s (execRegPairHighWrite a0 a1 t) := by
  unfold execRegPairHighWrite
  try dsimp only
  repeat' (first
    | with_reducible assumption
    | exact sub_trans (by decide) hm
    | with_reducible apply Keeps.next
    | with_reducible apply keeps_writeIn)

theorem keeps_execRegPairLowWrite {m : Nat} (hm : sub 0x3fffdfffffdffef m) {s t : State} {a0 a1 : _} (h : Keeps m s t) : KeepsOut m s (execRegPairLowWrite a0 a1 t) := by
  unfold execRegPairLowWrite
  try dsimp only
  repeat' (first
    | with_reducible assumption
    | exact sub_trans (by decide) hm
    | with_reducible apply Keeps.next
    | with_reducible apply keeps_writeIn)

theorem keeps_execRcRead {m : Nat} (hm : sub 0x10000000209000f m) {s t : State} {a0 : _} (h : Keeps m s t) : KeepsOut m s (execRcRead a0 t) := by
  unfold execRcRead
  try dsimp only
  repeat' (first
    | with_reducible assumption
    | exact sub_trans (by decide) hm
    | with_reducible apply Keeps.next
    | with_reducible apply keeps_readOut)

theorem keeps_execW1cWrite {m : Nat} (hm : sub 0x3fffdfffffdffef m) {s t : State} {a0 a1 : _} (h : Keeps m s t) : KeepsOut m s (execW1cWrite a0 a1 t) := by
  unfold execW1cWrite
  try dsimp only
  repeat' (first
    | with_reducible assumption
    | exact sub_trans (by decide) hm
    | with_reducible apply Keeps.next
    | with_reducible apply keeps_writeIn)

theorem keeps_execRegisterWrite {m : Nat} (hm : sub 0x3fffdfffffdffef m) {s t : State} {a0 a1 a2 : _} (h : Keeps m s t) : KeepsOut m s (execRegisterWrite a0 a1 a2 t) := by
  unfold execRegisterWrite
  try dsimp only
  repeat' (first
    | with_reducible assumption
    | exact sub_trans (by decide) hm
    | with_reducible apply Keeps.next
    | with_reducible apply keeps_writeIn)

theorem keeps_execRailsGood {m : Nat} (hm : sub 0x28000 m) {s t : State} (h : Keeps m s t) : KeepsOut m s (execRailsGood t) := by
  unfold execRailsGood
  try dsimp only
  repeat' (first
    | with_reducible assumption
    | exact sub_trans (by decide) hm
    | with_reducible apply Keeps.next
    | with_reducible apply keeps_updCru
    | with_reducible apply keeps_updPad
    | with_reducible apply Keeps.foldl
    | with_reducible apply Keeps.foldr
    | split)

theorem keeps_execSyncCandidateOpen {m : Nat} (hm : sub 0x80000000000 m) {s t : State} {a0 a1 : _} (h : Keeps m s t) : KeepsOut m s (execSyncCandidateOpen a0 a1 t) := by
  unfold execSyncCandidateOpen
  try dsimp only
  repeat' (first
    | with_reducible assumption
    | exact sub_trans (by decide) hm
    | with_reducible apply Keeps.next
    | with_reducible apply keeps_updLink
    | with_reducible apply Keeps.foldl
    | with_reducible apply Keeps.foldr
    | split)

theorem keeps_execPtpDelayReqSend {m : Nat} (hm : sub 0x210000d m) {s t : State} {a0 a1 a2 a3 : _} (h : Keeps m s t) : KeepsOut m s (execPtpDelayReqSend a0 a1 a2 a3 t) := by
  unfold execPtpDelayReqSend
  try dsimp only
  repeat' (first
    | with_reducible assumption
    | exact sub_trans (by decide) hm
    | with_reducible apply Keeps.next
    | with_reducible apply keeps_ptpPush
    | with_reducible apply keeps_emit
    | with_reducible apply Keeps.foldl
    | with_reducible apply Keeps.foldr
    | split)

theorem keeps_execPfcPauseExpire {m : Nat} (hm : sub 0x1400000 m) {s t : State} {a0 a1 : _} (h : Keeps m s t) : KeepsOut m s (execPfcPauseExpire a0 a1 t) := by
  unfold execPfcPauseExpire
  try dsimp only
  repeat' (first
    | with_reducible assumption
    | exact sub_trans (by decide) hm
    | with_reducible apply Keeps.next
    | with_reducible apply keeps_prioResume
    | with_reducible apply Keeps.foldl
    | with_reducible apply Keeps.foldr
    | split)

theorem keeps_execTcpCapsuleCmd {m : Nat} (hm : sub 0x1600008 m) {s t : State} {a0 a1 : _} (h : Keeps m s t) : KeepsOut m s (execTcpCapsuleCmd a0 a1 t) := by
  unfold execTcpCapsuleCmd
  try dsimp only
  repeat' (first
    | with_reducible assumption
    | exact sub_trans (by decide) hm
    | with_reducible apply Keeps.next
    | with_reducible apply keeps_emit
    | with_reducible apply keeps_transmit
    | with_reducible apply keeps_tcpAck
    | with_reducible apply keeps_pushCapsule
    | with_reducible apply Keeps.foldl
    | with_reducible apply Keeps.foldr
    | split)

theorem keeps_execInvalidFabricsCommand {m : Nat} (hm : sub 0x85600008 m) {s t : State} {a0 : _} (h : Keeps m s t) : KeepsOut m s (execInvalidFabricsCommand a0 t) := by
  unfold execInvalidFabricsCommand
  try dsimp only
  repeat' (first
    | with_reducible assumption
    | exact sub_trans (by decide) hm
    | with_reducible apply Keeps.next
    | with_reducible apply keeps_finishErr
    | with_reducible apply Keeps.foldl
    | with_reducible apply Keeps.foldr
    | split)

theorem keeps_execZoneSendInvalidAction {m : Nat} (hm : sub 0x85600008 m) {s t : State} {a0 : _} (h : Keeps m s t) : KeepsOut m s (execZoneSendInvalidAction a0 t) := by
  unfold execZoneSendInvalidAction
  try dsimp only
  repeat' (first
    | with_reducible assumption
    | exact sub_trans (by decide) hm
    | with_reducible apply Keeps.next
    | with_reducible apply keeps_failIo
    | with_reducible apply Keeps.foldl
    | with_reducible apply Keeps.foldr
    | split)

theorem keeps_execHdrEntry {m : Nat} (hm : sub 0x200000000 m) {s t : State} (h : Keeps m s t) : KeepsOut m s (execHdrEntry t) := by
  unfold execHdrEntry
  try dsimp only
  repeat' (first
    | with_reducible assumption
    | exact sub_trans (by decide) hm
    | with_reducible apply Keeps.next
    | with_reducible apply keeps_updMgc (a := 0x200000000)
    | ((with_reducible apply SameMgc.mk) <;> intro b <;> first | exact absurd b (by decide) | rfl)
    | with_reducible apply Keeps.foldl
    | with_reducible apply Keeps.foldr
    | split
    | (intro; try dsimp only))

theorem keeps_execHdrExitPattern {m : Nat} (hm : sub 0x200000000 m) {s t : State} (h : Keeps m s t) : KeepsOut m s (execHdrExitPattern t) := by
  unfold execHdrExitPattern
  try dsimp only
  repeat' (first
    | with_reducible assumption
    | exact sub_trans (by decide) hm
    | with_reducible apply Keeps.next
    | with_reducible apply keeps_updMgc (a := 0x200000000)
    | ((with_reducible apply SameMgc.mk) <;> intro b <;> first | exact absurd b (by decide) | rfl)
    | with_reducible apply Keeps.foldl
    | with_reducible apply Keeps.foldr
    | split
    | (intro; try dsimp only))

theorem keeps_execUnsupportedCcc {m : Nat} (hm : sub 0x8 m) {s t : State} {a0 a1 : _} (h : Keeps m s t) : KeepsOut m s (execUnsupportedCcc a0 a1 t) := by
  unfold execUnsupportedCcc
  try dsimp only
  repeat' (first
    | with_reducible assumption
    | exact sub_trans (by decide) hm
    | with_reducible apply Keeps.next
    | with_reducible apply keeps_emit
    | with_reducible apply Keeps.foldl
    | with_reducible apply Keeps.foldr
    | split)

theorem keeps_execRnrRetryTimer {m : Nat} (hm : sub 0x1025008cd70000d m) {s t : State} {a0 : _} (h : Keeps m s t) : KeepsOut m s (execRnrRetryTimer a0 t) := by
  unfold execRnrRetryTimer
  try dsimp only
  repeat' (first
    | with_reducible assumption
    | exact sub_trans (by decide) hm
    | with_reducible apply Keeps.next
    | with_reducible apply keeps_loseConn
    | with_reducible apply keeps_resendConn
    | with_reducible apply keeps_updConn
    | with_reducible apply Keeps.foldl
    | with_reducible apply Keeps.foldr
    | split)

theorem keeps_execStoreEraseSuspend {m : Nat} (hm : sub 0x80000 m) {s t : State} (h : Keeps m s t) : KeepsOut m s (execStoreEraseSuspend t) := by
  unfold execStoreEraseSuspend
  try dsimp only
  repeat' (first
    | with_reducible assumption
    | exact sub_trans (by decide) hm
    | with_reducible apply Keeps.next
    | with_reducible apply keeps_updFws (a := 0x80000)
    | ((with_reducible apply SameFws.mk) <;> intro b <;> first | exact absurd b (by decide) | rfl)
    | with_reducible apply Keeps.foldl
    | with_reducible apply Keeps.foldr
    | split
    | (intro; try dsimp only))

theorem keeps_failReads {m : Nat} (hm : sub 0x780000000008 m) {s t : State} {a0 : _} (h : Keeps m s t) : Keeps m s (failReads a0 t) := by
  unfold failReads
  try dsimp only
  repeat' (first
    | with_reducible assumption
    | exact sub_trans (by decide) hm
    | with_reducible apply keeps_toL5
    | with_reducible apply Keeps.foldl
    | with_reducible apply Keeps.foldr
    | split
    | (intro; try dsimp only))

theorem keeps_dropHeldOf {m : Nat} (hm : sub 0x10040000010000d m) {s t : State} {a0 : _} (h : Keeps m s t) : Keeps m s (dropHeldOf a0 t) := by
  unfold dropHeldOf
  try dsimp only
  repeat' (first
    | with_reducible assumption
    | exact sub_trans (by decide) hm
    | with_reducible apply keeps_dropHeld
    | with_reducible apply Keeps.foldl
    | with_reducible apply Keeps.foldr
    | split
    | (intro; try dsimp only))

end Sys2Proof.Machine
end

