-- ==== Sys2Proof/Laws/Exec.lean ====
section
/-! SUPPORT. What a command can change, by its mask; and that it keeps the rules of `Keeps`. -/

namespace Sys2Proof.Machine

/-- The parts of the state (the bits of `Same`) that a command may change. -/
def execMask (c : Instr) : Nat :=
  match c with
  | .porstNAssert .. => 0x3fff9ffffffffe3
  | .porstNRelease .. => 0x42d280ad
  | .railFail .. => 0x3fff9ffffffffe3
  | .bootSlotSelect => 0x810803121a400d
  | .signatureCheckDone => 0x80000d1800d
  | .dramTrainingDone .. => 0x30000000014800d
  | .adminServedPoint => 0x4000004010a0ad
  | .readsServedPoint => 0x17ffffc9d75700d
  | .openRowReplayDone => 0x14f8438dd7010ad
  | .quiesceRequest => 0x14ffc69cdf11bed
  | .retainedRequest => 0x14ffc69cdf11bed
  | .resumeRequest => 0x14ffc69cdf11bed
  | .quiesceDrainExpire => 0x14f3c688570080d
  | .quiesceComplete => 0x14f7c688df10a4d
  | .retainedEntry => 0x201a800401002ed
  | .retainedResumeDone .. => 0x32ffc38ddf100ed
  | .pwrwarnStuck => 0x681820401a04ad
  | .pwrwarnUnstick => 0x20400
  | .timeMark => 0x8000000000000
  | .skimDueWrite .. => 0x8d74100d
  | .modeApply => 0x1025008cff1000d
  | .modeSave .. => 0x40000
  | .modeForget .. => 0x40000
  | .laneLossOfLockTimeout .. => 0x2d1000d
  | .laneUncorrInterval .. => 0x3d1000d
  | .portTrainingDone .. => 0x8ff1000d
  | .narrowCandidateTimeout .. => 0x2d1000d
  | .portRetrainTimer .. => 0xd1000d
  | .portWiden .. => 0xd1000d
  | .autoWidenTimer .. => 0xd1000d
  | .nextHopResolved .. => 0x2200008
  | .nextHopTimeout .. => 0x1025008cd70000d
  | .frameReceive .. => 0x1400008
  | .pfcXoffRepeat .. => 0x1000008
  | .pfcXon .. => 0x1400008
  | .pfcFrameReceive .. => 0x1400000
  | .pfcStormDetect .. => 0x150000d
  | .pfcStormEnd .. => 0x400000
  | .rocePacketReceive .. => 0x1025008cd70000d
  | .cnpReceive .. => 0x1200000
  | .rateRecoverTimer .. => 0x200000
  | .rdmaAckTimeout .. => 0x1025008cd70000d
  | .rdmaConnectRequest .. => 0x1030000d
  | .tcpSyn .. => 0x1030000d
  | .tcpIcreq .. => 0x1025008cd70000d
  | .h2cDataPdu .. => 0x10200088570000d
  | .tcpFatalPdu .. => 0x1025008cd70000d
  | .tcpRetransmitTimeout .. => 0x1000000
  | .ptpMessageReceive .. => 0x211000d
  | .ptpTsRead => 0x2000008
  | .portCntClear .. => 0x1000000
  | .tenantCtlWrite .. => 0x1825008ff74000d
  | .taskQuotaWrite .. => 0x20040001
  | .zoneQuotaWrite .. => 0x20040001
  | .connQuotaWrite .. => 0x30040001
  | .diesetWrite .. => 0x30040001
  | .connBucketRefill => 0x10000000
  | .bwInterval .. => 0x12000000
  | .powerEntitlementRecompute => 0x10000000
  | .powerTokenGrant .. => 0x1061c200010000d
  | .commandFetch .. => 0x95600009
  | .getLogPage .. => 0x8d60000c
  | .identify .. => 0x85600008
  | .abort .. => 0x10250088d70000d
  | .setFeatures .. => 0x20008d70000d
  | .getFeatures .. => 0x8560000c
  | .asyncEventRequest .. => 0x8d600008
  | .asyncEventRaise .. => 0x8d600008
  | .firmwareImageDownload .. => 0x85680008
  | .firmwareCommit .. => 0x1cd78000d
  | .namespaceAttachment .. => 0x48d600008
  | .keepAlive .. => 0x8d600008
  | .keepAliveTimeout .. => 0x1025008cd70000d
  | .formatNvm .. => 0x8000085600008
  | .sanitize .. => 0x8000085600008
  | .sanitizeBlockDone .. => 0xc00a49d70000d
  | .sanitizeExitFailure .. => 0x8085600008
  | .sirsisInbandSubmit .. => 0xc5600009
  | .sirsisInbandFetch .. => 0x85600008
  | .invalidAdminOpcode .. => 0x85600008
  | .connect .. => 0x8d600008
  | .propertySet .. => 0x8d600008
  | .shutdownNotification .. => 0xa3c640810000d
  | .propertyGet .. => 0x85600008
  | .disconnect .. => 0x1025008cd70000d
  | .flush .. => 0x1a7c648570000d
  | .write .. => 0x10e1478bd70000d
  | .read .. => 0xa7c648570000d
  | .writeZeroes .. => 0x10e1478bd70000d
  | .datasetManagement .. => 0x8040485600008
  | .verify .. => 0xa7c648570000d
  | .zoneAppend .. => 0x10e1478bd70000d
  | .zoneOpen .. => 0x10e147cbd70000d
  | .zoneClose .. => 0x10e147cbd70000d
  | .zoneFinish .. => 0x10e147cbd70000d
  | .zoneReset .. => 0x10e147cbd70000d
  | .zoneOffline .. => 0x10e147cbd70000d
  | .reportZones .. => 0x85600008
  | .invalidIoOpcode .. => 0x85600008
  | .dataPhaseStart .. => 0x10204001570000d
  | .writeCommit .. => 0x11e3c7c9d70000d
  | .readTransferStart .. => 0x9d70000d
  | .readTransferDone .. => 0x95600008
  | .dataPhaseTimeout .. => 0x10200088570000d
  | .connectionLoss .. => 0x1025008cd70000d
  | .shrinkFinish .. => 0xc00289d70000d
  | .memberLoss .. => 0x10e10389d70000d
  | .spareReplenish => 0xc00089d70000d
  | .readyListRefill .. => 0x4002000000000
  | .reservationReplace .. => 0xc00289d70000d
  | .rehome .. => 0xc010000000000
  | .logStripeAssemble .. => 0x10a04300010000d
  | .linkTrainingDone .. => 0x12fff389d74000d
  | .storedTrainingFallback .. => 0x12ffc389d70000d
  | .lockLossTimeout .. => 0x8000010000d
  | .retrainTimeout .. => 0x12ffc389d70000d
  | .linkRetryTimer .. => 0x80000000000
  | .linkFail .. => 0x12ffc389d70000d
  | .linkGraceExpire .. => 0x12ffc389d70000d
  | .linkDisable .. => 0x12ffc389d70000d
  | .linkEnable .. => 0x80000000001
  | .linkRetrainRequest .. => 0x8000010000d
  | .linkFullTrainRequest .. => 0x80000000000
  | .flashFrameReceive .. => 0x8000010000d
  | .flashNakReceive .. => 0x8000010000d
  | .flashReplayTimeout .. => 0x8000010000d
  | .maintFrameReceive .. => 0x12ffd389d70000d
  | .maintFrameSend .. => 0x8
  | .dieLoss .. => 0x12ffd389d70000d
  | .dieOpTimeout .. => 0x12ffd389d70000d
  | .readPageDone .. => 0x12ffd389d70000d
  | .readLevelDone .. => 0x12ffd389d70000d
  | .programFoggyDone .. => 0x12ffd389d70000d
  | .programFineDone .. => 0x12ffd389d70000d
  | .programOneDone .. => 0x12ffd389d70000d
  | .eraseDone .. => 0x12ffd389d70000d
  | .eraseVerifyDone .. => 0x12ffd389d70000d
  | .suspendDone .. => 0x180000000008
  | .resumeDone .. => 0x12ffd389d70000d
  | .identifyDone .. => 0x12fff389d70000d
  | .readCalDone .. => 0x98000010000d
  | .readDefectsDone .. => 0x8130000000000
  | .dieStatusDone .. => 0x12ffd389d70000d
  | .standbyDone .. => 0x2e28209d70000d
  | .resetDieDone .. => 0x12e7c389d70000d
  | .echoDone .. => 0x0
  | .suspendDeferred .. => 0x180000000008
  | .groupDrainStart .. => 0x2e28209d70000d
  | .groupWake .. => 0x280000000000
  | .groupWakeWrite .. => 0x280000000001
  | .groupWakeTimeout .. => 0x12ffc389d70000d
  | .powerBudgetWrite .. => 0x14000d
  | .codewordDecodeDone .. => 0x10e7d389d70000d
  | .l5Reconstruct .. => 0x400000000000
  | .sampleHoldExpire .. => 0x10040000010000d
  | .exitCntClear .. => 0x400000000001
  | .ageTick => 0x80008d70500d
  | .arrheniusConstantWrite .. => 0x1000000040001
  | .shelfTempWrite .. => 0x1000000040001
  | .shelfTempExpire => 0x1000000000000
  | .darkRecompute => 0x180208d70100d
  | .probeResult .. => 0x1c0208d70100d
  | .pilotReport => 0xc0000010000d
  | .learnResetDie .. => 0x800000000000
  | .learnResetAll => 0x800000000000
  | .rowComplete .. => 0xa041000000000
  | .parkTimeout .. => 0x380000000008
  | .stageHorizon .. => 0xa04600010000d
  | .horizonMiss .. => 0x1000000010000d
  | .coolerBlockReclaim .. => 0xa04600010000d
  | .programFailure .. => 0x10e7c389d70000d
  | .dramCrcMismatch .. => 0x3027808cd70000d
  | .churnStart => 0xc05100010000d
  | .unitRemap .. => 0xc040000000000
  | .blockRelease .. => 0x10e14300010000d
  | .eraseBegin .. => 0xc00209d70000d
  | .blockFree .. => 0x600209d70000d
  | .scanProbe => 0x4780000000008
  | .refreshStart => 0xc003800000000
  | .refreshRemap .. => 0xc04389d70100d
  | .refreshPassComplete => 0x480008d70100d
  | .wearLevelCheck => 0x4000000000000
  | .rebuildRow .. => 0x10e7d300010000d
  | .rebuildReplacementRetry => 0xc00389d70000d
  | .mmeRateWindow .. => 0x4000000000000
  | .mmeFloorWrite .. => 0x40001
  | .journalPageSeal => 0x8382000000008
  | .journalPageAccept .. => 0x17f7ffc9d70080d
  | .journalCopyFail .. => 0x2838200010000d
  | .checkpointStart => 0x4d000000000000
  | .checkpointStartWrite => 0x4d000000040001
  | .checkpointComplete => 0x6d02200010080d
  | .rebaseCopyRow .. => 0x8003800000000
  | .tagCompute .. => 0x18200088570000d
  | .tagCheck .. => 0x8078000410000d
  | .keyWordWrite .. => 0x80000000000000
  | .keyCommit .. => 0x8000000014000d
  | .keyActivate .. => 0x8000000014000d
  | .keyClear .. => 0x8000000014000d
  | .keyActionResult => 0x8000000014000d
  | .bufferAllocate .. => 0x10000000010000d
  | .bufferRelease .. => 0x10000000010000d
  | .bufferHandOver .. => 0x10000000010000d
  | .bufferReference .. => 0x10000000010000d
  | .bufferCancel .. => 0x10000000010000d
  | .freeListRebuildDone .. => 0x10000000010000d
  | .bpmCntClear .. => 0x100000000000001
  | .dramRefresh .. => 0x200000000000004
  | .refreshRatePoll .. => 0x200000000000000
  | .rowHammerRfm .. => 0x20000000010000d
  | .activationWindowEnd => 0x200000000000000
  | .throttleExpire .. => 0x200000000000000
  | .panicAssert .. => 0x200000000000000
  | .panicRelease .. => 0x200000000000000
  | .panicLong .. => 0x10000d
  | .rowCloseTimer .. => 0x200000000000000
  | .dqsTracking .. => 0x200000000000000
  | .zqCalibration .. => 0x200000000000000
  | .monitorWindow .. => 0xd1800d
  | .referenceGood .. => 0x20008000011800d
  | .stoppedClockTrip .. => 0xd1800d
  | .pllLockLoss .. => 0xd1800d
  | .rcCheckWindow .. => 0xd0800d
  | .rcReady => 0x8000
  | .rcTrimWrite .. => 0x8001
  | .switchRetry => 0x8001
  | .clockSwitchDone .. => 0x10800d
  | .rootPllLock => 0x10800d
  | .accPllRelock => 0x200000000008000
  | .doubleFaultSelfRefresh => 0x200000000000000
  | .clockSwitchRequest .. => 0x10800d
  | .deviceReset .. => 0x3fff9fffffcffef
  | .scWatchdogExpire => 0x3fff9fffffcffef
  | .ccWatchdogExpire .. => 0x10000d
  | .trstAssert => 0x20000
  | .tuStep .. => 0x11000d
  | .tuNowRead => 0x10008
  | .ptpServoUpdate .. => 0x100000011000d
  | .ptpSyncTimeout => 0x11000d
  | .holdoverExpire => 0x11000d
  | .loadWindow .. => 0x20010000d
  | .mgmtPortWrite .. => 0x2c5600009
  | .taskGo => 0x2c5600009
  | .taskReplyDone => 0x240000008
  | .entdaa .. => 0x200000000
  | .setdasa .. => 0x200000000
  | .rstdaa => 0x200000000
  | .enec .. => 0x200000000
  | .disec .. => 0x200000000
  | .getpid => 0x8
  | .getbcr => 0x8
  | .getdcr => 0x8
  | .getstatus => 0xc
  | .getmwl => 0x8
  | .nvmeMiBasicRead .. => 0x8
  | .nop .. => 0xc5600008
  | .regRead .. => 0x1000000c769000f
  | .regWrite .. => 0x3fffdfffffdffef
  | .regRmw .. => 0x3fffdfffffdffef
  | .stateReq .. => 0x14ffc69cdf11bed
  | .devReset .. => 0x1c5600008
  | .devResetDelayExpire => 0x3fff9fffffcffef
  | .timeSet .. => 0xc571000d
  | .portCfg .. => 0x1025008cf74000d
  | .portRead .. => 0xc5600008
  | .aclAdd .. => 0xdf640008
  | .aclRemove .. => 0x1025008df74000d
  | .aclList .. => 0xc5600008
  | .nsCreate .. => 0xc0004dd70000d
  | .nsDelete .. => 0xc0004dd70000d
  | .nsMove .. => 0xc0034dd70000d
  | .nsResize .. => 0x80404cd600008
  | .nsInfo .. => 0xc5600008
  | .zoneHint .. => 0xc0108c5600008
  | .homeRead .. => 0xc5600008
  | .shelfClimate .. => 0x18020cd70100d
  | .modelLoad .. => 0x98000c5600008
  | .fwDownload .. => 0xc5680008
  | .fwCommit .. => 0x1cd78000d
  | .protSet .. => 0xc578001d
  | .protectionEraseDone => 0x3fff9fffffcffef
  | .hbRead .. => 0xc5600008
  | .healthRead .. => 0xc5600008
  | .activationPause .. => 0x14ffc6bcdf91bed
  | .activationAbandon .. => 0x14ffc69cdf91bed
  | .probationEnd => 0x100080004
  | .sectorErase .. => 0x1c0000
  | .pageProgram .. => 0x80004
  | .sectorEraseDone .. => 0x1cd78000d
  | .pageProgramDone .. => 0x1cd78000d
  | .storeEraseResume => 0x80000
  | .continuousRead => 0x8000d
  | .settingsCompact => 0xc0004
  | .settingsPageProgram => 0xc0004
  | .eventFire .. => 0x10000d
  | .eventTokenRefill .. => 0x100000
  | .summaryEnter .. => 0x100000
  | .eventFifoDrain => 0x8d700009
  | .herdbookPageProgram => 0x180004
  | .herdbookSectorFail .. => 0x18000d
  | .mirrorProgram .. => 0x10000d
  | .swRaise .. => 0x100009
  | .inputTransition .. => 0x681820401a04ad
  | .chatterMaskEnd .. => 0x20000
  | .chatterWindowEnd .. => 0x20000
  | .inputFilterChange .. => 0x16a3829c57a06ed
  | .thermalSample .. => 0x3fff9ffffffffef
  | .extest .. => 0x20000
  | .idcode => 0x20008
  | .samplePreload .. => 0x20000
  | .clamp => 0x20000
  | .highz => 0x20000
  | .bypass .. => 0x20000
  | .manufacturingTest .. => 0x20000
  | .regPairLowRead .. => 0x10000000209000f
  | .regPairHighRead .. => 0x10000000209000f
  | .regPairHighWrite .. => 0x3fffdfffffdffef
  | .regPairLowWrite .. => 0x3fffdfffffdffef
  | .rcRead .. => 0x10000000209000f
  | .w1cWrite .. => 0x3fffdfffffdffef
  | .registerWrite .. => 0x3fffdfffffdffef
  | .railsGood => 0x28000
  | .syncCandidateOpen .. => 0x80000000000
  | .ptpDelayReqSend .. => 0x210000d
  | .pfcPauseExpire .. => 0x1400000
  | .tcpCapsuleCmd .. => 0x1600008
  | .invalidFabricsCommand .. => 0x85600008
  | .zoneSendInvalidAction .. => 0x85600008
  | .hdrEntry => 0x200000000
  | .hdrExitPattern => 0x200000000
  | .unsupportedCcc .. => 0x8
  | .rnrRetryTimer .. => 0x1025008cd70000d
  | .storeEraseSuspend => 0x80000

/-- A command answers a next state, and changes no part outside its mask. -/
theorem exec_keeps (c : Instr) (s : State) : KeepsOut (execMask c) s (exec c s) := by
  cases c <;> dsimp only [exec, execMask]
  case porstNAssert => with_reducible exact keeps_execPorstNAssert (sub_refl _) (Keeps.refl _ s)
  case porstNRelease => with_reducible exact keeps_execPorstNRelease (sub_refl _) (Keeps.refl _ s)
  case railFail a => with_reducible exact keeps_execRailFail (a0 := a) (sub_refl _) (Keeps.refl _ s)
  case bootSlotSelect => with_reducible exact keeps_execBootSlotSelect (sub_refl _) (Keeps.refl _ s)
  case signatureCheckDone => with_reducible exact keeps_execSignatureCheckDone (sub_refl _) (Keeps.refl _ s)
  case dramTrainingDone => with_reducible exact keeps_execDramTrainingDone (sub_refl _) (Keeps.refl _ s)
  case adminServedPoint => with_reducible exact keeps_execAdminServedPoint (sub_refl _) (Keeps.refl _ s)
  case readsServedPoint => with_reducible exact keeps_execReadsServedPoint (sub_refl _) (Keeps.refl _ s)
  case openRowReplayDone => with_reducible exact keeps_execOpenRowReplayDone (sub_refl _) (Keeps.refl _ s)
  case quiesceRequest => with_reducible exact keeps_execQuiesceRequest (sub_refl _) (Keeps.refl _ s)
  case retainedRequest => with_reducible exact keeps_execRetainedRequest (sub_refl _) (Keeps.refl _ s)
  case resumeRequest => with_reducible exact keeps_execResumeRequest (sub_refl _) (Keeps.refl _ s)
  case quiesceDrainExpire => with_reducible exact keeps_execQuiesceDrainExpire (sub_refl _) (Keeps.refl _ s)
  case quiesceComplete => with_reducible exact keeps_execQuiesceComplete (sub_refl _) (Keeps.refl _ s)
  case retainedEntry => with_reducible exact keeps_execRetainedEntry (sub_refl _) (Keeps.refl _ s)
  case retainedResumeDone => with_reducible exact keeps_execRetainedResumeDone (sub_refl _) (Keeps.refl _ s)
  case pwrwarnStuck => with_reducible exact keeps_execPwrwarnStuck (sub_refl _) (Keeps.refl _ s)
  case pwrwarnUnstick => with_reducible exact keeps_execPwrwarnUnstick (sub_refl _) (Keeps.refl _ s)
  case timeMark => with_reducible exact keeps_execTimeMark (sub_refl _) (Keeps.refl _ s)
  case skimDueWrite => with_reducible exact keeps_execSkimDueWrite (sub_refl _) (Keeps.refl _ s)
  case modeApply => with_reducible exact keeps_execModeApply (sub_refl _) (Keeps.refl _ s)
  case modeSave => with_reducible exact keeps_execModeSave (sub_refl _) (Keeps.refl _ s)
  case modeForget => with_reducible exact keeps_execModeForget (sub_refl _) (Keeps.refl _ s)
  case laneLossOfLockTimeout => with_reducible exact keeps_execLaneLossOfLockTimeout (sub_refl _) (Keeps.refl _ s)
  case laneUncorrInterval => with_reducible exact keeps_execLaneUncorrInterval (sub_refl _) (Keeps.refl _ s)
  case portTrainingDone => with_reducible exact keeps_execPortTrainingDone (sub_refl _) (Keeps.refl _ s)
  case narrowCandidateTimeout => with_reducible exact keeps_execNarrowCandidateTimeout (sub_refl _) (Keeps.refl _ s)
  case portRetrainTimer => with_reducible exact keeps_execPortRetrainTimer (sub_refl _) (Keeps.refl _ s)
  case portWiden => with_reducible exact keeps_execPortWiden (sub_refl _) (Keeps.refl _ s)
  case autoWidenTimer => with_reducible exact keeps_execAutoWidenTimer (sub_refl _) (Keeps.refl _ s)
  case nextHopResolved => with_reducible exact keeps_execNextHopResolved (sub_refl _) (Keeps.refl _ s)
  case nextHopTimeout => with_reducible exact keeps_execNextHopTimeout (sub_refl _) (Keeps.refl _ s)
  case frameReceive => with_reducible exact keeps_execFrameReceive (sub_refl _) (Keeps.refl _ s)
  case pfcXoffRepeat => with_reducible exact keeps_execPfcXoffRepeat (sub_refl _) (Keeps.refl _ s)
  case pfcXon => with_reducible exact keeps_execPfcXon (sub_refl _) (Keeps.refl _ s)
  case pfcFrameReceive => with_reducible exact keeps_execPfcFrameReceive (sub_refl _) (Keeps.refl _ s)
  case pfcStormDetect => with_reducible exact keeps_execPfcStormDetect (sub_refl _) (Keeps.refl _ s)
  case pfcStormEnd => with_reducible exact keeps_execPfcStormEnd (sub_refl _) (Keeps.refl _ s)
  case rocePacketReceive => with_reducible exact keeps_execRocePacketReceive (sub_refl _) (Keeps.refl _ s)
  case cnpReceive => with_reducible exact keeps_execCnpReceive (sub_refl _) (Keeps.refl _ s)
  case rateRecoverTimer => with_reducible exact keeps_execRateRecoverTimer (sub_refl _) (Keeps.refl _ s)
  case rdmaAckTimeout => with_reducible exact keeps_execRdmaAckTimeout (sub_refl _) (Keeps.refl _ s)
  case rdmaConnectRequest => with_reducible exact keeps_execRdmaConnectRequest (sub_refl _) (Keeps.refl _ s)
  case tcpSyn => with_reducible exact keeps_execTcpSyn (sub_refl _) (Keeps.refl _ s)
  case tcpIcreq => with_reducible exact keeps_execTcpIcreq (sub_refl _) (Keeps.refl _ s)
  case h2cDataPdu => with_reducible exact keeps_execH2cDataPdu (sub_refl _) (Keeps.refl _ s)
  case tcpFatalPdu => with_reducible exact keeps_execTcpFatalPdu (sub_refl _) (Keeps.refl _ s)
  case tcpRetransmitTimeout => with_reducible exact keeps_execTcpRetransmitTimeout (sub_refl _) (Keeps.refl _ s)
  case ptpMessageReceive => with_reducible exact keeps_execPtpMessageReceive (sub_refl _) (Keeps.refl _ s)
  case ptpTsRead => with_reducible exact keeps_execPtpTsRead (sub_refl _) (Keeps.refl _ s)
  case portCntClear => with_reducible exact keeps_execPortCntClear (sub_refl _) (Keeps.refl _ s)
  case tenantCtlWrite => with_reducible exact keeps_execTenantCtlWrite (sub_refl _) (Keeps.refl _ s)
  case taskQuotaWrite => with_reducible exact keeps_execTaskQuotaWrite (sub_refl _) (Keeps.refl _ s)
  case zoneQuotaWrite => with_reducible exact keeps_execZoneQuotaWrite (sub_refl _) (Keeps.refl _ s)
  case connQuotaWrite => with_reducible exact keeps_execConnQuotaWrite (sub_refl _) (Keeps.refl _ s)
  case diesetWrite => with_reducible exact keeps_execDiesetWrite (sub_refl _) (Keeps.refl _ s)
  case connBucketRefill => with_reducible exact keeps_execConnBucketRefill (sub_refl _) (Keeps.refl _ s)
  case bwInterval => with_reducible exact keeps_execBwInterval (sub_refl _) (Keeps.refl _ s)
  case powerEntitlementRecompute => with_reducible exact keeps_execPowerEntitlementRecompute (sub_refl _) (Keeps.refl _ s)
  case powerTokenGrant => with_reducible exact keeps_execPowerTokenGrant (sub_refl _) (Keeps.refl _ s)
  case commandFetch => with_reducible exact keeps_execCommandFetch (sub_refl _) (Keeps.refl _ s)
  case getLogPage => with_reducible exact keeps_execGetLogPage (sub_refl _) (Keeps.refl _ s)
  case identify => with_reducible exact keeps_execIdentify (sub_refl _) (Keeps.refl _ s)
  case abort => with_reducible exact keeps_execAbort (sub_refl _) (Keeps.refl _ s)
  case setFeatures => with_reducible exact keeps_execSetFeatures (sub_refl _) (Keeps.refl _ s)
  case getFeatures => with_reducible exact keeps_execGetFeatures (sub_refl _) (Keeps.refl _ s)
  case asyncEventRequest => with_reducible exact keeps_execAsyncEventRequest (sub_refl _) (Keeps.refl _ s)
  case asyncEventRaise => with_reducible exact keeps_execAsyncEventRaise (sub_refl _) (Keeps.refl _ s)
  case firmwareImageDownload => with_reducible exact keeps_execFirmwareImageDownload (sub_refl _) (Keeps.refl _ s)
  case firmwareCommit => with_reducible exact keeps_execFirmwareCommit (sub_refl _) (Keeps.refl _ s)
  case namespaceAttachment => with_reducible exact keeps_execNamespaceAttachment (sub_refl _) (Keeps.refl _ s)
  case keepAlive => with_reducible exact keeps_execKeepAlive (sub_refl _) (Keeps.refl _ s)
  case keepAliveTimeout => with_reducible exact keeps_execKeepAliveTimeout (sub_refl _) (Keeps.refl _ s)
  case formatNvm => with_reducible exact keeps_execFormatNvm (sub_refl _) (Keeps.refl _ s)
  case sanitize => with_reducible exact keeps_execSanitize (sub_refl _) (Keeps.refl _ s)
  case sanitizeBlockDone => with_reducible exact keeps_execSanitizeBlockDone (sub_refl _) (Keeps.refl _ s)
  case sanitizeExitFailure => with_reducible exact keeps_execSanitizeExitFailure (sub_refl _) (Keeps.refl _ s)
  case sirsisInbandSubmit => with_reducible exact keeps_execSirsisInbandSubmit (sub_refl _) (Keeps.refl _ s)
  case sirsisInbandFetch => with_reducible exact keeps_execSirsisInbandFetch (sub_refl _) (Keeps.refl _ s)
  case invalidAdminOpcode => with_reducible exact keeps_execInvalidAdminOpcode (sub_refl _) (Keeps.refl _ s)
  case connect => with_reducible exact keeps_execConnect (sub_refl _) (Keeps.refl _ s)
  case propertySet => with_reducible exact keeps_execPropertySet (sub_refl _) (Keeps.refl _ s)
  case shutdownNotification => with_reducible exact keeps_execShutdownNotification (sub_refl _) (Keeps.refl _ s)
  case propertyGet => with_reducible exact keeps_execPropertyGet (sub_refl _) (Keeps.refl _ s)
  case disconnect => with_reducible exact keeps_execDisconnect (sub_refl _) (Keeps.refl _ s)
  case flush => with_reducible exact keeps_execFlush (sub_refl _) (Keeps.refl _ s)
  case write => with_reducible exact keeps_execWrite (sub_refl _) (Keeps.refl _ s)
  case read => with_reducible exact keeps_execRead (sub_refl _) (Keeps.refl _ s)
  case writeZeroes => with_reducible exact keeps_execWriteZeroes (sub_refl _) (Keeps.refl _ s)
  case datasetManagement => with_reducible exact keeps_execDatasetManagement (sub_refl _) (Keeps.refl _ s)
  case verify => with_reducible exact keeps_execVerify (sub_refl _) (Keeps.refl _ s)
  case zoneAppend => with_reducible exact keeps_execZoneAppend (sub_refl _) (Keeps.refl _ s)
  case zoneOpen => with_reducible exact keeps_execZoneOpen (sub_refl _) (Keeps.refl _ s)
  case zoneClose => with_reducible exact keeps_execZoneClose (sub_refl _) (Keeps.refl _ s)
  case zoneFinish => with_reducible exact keeps_execZoneFinish (sub_refl _) (Keeps.refl _ s)
  case zoneReset => with_reducible exact keeps_execZoneReset (sub_refl _) (Keeps.refl _ s)
  case zoneOffline => with_reducible exact keeps_execZoneOffline (sub_refl _) (Keeps.refl _ s)
  case reportZones => with_reducible exact keeps_execReportZones (sub_refl _) (Keeps.refl _ s)
  case invalidIoOpcode => with_reducible exact keeps_execInvalidIoOpcode (sub_refl _) (Keeps.refl _ s)
  case dataPhaseStart => with_reducible exact keeps_execDataPhaseStart (sub_refl _) (Keeps.refl _ s)
  case writeCommit => with_reducible exact keeps_execWriteCommit (sub_refl _) (Keeps.refl _ s)
  case readTransferStart => with_reducible exact keeps_execReadTransferStart (sub_refl _) (Keeps.refl _ s)
  case readTransferDone => with_reducible exact keeps_execReadTransferDone (sub_refl _) (Keeps.refl _ s)
  case dataPhaseTimeout => with_reducible exact keeps_execDataPhaseTimeout (sub_refl _) (Keeps.refl _ s)
  case connectionLoss => with_reducible exact keeps_execConnectionLoss (sub_refl _) (Keeps.refl _ s)
  case shrinkFinish => with_reducible exact keeps_execShrinkFinish (sub_refl _) (Keeps.refl _ s)
  case memberLoss => with_reducible exact keeps_execMemberLoss (sub_refl _) (Keeps.refl _ s)
  case spareReplenish => with_reducible exact keeps_execSpareReplenish (sub_refl _) (Keeps.refl _ s)
  case readyListRefill => with_reducible exact keeps_execReadyListRefill (sub_refl _) (Keeps.refl _ s)
  case reservationReplace => with_reducible exact keeps_execReservationReplace (sub_refl _) (Keeps.refl _ s)
  case rehome => with_reducible exact keeps_execRehome (sub_refl _) (Keeps.refl _ s)
  case logStripeAssemble => with_reducible exact keeps_execLogStripeAssemble (sub_refl _) (Keeps.refl _ s)
  case linkTrainingDone => with_reducible exact keeps_execLinkTrainingDone (sub_refl _) (Keeps.refl _ s)
  case storedTrainingFallback => with_reducible exact keeps_execStoredTrainingFallback (sub_refl _) (Keeps.refl _ s)
  case lockLossTimeout => with_reducible exact keeps_execLockLossTimeout (sub_refl _) (Keeps.refl _ s)
  case retrainTimeout => with_reducible exact keeps_execRetrainTimeout (sub_refl _) (Keeps.refl _ s)
  case linkRetryTimer => with_reducible exact keeps_execLinkRetryTimer (sub_refl _) (Keeps.refl _ s)
  case linkFail => with_reducible exact keeps_execLinkFail (sub_refl _) (Keeps.refl _ s)
  case linkGraceExpire => with_reducible exact keeps_execLinkGraceExpire (sub_refl _) (Keeps.refl _ s)
  case linkDisable => with_reducible exact keeps_execLinkDisable (sub_refl _) (Keeps.refl _ s)
  case linkEnable => with_reducible exact keeps_execLinkEnable (sub_refl _) (Keeps.refl _ s)
  case linkRetrainRequest => with_reducible exact keeps_execLinkRetrainRequest (sub_refl _) (Keeps.refl _ s)
  case linkFullTrainRequest => with_reducible exact keeps_execLinkFullTrainRequest (sub_refl _) (Keeps.refl _ s)
  case flashFrameReceive => with_reducible exact keeps_execFlashFrameReceive (sub_refl _) (Keeps.refl _ s)
  case flashNakReceive => with_reducible exact keeps_execFlashNakReceive (sub_refl _) (Keeps.refl _ s)
  case flashReplayTimeout => with_reducible exact keeps_execFlashReplayTimeout (sub_refl _) (Keeps.refl _ s)
  case maintFrameReceive => with_reducible exact keeps_execMaintFrameReceive (sub_refl _) (Keeps.refl _ s)
  case maintFrameSend => with_reducible exact keeps_execMaintFrameSend (sub_refl _) (Keeps.refl _ s)
  case dieLoss => with_reducible exact keeps_execDieLoss (sub_refl _) (Keeps.refl _ s)
  case dieOpTimeout => with_reducible exact keeps_execDieOpTimeout (sub_refl _) (Keeps.refl _ s)
  case readPageDone => with_reducible exact keeps_execReadPageDone (sub_refl _) (Keeps.refl _ s)
  case readLevelDone => with_reducible exact keeps_execReadLevelDone (sub_refl _) (Keeps.refl _ s)
  case programFoggyDone => with_reducible exact keeps_execProgramFoggyDone (sub_refl _) (Keeps.refl _ s)
  case programFineDone => with_reducible exact keeps_execProgramFineDone (sub_refl _) (Keeps.refl _ s)
  case programOneDone => with_reducible exact keeps_execProgramOneDone (sub_refl _) (Keeps.refl _ s)
  case eraseDone => with_reducible exact keeps_execEraseDone (sub_refl _) (Keeps.refl _ s)
  case eraseVerifyDone => with_reducible exact keeps_execEraseVerifyDone (sub_refl _) (Keeps.refl _ s)
  case suspendDone => with_reducible exact keeps_execSuspendDone (sub_refl _) (Keeps.refl _ s)
  case resumeDone => with_reducible exact keeps_execResumeDone (sub_refl _) (Keeps.refl _ s)
  case identifyDone => with_reducible exact keeps_execIdentifyDone (sub_refl _) (Keeps.refl _ s)
  case readCalDone => with_reducible exact keeps_execReadCalDone (sub_refl _) (Keeps.refl _ s)
  case readDefectsDone => with_reducible exact keeps_execReadDefectsDone (sub_refl _) (Keeps.refl _ s)
  case dieStatusDone => with_reducible exact keeps_execDieStatusDone (sub_refl _) (Keeps.refl _ s)
  case standbyDone => with_reducible exact keeps_execStandbyDone (sub_refl _) (Keeps.refl _ s)
  case resetDieDone => with_reducible exact keeps_execResetDieDone (sub_refl _) (Keeps.refl _ s)
  case echoDone => with_reducible exact keeps_execEchoDone (sub_refl _) (Keeps.refl _ s)
  case suspendDeferred => with_reducible exact keeps_execSuspendDeferred (sub_refl _) (Keeps.refl _ s)
  case groupDrainStart => with_reducible exact keeps_execGroupDrainStart (sub_refl _) (Keeps.refl _ s)
  case groupWake => with_reducible exact keeps_execGroupWake (sub_refl _) (Keeps.refl _ s)
  case groupWakeWrite => with_reducible exact keeps_execGroupWakeWrite (sub_refl _) (Keeps.refl _ s)
  case groupWakeTimeout => with_reducible exact keeps_execGroupWakeTimeout (sub_refl _) (Keeps.refl _ s)
  case powerBudgetWrite => with_reducible exact keeps_execPowerBudgetWrite (sub_refl _) (Keeps.refl _ s)
  case codewordDecodeDone => with_reducible exact keeps_execCodewordDecodeDone (sub_refl _) (Keeps.refl _ s)
  case l5Reconstruct => with_reducible exact keeps_execL5Reconstruct (sub_refl _) (Keeps.refl _ s)
  case sampleHoldExpire => with_reducible exact keeps_execSampleHoldExpire (sub_refl _) (Keeps.refl _ s)
  case exitCntClear => with_reducible exact keeps_execExitCntClear (sub_refl _) (Keeps.refl _ s)
  case ageTick => with_reducible exact keeps_execAgeTick (sub_refl _) (Keeps.refl _ s)
  case arrheniusConstantWrite => with_reducible exact keeps_execArrheniusConstantWrite (sub_refl _) (Keeps.refl _ s)
  case shelfTempWrite => with_reducible exact keeps_execShelfTempWrite (sub_refl _) (Keeps.refl _ s)
  case shelfTempExpire => with_reducible exact keeps_execShelfTempExpire (sub_refl _) (Keeps.refl _ s)
  case darkRecompute => with_reducible exact keeps_execDarkRecompute (sub_refl _) (Keeps.refl _ s)
  case probeResult => with_reducible exact keeps_execProbeResult (sub_refl _) (Keeps.refl _ s)
  case pilotReport => with_reducible exact keeps_execPilotReport (sub_refl _) (Keeps.refl _ s)
  case learnResetDie => with_reducible exact keeps_execLearnResetDie (sub_refl _) (Keeps.refl _ s)
  case learnResetAll => with_reducible exact keeps_execLearnResetAll (sub_refl _) (Keeps.refl _ s)
  case rowComplete => with_reducible exact keeps_execRowComplete (sub_refl _) (Keeps.refl _ s)
  case parkTimeout => with_reducible exact keeps_execParkTimeout (sub_refl _) (Keeps.refl _ s)
  case stageHorizon => with_reducible exact keeps_execStageHorizon (sub_refl _) (Keeps.refl _ s)
  case horizonMiss => with_reducible exact keeps_execHorizonMiss (sub_refl _) (Keeps.refl _ s)
  case coolerBlockReclaim => with_reducible exact keeps_execCoolerBlockReclaim (sub_refl _) (Keeps.refl _ s)
  case programFailure => with_reducible exact keeps_execProgramFailure (sub_refl _) (Keeps.refl _ s)
  case dramCrcMismatch => with_reducible exact keeps_execDramCrcMismatch (sub_refl _) (Keeps.refl _ s)
  case churnStart => with_reducible exact keeps_execChurnStart (sub_refl _) (Keeps.refl _ s)
  case unitRemap => with_reducible exact keeps_execUnitRemap (sub_refl _) (Keeps.refl _ s)
  case blockRelease => with_reducible exact keeps_execBlockRelease (sub_refl _) (Keeps.refl _ s)
  case eraseBegin => with_reducible exact keeps_execEraseBegin (sub_refl _) (Keeps.refl _ s)
  case blockFree => with_reducible exact keeps_execBlockFree (sub_refl _) (Keeps.refl _ s)
  case scanProbe => with_reducible exact keeps_execScanProbe (sub_refl _) (Keeps.refl _ s)
  case refreshStart => with_reducible exact keeps_execRefreshStart (sub_refl _) (Keeps.refl _ s)
  case refreshRemap => with_reducible exact keeps_execRefreshRemap (sub_refl _) (Keeps.refl _ s)
  case refreshPassComplete => with_reducible exact keeps_execRefreshPassComplete (sub_refl _) (Keeps.refl _ s)
  case wearLevelCheck => with_reducible exact keeps_execWearLevelCheck (sub_refl _) (Keeps.refl _ s)
  case rebuildRow => with_reducible exact keeps_execRebuildRow (sub_refl _) (Keeps.refl _ s)
  case rebuildReplacementRetry => with_reducible exact keeps_execRebuildReplacementRetry (sub_refl _) (Keeps.refl _ s)
  case mmeRateWindow => with_reducible exact keeps_execMmeRateWindow (sub_refl _) (Keeps.refl _ s)
  case mmeFloorWrite => with_reducible exact keeps_execMmeFloorWrite (sub_refl _) (Keeps.refl _ s)
  case journalPageSeal => with_reducible exact keeps_execJournalPageSeal (sub_refl _) (Keeps.refl _ s)
  case journalPageAccept => with_reducible exact keeps_execJournalPageAccept (sub_refl _) (Keeps.refl _ s)
  case journalCopyFail => with_reducible exact keeps_execJournalCopyFail (sub_refl _) (Keeps.refl _ s)
  case checkpointStart => with_reducible exact keeps_execCheckpointStart (sub_refl _) (Keeps.refl _ s)
  case checkpointStartWrite => with_reducible exact keeps_execCheckpointStartWrite (sub_refl _) (Keeps.refl _ s)
  case checkpointComplete => with_reducible exact keeps_execCheckpointComplete (sub_refl _) (Keeps.refl _ s)
  case rebaseCopyRow => with_reducible exact keeps_execRebaseCopyRow (sub_refl _) (Keeps.refl _ s)
  case tagCompute => with_reducible exact keeps_execTagCompute (sub_refl _) (Keeps.refl _ s)
  case tagCheck => with_reducible exact keeps_execTagCheck (sub_refl _) (Keeps.refl _ s)
  case keyWordWrite => with_reducible exact keeps_execKeyWordWrite (sub_refl _) (Keeps.refl _ s)
  case keyCommit => with_reducible exact keeps_execKeyCommit (sub_refl _) (Keeps.refl _ s)
  case keyActivate => with_reducible exact keeps_execKeyActivate (sub_refl _) (Keeps.refl _ s)
  case keyClear => with_reducible exact keeps_execKeyClear (sub_refl _) (Keeps.refl _ s)
  case keyActionResult => with_reducible exact keeps_execKeyActionResult (sub_refl _) (Keeps.refl _ s)
  case bufferAllocate => with_reducible exact keeps_execBufferAllocate (sub_refl _) (Keeps.refl _ s)
  case bufferRelease => with_reducible exact keeps_execBufferRelease (sub_refl _) (Keeps.refl _ s)
  case bufferHandOver => with_reducible exact keeps_execBufferHandOver (sub_refl _) (Keeps.refl _ s)
  case bufferReference => with_reducible exact keeps_execBufferReference (sub_refl _) (Keeps.refl _ s)
  case bufferCancel => with_reducible exact keeps_execBufferCancel (sub_refl _) (Keeps.refl _ s)
  case freeListRebuildDone => with_reducible exact keeps_execFreeListRebuildDone (sub_refl _) (Keeps.refl _ s)
  case bpmCntClear => with_reducible exact keeps_execBpmCntClear (sub_refl _) (Keeps.refl _ s)
  case dramRefresh => with_reducible exact keeps_execDramRefresh (sub_refl _) (Keeps.refl _ s)
  case refreshRatePoll => with_reducible exact keeps_execRefreshRatePoll (sub_refl _) (Keeps.refl _ s)
  case rowHammerRfm => with_reducible exact keeps_execRowHammerRfm (sub_refl _) (Keeps.refl _ s)
  case activationWindowEnd => with_reducible exact keeps_execActivationWindowEnd (sub_refl _) (Keeps.refl _ s)
  case throttleExpire => with_reducible exact keeps_execThrottleExpire (sub_refl _) (Keeps.refl _ s)
  case panicAssert => with_reducible exact keeps_execPanicAssert (sub_refl _) (Keeps.refl _ s)
  case panicRelease => with_reducible exact keeps_execPanicRelease (sub_refl _) (Keeps.refl _ s)
  case panicLong => with_reducible exact keeps_execPanicLong (sub_refl _) (Keeps.refl _ s)
  case rowCloseTimer => with_reducible exact keeps_execRowCloseTimer (sub_refl _) (Keeps.refl _ s)
  case dqsTracking => with_reducible exact keeps_execDqsTracking (sub_refl _) (Keeps.refl _ s)
  case zqCalibration => with_reducible exact keeps_execZqCalibration (sub_refl _) (Keeps.refl _ s)
  case monitorWindow => with_reducible exact keeps_execMonitorWindow (sub_refl _) (Keeps.refl _ s)
  case referenceGood => with_reducible exact keeps_execReferenceGood (sub_refl _) (Keeps.refl _ s)
  case stoppedClockTrip => with_reducible exact keeps_execStoppedClockTrip (sub_refl _) (Keeps.refl _ s)
  case pllLockLoss => with_reducible exact keeps_execPllLockLoss (sub_refl _) (Keeps.refl _ s)
  case rcCheckWindow => with_reducible exact keeps_execRcCheckWindow (sub_refl _) (Keeps.refl _ s)
  case rcReady => with_reducible exact keeps_execRcReady (sub_refl _) (Keeps.refl _ s)
  case rcTrimWrite => with_reducible exact keeps_execRcTrimWrite (sub_refl _) (Keeps.refl _ s)
  case switchRetry => with_reducible exact keeps_execSwitchRetry (sub_refl _) (Keeps.refl _ s)
  case clockSwitchDone => with_reducible exact keeps_execClockSwitchDone (sub_refl _) (Keeps.refl _ s)
  case rootPllLock => with_reducible exact keeps_execRootPllLock (sub_refl _) (Keeps.refl _ s)
  case accPllRelock => with_reducible exact keeps_execAccPllRelock (sub_refl _) (Keeps.refl _ s)
  case doubleFaultSelfRefresh => with_reducible exact keeps_execDoubleFaultSelfRefresh (sub_refl _) (Keeps.refl _ s)
  case clockSwitchRequest => with_reducible exact keeps_execClockSwitchRequest (sub_refl _) (Keeps.refl _ s)
  case deviceReset => with_reducible exact keeps_execDeviceReset (sub_refl _) (Keeps.refl _ s)
  case scWatchdogExpire => with_reducible exact keeps_execScWatchdogExpire (sub_refl _) (Keeps.refl _ s)
  case ccWatchdogExpire => with_reducible exact keeps_execCcWatchdogExpire (sub_refl _) (Keeps.refl _ s)
  case trstAssert => with_reducible exact keeps_execTrstAssert (sub_refl _) (Keeps.refl _ s)
  case tuStep => with_reducible exact keeps_execTuStep (sub_refl _) (Keeps.refl _ s)
  case tuNowRead => with_reducible exact keeps_execTuNowRead (sub_refl _) (Keeps.refl _ s)
  case ptpServoUpdate => with_reducible exact keeps_execPtpServoUpdate (sub_refl _) (Keeps.refl _ s)
  case ptpSyncTimeout => with_reducible exact keeps_execPtpSyncTimeout (sub_refl _) (Keeps.refl _ s)
  case holdoverExpire => with_reducible exact keeps_execHoldoverExpire (sub_refl _) (Keeps.refl _ s)
  case loadWindow => with_reducible exact keeps_execLoadWindow (sub_refl _) (Keeps.refl _ s)
  case mgmtPortWrite => with_reducible exact keeps_execMgmtPortWrite (sub_refl _) (Keeps.refl _ s)
  case taskGo => with_reducible exact keeps_execTaskGo (sub_refl _) (Keeps.refl _ s)
  case taskReplyDone => with_reducible exact keeps_execTaskReplyDone (sub_refl _) (Keeps.refl _ s)
  case entdaa => with_reducible exact keeps_execEntdaa (sub_refl _) (Keeps.refl _ s)
  case setdasa => with_reducible exact keeps_execSetdasa (sub_refl _) (Keeps.refl _ s)
  case rstdaa => with_reducible exact keeps_execRstdaa (sub_refl _) (Keeps.refl _ s)
  case enec => with_reducible exact keeps_execEnec (sub_refl _) (Keeps.refl _ s)
  case disec => with_reducible exact keeps_execDisec (sub_refl _) (Keeps.refl _ s)
  case getpid => with_reducible exact keeps_execGetpid (sub_refl _) (Keeps.refl _ s)
  case getbcr => with_reducible exact keeps_execGetbcr (sub_refl _) (Keeps.refl _ s)
  case getdcr => with_reducible exact keeps_execGetdcr (sub_refl _) (Keeps.refl _ s)
  case getstatus => with_reducible exact keeps_execGetstatus (sub_refl _) (Keeps.refl _ s)
  case getmwl => with_reducible exact keeps_execGetmwl (sub_refl _) (Keeps.refl _ s)
  case nvmeMiBasicRead => with_reducible exact keeps_execNvmeMiBasicRead (sub_refl _) (Keeps.refl _ s)
  case nop => with_reducible exact keeps_execNop (sub_refl _) (Keeps.refl _ s)
  case regRead => with_reducible exact keeps_execRegRead (sub_refl _) (Keeps.refl _ s)
  case regWrite => with_reducible exact keeps_execRegWrite (sub_refl _) (Keeps.refl _ s)
  case regRmw => with_reducible exact keeps_execRegRmw (sub_refl _) (Keeps.refl _ s)
  case stateReq => with_reducible exact keeps_execStateReq (sub_refl _) (Keeps.refl _ s)
  case devReset => with_reducible exact keeps_execDevReset (sub_refl _) (Keeps.refl _ s)
  case devResetDelayExpire => with_reducible exact keeps_execDevResetDelayExpire (sub_refl _) (Keeps.refl _ s)
  case timeSet => with_reducible exact keeps_execTimeSet (sub_refl _) (Keeps.refl _ s)
  case portCfg => with_reducible exact keeps_execPortCfg (sub_refl _) (Keeps.refl _ s)
  case portRead => with_reducible exact keeps_execPortRead (sub_refl _) (Keeps.refl _ s)
  case aclAdd => with_reducible exact keeps_execAclAdd (sub_refl _) (Keeps.refl _ s)
  case aclRemove => with_reducible exact keeps_execAclRemove (sub_refl _) (Keeps.refl _ s)
  case aclList => with_reducible exact keeps_execAclList (sub_refl _) (Keeps.refl _ s)
  case nsCreate => with_reducible exact keeps_execNsCreate (sub_refl _) (Keeps.refl _ s)
  case nsDelete => with_reducible exact keeps_execNsDelete (sub_refl _) (Keeps.refl _ s)
  case nsMove => with_reducible exact keeps_execNsMove (sub_refl _) (Keeps.refl _ s)
  case nsResize => with_reducible exact keeps_execNsResize (sub_refl _) (Keeps.refl _ s)
  case nsInfo => with_reducible exact keeps_execNsInfo (sub_refl _) (Keeps.refl _ s)
  case zoneHint => with_reducible exact keeps_execZoneHint (sub_refl _) (Keeps.refl _ s)
  case homeRead => with_reducible exact keeps_execHomeRead (sub_refl _) (Keeps.refl _ s)
  case shelfClimate => with_reducible exact keeps_execShelfClimate (sub_refl _) (Keeps.refl _ s)
  case modelLoad => with_reducible exact keeps_execModelLoad (sub_refl _) (Keeps.refl _ s)
  case fwDownload => with_reducible exact keeps_execFwDownload (sub_refl _) (Keeps.refl _ s)
  case fwCommit => with_reducible exact keeps_execFwCommit (sub_refl _) (Keeps.refl _ s)
  case protSet => with_reducible exact keeps_execProtSet (sub_refl _) (Keeps.refl _ s)
  case protectionEraseDone => with_reducible exact keeps_execProtectionEraseDone (sub_refl _) (Keeps.refl _ s)
  case hbRead => with_reducible exact keeps_execHbRead (sub_refl _) (Keeps.refl _ s)
  case healthRead => with_reducible exact keeps_execHealthRead (sub_refl _) (Keeps.refl _ s)
  case activationPause => with_reducible exact keeps_execActivationPause (sub_refl _) (Keeps.refl _ s)
  case activationAbandon => with_reducible exact keeps_execActivationAbandon (sub_refl _) (Keeps.refl _ s)
  case probationEnd => with_reducible exact keeps_execProbationEnd (sub_refl _) (Keeps.refl _ s)
  case sectorErase => with_reducible exact keeps_execSectorErase (sub_refl _) (Keeps.refl _ s)
  case pageProgram => with_reducible exact keeps_execPageProgram (sub_refl _) (Keeps.refl _ s)
  case sectorEraseDone => with_reducible exact keeps_execSectorEraseDone (sub_refl _) (Keeps.refl _ s)
  case pageProgramDone => with_reducible exact keeps_execPageProgramDone (sub_refl _) (Keeps.refl _ s)
  case storeEraseResume => with_reducible exact keeps_execStoreEraseResume (sub_refl _) (Keeps.refl _ s)
  case continuousRead => with_reducible exact keeps_execContinuousRead (sub_refl _) (Keeps.refl _ s)
  case settingsCompact => with_reducible exact keeps_execSettingsCompact (sub_refl _) (Keeps.refl _ s)
  case settingsPageProgram => with_reducible exact keeps_execSettingsPageProgram (sub_refl _) (Keeps.refl _ s)
  case eventFire => with_reducible exact keeps_execEventFire (sub_refl _) (Keeps.refl _ s)
  case eventTokenRefill => with_reducible exact keeps_execEventTokenRefill (sub_refl _) (Keeps.refl _ s)
  case summaryEnter => with_reducible exact keeps_execSummaryEnter (sub_refl _) (Keeps.refl _ s)
  case eventFifoDrain => with_reducible exact keeps_execEventFifoDrain (sub_refl _) (Keeps.refl _ s)
  case herdbookPageProgram => with_reducible exact keeps_execHerdbookPageProgram (sub_refl _) (Keeps.refl _ s)
  case herdbookSectorFail => with_reducible exact keeps_execHerdbookSectorFail (sub_refl _) (Keeps.refl _ s)
  case mirrorProgram => with_reducible exact keeps_execMirrorProgram (sub_refl _) (Keeps.refl _ s)
  case swRaise => with_reducible exact keeps_execSwRaise (sub_refl _) (Keeps.refl _ s)
  case inputTransition => with_reducible exact keeps_execInputTransition (sub_refl _) (Keeps.refl _ s)
  case chatterMaskEnd => with_reducible exact keeps_execChatterMaskEnd (sub_refl _) (Keeps.refl _ s)
  case chatterWindowEnd => with_reducible exact keeps_execChatterWindowEnd (sub_refl _) (Keeps.refl _ s)
  case inputFilterChange => with_reducible exact keeps_execInputFilterChange (sub_refl _) (Keeps.refl _ s)
  case thermalSample => with_reducible exact keeps_execThermalSample (sub_refl _) (Keeps.refl _ s)
  case extest => with_reducible exact keeps_execExtest (sub_refl _) (Keeps.refl _ s)
  case idcode => with_reducible exact keeps_execIdcode (sub_refl _) (Keeps.refl _ s)
  case samplePreload => with_reducible exact keeps_execSamplePreload (sub_refl _) (Keeps.refl _ s)
  case clamp => with_reducible exact keeps_execClamp (sub_refl _) (Keeps.refl _ s)
  case highz => with_reducible exact keeps_execHighz (sub_refl _) (Keeps.refl _ s)
  case bypass => with_reducible exact keeps_execBypass (sub_refl _) (Keeps.refl _ s)
  case manufacturingTest => with_reducible exact keeps_execManufacturingTest (sub_refl _) (Keeps.refl _ s)
  case regPairLowRead => with_reducible exact keeps_execRegPairLowRead (sub_refl _) (Keeps.refl _ s)
  case regPairHighRead => with_reducible exact keeps_execRegPairHighRead (sub_refl _) (Keeps.refl _ s)
  case regPairHighWrite => with_reducible exact keeps_execRegPairHighWrite (sub_refl _) (Keeps.refl _ s)
  case regPairLowWrite => with_reducible exact keeps_execRegPairLowWrite (sub_refl _) (Keeps.refl _ s)
  case rcRead => with_reducible exact keeps_execRcRead (sub_refl _) (Keeps.refl _ s)
  case w1cWrite => with_reducible exact keeps_execW1cWrite (sub_refl _) (Keeps.refl _ s)
  case registerWrite => with_reducible exact keeps_execRegisterWrite (sub_refl _) (Keeps.refl _ s)
  case railsGood => with_reducible exact keeps_execRailsGood (sub_refl _) (Keeps.refl _ s)
  case syncCandidateOpen => with_reducible exact keeps_execSyncCandidateOpen (sub_refl _) (Keeps.refl _ s)
  case ptpDelayReqSend => with_reducible exact keeps_execPtpDelayReqSend (sub_refl _) (Keeps.refl _ s)
  case pfcPauseExpire => with_reducible exact keeps_execPfcPauseExpire (sub_refl _) (Keeps.refl _ s)
  case tcpCapsuleCmd => with_reducible exact keeps_execTcpCapsuleCmd (sub_refl _) (Keeps.refl _ s)
  case invalidFabricsCommand => with_reducible exact keeps_execInvalidFabricsCommand (sub_refl _) (Keeps.refl _ s)
  case zoneSendInvalidAction => with_reducible exact keeps_execZoneSendInvalidAction (sub_refl _) (Keeps.refl _ s)
  case hdrEntry => with_reducible exact keeps_execHdrEntry (sub_refl _) (Keeps.refl _ s)
  case hdrExitPattern => with_reducible exact keeps_execHdrExitPattern (sub_refl _) (Keeps.refl _ s)
  case unsupportedCcc => with_reducible exact keeps_execUnsupportedCcc (sub_refl _) (Keeps.refl _ s)
  case rnrRetryTimer => with_reducible exact keeps_execRnrRetryTimer (sub_refl _) (Keeps.refl _ s)
  case storeEraseSuspend => with_reducible exact keeps_execStoreEraseSuspend (sub_refl _) (Keeps.refl _ s)

end Sys2Proof.Machine
end

