-- ==== Sys2Proof/Laws/Regs.lean ====
section
/-! SUPPORT. Reading back a register, a field and a counter. -/

namespace Sys2Proof.Machine

theorem getReg_setReg_self (a v : Nat) (s : State) : getReg (setReg a v s) a = v := by
  simp [getReg, Nat.xor_assoc]

theorem getReg_setReg_ne (a v : Nat) (s : State) {b : Nat} (h : b ≠ a) : getReg (setReg a v s) b = getReg s b := by
  simp only [getReg, setReg_regs, mapGet_mapSet_ne _ _ _ h]

/-- The field written reads as the low bits of what was written. -/
theorem natBits_natSetBits_self (v lo n x : Nat) : natBits (natSetBits v lo n x) lo n = x % 2 ^ n := by
  unfold natBits natSetBits
  have h1 := Nat.div_add_mod v (2 ^ lo)
  have h2 := Nat.div_add_mod (v / 2 ^ lo) (2 ^ n)
  have hlo : v % 2 ^ lo < 2 ^ lo := Nat.mod_lt _ (Nat.two_pow_pos lo)
  unfold natBits
  rw [Nat.shiftRight_eq_div_pow, Nat.shiftRight_eq_div_pow]
  generalize hq : v / 2 ^ lo = q at *
  have e : v - q % 2 ^ n * 2 ^ lo + x % 2 ^ n * 2 ^ lo = v % 2 ^ lo + 2 ^ lo * (2 ^ n * (q / 2 ^ n) + x % 2 ^ n) := by
    have hv : v = 2 ^ lo * (2 ^ n * (q / 2 ^ n)) + 2 ^ lo * (q % 2 ^ n) + v % 2 ^ lo := by
      rw [← Nat.mul_add, h2, h1]
    rw [Nat.mul_add, Nat.mul_comm (q % 2 ^ n), Nat.mul_comm (x % 2 ^ n)]
    omega
  rw [e, Nat.add_mul_div_left _ _ (Nat.two_pow_pos lo), Nat.div_eq_of_lt hlo, Nat.zero_add, Nat.mul_add_mod,
    Nat.mod_mod]

theorem getF_setF_self (f : Fld) (v : Nat) (s : State) : getF (setF f v s) f = v % 2 ^ f.width := by
  simp only [getF, setF, getReg_setReg_self, natBits_natSetBits_self]

/-- A field of another register. -/
theorem getF_setF_ne (f g : Fld) (v : Nat) (s : State) (h : g.addr ≠ f.addr) : getF (setF f v s) g = getF s g := by
  simp only [getF, setF, getReg_setReg_ne _ _ _ h]

/-- A saturating counter counts up to its top. -/
theorem getF_bumpF_self (f : Fld) (n : Nat) (s : State) : getF (bumpF f n s) f = min (2 ^ f.width - 1) (getF s f + n) := by
  have h : min (2 ^ f.width - 1) (getF s f + n) < 2 ^ f.width :=
    Nat.lt_of_le_of_lt (Nat.min_le_left _ _) (Nat.sub_lt (Nat.two_pow_pos _) Nat.one_pos)
  rw [bumpF, getF_setF_self, satAdd, Nat.mod_eq_of_lt h]

theorem getF_bumpF_ne (f g : Fld) (n : Nat) (s : State) (h : g.addr ≠ f.addr) : getF (bumpF f n s) g = getF s g :=
  getF_setF_ne f g _ s h

/-- A field is read from the stored words alone. -/
theorem getF_regs {s t : State} (h : t.regs = s.regs) (f : Fld) : getF t f = getF s f := by
  simp only [getF, getReg, h]

end Sys2Proof.Machine
end

