-- ==== Sys2Proof/Laws/Ops.lean ====
section
/-! SUPPORT. What the operations that set a named field leave in it. -/

namespace Sys2Proof.Machine

@[simp] theorem enterDev_dev (d : Dev) (c : Nat) (s : State) : (enterDev d c s).top.dev = d :=
  (keeps_fire (sub_refl _) (Keeps.refl _ _)).same.dev rfl

@[simp] theorem enterDev_lastCause (d : Dev) (c : Nat) (s : State) : (enterDev d c s).top.lastCause = c :=
  (keeps_fire (sub_refl _) (Keeps.refl _ _)).same.lastCause rfl

/-! ## Firing a source: of the registers only those of the Event Controller change -/

theorem evcExists_lt {src : Nat} (h : evcExists src = true) : src < 0x80000 := by
  by_cases hb : src / 32 < 48
  · omega
  · exfalso
    have : evcExistsMask (src / 32) = 0 := by
      unfold evcExistsMask
      split <;> first | omega | exact if_neg hb
    simp [evcExists, this, natBits] at h

theorem latch_addr {n a : Nat} (hn : n < 0x4000) (h : a / 0x1000000 ≠ 18) : a ≠ (F.EVC_LATCHb_LATCH n).addr := by
  rintro rfl
  apply h
  simp only [F.EVC_LATCHb_LATCH]
  omega

theorem latchSource_getReg {n : Nat} (hn : n < 0x80000) (s : State) {a : Nat} (h : a / 0x1000000 ≠ 18) :
    getReg (latchSource n s) a = getReg s a := by
  have e : ∀ u : State, u.regs = (setF (F.EVC_LATCHb_LATCH (n / 32)) (getF s (F.EVC_LATCHb_LATCH (n / 32)) ||| 2 ^ (n % 32)) s).regs →
      getReg u a = getReg s a := by
    intro u hu
    have : getReg u a = getReg (setF (F.EVC_LATCHb_LATCH (n / 32)) (getF s (F.EVC_LATCHb_LATCH (n / 32)) ||| 2 ^ (n % 32)) s) a := by
      simp only [getReg, hu]
    rw [this]
    exact getReg_setReg_ne _ _ _ (latch_addr (by omega) h)
  unfold latchSource
  dsimp only
  split <;> exact e _ rfl

theorem bumpOverflow_getReg (n : Nat) (s : State) {a : Nat} (h : a / 0x1000000 ≠ 18) :
    getReg (bumpF F.EVC_CNT_OVERFLOW n s) a = getReg s a :=
  getReg_setReg_ne _ _ _ (by rintro rfl; exact h (by decide))

theorem rateLimit_getReg (src sev index : Nat) (d : List Nat) (s : State) {a : Nat} (h : a / 0x1000000 ≠ 18) :
    getReg (rateLimit src sev index d s) a = getReg s a := by
  unfold rateLimit
  dsimp only
  split
  · split
    · rfl
    · split
      · rw [latchSource_getReg (by decide) _ h]; exact bumpOverflow_getReg 1 s h
      · exact bumpOverflow_getReg 1 s h
  · split
    · rfl
    · split <;> rfl

theorem fireSev_getReg (src sev index : Nat) (d : List Nat) (s : State) {a : Nat} (h : a / 0x1000000 ≠ 18) :
    getReg (fireSev src sev index d s) a = getReg s a := by
  unfold fireSev
  dsimp only
  split
  · rfl
  · rename_i he
    have hn : src < 0x80000 := evcExists_lt (by simpa using he)
    split
    · rfl
    · split
      · rw [rateLimit_getReg _ _ _ _ _ h, latchSource_getReg hn _ h]
      · exact latchSource_getReg hn _ h

theorem fire_getReg (src index : Nat) (s : State) {a : Nat} (h : a / 0x1000000 ≠ 18) : getReg (fire src index s) a = getReg s a := by
  unfold fire
  dsimp only
  split <;> exact fireSev_getReg _ _ _ _ _ h

theorem fire_getF (src index : Nat) (s : State) (f : Fld) (h : f.addr / 0x1000000 ≠ 18) : getF (fire src index s) f = getF s f := by
  simp only [getF, fire_getReg src index s h]

/-! ## Firing a source: what else it leaves alone -/

/-- What reads the same whatever registers, Event Controller, outbox and free-value count a state has. -/
def Aside {β : Type} (p : State → β) : Prop := ∀ s r e o d, p { s with regs := r, evc := e, out := o, drawn := d } = p s

theorem latchSource_aside {β : Type} {p : State → β} (hp : Aside p) (n : Nat) (s : State) : p (latchSource n s) = p s := by
  unfold latchSource
  dsimp only
  split <;> exact hp s _ _ _ s.drawn

theorem rateLimit_aside {β : Type} {p : State → β} (hp : Aside p) (src sev index : Nat) (d : List Nat) (s : State) :
    p (rateLimit src sev index d s) = p s := by
  unfold rateLimit
  dsimp only
  repeat' split
  · exact hp s _ _ _ s.drawn
  · exact (latchSource_aside hp _ _).trans (hp s _ _ _ s.drawn)
  · exact hp s _ _ _ s.drawn
  · exact hp s _ _ _ s.drawn
  · exact hp s _ _ _ s.drawn
  · exact hp s _ _ _ s.drawn

theorem fireSev_aside {β : Type} {p : State → β} (hp : Aside p) (src sev index : Nat) (d : List Nat) (s : State) :
    p (fireSev src sev index d s) = p s := by
  unfold fireSev
  dsimp only
  repeat' split
  · rfl
  · rfl
  · exact (rateLimit_aside hp _ _ _ _ _).trans (latchSource_aside hp _ _)
  · exact latchSource_aside hp _ _

theorem fire_aside {β : Type} {p : State → β} (hp : Aside p) (src index : Nat) (s : State) : p (fire src index s) = p s := by
  unfold fire
  dsimp only
  split
  · exact fireSev_aside hp _ _ _ _ _
  · exact (fireSev_aside hp _ _ _ _ _).trans (hp s _ _ _ _)

@[simp] theorem fire_shadows (src index : Nat) (s : State) : (fire src index s).shadows = s.shadows := fire_aside (p := State.shadows) (fun _ _ _ _ _ => rfl) _ _ _
@[simp] theorem fire_heldHigh (src index : Nat) (s : State) : (fire src index s).heldHigh = s.heldHigh := fire_aside (p := State.heldHigh) (fun _ _ _ _ _ => rfl) _ _ _
@[simp] theorem fire_fuse (src index : Nat) (s : State) : (fire src index s).fuse = s.fuse := fire_aside (p := State.fuse) (fun _ _ _ _ _ => rfl) _ _ _
@[simp] theorem fire_top (src index : Nat) (s : State) : (fire src index s).top = s.top := fire_aside (p := State.top) (fun _ _ _ _ _ => rfl) _ _ _
@[simp] theorem fire_cru (src index : Nat) (s : State) : (fire src index s).cru = s.cru := fire_aside (p := State.cru) (fun _ _ _ _ _ => rfl) _ _ _
@[simp] theorem fire_tu (src index : Nat) (s : State) : (fire src index s).tu = s.tu := fire_aside (p := State.tu) (fun _ _ _ _ _ => rfl) _ _ _
@[simp] theorem fire_pad (src index : Nat) (s : State) : (fire src index s).pad = s.pad := fire_aside (p := State.pad) (fun _ _ _ _ _ => rfl) _ _ _
@[simp] theorem fire_fws (src index : Nat) (s : State) : (fire src index s).fws = s.fws := fire_aside (p := State.fws) (fun _ _ _ _ _ => rfl) _ _ _
@[simp] theorem fire_hfe (src index : Nat) (s : State) : (fire src index s).hfe = s.hfe := fire_aside (p := State.hfe) (fun _ _ _ _ _ => rfl) _ _ _
@[simp] theorem fire_qe (src index : Nat) (s : State) : (fire src index s).qe = s.qe := fire_aside (p := State.qe) (fun _ _ _ _ _ => rfl) _ _ _
@[simp] theorem fire_mgc (src index : Nat) (s : State) : (fire src index s).mgc = s.mgc := fire_aside (p := State.mgc) (fun _ _ _ _ _ => rfl) _ _ _
@[simp] theorem fire_tabs (src index : Nat) (s : State) : (fire src index s).tabs = s.tabs := fire_aside (p := State.tabs) (fun _ _ _ _ _ => rfl) _ _ _
@[simp] theorem fire_dur (src index : Nat) (s : State) : (fire src index s).dur = s.dur := fire_aside (p := State.dur) (fun _ _ _ _ _ => rfl) _ _ _
@[simp] theorem fire_units (src index : Nat) (s : State) : (fire src index s).units = s.units := fire_aside (p := State.units) (fun _ _ _ _ _ => rfl) _ _ _
@[simp] theorem fire_flc (src index : Nat) (s : State) : (fire src index s).flc = s.flc := fire_aside (p := State.flc) (fun _ _ _ _ _ => rfl) _ _ _
@[simp] theorem fire_clc (src index : Nat) (s : State) : (fire src index s).clc = s.clc := fire_aside (p := State.clc) (fun _ _ _ _ _ => rfl) _ _ _
@[simp] theorem fire_rcu (src index : Nat) (s : State) : (fire src index s).rcu = s.rcu := fire_aside (p := State.rcu) (fun _ _ _ _ _ => rfl) _ _ _
@[simp] theorem fire_wpe (src index : Nat) (s : State) : (fire src index s).wpe = s.wpe := fire_aside (p := State.wpe) (fun _ _ _ _ _ => rfl) _ _ _
@[simp] theorem fire_mme (src index : Nat) (s : State) : (fire src index s).mme = s.mme := fire_aside (p := State.mme) (fun _ _ _ _ _ => rfl) _ _ _
@[simp] theorem fire_jnl (src index : Nat) (s : State) : (fire src index s).jnl = s.jnl := fire_aside (p := State.jnl) (fun _ _ _ _ _ => rfl) _ _ _
@[simp] theorem fire_ite (src index : Nat) (s : State) : (fire src index s).ite = s.ite := fire_aside (p := State.ite) (fun _ _ _ _ _ => rfl) _ _ _
@[simp] theorem fire_bpm (src index : Nat) (s : State) : (fire src index s).bpm = s.bpm := fire_aside (p := State.bpm) (fun _ _ _ _ _ => rfl) _ _ _
@[simp] theorem fire_dmc (src index : Nat) (s : State) : (fire src index s).dmc = s.dmc := fire_aside (p := State.dmc) (fun _ _ _ _ _ => rfl) _ _ _
@[simp] theorem fire_pending (src index : Nat) (s : State) : (fire src index s).pending = s.pending := fire_aside (p := State.pending) (fun _ _ _ _ _ => rfl) _ _ _

@[simp] theorem fireSev_shadows (src sev index : Nat) (d : List Nat) (s : State) : (fireSev src sev index d s).shadows = s.shadows :=
  fireSev_aside (p := State.shadows) (fun _ _ _ _ _ => rfl) _ _ _ _ _
@[simp] theorem fireSev_heldHigh (src sev index : Nat) (d : List Nat) (s : State) : (fireSev src sev index d s).heldHigh = s.heldHigh :=
  fireSev_aside (p := State.heldHigh) (fun _ _ _ _ _ => rfl) _ _ _ _ _
@[simp] theorem fireSev_fuse (src sev index : Nat) (d : List Nat) (s : State) : (fireSev src sev index d s).fuse = s.fuse :=
  fireSev_aside (p := State.fuse) (fun _ _ _ _ _ => rfl) _ _ _ _ _
@[simp] theorem fireSev_top (src sev index : Nat) (d : List Nat) (s : State) : (fireSev src sev index d s).top = s.top :=
  fireSev_aside (p := State.top) (fun _ _ _ _ _ => rfl) _ _ _ _ _
@[simp] theorem fireSev_cru (src sev index : Nat) (d : List Nat) (s : State) : (fireSev src sev index d s).cru = s.cru :=
  fireSev_aside (p := State.cru) (fun _ _ _ _ _ => rfl) _ _ _ _ _
@[simp] theorem fireSev_tu (src sev index : Nat) (d : List Nat) (s : State) : (fireSev src sev index d s).tu = s.tu :=
  fireSev_aside (p := State.tu) (fun _ _ _ _ _ => rfl) _ _ _ _ _
@[simp] theorem fireSev_pad (src sev index : Nat) (d : List Nat) (s : State) : (fireSev src sev index d s).pad = s.pad :=
  fireSev_aside (p := State.pad) (fun _ _ _ _ _ => rfl) _ _ _ _ _
@[simp] theorem fireSev_fws (src sev index : Nat) (d : List Nat) (s : State) : (fireSev src sev index d s).fws = s.fws :=
  fireSev_aside (p := State.fws) (fun _ _ _ _ _ => rfl) _ _ _ _ _
@[simp] theorem fireSev_hfe (src sev index : Nat) (d : List Nat) (s : State) : (fireSev src sev index d s).hfe = s.hfe :=
  fireSev_aside (p := State.hfe) (fun _ _ _ _ _ => rfl) _ _ _ _ _
@[simp] theorem fireSev_qe (src sev index : Nat) (d : List Nat) (s : State) : (fireSev src sev index d s).qe = s.qe :=
  fireSev_aside (p := State.qe) (fun _ _ _ _ _ => rfl) _ _ _ _ _
@[simp] theorem fireSev_mgc (src sev index : Nat) (d : List Nat) (s : State) : (fireSev src sev index d s).mgc = s.mgc :=
  fireSev_aside (p := State.mgc) (fun _ _ _ _ _ => rfl) _ _ _ _ _
@[simp] theorem fireSev_tabs (src sev index : Nat) (d : List Nat) (s : State) : (fireSev src sev index d s).tabs = s.tabs :=
  fireSev_aside (p := State.tabs) (fun _ _ _ _ _ => rfl) _ _ _ _ _
@[simp] theorem fireSev_dur (src sev index : Nat) (d : List Nat) (s : State) : (fireSev src sev index d s).dur = s.dur :=
  fireSev_aside (p := State.dur) (fun _ _ _ _ _ => rfl) _ _ _ _ _
@[simp] theorem fireSev_units (src sev index : Nat) (d : List Nat) (s : State) : (fireSev src sev index d s).units = s.units :=
  fireSev_aside (p := State.units) (fun _ _ _ _ _ => rfl) _ _ _ _ _
@[simp] theorem fireSev_flc (src sev index : Nat) (d : List Nat) (s : State) : (fireSev src sev index d s).flc = s.flc :=
  fireSev_aside (p := State.flc) (fun _ _ _ _ _ => rfl) _ _ _ _ _
@[simp] theorem fireSev_clc (src sev index : Nat) (d : List Nat) (s : State) : (fireSev src sev index d s).clc = s.clc :=
  fireSev_aside (p := State.clc) (fun _ _ _ _ _ => rfl) _ _ _ _ _
@[simp] theorem fireSev_rcu (src sev index : Nat) (d : List Nat) (s : State) : (fireSev src sev index d s).rcu = s.rcu :=
  fireSev_aside (p := State.rcu) (fun _ _ _ _ _ => rfl) _ _ _ _ _
@[simp] theorem fireSev_wpe (src sev index : Nat) (d : List Nat) (s : State) : (fireSev src sev index d s).wpe = s.wpe :=
  fireSev_aside (p := State.wpe) (fun _ _ _ _ _ => rfl) _ _ _ _ _
@[simp] theorem fireSev_mme (src sev index : Nat) (d : List Nat) (s : State) : (fireSev src sev index d s).mme = s.mme :=
  fireSev_aside (p := State.mme) (fun _ _ _ _ _ => rfl) _ _ _ _ _
@[simp] theorem fireSev_jnl (src sev index : Nat) (d : List Nat) (s : State) : (fireSev src sev index d s).jnl = s.jnl :=
  fireSev_aside (p := State.jnl) (fun _ _ _ _ _ => rfl) _ _ _ _ _
@[simp] theorem fireSev_ite (src sev index : Nat) (d : List Nat) (s : State) : (fireSev src sev index d s).ite = s.ite :=
  fireSev_aside (p := State.ite) (fun _ _ _ _ _ => rfl) _ _ _ _ _
@[simp] theorem fireSev_bpm (src sev index : Nat) (d : List Nat) (s : State) : (fireSev src sev index d s).bpm = s.bpm :=
  fireSev_aside (p := State.bpm) (fun _ _ _ _ _ => rfl) _ _ _ _ _
@[simp] theorem fireSev_dmc (src sev index : Nat) (d : List Nat) (s : State) : (fireSev src sev index d s).dmc = s.dmc :=
  fireSev_aside (p := State.dmc) (fun _ _ _ _ _ => rfl) _ _ _ _ _
@[simp] theorem fireSev_pending (src sev index : Nat) (d : List Nat) (s : State) : (fireSev src sev index d s).pending = s.pending :=
  fireSev_aside (p := State.pending) (fun _ _ _ _ _ => rfl) _ _ _ _ _

/-- The device state is entered: TOP's two fields, the open fragment assemblies, and source 0. -/
@[simp] theorem enterDev_shadows (d : Dev) (c : Nat) (s : State) : (enterDev d c s).shadows = s.shadows := fire_shadows _ _ _
@[simp] theorem enterDev_heldHigh (d : Dev) (c : Nat) (s : State) : (enterDev d c s).heldHigh = s.heldHigh := fire_heldHigh _ _ _
@[simp] theorem enterDev_fuse (d : Dev) (c : Nat) (s : State) : (enterDev d c s).fuse = s.fuse := fire_fuse _ _ _
@[simp] theorem enterDev_cru (d : Dev) (c : Nat) (s : State) : (enterDev d c s).cru = s.cru := fire_cru _ _ _
@[simp] theorem enterDev_tu (d : Dev) (c : Nat) (s : State) : (enterDev d c s).tu = s.tu := fire_tu _ _ _
@[simp] theorem enterDev_pad (d : Dev) (c : Nat) (s : State) : (enterDev d c s).pad = s.pad := fire_pad _ _ _
@[simp] theorem enterDev_fws (d : Dev) (c : Nat) (s : State) : (enterDev d c s).fws = s.fws := fire_fws _ _ _
@[simp] theorem enterDev_hfe (d : Dev) (c : Nat) (s : State) : (enterDev d c s).hfe = s.hfe := fire_hfe _ _ _
@[simp] theorem enterDev_qe (d : Dev) (c : Nat) (s : State) : (enterDev d c s).qe = s.qe := fire_qe _ _ _
@[simp] theorem enterDev_tabs (d : Dev) (c : Nat) (s : State) : (enterDev d c s).tabs = s.tabs := fire_tabs _ _ _
@[simp] theorem enterDev_dur (d : Dev) (c : Nat) (s : State) : (enterDev d c s).dur = s.dur := fire_dur _ _ _
@[simp] theorem enterDev_units (d : Dev) (c : Nat) (s : State) : (enterDev d c s).units = s.units := fire_units _ _ _
@[simp] theorem enterDev_flc (d : Dev) (c : Nat) (s : State) : (enterDev d c s).flc = s.flc := fire_flc _ _ _
@[simp] theorem enterDev_clc (d : Dev) (c : Nat) (s : State) : (enterDev d c s).clc = s.clc := fire_clc _ _ _
@[simp] theorem enterDev_rcu (d : Dev) (c : Nat) (s : State) : (enterDev d c s).rcu = s.rcu := fire_rcu _ _ _
@[simp] theorem enterDev_wpe (d : Dev) (c : Nat) (s : State) : (enterDev d c s).wpe = s.wpe := fire_wpe _ _ _
@[simp] theorem enterDev_mme (d : Dev) (c : Nat) (s : State) : (enterDev d c s).mme = s.mme := fire_mme _ _ _
@[simp] theorem enterDev_jnl (d : Dev) (c : Nat) (s : State) : (enterDev d c s).jnl = s.jnl := fire_jnl _ _ _
@[simp] theorem enterDev_ite (d : Dev) (c : Nat) (s : State) : (enterDev d c s).ite = s.ite := fire_ite _ _ _
@[simp] theorem enterDev_bpm (d : Dev) (c : Nat) (s : State) : (enterDev d c s).bpm = s.bpm := fire_bpm _ _ _
@[simp] theorem enterDev_dmc (d : Dev) (c : Nat) (s : State) : (enterDev d c s).dmc = s.dmc := fire_dmc _ _ _
@[simp] theorem enterDev_pending (d : Dev) (c : Nat) (s : State) : (enterDev d c s).pending = s.pending := fire_pending _ _ _
@[simp] theorem enterDev_top (d : Dev) (c : Nat) (s : State) : (enterDev d c s).top = { s.top with dev := d, lastCause := c } := fire_top _ _ _

@[simp] theorem beginBoot_dev (s : State) : (beginBoot s).top.dev = .boot := by
  unfold beginBoot
  dsimp only
  split
  · exact ((keeps_fire (sub_refl _) (Keeps.refl _ _)).same.dev rfl).trans (enterDev_dev _ _ _)
  · exact enterDev_dev _ _ _

@[simp] theorem deviceReset_dev (cause : Nat) (s : State) : (deviceReset cause s).top.dev = .boot := beginBoot_dev _

@[simp] theorem getPin_setPin (i : Nat) (f : Pin → Pin) (s : State) : getPin (setPin i f s) i = f (getPin s i) := by
  simp [getPin, setPin, updPad]

theorem getPin_setPin_ne (i : Nat) (f : Pin → Pin) (s : State) {j : Nat} (h : j ≠ i) : getPin (setPin i f s) j = getPin s j := by
  simp only [getPin, setPin, updPad, mapGet_mapUpd_ne _ _ _ _ h]

theorem getPin_pad {s t : State} (h : t.pad = s.pad) (i : Nat) : getPin t i = getPin s i := by
  simp only [getPin, h]

/-- A mask bit of a source is a bit of its bank's word. -/
theorem evcBit_eq (s : State) (f : Nat → Fld) (src : Nat) : evcBit s f src = (getF s (f (src / 32))).testBit (src % 32) := by
  simp [evcBit, natBits, Nat.testBit, Nat.one_and_eq_mod_two]
/-- Latching a source sets its LATCH bit. -/
theorem latchSource_bit_self (src : Nat) (s : State) : evcBit (latchSource src s) F.EVC_LATCHb_LATCH src = true := by
  have h : getF (latchSource src s) (F.EVC_LATCHb_LATCH (src / 32)) = (getF s (F.EVC_LATCHb_LATCH (src / 32)) ||| 2 ^ (src % 32)) % 2 ^ 32 := by
    have e : ∀ u : State, getF u (F.EVC_LATCHb_LATCH (src / 32)) = getF u (F.EVC_LATCHb_LATCH (src / 32)) := fun _ => rfl
    unfold latchSource
    dsimp only
    split
    · exact getF_setF_self _ _ _
    · exact getF_setF_self _ _ _
  rw [evcBit_eq, h, Nat.testBit_mod_two_pow, Nat.testBit_or, Nat.testBit_two_pow_self]
  simp [Nat.mod_lt]
/-- Latching a source clears no LATCH bit. -/
theorem latchSource_bit_mono (src k : Nat) (s : State) (h : evcBit s F.EVC_LATCHb_LATCH k = true) : evcBit (latchSource src s) F.EVC_LATCHb_LATCH k = true := by
  by_cases hb : k / 32 = src / 32
  · have e : getF (latchSource src s) (F.EVC_LATCHb_LATCH (k / 32)) = (getF s (F.EVC_LATCHb_LATCH (k / 32)) ||| 2 ^ (src % 32)) % 2 ^ 32 := by
      rw [hb]
      unfold latchSource
      dsimp only
      split
      · exact getF_setF_self _ _ _
      · exact getF_setF_self _ _ _
    rw [evcBit_eq] at h ⊢
    rw [e, Nat.testBit_mod_two_pow, Nat.testBit_or, h]
    simp [Nat.mod_lt]
  · have a : (F.EVC_LATCHb_LATCH (k / 32)).addr ≠ (F.EVC_LATCHb_LATCH (src / 32)).addr := by
      simp only [F.EVC_LATCHb_LATCH]; omega
    have e : getF (latchSource src s) (F.EVC_LATCHb_LATCH (k / 32)) = getF s (F.EVC_LATCHb_LATCH (k / 32)) := by
      unfold latchSource
      dsimp only
      split
      · exact getF_setF_ne _ _ _ _ a
      · exact getF_setF_ne _ _ _ _ a
    rw [evcBit_eq] at h ⊢
    rw [e, h]
/-- The rate limit clears no LATCH bit. -/
theorem rateLimit_bit (src sev index : Nat) (d : List Nat) (s : State) (k : Nat) (h : evcBit s F.EVC_LATCHb_LATCH k = true) : evcBit (rateLimit src sev index d s) F.EVC_LATCHb_LATCH k = true := by
  have r : ∀ {u : State}, u.regs = s.regs → evcBit u F.EVC_LATCHb_LATCH k = true := by
    intro u hu; rw [evcBit_eq, getF_regs hu, ← evcBit_eq]; exact h
  unfold rateLimit
  dsimp only
  split
  · split
    · exact r rfl
    · have b : evcBit { bumpF F.EVC_CNT_OVERFLOW 1 s with evc := { (bumpF F.EVC_CNT_OVERFLOW 1 s).evc with lost := (bumpF F.EVC_CNT_OVERFLOW 1 s).evc.lost + 1 } } F.EVC_LATCHb_LATCH k = true := by
        rw [evcBit_eq] at h ⊢
        rw [← h]
        congr 1
        refine (getF_regs (s := bumpF F.EVC_CNT_OVERFLOW 1 s) rfl _).trans ?_
        exact getF_bumpF_ne _ _ _ _ (by simp only [F.EVC_LATCHb_LATCH, F.EVC_CNT_OVERFLOW]; omega)
      split
      · exact latchSource_bit_mono _ _ _ b
      · exact b
  · split
    · exact r rfl
    · split
      · exact r rfl
      · exact r rfl
/-- An enabled source that fires is latched. -/
theorem fireSev_bit (src sev index : Nat) (d : List Nat) (s : State) (h1 : evcExists src = true) (h2 : evcBit s F.EVC_ENb_EN src = true) :
    evcBit (fireSev src sev index d s) F.EVC_LATCHb_LATCH src = true := by
  unfold fireSev
  simp only [h1, h2]
  simp
  split
  · exact rateLimit_bit _ _ _ _ _ _ (latchSource_bit_self _ _)
  · exact latchSource_bit_self _ _
/-- An enabled source that fires is latched. -/
theorem fire_bit (src index : Nat) (s : State) (h1 : evcExists src = true) (h2 : evcBit s F.EVC_ENb_EN src = true) :
    evcBit (fire src index s) F.EVC_LATCHb_LATCH src = true := by
  unfold fire
  dsimp only
  apply fireSev_bit _ _ _ _ _ h1
  split
  · exact h2
  · rw [evcBit_eq] at h2 ⊢; rw [← h2]; exact congrArg (fun x => x.testBit (src % 32)) (getF_regs rfl _)

end Sys2Proof.Machine
end

