-- ==== Sys2Proof/Laws/Effects.lean ====
section
/-! SUPPORT. What shared operations of the meanings do, each said once: the preconditions of admin and Sirsis opcodes, switches of the
clock root, events, journal records, rows, and what a step keeps. -/

set_option linter.unusedSimpArgs false
set_option linter.unusedVariables false

namespace Sys2Proof.Machine

theorem step_core {s t : State} (h : step s = .next t) : ∃ q, ({ s with pending := q } : State).core.Keeps t.core := by
  unfold step at h
  cases hp : s.pending with
  | nil =>
    rw [hp] at h
    have k : Keeps 0x1cffc69cdf11bed s (blockTick s) := keeps_blockTick (sub_refl _) (Keeps.refl _ _)
    cases h
    exact ⟨s.pending, k.core⟩
  | cons c rest =>
    rw [hp] at h
    obtain ⟨u, hu, k⟩ := exec_keeps c { s with pending := rest }
    rw [show exec c { s with pending := rest } = .next t from h] at hu
    cases hu
    exact ⟨rest, k.core⟩

theorem writeTu_addend (s : State) (v off : Nat) (h : off = 0x20) : writeTu off v s = writeAddend v s := by
  unfold writeTu
  dsimp only
  split
  · rfl
  all_goals first | omega | (exact absurd h ‹_›)

theorem writeEffect_tu (w : Writer) (s : State) (a v : Nat) (h : a / 0x1000000 = 2) : writeEffect w a v s = writeTu (a % 0x1000000) v s := by
  unfold writeEffect
  dsimp only
  split
  all_goals first | rfl | omega | simp_all

theorem ports_cru (s : State) : (hfePortsDown s).cru = s.cru := by
  have k : Keeps 0xd0000d s (hfePortsDown s) := keeps_hfePortsDown (sub_refl _) (Keeps.refl _ _)
  exact k.same.cru rfl

theorem dbl_cru (s : State) : (doubleFault s).cru = { s.cru with doubleFault := s.cru.doubleFault || (!s.cru.coreGood && !s.cru.netGood) } := by
  unfold doubleFault
  split
  · rename_i h; simp [ports_cru, updCru, h]
  · rename_i h; cases hd : s.cru.doubleFault <;> cases hc : s.cru.coreGood <;> cases hn : s.cru.netGood <;> simp_all <;> (cases hs : s.cru; simp_all)

theorem apply_ok (d : Int) (s : State) (h : 0 ≤ (s.tu.t : Int) + d * 2 ^ 48) : ∃ y, tuApplyStep d s = (true, y) ∧
    y.tu = { s.tu with t := ((s.tu.t : Int) + d * 2 ^ 48).toNat + tuInc s, ticks := (s.tu.ticks + 1) % 2 ^ 64, stepRefused := false, stepTick := s.tu.ticks + 1 } ∧
    getF y F.TU_STATUS_STEPS = min 255 (getF s F.TU_STATUS_STEPS + 1) := by
  unfold tuApplyStep
  dsimp only
  rw [if_neg (by omega)]
  refine ⟨_, rfl, ?_, ?_⟩
  · rw [fire_tu, bumpF_tu]
    have g : ∀ a : Int, 0 ≤ a → ∃ n : Nat, a = n := fun a h => ⟨a.toNat, (Int.toNat_of_nonneg h).symm⟩
    obtain ⟨n, hn⟩ := g _ h
    rw [hn]
    rfl
  · rw [fire_getF _ _ _ _ (by decide), getF_bumpF_self]
    have q : ∀ w : Tu → Tu, getF (updTu w s) F.TU_STATUS_STEPS = getF s F.TU_STATUS_STEPS := fun w => getF_regs rfl _
    rw [q]
    rfl

theorem target_auto (s : State) (b : Bool) : getF (setF F.CRU_SWITCH_CTL_AUTO_RETURN (bitOf b) (setF F.CRU_SWITCH_CTL_TARGET 1 s)) F.CRU_SWITCH_CTL_TARGET = 1 := by
  simp only [getF, setF, F.CRU_SWITCH_CTL_AUTO_RETURN, F.CRU_SWITCH_CTL_TARGET, getReg_setReg_self]
  simp only [natSetBits, natBits, Nat.shiftRight_eq_div_pow]
  generalize getReg s 0x1000004 = x
  generalize bitOf b = y
  omega

theorem reqSwitch_cru (n : Nat) (r : Bool) (s : State) : ∃ sw rt hr rf, (requestSwitch n r s).cru = { s.cru with switching := sw, retrying := rt, heldReq := hr, refusalFired := rf } := by
  unfold requestSwitch
  split
  · exact ⟨_, _, _, _, rfl⟩
  · split
    · exact ⟨_, _, _, _, rfl⟩
    · split
      · dsimp only
        split
        · exact ⟨_, _, _, _, fire_cru _ _ _⟩
        · exact ⟨_, _, _, _, rfl⟩
      · exact ⟨_, _, _, _, rfl⟩

theorem coast_cru (s : State) : ∃ sw rt hr rf, (enterCoast s).cru = { s.cru with rootMode := 1, progHold := true, accFrozen := true, relocking := false, switching := sw, retrying := rt, heldReq := hr, refusalFired := rf } := by
  obtain ⟨a, b, c, d, h⟩ := reqSwitch_cru 1 true (updCru (fun c => { c with rootMode := 1, progHold := true, accFrozen := true, relocking := false, refusalFired := false }) s)
  exact ⟨a, b, c, d, h⟩

theorem coreBad_cru (n : Nat) (s : State) (h : s.cru.coreGood = true) :
    (coreBecomesBad n s).cru.coreGood = false ∧ (coreBecomesBad n s).cru.coreCount = s.cru.coreCount ∧ (coreBecomesBad n s).cru.netCount = s.cru.netCount ∧
    (coreBecomesBad n s).cru.coreStopped = s.cru.coreStopped ∧
    (s.cru.rootMode = 0 → (coreBecomesBad n s).cru.rootMode = 1 ∧ (coreBecomesBad n s).cru.progHold = true ∧ (coreBecomesBad n s).cru.accFrozen = true) ∧ (s.cru.netGood = false → (coreBecomesBad n s).cru.doubleFault = true) := by
  unfold coreBecomesBad
  rw [if_pos h]
  dsimp only
  generalize hy : fire 64 n _ = y
  have y1 : y.cru = { s.cru with coreGood := false } := by rw [← hy, fire_cru]; rfl
  rw [dbl_cru]
  split
  · obtain ⟨a, b, c, d, e⟩ := coast_cru y
    rw [e, y1]; simp
    intro hn; simp [hn]
  · rename_i hr
    rw [y1] at hr ⊢
    simp at hr
    simp [hr]
    intro hn; simp [hn]

theorem hold_cru (s : State) : (tuHoldover s).cru = s.cru := by
  have k : Keeps 0x11000d s (tuHoldover s) := keeps_tuHoldover (sub_refl _) (Keeps.refl _ _)
  exact k.same.cru rfl

theorem netBad_cru (n : Nat) (s : State) : (netBecomesBad n s).cru.coreGood = s.cru.coreGood ∧ (netBecomesBad n s).cru.coreCount = s.cru.coreCount ∧ (netBecomesBad n s).cru.netCount = s.cru.netCount ∧
    (netBecomesBad n s).cru.netGood = false ∧ (netBecomesBad n s).cru.netStopped = s.cru.netStopped ∧ (s.cru.netGood = true → (s.cru.rootMode = 0 → (netBecomesBad n s).cru.netOnRoot = true ∧ (netBecomesBad n s).cru.netFrozen = false) ∧ (s.cru.rootMode ≠ 0 → (netBecomesBad n s).cru.netFrozen = true)) := by
  unfold netBecomesBad
  split
  · dsimp only
    generalize hy : fire 65 n _ = y
    have y1 : y.cru = { s.cru with netGood := false } := by rw [← hy, fire_cru]; rfl
    rw [dbl_cru, hold_cru]
    split
    · rename_i hr; rw [y1] at hr
      simp at hr
      simp [updCru, updTu, y1, hr]
    · rename_i hr; rw [y1] at hr
      simp at hr
      simp [ports_cru, updCru, y1, hr]
  · rename_i h; simp at h; simp [h]

theorem fire_frame (src i : Nat) (s : State) : fire src i s = { s with regs := (fire src i s).regs, evc := (fire src i s).evc, out := (fire src i s).out, drawn := (fire src i s).drawn } := by
  have h := fire_aside (p := fun s : State => ({ s with regs := [], evc := evc0, out := [], drawn := 0 } : State)) (fun _ _ _ _ _ => rfl) src i s
  generalize fire src i s = t at h ⊢
  cases t; cases s; simp_all

theorem fireSev_frame (src sev i : Nat) (d : List Nat) (s : State) : fireSev src sev i d s = { s with regs := (fireSev src sev i d s).regs, evc := (fireSev src sev i d s).evc, out := (fireSev src sev i d s).out, drawn := (fireSev src sev i d s).drawn } := by
  have h := fireSev_aside (p := fun s : State => ({ s with regs := [], evc := evc0, out := [], drawn := 0 } : State)) (fun _ _ _ _ _ => rfl) src sev i d s
  generalize fireSev src sev i d s = t at h ⊢
  cases t; cases s; simp_all

theorem fire_keep {β : Type} {p : Evc → β} (h1 : ∀ e x, p { e with fifo := x } = p e) (h2 : ∀ e x, p { e with src := x } = p e) (h3 : ∀ e x, p { e with lost := x } = p e) (src i : Nat) (s : State) : p (fire src i s).evc = p s.evc := by
  have hl : ∀ n (u : State), p (latchSource n u).evc = p u.evc := by
    intro n u
    unfold latchSource
    dsimp only
    split <;> exact h2 _ _
  have hr : ∀ a b c d (u : State), p (rateLimit a b c d u).evc = p u.evc := by
    intro a b c d u
    unfold rateLimit
    dsimp only
    split
    · split
      · exact h1 _ _
      · split
        · rw [hl]; exact h3 _ _
        · exact h3 _ _
    · split
      · exact h2 _ _
      · split
        · exact (h1 _ _).trans (h2 _ _)
        · exact h2 _ _
  have hs : ∀ a b c d (u : State), p (fireSev a b c d u).evc = p u.evc := by
    intro a b c d u
    unfold fireSev
    dsimp only
    split
    · rfl
    · split
      · rfl
      · split
        · rw [hr, hl]
        · rw [hl]
  unfold fire
  dsimp only
  split
  · exact hs _ _ _ _ _
  · exact hs _ _ _ _ _

theorem fire_rec (src i : Nat) (s : State) : (fire src i s).evc.badSectors = s.evc.badSectors ∧ (fire src i s).evc.programming = s.evc.programming ∧ (fire src i s).evc.nextSeq = s.evc.nextSeq ∧ (fire src i s).evc.filling = s.evc.filling :=
  ⟨fire_keep (p := Evc.badSectors) (fun _ _ => rfl) (fun _ _ => rfl) (fun _ _ => rfl) _ _ _, fire_keep (p := Evc.programming) (fun _ _ => rfl) (fun _ _ => rfl) (fun _ _ => rfl) _ _ _,
   fire_keep (p := Evc.nextSeq) (fun _ _ => rfl) (fun _ _ => rfl) (fun _ _ => rfl) _ _ _, fire_keep (p := Evc.filling) (fun _ _ => rfl) (fun _ _ => rfl) (fun _ _ => rfl) _ _ _⟩

theorem fire_mir (src i : Nat) (s : State) : (fire src i s).evc.mirror = s.evc.mirror ∧ (fire src i s).evc.mirrorDown = s.evc.mirrorDown :=
  ⟨fire_keep (p := Evc.mirror) (fun _ _ => rfl) (fun _ _ => rfl) (fun _ _ => rfl) _ _ _, fire_keep (p := Evc.mirrorDown) (fun _ _ => rfl) (fun _ _ => rfl) (fun _ _ => rfl) _ _ _⟩

theorem fire_off (src i : Nat) (s : State) (h : evcBit s F.EVC_ENb_EN src = false) : fire src i s = { s with drawn := (fire src i s).drawn } := by
  unfold fire
  dsimp only
  split
  · unfold fireSev; simp [h]
  · have h' : evcBit (drawFree 32 s).2 F.EVC_ENb_EN src = false := by rw [evcBit_eq] at h ⊢; rw [← h]; exact congrArg (fun x => x.testBit (src % 32)) (getF_regs rfl _)
    unfold fireSev; simp only [h', if_true, ite_self]; rfl

theorem mapGet_mem {α : Type} {d : α} {m : SMap α} {k : Nat} : mapGet d m k = d ∨ (k, mapGet d m k) ∈ m := by
  induction m with
  | nil => exact Or.inl rfl
  | cons p m ih =>
    obtain ⟨j, v⟩ := p
    unfold mapGet
    split
    · rename_i h; subst h; exact Or.inr (by simp)
    · rcases ih with ih | ih
      · exact Or.inl ih
      · exact Or.inr (List.mem_cons_of_mem _ ih)

theorem iteBegin_part {β : Type} {p : State → β} (h : ∀ (s : State) r i, p { s with regs := r, ite := { s.ite with msgs := i } } = p s) (cls : Nat) (s : State) : p (iteBegin cls s) = p s := by
  unfold iteBegin
  dsimp only
  split
  · exact h s _ _
  · split
    · rfl
    · split
      · rfl
      · split
        · rfl
        · exact h s _ _

theorem keyAccept_ite (t v : Nat) (s : State) : (keyAccept t v s).ite = { s.ite with busy := true, nextTenant := t, nextKcv := v } := rfl

theorem checkUnit_ite (s : State) (cls a b c : Nat) (l : List Nat) : checkUnit (iteBegin cls s) a b c l = checkUnit s a b c l :=
  iteBegin_part (p := fun s => checkUnit s a b c l) (fun _ _ _ => rfl) cls s

theorem fold_jnl {α : Type} (f : α → State → State) (h : ∀ a u, (f a u).jnl = u.jnl) (l : List α) (s : State) : (l.foldl (fun s a => f a s) s).jnl = s.jnl := by
  induction l generalizing s with
  | nil => rfl
  | cons a l ih => exact (ih _).trans (h _ _)

theorem accept_plain (l : List Rec) (s : State) (h : ∀ r ∈ l, r.after = .nothing) :
    (l.foldl (fun s r => acceptRec r s) s).jnl.accSeq = s.jnl.accSeq ∧ (l.foldl (fun s r => acceptRec r s) s).jnl.accJsn = s.jnl.accJsn ∧
    (l.foldl (fun s r => acceptRec r s) s).jnl.pages = s.jnl.pages ∧ (l.foldl (fun s r => acceptRec r s) s).dur = l.foldl (fun d r => r.patches.foldl applyPatch d) s.dur := by
  induction l generalizing s with
  | nil => exact ⟨rfl, rfl, rfl, rfl⟩
  | cons r l ih =>
    have hr := h r (List.mem_cons_self)
    have e : (acceptRec r s).jnl.accSeq = s.jnl.accSeq ∧ (acceptRec r s).jnl.accJsn = s.jnl.accJsn ∧ (acceptRec r s).jnl.pages = s.jnl.pages ∧ (acceptRec r s).dur = r.patches.foldl applyPatch s.dur := by
      unfold acceptRec
      rw [hr]
      dsimp only [runAfter]
      split <;> exact ⟨rfl, rfl, rfl, rfl⟩
    obtain ⟨a, b, c, d⟩ := ih (acceptRec r s) (fun x hx => h x (List.mem_cons_of_mem _ hx))
    simp only [List.foldl_cons]
    exact ⟨a.trans e.1, b.trans e.2.1, c.trans e.2.2.1, by rw [d, e.2.2.2]⟩

theorem fold_same {α β : Type} (p : State → β) (f : State → α → State) (h : ∀ w a, p (f w a) = p w) (l : List α) (w : State) : p (l.foldl f w) = p w := by
  induction l generalizing w with
  | nil => rfl
  | cons a l ih => exact (ih _).trans (h _ _)

theorem issue_jsn (typ len : Nat) (w : List Nat) (p : List Patch) (a : After) (s : State) : (issue typ len w p a s).jnl.nextJsn = s.jnl.nextJsn + 1 := rfl

theorem issue_buffer (typ len : Nat) (w : List Nat) (p : List Patch) (a : After) (s : State) : (issue typ len w p a s).jnl.buffer = s.jnl.buffer ++ [⟨typ, len :: w, p, a⟩] := rfl

theorem updUnit_fold_frame {α : Type} (k : α → Nat) (f : α → List UnitV → List UnitV) (l : List α) (s : State) :
    l.foldl (fun s p => updUnit (k p) (f p) s) s = { s with units := (l.foldl (fun s p => updUnit (k p) (f p) s) s).units } := by
  induction l generalizing s with
  | nil => rfl
  | cons a l ih => simp only [List.foldl_cons]; rw [ih]; rfl

theorem placeLogRow_stripe (k r : Nat) (s : State) : getStripe (placeLogRow k r s) k = { getStripe s k with filling := (getStripe s k).filling.drop (((getStripe s k).members.length - 2) * 48) } := by
  unfold placeLogRow
  extract_lets x n row u
  have h : u.tabs = s.tabs := by simp only [u]; rw [updUnit_fold_frame]
  have e : getStripe u k = getStripe s k := by show mapGet stripe0 u.tabs.stripes k = _; rw [h]; rfl
  show getStripe (updStripe k (fun x => { x with filling := x.filling.drop (n * 48) }) u) k = _
  have g : ∀ f, getStripe (updStripe k f u) k = f (getStripe u k) := fun f => mapGet_mapUpd_self _ _ _ _
  rw [g, e]

theorem issueRow_row (k r : Nat) (s : State) : getRow (issueRow k r s) k r = { row0 with vat := true, pail := true } := by
  unfold issueRow
  exact mapGet_mapUpd_self row0 _ _ (fun _ => { row0 with vat := true, pail := true })

theorem placeLogRow_jnl (k r : Nat) (s : State) : (placeLogRow k r s).jnl = s.jnl ∧ (placeLogRow k r s).wpe = s.wpe := by
  unfold placeLogRow
  extract_lets x n row u
  have h : u = { s with units := u.units } := updUnit_fold_frame _ _ _ _
  constructor
  · show u.jnl = _; rw [h]
  · show u.wpe = _; rw [h]

theorem eq_of_keeps_pow {s t : State} {m : Nat} (h : Keeps m s t) (hm : m.testBit 14 = false) : t.top.poweredSec = s.top.poweredSec := congrArg (fun x => x.2.1) (h.same.life hm)

theorem getPrio_updPrio (p : Nat) (b : Bool) (f : Prio → Prio) (s : State) : getPrio (updPrio p b f s) p b = f (getPrio s p b) := by
  unfold getPrio updPrio
  rw [getPort_updPort]
  cases b <;> rfl

theorem adminRun_ok {s : State} {slot opc : Nat} {f : Task → Ctl → State → State} (h : adminRuns s slot opc = true) : adminRun slot opc f s = f (getTask s slot) (ctlOf s (getTask s slot)) s := by
  simp only [adminRuns, Bool.and_eq_true, beq_iff_eq, Bool.not_eq_true'] at h
  obtain ⟨⟨⟨⟨⟨h1, h2⟩, h3⟩, h4⟩, h5⟩, h6⟩ := h
  unfold adminRun
  dsimp only
  rw [if_neg (by rw [h1]; simp [h2]), if_neg (by rw [h3]; simp [h4]), if_neg (by rw [h5]; decide), if_neg (by rw [h6]; decide)]

theorem adminRun_idle {s : State} {slot opc : Nat} {f : Task → Ctl → State → State} (h : adminWaits s slot = false) : adminRun slot opc f s = s := by
  unfold adminRun
  dsimp only
  rw [if_pos (.inl h)]

theorem withData_ok {s : State} {slot n : Nat} {f : List Nat → State → State} (h1 : (getTask s slot).cap.inCapsule ≠ []) (h2 : (getTask s slot).cap.inCapsule.length = n) : withData slot n f s = f (getTask s slot).cap.inCapsule s := by
  unfold withData
  dsimp only
  rw [if_pos h1, if_pos h2]

theorem admitZoned_open {s : State} {zk nlb : Nat} {pos : Option Nat} (h1 : (getZone s zk).isOpen = true) (h2 : (getZone s zk).stripe.isSome = true) (h3 : (getZone s zk).shrinking = false)
    (h4 : pos = some (getZone s zk).adm ∨ pos = none) (h5 : (getZone s zk).adm + nlb ≤ (getZone s zk).zcap) : admitZoned zk pos nlb s = .inr s := by
  have h6 : (getZone s zk).st ≠ .offline ∧ (getZone s zk).st ≠ .readOnly ∧ (getZone s zk).st ≠ .full := by
    unfold Zone.isOpen at h1
    refine ⟨?_, ?_, ?_⟩ <;> intro h <;> rw [h] at h1 <;> cases h1
  unfold admitZoned
  dsimp only
  rw [if_neg h6.1, if_neg h6.2.1, if_neg (by rw [h3]; simp [h6.2.2]), if_neg (by rcases h4 with h | h <;> simp [h]), if_neg (by omega), if_pos h1]
  dsimp only
  rw [if_pos h2]
  dsimp only
  rw [if_pos h1]

theorem getLink_updLink' (k : Nat) (f : Link → Link) (s : State) : getLink (updLink k f s) k = f (getLink s k) := mapGet_mapUpd_self link0 s.flc.links k f

theorem updLink_same (k : Nat) (f : Link → Link) (s : State) : (∀ j, j ≠ k → getLink (updLink k f s) j = getLink s j) ∧ (updLink k f s) = { s with flc := { s.flc with links := (updLink k f s).flc.links } } :=
  ⟨fun j hj => mapGet_mapUpd_ne link0 s.flc.links k f hj, rfl⟩

theorem getDie_updDie' (d : Nat) (f : Die → Die) (s : State) : getDie (updDie d f s) d = f (getDie s d) := mapGet_mapUpd_self die0 s.flc.dies d f

theorem sirRun_ok {s : State} {path op : Nat} {q : Packet} {f : Packet → State → State} (h : sirRuns s path op q = true) : sirRun path op f s = f q s := by
  have h' := of_decide_eq_true h
  unfold sirRun
  rw [h'.1]
  dsimp only
  rw [if_neg (by simp [h'.2.1]), h'.2.2]

theorem sirRecord_ok {s : State} {path op : Nat} {q : Packet} {f : Packet → State → State} (h : sirRecords s path op q = true) : sirRecord path op f s = f q s := by
  simp only [sirRecords, Bool.and_eq_true, Bool.not_eq_true'] at h
  unfold sirRecord
  rw [if_neg (by rw [h.1.1, h.1.2]; simp), sirRun_ok h.2]

theorem sirRun_none {s : State} {path op : Nat} {f : Packet → State → State} (h : (getPath s path).packet = none) : sirRun path op f s = s := by
  unfold sirRun
  rw [h]

theorem sirRecord_none {s : State} {path op : Nat} {f : Packet → State → State} (h : (getPath s path).packet = none) : sirRecord path op f s = s := by
  unfold sirRecord
  rw [sirRun_none h]; split <;> rfl

theorem sirRun_refused {s : State} {path op st d : Nat} {q : Packet} {f : Packet → State → State} (h1 : (getPath s path).packet = some q) (h2 : q.opcode = op) (h3 : sirState s op = some (st, d)) : sirRun path op f s = sirAnswer path st d [] s := by
  unfold sirRun
  rw [h1]
  dsimp only
  rw [if_neg (by simp [h2]), h3]

end Sys2Proof.Machine
end

section
/-! An access that no register answers (00 R17, 02 R64, 17 Table 17-8): its status, and that it neither reads nor writes anything. -/

namespace Sys2Proof.Machine

/-- 02 R64: the addresses above the last block window. -/
theorem accessStatus_above_windows {s : State} {a : Nat} (h : 0x14000000 ≤ a) : accessStatus s a = 7 := if_pos h

/-- 00 R17: an offset that no descriptor of a reachable block covers. -/
theorem accessStatus_of_regFind_none {s : State} {a : Nat} (hup : blockUp s (a / 0x1000000) = true) (hnone : regFind a = none) :
    accessStatus s a = 7 := by
  simp [accessStatus, hup, hnone]

theorem regReadAt_of_status_ne_zero {s : State} {a : Nat} (h : accessStatus s a ≠ 0) : regReadAt a s = (0, s) := if_neg h

theorem regWriteAt_of_status_ne_zero {s : State} {w : Writer} {a v : Nat} (h : accessStatus s a ≠ 0) : regWriteAt w a v s = s :=
  if_pos (.inl h)

/-- Settles O10: the status is 7 in both ranges, and any status but 0 makes the read answer 0 and the write do nothing. -/
theorem unmappedAccess : Obligations.UnmappedAccess := by
  intro s w a v hunmapped
  have hstatus : accessStatus s a = 7 := by
    rcases hunmapped with habove | ⟨hup, hnone⟩
    · exact accessStatus_above_windows habove
    · exact accessStatus_of_regFind_none hup hnone
  have hrefused : accessStatus s a ≠ 0 := by simp [hstatus]
  exact ⟨hstatus, regReadAt_of_status_ne_zero hrefused, regWriteAt_of_status_ne_zero hrefused⟩

/-- The hypothesis of O10 is met at reset, inside a window: the CRU window is reachable, and its last offset holds no register. -/
theorem regWriteAt_reset_unmapped_cru : regWriteAt .operator 0x1FFFFFC 1 core.reset = core.reset :=
  (unmappedAccess core.reset .operator 0x1FFFFFC 1 (.inr ⟨by decide, by decide⟩)).2.2

end Sys2Proof.Machine
end

section
/-! Writes of the task-slot quotas in a tenant's page (04 R133): what each write answers, and its refusals. -/

namespace Sys2Proof.Machine

theorem exec_taskQuotaWrite (t : Nat) (isMax : Bool) (v : Word) (s : State) :
    exec (.taskQuotaWrite t isMax v) s = .next (taskQuota t isMax v.toNat s) := rfl

/-- A write of MIN in a tenant's page without a reserved value: the sum is judged first, then MAX (R133). -/
theorem taskQuota_min {s : State} {t v w : Nat} (hpos : 1 ≤ t) (hle : t ≤ 512) (hw : tiuMerged s (tiuAddr t 0x18) v = (w, false)) :
    taskQuota t false v s =
      if 258048 < minSum s - getF s (F.TIU_TEN_TASK_MIN_MIN t) + w then tiuResult t 3 s
      else if getF s (F.TIU_TEN_TASK_MAX_MAX t) < w then tiuResult t 4 s
      else tiuResult t 0 (setRegSaved (tiuAddr t 0x18) w s) := by
  simp [taskQuota, hw, Nat.not_lt.mpr hle, Nat.ne_of_gt hpos]

/-- A write of MAX in a tenant's page without a reserved value: only MIN is judged (R133). -/
theorem taskQuota_max {s : State} {t v w : Nat} (hpos : 1 ≤ t) (hle : t ≤ 512) (hw : tiuMerged s (tiuAddr t 0x1C) v = (w, false)) :
    taskQuota t true v s =
      if w < getF s (F.TIU_TEN_TASK_MIN_MIN t) then tiuResult t 4 s else tiuResult t 0 (setRegSaved (tiuAddr t 0x1C) w s) := by
  simp [taskQuota, hw, Nat.not_lt.mpr hle, Nat.ne_of_gt hpos]

theorem tiuAddr_taskMin (t : Nat) : tiuAddr t 0x18 = 0x5100018 + t * 0x1000 := by unfold tiuAddr; omega

theorem tiuAddr_taskMax (t : Nat) : tiuAddr t 0x1C = 0x510001C + t * 0x1000 := by unfold tiuAddr; omega

/-- Settles O7: of a write of MIN the sum is judged before MAX, of a write of MAX only MIN, and a refusal is no more than the result register. -/
theorem taskSlotGuarantees : Obligations.TaskSlotGuarantees := by
  refine ⟨?minRaisesSum, ?minAboveMax, ?maxBelowMin⟩
  case minRaisesSum =>
    intro s t w v hpos hle hw hsum
    rw [← tiuAddr_taskMin] at hw
    rw [exec_taskQuotaWrite, taskQuota_min hpos hle hw, minSum, if_pos hsum, tiuResult]
  case minAboveMax =>
    intro s t w v hpos hle hw hsum hmax
    rw [← tiuAddr_taskMin] at hw
    rw [exec_taskQuotaWrite, taskQuota_min hpos hle hw, minSum, if_neg (Nat.not_lt.mpr hsum), if_pos hmax, tiuResult]
  case maxBelowMin =>
    intro s t w v hpos hle hw hmin
    rw [← tiuAddr_taskMax] at hw
    rw [exec_taskQuotaWrite, taskQuota_max hpos hle hw, if_pos hmin, tiuResult]

/-- A state one slot below the ceiling of R133, all of it guaranteed to tenant 2. -/
def tenantTwoNearCeiling : State := setF (F.TIU_TEN_TASK_MIN_MIN 2) 258047 State.reset

theorem minSum_reset : minSum State.reset = 0 := by decide +kernel

theorem minSum_tenantTwoNearCeiling : minSum tenantTwoNearCeiling = 258047 := by decide +kernel

/-- A slot more reaches the ceiling and is granted. -/
theorem exec_taskMin_at_ceiling :
    exec (.taskQuotaWrite 1 false 1#32) tenantTwoNearCeiling = .next (tiuResult 1 0 (setRegSaved 0x5101018 1 tenantTwoNearCeiling)) := by
  rw [exec_taskQuotaWrite, taskQuota_min (w := 1) (by decide) (by decide) (by decide), minSum_tenantTwoNearCeiling]
  rfl

/-- The first clause of O7 is met at 258,049, the first sum above the ceiling. -/
theorem exec_taskMin_above_ceiling :
    exec (.taskQuotaWrite 1 false 2#32) tenantTwoNearCeiling = .next (tiuResult 1 3 tenantTwoNearCeiling) :=
  taskSlotGuarantees.1 _ 1 2 _ (by decide) (by decide) (by decide)
    (by rw [← minSum, minSum_tenantTwoNearCeiling]; decide)

/-- The second clause of O7 is met at reset, where MAX is 4,096, by a MIN that brings the sum to the ceiling exactly. -/
theorem exec_taskMin_above_max :
    exec (.taskQuotaWrite 1 false 258048#32) State.reset = .next (tiuResult 1 4 State.reset) :=
  taskSlotGuarantees.2.1 _ 1 258048 _ (by decide) (by decide) (by decide)
    (by rw [← minSum, minSum_reset]; decide) (by decide)

/-- The third clause of O7 is met by a MAX one below the MIN of tenant 2. -/
theorem exec_taskMax_below_min :
    exec (.taskQuotaWrite 2 true 258046#32) tenantTwoNearCeiling = .next (tiuResult 2 4 tenantTwoNearCeiling) :=
  taskSlotGuarantees.2.2 _ 2 258046 _ (by decide) (by decide) (by decide) (by decide)

end Sys2Proof.Machine
end

section
/-! A die-block at its wear limit when its erase is due (11 R418): what a retirement makes of it, and which of its two causes applies. -/

namespace Sys2Proof.Machine

theorem exec_eraseBegin (r : Nat) (s : State) : exec (.eraseBegin r) s = execEraseBegin r s := rfl

@[simp] theorem getBlock_fire (src index r : Nat) (s : State) : getBlock (fire src index s) r = getBlock s r := by
  rw [getBlock, fire_tabs, getBlock]

@[simp] theorem getBlock_issue (typ len : Nat) (words : List Nat) (patches : List Patch) (after : After) (r : Nat) (s : State) :
    getBlock (issue typ len words patches after s) r = getBlock s r := rfl

/-- 11 R435: of a die-block in use, a retirement changes the state and the stage alone. -/
theorem getBlock_retireBlock_self {r cause : Nat} {s : State} (hst : (getBlock s r).st ≠ .retired) :
    getBlock (retireBlock r cause s) r = { getBlock s r with st := .retired, stage := 0 } := by
  rw [retireBlock, if_neg hst, getBlock_fire, getBlock_issue, getBlock_updBlock]

theorem st_of_waitsErase {s : State} {r : Nat} (h : waitsErase s r = true) : (getBlock s r).st = .needsErase ∨ (getBlock s r).st = .released := by
  simp only [waitsErase, Bool.or_eq_true, Bool.and_eq_true, beq_iff_eq] at h
  exact h.imp_right fun ⟨⟨hst, _⟩, _⟩ => hst

theorem st_ne_retired_of_waitsErase {s : State} {r : Nat} (h : waitsErase s r = true) : (getBlock s r).st ≠ .retired := by
  rcases st_of_waitsErase h with hst | hst <;> simp [hst]

/-- Nothing holds back the erase of a die-block: its die serves, the journal's buffer has room and no Sanitize is active. -/
structure EraseDue (s : State) (r : Nat) : Prop where
  die : refDie r < linkCount s * 32
  block : refBlock r < 3800
  notAnchor : isAnchor r = false
  readsOk : s.top.readsOk = true
  waits : waitsErase s r = true
  notLost : dieIsLost s (refDie r) = false
  usable : (getDie s (refDie r)).usable = true
  room : bufFull s = false
  noSanitize : s.tabs.san.active = false

/-- The cause of a retirement in place of an erase: 3 on a draining die (11 R436), else 2, the wear limit (R418). -/
def eraseRetireCause (s : State) (r : Nat) : Nat := if (getDie s (refDie r)).draining then 3 else 2

/-- What ERASE_BEGIN does to a die-block whose erase is due and would be charged (11 R417, R418, R436). -/
theorem execEraseBegin_charged {s : State} {r : Nat} (hdue : EraseDue s r) (hfresh : (getBlock s r).unconf = false) :
    execEraseBegin r s =
      if (getDie s (refDie r)).draining then .next (zmSettle s (retireBlock r 3 s))
      else if getF s F.MME_WEAR_CFG_LIMIT < (getBlock s r).wear + eraseCharge (eraseMode s) then .next (zmSettle s (retireBlock r 2 s))
      else .next (issueErase r (eraseMode s) false s) := by
  obtain ⟨hdie, hblock, hanchor, hreads, hwaits, hlost, husable, hroom, hsan⟩ := hdue
  simp [execEraseBegin, Nat.not_le.mpr hdie, Nat.not_le.mpr hblock, hanchor, hreads, hwaits, hlost, husable, hroom, hsan, hfresh]

/-- A die-block that its erase would take past the limit is retired, whether or not its die drains. -/
theorem execEraseBegin_worn {s : State} {r : Nat} (hdue : EraseDue s r) (hfresh : (getBlock s r).unconf = false)
    (hworn : getF s F.MME_WEAR_CFG_LIMIT < (getBlock s r).wear + eraseCharge (eraseMode s)) :
    execEraseBegin r s = .next (zmSettle s (retireBlock r (eraseRetireCause s r) s)) := by
  rw [execEraseBegin_charged hdue hfresh, eraseRetireCause]
  by_cases hdrain : (getDie s (refDie r)).draining = true
  · rw [if_pos hdrain, if_pos hdrain]
  · rw [if_neg hdrain, if_neg hdrain, if_pos hworn]

/-- Settles O8: the retirement takes the place of the erase, and it leaves the wear count uncharged. -/
theorem wornBlockIsRetired : Obligations.WornBlockIsRetired := by
  intro s r hdie hblock hanchor hreads hwaits hlost husable hroom hsan hfresh hworn
  have hdue : EraseDue s r := ⟨hdie, hblock, hanchor, hreads, hwaits, hlost, husable, hroom, hsan⟩
  have hretired := getBlock_retireBlock_self (cause := eraseRetireCause s r) (st_ne_retired_of_waitsErase hwaits)
  exact ⟨eraseRetireCause s r, _, rfl, execEraseBegin_worn hdue hfresh hworn, by rw [hretired], by rw [hretired]⟩

/-- A device that serves reads, with die-block 2 of die 0 at the given wear: it waits for an erase in SLC mode, which charges 1. -/
def blockTwoWornTo (wear : Nat) : State :=
  updBlock 8192 (fun b => { b with wear := wear }) (updTop (fun t => { t with readsOk := true }) State.reset)

theorem eraseDue_blockTwoWornTo_below_limit : EraseDue (blockTwoWornTo 32999) 8192 := by
  constructor <;> decide

theorem eraseDue_blockTwoWornTo_limit : EraseDue (blockTwoWornTo 33000) 8192 := by
  constructor <;> decide

/-- One unit below the limit of reset, 33,000, the erase reaches the limit exactly and begins. -/
theorem exec_eraseBegin_below_limit :
    exec (.eraseBegin 8192) (blockTwoWornTo 32999) = .next (issueErase 8192 2 false (blockTwoWornTo 32999)) := by
  have hmode : eraseMode (blockTwoWornTo 32999) = 2 := by decide
  rw [exec_eraseBegin, execEraseBegin_charged eraseDue_blockTwoWornTo_below_limit (by decide), if_neg (by decide), if_neg (by decide), hmode]

/-- The hypotheses of O8 are met at the limit, the lowest wear count that an SLC erase takes past it. -/
theorem exec_eraseBegin_at_limit : ∃ cause u, u = retireBlock 8192 cause (blockTwoWornTo 33000) ∧
    exec (.eraseBegin 8192) (blockTwoWornTo 33000) = .next (zmSettle (blockTwoWornTo 33000) u) ∧
    (getBlock u 8192).st = .retired ∧ (getBlock u 8192).wear = 33000 := by
  obtain ⟨hdie, hblock, hanchor, hreads, hwaits, hlost, husable, hroom, hsan⟩ := eraseDue_blockTwoWornTo_limit
  exact wornBlockIsRetired _ 8192 hdie hblock hanchor hreads hwaits hlost husable hroom hsan (by decide) (by decide)

end Sys2Proof.Machine
end

section
/-! What a step keeps: the invariants (18 Table 18-6, 19 R697, R699, 17 Table 17-5) and the frame of every command, both read off
`step_core` and `exec_keeps`. -/

namespace Sys2Proof.Machine

/-- Settles O1: both forms are the second branch of `step`. -/
theorem stepRunsTheFrontCommand : Obligations.StepRunsTheFrontCommand := by
  refine ⟨fun c rest s => rfl, fun c rest s hpending => ?_⟩
  rw [step, hpending]

/-- Settles O2: the core of `exec_keeps` holds of every command in every state. -/
theorem everyCommandCompletes : Obligations.EveryCommandCompletes := by
  intro c s
  obtain ⟨t, hexec, hkeeps⟩ := exec_keeps c s
  exact ⟨t, hexec, hkeeps.core.pending, hkeeps.core.fuse, hkeeps.core.out, hkeeps.core.drawn⟩

/-- Table 18-6: the protection level is 2 exactly when its fuse is blown. -/
theorem protLevel_of_pl2 {s : State} (hpl2 : s.fuse.pl2 = true) : protLevel s = 2 := by
  simp [protLevel, hpl2]

/-- Settles O4: no step clears the fuse of protection level 2, and the fuse alone makes the level. -/
theorem protectionLevelTwoIsForEver : Obligations.ProtectionLevelTwoIsForEver := by
  intro s t _ hpl2 hstep
  obtain ⟨_, hcore⟩ := step_core hstep
  have hpl2' : t.fuse.pl2 = true := hcore.pl2 hpl2
  exact ⟨protLevel_of_pl2 hpl2', hpl2'⟩

/-- The state after reset of a device whose fuse of PL2 is blown. -/
def resetAtLevelTwo : State := { State.reset with fuse := { State.reset.fuse with pl2 := true } }

/-- The hypotheses of O4 are met by an idle step after reset. -/
theorem step_resetAtLevelTwo : ∃ t, step resetAtLevelTwo = .next t ∧ protLevel t = 2 :=
  ⟨_, rfl, (protectionLevelTwoIsForEver resetAtLevelTwo _ (protLevel_of_pl2 rfl) rfl rfl).1⟩

/-- Settles O5: the three bounds stand in the core that every step keeps. -/
theorem queuesKeepTheirBounds : Obligations.QueuesKeepTheirBounds := by
  intro s t hfifo hsram htask hstep
  obtain ⟨_, hcore⟩ := step_core hstep
  exact ⟨hcore.fifo hfifo, hcore.sram hsram, hcore.taskSt htask⟩

/-- Settles O6: the canonical form of the three maps stands in the core that every step keeps. -/
theorem storedDataKeepsItsForm : Obligations.StoredDataKeepsItsForm := by
  intro s t hregs hbuf hstaging hstep
  obtain ⟨_, hcore⟩ := step_core hstep
  exact ⟨hcore.regs hregs, hcore.buf hbuf, hcore.staging hstaging⟩

/-- What a command leaves alone, by its mask. -/
theorem same_of_exec {c : Instr} {s t : State} (h : exec c s = .next t) : Same (execMask c) s t := by
  obtain ⟨u, hu, hkeeps⟩ := exec_keeps c s
  obtain rfl : u = t := by simpa [hu] using h
  exact hkeeps.same

/-- Settles O54: of a command that is not named for a part, the part's bit in `execMask` is 0. -/
theorem frameOfPowerState : Obligations.FrameOfPowerState := by
  intro c s t hexec
  have hsame := same_of_exec hexec
  refine ⟨?dev, ?req, ?lastCause, ?result, ?quiesce, ?pwr, ?drain, ?skim, ?served, ?life⟩
  case dev => cases c <;> (try exact trivial) <;> exact hsame.dev (by dsimp only [execMask]; decide)
  case req => cases c <;> (try exact trivial) <;> exact hsame.req (by dsimp only [execMask]; decide)
  case lastCause => cases c <;> (try exact trivial) <;> exact hsame.lastCause (by dsimp only [execMask]; decide)
  case result => cases c <;> (try exact trivial) <;> exact hsame.result (by dsimp only [execMask]; decide)
  case quiesce => cases c <;> (try exact trivial) <;> exact hsame.quiesce (by dsimp only [execMask]; decide)
  case pwr => cases c <;> (try exact trivial) <;> exact hsame.pwr (by dsimp only [execMask]; decide)
  case drain => cases c <;> (try exact trivial) <;> exact hsame.drain (by dsimp only [execMask]; decide)
  case skim => cases c <;> (try exact trivial) <;> exact hsame.skim (by dsimp only [execMask]; decide)
  case served => cases c <;> (try exact trivial) <;> exact hsame.served (by dsimp only [execMask]; decide)
  case life => cases c <;> (try exact trivial) <;> exact hsame.life (by dsimp only [execMask]; decide)

/-- Settles O55: of a command that is not named for a part, the part's bit in `execMask` is 0. -/
theorem frameOfClocksPinsAndStore : Obligations.FrameOfClocksPinsAndStore := by
  intro c s t hexec
  have hsame := same_of_exec hexec
  refine ⟨?cru, ?tu, ?pad, ?fuse, ?held, ?settings, ?fws, ?evc⟩
  case cru => cases c <;> (try exact trivial) <;> exact hsame.cru (by dsimp only [execMask]; decide)
  case tu => cases c <;> (try exact trivial) <;> exact hsame.tu (by dsimp only [execMask]; decide)
  case pad => cases c <;> (try exact trivial) <;> exact hsame.pad (by dsimp only [execMask]; decide)
  case fuse => cases c <;> (try exact trivial) <;> exact hsame.fuse (by dsimp only [execMask]; decide)
  case held => cases c <;> (try exact trivial) <;> exact hsame.held (by dsimp only [execMask]; decide)
  case settings => cases c <;> (try exact trivial) <;> exact hsame.settings (by dsimp only [execMask]; decide)
  case fws => cases c <;> (try exact trivial) <;> exact hsame.fws (by dsimp only [execMask]; decide)
  case evc => cases c <;> (try exact trivial) <;> exact hsame.evc (by dsimp only [execMask]; decide)

/-- Settles O56: of a command that is not named for a part, the part's bit in `execMask` is 0. -/
theorem frameOfHostSide : Obligations.FrameOfHostSide := by
  intro c s t hexec
  have hsame := same_of_exec hexec
  refine ⟨?conns, ?ports, ?lanes, ?counters, ?hfe, ?tasks, ?ctls, ?tenants, ?qe⟩
  case conns => cases c <;> (try exact trivial) <;> exact hsame.conns (by dsimp only [execMask]; decide)
  case ports => cases c <;> (try exact trivial) <;> exact hsame.ports (by dsimp only [execMask]; decide)
  case lanes => cases c <;> (try exact trivial) <;> exact hsame.lanes (by dsimp only [execMask]; decide)
  case counters => cases c <;> (try exact trivial) <;> exact hsame.counters (by dsimp only [execMask]; decide)
  case hfe => cases c <;> (try exact trivial) <;> exact hsame.hfe (by dsimp only [execMask]; decide)
  case tasks => cases c <;> (try exact trivial) <;> exact hsame.tasks (by dsimp only [execMask]; decide)
  case ctls => cases c <;> (try exact trivial) <;> exact hsame.ctls (by dsimp only [execMask]; decide)
  case tenants => cases c <;> (try exact trivial) <;> exact hsame.tenants (by dsimp only [execMask]; decide)
  case qe => cases c <;> (try exact trivial) <;> exact hsame.qe (by dsimp only [execMask]; decide)

/-- Settles O57: of a command that is not named for a part, the part's bit in `execMask` is 0. -/
theorem frameOfManagementAndRegisters : Obligations.FrameOfManagementAndRegisters := by
  intro c s t hexec
  have hsame := same_of_exec hexec
  refine ⟨?paths, ?admitted, ?act, ?mgc, ?regs, ?out, ?drawn⟩
  case paths => cases c <;> (try exact trivial) <;> exact hsame.paths (by dsimp only [execMask]; decide)
  case admitted => cases c <;> (try exact trivial) <;> exact hsame.admitted (by dsimp only [execMask]; decide)
  case act => cases c <;> (try exact trivial) <;> exact hsame.act (by dsimp only [execMask]; decide)
  case mgc => cases c <;> (try exact trivial) <;> exact hsame.mgc (by dsimp only [execMask]; decide)
  case regs => cases c <;> (try exact trivial) <;> exact hsame.regs (by dsimp only [execMask]; decide)
  case out => cases c <;> (try exact trivial) <;> exact hsame.out (by dsimp only [execMask]; decide)
  case drawn => cases c <;> (try exact trivial) <;> exact hsame.drawn (by dsimp only [execMask]; decide)

/-- Settles O58: of a command that is not named for a part, the part's bit in `execMask` is 0. -/
theorem frameOfTables : Obligations.FrameOfTables := by
  intro c s t hexec
  have hsame := same_of_exec hexec
  refine ⟨?nss, ?zones, ?stripes, ?blocks, ?slices, ?san, ?tabs, ?dur, ?units⟩
  case nss => cases c <;> (try exact trivial) <;> exact hsame.nss (by dsimp only [execMask]; decide)
  case zones => cases c <;> (try exact trivial) <;> exact hsame.zones (by dsimp only [execMask]; decide)
  case stripes => cases c <;> (try exact trivial) <;> exact hsame.stripes (by dsimp only [execMask]; decide)
  case blocks => cases c <;> (try exact trivial) <;> exact hsame.blocks (by dsimp only [execMask]; decide)
  case slices => cases c <;> (try exact trivial) <;> exact hsame.slices (by dsimp only [execMask]; decide)
  case san => cases c <;> (try exact trivial) <;> exact hsame.san (by dsimp only [execMask]; decide)
  case tabs => cases c <;> (try exact trivial) <;> exact hsame.tabs (by dsimp only [execMask]; decide)
  case dur => cases c <;> (try exact trivial) <;> exact hsame.dur (by dsimp only [execMask]; decide)
  case units => cases c <;> (try exact trivial) <;> exact hsame.units (by dsimp only [execMask]; decide)

/-- Settles O59: of a command that is not named for a part, the part's bit in `execMask` is 0. -/
theorem frameOfFlashSide : Obligations.FrameOfFlashSide := by
  intro c s t hexec
  have hsame := same_of_exec hexec
  refine ⟨?links, ?dies, ?flc, ?clc, ?ages, ?rcu⟩
  case links => cases c <;> (try exact trivial) <;> exact hsame.links (by dsimp only [execMask]; decide)
  case dies => cases c <;> (try exact trivial) <;> exact hsame.dies (by dsimp only [execMask]; decide)
  case flc => cases c <;> (try exact trivial) <;> exact hsame.flc (by dsimp only [execMask]; decide)
  case clc => cases c <;> (try exact trivial) <;> exact hsame.clc (by dsimp only [execMask]; decide)
  case ages => cases c <;> (try exact trivial) <;> exact hsame.ages (by dsimp only [execMask]; decide)
  case rcu => cases c <;> (try exact trivial) <;> exact hsame.rcu (by dsimp only [execMask]; decide)

/-- Settles O60: of a command that is not named for a part, the part's bit in `execMask` is 0. -/
theorem frameOfMediaAndBuffers : Obligations.FrameOfMediaAndBuffers := by
  intro c s t hexec
  have hsame := same_of_exec hexec
  refine ⟨?wpe, ?mme, ?buffer, ?commits, ?pairs, ?jnl, ?ite, ?bpm, ?dmc⟩
  case wpe => cases c <;> (try exact trivial) <;> exact hsame.wpe (by dsimp only [execMask]; decide)
  case mme => cases c <;> (try exact trivial) <;> exact hsame.mme (by dsimp only [execMask]; decide)
  case buffer => cases c <;> (try exact trivial) <;> exact hsame.buffer (by dsimp only [execMask]; decide)
  case commits => cases c <;> (try exact trivial) <;> exact hsame.commits (by dsimp only [execMask]; decide)
  case pairs => cases c <;> (try exact trivial) <;> exact hsame.pairs (by dsimp only [execMask]; decide)
  case jnl => cases c <;> (try exact trivial) <;> exact hsame.jnl (by dsimp only [execMask]; decide)
  case ite => cases c <;> (try exact trivial) <;> exact hsame.ite (by dsimp only [execMask]; decide)
  case bpm => cases c <;> (try exact trivial) <;> exact hsame.bpm (by dsimp only [execMask]; decide)
  case dmc => cases c <;> (try exact trivial) <;> exact hsame.dmc (by dsimp only [execMask]; decide)

end Sys2Proof.Machine
end

section
/-! The state after reset, and reads and writes of registers by command (00 R15 to R21). -/

namespace Sys2Proof.Machine

/-- A list of pairs that a function's values match. -/
theorem forall_mem_of_all {l : List (Nat × Nat)} {f : Nat → Nat} (h : l.all (fun p => f p.1 == p.2) = true) : ∀ a v, (a, v) ∈ l → f a = v :=
  fun a v hmem => by simpa using List.all_eq_true.mp h (a, v) hmem

/-- Settles O3: every clause is about the one state `State.reset`, and evaluates. -/
theorem resetState : Obligations.ResetState := by
  refine ⟨?values, ?canonical, ?registers⟩
  case values => decide
  case canonical => decide
  case registers => exact forall_mem_of_all (by decide)

/-- A command whose meaning is a function of the state answers what the function gives. -/
theorem next_eq {s t : State} (h : s = t) : (.next s : Host.Outcome State Fault Refusal) = .next t := congrArg _ h

/-! ## Reads -/

/-- The registers whose reads have effects of their own: FIFOs, the continuous read, and the pairs with a shadow in their block. -/
abbrev specialReads : List Nat := [0x3000050, 0x2000010, 0x2000014, 0x2000018, 0x11000014, 0xE000038, 0xE00003C, 0xE000044, 0xE000048]

theorem readAccess_plain {s : State} {a : Nat} (habsent : regAbsent s a = false) (hplain : a ∉ specialReads) : readAccess a s = readPlain a s := by
  simp only [List.mem_cons, List.not_mem_nil, or_false, not_or] at hplain
  simp [readAccess, habsent, hplain]

/-- A read by command of a register that answers. -/
theorem readOut_plain {s t : State} {a v : Nat} (halign : a % 4 = 0) (hup : accessStatus s a = 0) (habsent : regAbsent s a = false)
    (hplain : a ∉ specialReads) (hread : readPlain a s = (v, t)) : readOut a s = emit (.value a (BitVec.ofNat 32 v)) t := by
  simp [readOut, halign, regReadAt, hup, readAccess_plain habsent hplain, hread]

theorem readPlain_armed {s : State} {a v : Nat} (hshadow : mapGet none s.shadows a = some v) :
    readPlain a s = (v, { s with shadows := mapDel s.shadows a }) := by
  simp [readPlain, hshadow]

theorem readPlain_low {s : State} {a h : Nat} (hshadow : mapGet none s.shadows a = none) (hpair : pairHigh a = some h) :
    readPlain a s = (readReg s a, { s with shadows := mapSet none s.shadows h (some (readReg s h)) }) := by
  simp [readPlain, hshadow, hpair]

theorem readPlain_single {s : State} {a : Nat} (hshadow : mapGet none s.shadows a = none) (hpair : pairHigh a = none) :
    readPlain a s = (readReg s a, clearRc a s) := by
  simp [readPlain, hshadow, hpair]

theorem clearRc_of_regFind {s : State} {a : Nat} {d : RegDesc} (hd : regFind a = some d) :
    clearRc a s = setReg a (d.fields.foldl (fun w f => if f.acc = .rc then natSetBits w f.lo f.width f.reset else w) (getReg s a)) s := by
  simp [clearRc, hd]

/-! ## Writes -/

/-- Every block that runs from the always-on domain answers while the device is not Off. -/
theorem accessStatus_alwaysOn {s : State} {a : Nat} (hdev : s.top.dev ≠ .off) (hblk : a / 0x1000000 ≤ 2 ∨ 16 ≤ a / 0x1000000 ∧ a / 0x1000000 ≤ 19)
    (hd : (regFind a).isSome) : accessStatus s a = 0 := by
  have hlow : ¬ 0x14000000 ≤ a := by omega
  have hup : blockUp s (a / 0x1000000) = true := by
    rw [blockUp, if_neg hdev, if_pos (by omega)]
  simp [accessStatus, hlow, hup, Option.isSome_iff_ne_none.mp hd]

/-- Only registers of ports and of flash links can be absent (00 R2). -/
theorem regAbsent_of_block {s : State} {a : Nat} (hblk : a / 0x1000000 ≠ 3 ∧ a / 0x1000000 ≠ 7) : regAbsent s a = false := by
  rw [regAbsent, if_neg (by omega), if_neg (by omega)]

theorem writeIn_operator {s : State} {a v : Nat} (halign : a % 4 = 0) (hup : accessStatus s a = 0) (habsent : regAbsent s a = false) :
    writeIn .operator a v s = writeEffect .operator a v s := by
  simp [writeIn, regWriteAt, halign, hup, habsent]

theorem writeIn_operatorOnly {s : State} {a v : Nat} (halign : a % 4 = 0) (honly : regOpOnly a = true) : writeIn .firmware a v s = s := by
  simp [writeIn, regWriteAt, halign, honly]

theorem readOut_unaligned {s : State} {a : Nat} (h : a % 4 ≠ 0) : readOut a s = emit (.mgmt "ALIGNMENT" []) s := if_pos h

theorem writeIn_unaligned {s : State} {w : Writer} {a v : Nat} (h : a % 4 ≠ 0) : writeIn w a v s = emit (.mgmt "ALIGNMENT" []) s := if_pos h

/-! ### The latch registers of the Event Controller -/

theorem regFind_latch {b : Nat} (hb : b < 48) :
    regFind (0x12001004 + b * 0x20) = some ⟨0x12001004, 0x20, 48, false, false, false, [⟨0, 32, .w1c, 0, 0, 0xFFFFFFFF⟩]⟩ := by
  have h : ∀ b < 48, regFind (0x12001004 + b * 0x20) = some ⟨0x12001004, 0x20, 48, false, false, false, [⟨0, 32, .w1c, 0, 0, 0xFFFFFFFF⟩]⟩ := by
    decide
  exact h b hb

theorem writeEffect_latch {s : State} {w : Writer} {b v : Nat} (hb : b < 48) :
    writeEffect w (0x12001004 + b * 0x20) v s =
      setF (F.EVC_LATCHb_LATCH b) (getF s (F.EVC_LATCHb_LATCH b) - (getF s (F.EVC_LATCHb_LATCH b) &&& natBits v 0 32)) s := by
  have hblk : (0x12001004 + b * 0x20) / 0x1000000 = 18 := by omega
  have hoff : (0x12001004 + b * 0x20) % 0x1000000 = 0x1004 + b * 0x20 := by omega
  have haddr : 0x12000000 + (0x1004 + b * 0x20) = 0x12001004 + b * 0x20 := by omega
  have hbank : (0x1004 + b * 0x20) % 0x20 = 4 := by omega
  have hmask : 0x1000 ≤ 0x1004 + b * 0x20 := by omega
  simp only [writeEffect, hblk, hoff, writeEvc, haddr, hbank, writeW1c, regFind_latch hb, if_pos hmask]
  simp [setF, getF, F.EVC_LATCHb_LATCH]

/-! ### ADDEND and the quiesce configuration -/

theorem writeAddend_heldHigh (v : Nat) (s : State) : mapGet none (writeAddend v s).heldHigh 0x2000024 = none := by
  have h : (writeAddend v s).heldHigh = mapDel s.heldHigh 0x2000024 := by
    simp only [writeAddend, setAddend, apply_ite State.heldHigh, setF_heldHigh, ite_self]
  rw [h, mapGet_mapDel_self]

theorem setRegSaved_unsaved {s : State} {a v : Nat} {d : RegDesc} (hd : regFind a = some d) (hs : d.saved = false) : setRegSaved a v s = setReg a v s := by
  simp [setRegSaved, hd, hs]

/-- TOP_QUIESCE_CFG has one field, DRAIN_MS, of which 10,000 is the greatest unreserved value (01 R50). -/
theorem plainWrite_quiesceCfg (v : Nat) (s : State) :
    plainWrite 0x18 v s = if v % 2 ^ 16 ≤ 10000 then setF F.TOP_QUIESCE_CFG_DRAIN_MS (v % 2 ^ 16) s else setReg 0x18 (getReg s 0x18) s := by
  have hd : regFind 0x18 = some ⟨0x18, 0, 1, false, false, false, [⟨0, 16, .rw, 0x3E8, 0, 0x2710⟩]⟩ := by decide
  have hplain : plainWrite 0x18 v s = setReg 0x18 (mergeWrite (regLocked s 0x18) (getReg s 0x18) v [⟨0, 16, .rw, 0x3E8, 0, 0x2710⟩]) s := by
    rw [plainWrite, hd]
    exact setRegSaved_unsaved hd rfl
  rw [hplain]
  by_cases hv : v % 2 ^ 16 ≤ 10000
  · rw [if_pos hv]
    simp [mergeWrite, fieldAccepts, natBits, setF, F.TOP_QUIESCE_CFG_DRAIN_MS, show v % 65536 ≤ 10000 from hv]
  · rw [if_neg hv]
    simp [mergeWrite, fieldAccepts, natBits, show ¬ v % 65536 ≤ 10000 from hv]

theorem getReg_setReg_getReg (a : Nat) (s : State) (b : Nat) : getReg (setReg a (getReg s a) s) b = getReg s b := by
  by_cases h : b = a
  · rw [h, getReg_setReg_self]
  · exact getReg_setReg_ne _ _ _ h

/-- 00 R67: a block that is held in reset or whose clock stands still. -/
theorem accessStatus_of_blockDown {s : State} {a : Nat} (hlow : a < 0x14000000) (hdown : blockUp s (a / 0x1000000) = false) :
    accessStatus s a = 8 := by
  simp [accessStatus, Nat.not_le.mpr hlow, hdown]

/-- A write by the operator to a register of the always-on blocks TOP, TU or EVC. -/
theorem writeIn_alwaysOn {s : State} {a v : Nat} (halign : a % 4 = 0) (hdev : s.top.dev ≠ .off)
    (hblk : a / 0x1000000 = 0 ∨ a / 0x1000000 = 2 ∨ a / 0x1000000 = 18) (hd : (regFind a).isSome) :
    writeIn .operator a v s = writeEffect .operator a v s :=
  writeIn_operator halign (accessStatus_alwaysOn hdev (by omega) hd) (regAbsent_of_block (by omega))

/-- Settles O9: the reads by the branches of `readPlain`, the writes by the block that holds the register. -/
theorem registerAccess : Obligations.RegisterAccess := by
  refine ⟨?pairLow, ?pairHigh, ?rcRead, ?latch, ?addendHigh, ?addendLow, ?plain, ?reserved, ?operatorOnly, ?unaligned, ?unreachable⟩
  case pairLow =>
    intro s a h halign hup habsent hpair hshadow hplain
    exact ⟨_, next_eq (readOut_plain halign hup habsent hplain (readPlain_low hshadow hpair)), rfl, by simp [emit], rfl⟩
  case pairHigh =>
    intro s a v halign hup habsent hshadow hplain
    exact ⟨_, next_eq (readOut_plain halign hup habsent hplain (readPlain_armed hshadow)), rfl, mapGet_mapDel_self _ _ _, rfl⟩
  case rcRead =>
    intro s a d halign hup habsent hpair hshadow hd hplain
    have hread := readPlain_single hshadow hpair
    rw [clearRc_of_regFind hd] at hread
    exact ⟨_, next_eq (readOut_plain halign hup habsent hplain hread), rfl, getReg_setReg_self _ _ _, fun b hb => getReg_setReg_ne _ _ _ hb, rfl⟩
  case latch =>
    intro s b v hb hdev
    have hwrite : writeIn .operator (0x12001004 + b * 0x20) v.toNat s = _ :=
      (writeIn_alwaysOn (by omega) hdev (by omega) (by rw [regFind_latch hb]; rfl)).trans (writeEffect_latch hb)
    refine ⟨_, next_eq hwrite, ?_, fun a ha => getReg_setReg_ne _ _ _ ha, rfl⟩
    have hv : natBits v.toNat 0 32 = v.toNat := Nat.mod_eq_of_lt v.isLt
    rw [getF_setF_self, hv]
    rfl
  case addendHigh =>
    intro s v hdev
    have hwrite := writeIn_alwaysOn (a := 0x2000024) (v := v.toNat) rfl hdev (by omega) (by decide)
    refine ⟨_, next_eq hwrite, ?_, rfl⟩
    exact (mapGet_mapSet_self none s.heldHigh 0x2000024 _).trans (congrArg some (Nat.mod_eq_of_lt v.isLt))
  case addendLow =>
    intro s v hdev
    have hwrite : writeIn .operator 0x2000020 v.toNat s = writeAddend v.toNat s :=
      (writeIn_alwaysOn rfl hdev (by omega) (by decide)).trans ((writeEffect_tu _ _ _ _ rfl).trans (writeTu_addend _ _ _ rfl))
    exact ⟨_, next_eq hwrite, rfl, writeAddend_heldHigh _ _⟩
  case plain =>
    intro s v hdev hv
    have hmod : v.toNat % 2 ^ 16 = v.toNat := by omega
    have hwrite : writeIn .operator 0x18 v.toNat s = setF F.TOP_QUIESCE_CFG_DRAIN_MS v.toNat s := by
      refine (writeIn_alwaysOn rfl hdev (by omega) (by decide)).trans ?_
      refine (plainWrite_quiesceCfg v.toNat s).trans ?_
      rw [hmod, if_pos hv]
    exact ⟨_, next_eq hwrite, (getF_setF_self _ _ _).trans hmod, rfl⟩
  case reserved =>
    intro s v hdev hv
    have hwrite : writeIn .operator 0x18 v.toNat s = setReg 0x18 (getReg s 0x18) s := by
      refine (writeIn_alwaysOn rfl hdev (by omega) (by decide)).trans ?_
      exact (plainWrite_quiesceCfg v.toNat s).trans (if_neg (Nat.not_le.mpr hv))
    exact ⟨_, next_eq hwrite, getReg_setReg_getReg 0x18 s, rfl⟩
  case operatorOnly =>
    intro s a v halign honly
    exact next_eq (writeIn_operatorOnly halign honly)
  case unaligned =>
    intro s a v w halign
    exact ⟨next_eq (writeIn_unaligned halign), next_eq (writeIn_unaligned halign), next_eq (readOut_unaligned halign)⟩
  case unreachable =>
    intro s w a v hlow hdown
    have hstatus := accessStatus_of_blockDown hlow hdown
    have hrefused : accessStatus s a ≠ 0 := by simp [hstatus]
    exact ⟨hstatus, regReadAt_of_status_ne_zero hrefused, regWriteAt_of_status_ne_zero hrefused⟩

end Sys2Proof.Machine
end

section
/-! Equality of a whole component from the rules of `Same`, for operations whose mask has no bit of the component. -/

namespace Sys2Proof.Machine

theorem testBit_of_disjoint {m a i : Nat} (hm : m &&& a = 0) (ha : a.testBit i = true) : m.testBit i = false := by
  have h := congrArg (fun x => x.testBit i) hm
  simpa [ha] using h

theorem Same.top_eq {m : Nat} {s t : State} (h : Same m s t) (hm : m &&& 0x7fe0 = 0) : t.top = s.top := by
  have hdev := h.dev (testBit_of_disjoint hm (by decide))
  have hreq := h.req (testBit_of_disjoint hm (by decide))
  have hcause := h.lastCause (testBit_of_disjoint hm (by decide))
  have hresult := h.result (testBit_of_disjoint hm (by decide))
  have hquiesce := h.quiesce (testBit_of_disjoint hm (by decide))
  have hpwr := h.pwr (testBit_of_disjoint hm (by decide))
  have hdrain := h.drain (testBit_of_disjoint hm (by decide))
  have hskim := h.skim (testBit_of_disjoint hm (by decide))
  have hserved := h.served (testBit_of_disjoint hm (by decide))
  have hlife := h.life (testBit_of_disjoint hm (by decide))
  simp only [Prod.mk.injEq] at hquiesce hpwr hdrain hskim hserved hlife
  cases ht : t.top
  cases hs : s.top
  simp_all

/-- An operation that keeps the rules under a mask without a bit of TOP leaves TOP alone. -/
theorem Keeps.top_eq {m : Nat} {s t : State} (h : Keeps m s t) (hm : m &&& 0x7fe0 = 0) : t.top = s.top := h.same.top_eq hm

end Sys2Proof.Machine
end

section
/-! Power and resets (16 R594 to R598, 20 R720 to R725), the orderly quiesce and Retained (01 R34 to R52), and the pins (20). -/

namespace Sys2Proof.Machine

/-! ## Power and resets -/

theorem beginBoot_pad (s : State) : (beginBoot s).pad = s.pad := by
  unfold beginBoot
  dsimp only
  split <;> simp

theorem beginBoot_cru (s : State) : (beginBoot s).cru = { s.cru with stage := .early } := by
  unfold beginBoot
  dsimp only
  split <;> simp

/-- 16 R596, R597: the cause is recorded and the device resets are counted. -/
theorem deviceReset_cru (cause : Nat) (s : State) :
    (deviceReset cause s).cru = { s.cru with cause := cause, devResets := min 0xFF (s.cru.devResets + 1), stage := .early } := by
  rw [deviceReset, beginBoot_cru]
  rfl

theorem enterCoast_dev (s : State) : (enterCoast s).top.dev = s.top.dev := (keeps_enterCoast (sub_refl _) (Keeps.refl _ s)).same.dev (by decide)

theorem enterCoast_pad (s : State) : (enterCoast s).pad = s.pad := (keeps_enterCoast (sub_refl _) (Keeps.refl _ s)).same.pad (by decide)

theorem doubleFault_dev (s : State) : (doubleFault s).top.dev = s.top.dev := (keeps_doubleFault (sub_refl _) (Keeps.refl _ s)).same.dev (by decide)

theorem doubleFault_pad (s : State) : (doubleFault s).pad = s.pad := (keeps_doubleFault (sub_refl _) (Keeps.refl _ s)).same.pad (by decide)

/-- The straps and fuses that the release of PORST_N leaves in PAD (20 R714, R715, R725). -/
def sampledPad (hmode : Nat) (i3c : Bool) (addr : Nat) (testmode : Bool) (s : State) : Pad :=
  { s.pad with
    porstLow := false, hmode := hmode % 4, mgmtI3c := i3c, mgmtAddr := addr % 8, testmode := testmode
    bad := bitOf (hmode % 4 == 3), fusesSensed := true, vidCode := s.fuse.vid, drive := .functional }

theorem execPorstNRelease_boots {s : State} (hmode addr : Nat) (i3c testmode core net : Bool) (hoff : s.top.dev = .off)
    (hrails : s.pad.railsGood = true) (hrc : s.cru.rcReady = true) (htrip : s.pad.thermtrip = false) :
    ∃ t, execPorstNRelease hmode i3c addr testmode core net s = .next t ∧ t.top.dev = .boot ∧ t.pad = sampledPad hmode i3c addr testmode s := by
  unfold execPorstNRelease
  rw [if_neg (by simp [hoff, hrails, hrc, htrip])]
  refine ⟨_, rfl, ?dev, ?pad⟩
  case dev =>
    rw [doubleFault_dev]
    split <;> split <;> simp [enterCoast_dev]
  case pad =>
    rw [doubleFault_pad]
    split <;> split <;> simp [enterCoast_pad, beginBoot_pad] <;> rfl

/-- Settles O11: the resets by what they rebuild, the release of PORST_N by what its last steps leave alone. -/
theorem powerUp : Obligations.PowerUp := by
  refine ⟨?porst, ?rail, ?railsGood, ?release, ?deviceReset, ?refused, ?supervisor, ?core, ?trst⟩
  case porst => exact fun s removed => ⟨_, rfl, rfl, rfl, rfl, rfl, rfl, rfl⟩
  case rail => exact fun s rail => ⟨_, rfl, rfl, rfl, rfl, rfl, rfl⟩
  case railsGood => exact fun s hoff => ⟨_, if_pos hoff, rfl, rfl, rfl, rfl⟩
  case release =>
    intro s hmode addr i3c testmode core net hoff hrails hrc htrip
    obtain ⟨t, hexec, hdev, hpad⟩ := execPorstNRelease_boots hmode addr i3c testmode core net hoff hrails hrc htrip
    exact ⟨t, hexec, hdev, by simp [hpad, sampledPad]⟩
  case deviceReset =>
    intro s hon
    exact ⟨_, if_pos ⟨rfl, hon⟩, deviceReset_dev 1 s, by rw [deviceReset_cru], by rw [deviceReset_cru]⟩
  case refused =>
    rintro s (_ | _) key hrefused
    · have hkey : ¬(key = 0x5A ∧ s.top.dev ≠ .off) := by simpa using fun h => absurd h (by simpa using hrefused)
      exact if_neg hkey
    · rfl
  case supervisor => exact fun s hon => ⟨_, if_neg hon, deviceReset_dev 2 s⟩
  case core =>
    intro s core hcore hon
    refine ⟨_, if_neg (by simp [hon, hcore]), fire_top _ _ _, ?_⟩
    rw [fire_getF _ _ _ _ (by decide), getF_setF_self]
  case trst => exact fun s => ⟨_, rfl, rfl, rfl, rfl, rfl⟩

/-! ## The quiesce and Retained -/

/-- Table 01-3: in Serving a quiesce or Retained request begins the quiesce. -/
theorem stateRequest_serving {s : State} {code : Nat} (hcode : code = 1 ∨ code = 2) (hdev : s.top.dev = .serving) (hreq : s.top.req = none)
    (hact : s.mgc.actPhase ≠ 1) :
    stateRequest code s = if code = 1 then beginQuiesce .quiesce 2 (refuseReq 0 s) else beginQuiesce .retained 3 (refuseReq 0 s) := by
  rcases hcode with rfl | rfl <;> simp [stateRequest, hdev, hreq, hact]

theorem quiesceAdvance_parts (s : State) : (quiesceAdvance s).top.dev = s.top.dev ∧ (quiesceAdvance s).top.req = s.top.req ∧
    (quiesceAdvance s).top.lastCause = s.top.lastCause ∧ (quiesceAdvance s).top.result = s.top.result := by
  have h := (keeps_quiesceAdvance (sub_refl _) (Keeps.refl _ s)).same
  exact ⟨h.dev (by decide), h.req (by decide), h.lastCause (by decide), h.result (by decide)⟩

theorem beginQuiesce_parts (r : Req) (cause : Nat) (s : State) : (beginQuiesce r cause s).top.dev = .quiescing ∧
    (beginQuiesce r cause s).top.req = some r ∧ (beginQuiesce r cause s).top.lastCause = cause ∧
    (beginQuiesce r cause s).top.result = s.top.result := by
  obtain ⟨hdev, hreq, hcause, hresult⟩ := quiesceAdvance_parts (enterDev .quiescing cause (updTop (fun t => { t with
      req := some r, retainedAfter := r == .retained, reqTick := s.tu.ticks, drained := false, cleanAccepted := false
      ckptAccepted := false, markAccepted := false, quiesceDone := false }) s))
  rw [enterDev_top] at hdev hreq hcause hresult
  exact ⟨hdev, hreq, hcause, hresult⟩

theorem beginRetained_parts (s : State) : (beginRetained s).top.dev = s.top.dev ∧ (beginRetained s).top.req = s.top.req ∧
    (beginRetained s).top.result = s.top.result := by
  have h := (keeps_beginRetained (sub_refl _) (Keeps.refl _ s)).same
  exact ⟨h.dev (by decide), h.req (by decide), h.result (by decide)⟩

theorem resumeRetained_parts (s : State) : (resumeRetained s).top.dev = s.top.dev ∧ (resumeRetained s).top.req = some .resume ∧
    (resumeRetained s).top.result = 0 := by
  have hkeeps : Keeps 0x1a8208d70100d _ (resumeRetained s) :=
    Keeps.foldl (fun g u hu => keeps_wakeGroup (sub_trans (by decide) (sub_refl _)) hu) (keeps_resumeDark (sub_trans (by decide) (sub_refl _)) (Keeps.refl _
      (updRcu (fun r => { r with shelfValid := false, sealed := false }) (updTop (fun t => { t with req := some .resume, result := 0 }) s))))
  exact ⟨hkeeps.same.dev (by decide), hkeeps.same.req (by decide), hkeeps.same.result (by decide)⟩

/-- A quiesce whose checkpoint, time mark and CLEAN record are accepted has no step left to take. -/
theorem quiesceAdvance_done {s : State} (hdrained : s.top.drained = true) (hckpt : s.top.ckptAccepted = true) (hclean : s.top.cleanAccepted = true) :
    quiesceAdvance s = s := by
  have hc : quiesceCkpt s = s := if_pos (.inr (.inr hckpt))
  have hq : quiesceClean s = s := if_pos (.inr (by simp [cleanIssued, hclean]))
  unfold quiesceAdvance
  split
  · rfl
  · simp [hdrained, hc, hq]

theorem gateAll_top (s : State) : (gateAll s).top = s.top := (keeps_gateAll (sub_refl _) (Keeps.refl _ s)).top_eq (by decide)

theorem dmcRetainedEntry_top (s : State) : (dmcRetainedEntry s).top = s.top := (keeps_dmcRetainedEntry (sub_refl _) (Keeps.refl _ s)).top_eq (by decide)

theorem linkSettle_top (s₀ s : State) : (linkSettle s₀ s).top = s.top := (keeps_linkSettle (sub_refl _) (Keeps.refl _ s)).top_eq (by decide)

theorem trainPorts_top (l : List Nat) (s : State) : (l.foldl (fun s p => portTrainFull p s) s).top = s.top :=
  (Keeps.foldl (fun p u hu => keeps_portTrainFull (sub_refl _) hu) (Keeps.refl _ s)).top_eq (by decide)

theorem word_eq_zero_iff (v : Word) : v = 0 ↔ v.toNat = 0 := (BitVec.toNat_inj (x := v) (y := 0)).symm

/-- Settles O13: the requests by the branches of Table 01-3, the ends of the quiesce and of the stay by the last state they enter. -/
theorem quiesceAndRetained : Obligations.QuiesceAndRetained := by
  refine ⟨?quiesce, ?retained, ?retainedAfterDone, ?resumeQuiescing, ?resumeRetained, ?refused, ?drainLimit, ?complete, ?entry, ?resumeDone, ?mark,
    ?skimDue⟩
  case quiesce =>
    intro s hdev hreq hact
    obtain ⟨hd, hr, hc, hres⟩ := beginQuiesce_parts .quiesce 2 (refuseReq 0 s)
    exact ⟨_, next_eq (stateRequest_serving (.inl rfl) hdev hreq hact), hd, hr, hc, hres⟩
  case retained =>
    intro s hdev hreq hact
    obtain ⟨hd, hr, hc, hres⟩ := beginQuiesce_parts .retained 3 (refuseReq 0 s)
    exact ⟨_, next_eq (stateRequest_serving (.inr rfl) hdev hreq hact), hd, hr, hc, hres⟩
  case retainedAfterDone =>
    intro s hdev hdone hreq hact
    have hrequest : stateRequest 2 s = requestRetained (refuseReq 0 s) := by simp [stateRequest, hdev, hdone, hreq, hact]
    obtain ⟨hd, hr, hres⟩ := beginRetained_parts (updTop (fun t => { t with req := some .retained, result := 0 }) (refuseReq 0 s))
    exact ⟨_, next_eq hrequest, hd.trans hdev, hr, hres⟩
  case resumeQuiescing =>
    intro s hdev hdone hreq
    have hrequest : stateRequest 3 s = enterDev .serving 4 (updTop (fun t => { t with quiesceDone := false }) (refuseReq 0 s)) := by
      simp [stateRequest, hdev, hdone, hreq]
    exact ⟨_, next_eq hrequest, enterDev_top _ _ _⟩
  case resumeRetained =>
    intro s hdev hreq
    have hrequest : stateRequest 3 s = resumeRetained (refuseReq 0 s) := by simp [stateRequest, hdev, hreq]
    obtain ⟨hd, hr, hres⟩ := resumeRetained_parts (refuseReq 0 s)
    exact ⟨_, next_eq hrequest, hd.trans hdev, hr, hres⟩
  case refused =>
    intro s hdev hreq hact
    have hrefuse : ∀ code, code = 1 ∨ code = 2 → stateRequest code s = refuseReq 1 s := by
      rintro code (rfl | rfl) <;> rcases hdev with hdev | hdev <;> simp [stateRequest, hdev, hreq, hact]
    exact ⟨next_eq (hrefuse 1 (.inl rfl)), next_eq (hrefuse 2 (.inr rfl))⟩
  case drainLimit =>
    intro s hdev hreq hdone hdrained hpwr
    exact if_neg (by simp [hdev, hreq, hdone, hdrained, hpwr])
  case complete =>
    intro s hdev hreq hdone hdrained hpwr hckpt hmark hclean hafter
    have hexec : execQuiesceComplete s =
        .next (updTop (fun t => { t with req := none }) (fire 9 (reqMs s) (updTop (fun t => { t with quiesceDone := true }) s))) := by
      simp [execQuiesceComplete, quiesceAdvance_done hdrained hckpt hclean, hdev, hreq, hdone, hpwr, hckpt, hmark, hclean, hafter]
    exact ⟨_, hexec, by simp⟩
  case entry =>
    intro s hdev hdone hreq hclean hbusy
    refine ⟨_, if_pos ⟨hdev, hdone, hreq, hclean, hbusy⟩, ?_⟩
    rw [enterDev_top]
    exact ⟨rfl, rfl, rfl, rfl⟩
  case resumeDone =>
    intro s failed hdev hreq
    refine ⟨_, if_pos ⟨hdev, hreq⟩, ?_⟩
    rw [linkSettle_top, trainPorts_top, enterDev_top]
    exact ⟨rfl, rfl, rfl⟩
  case mark =>
    intro s hdev hemergency
    exact ⟨_, if_pos ⟨hdev, hemergency⟩, rfl, List.map_append, rfl⟩
  case skimDue =>
    intro s value
    refine ⟨rfl, next_eq ?_⟩
    simp only [skimDueWrite, word_eq_zero_iff, Nat.mod_eq_of_lt value.isLt]

/-! ## Pins -/

theorem getF_setPin (i : Nat) (f : Pin → Pin) (s : State) (g : Fld) : getF (setPin i f s) g = getF s g := getF_regs rfl g

@[simp] theorem getPin_fire (src index i : Nat) (s : State) : getPin (fire src index s) i = getPin s i := getPin_pad (fire_pad _ _ _) i

/-- R717: a transition within CHATTER_MAX is counted and no more. -/
theorem execInputTransition_counted {s : State} {input : Nat} {level : Bool} (hinput : input < 16) (hraw : (getPin s input).raw ≠ level)
    (hdev : s.top.dev ≠ .off) (hcount : (getPin s input).count + 1 ≤ getF s F.PAD_FILT_CFG_CHATTER_MAX) :
    execInputTransition input level s = .next (setPin input (fun p => { p with raw := level, count := p.count + 1 }) s) := by
  simp [execInputTransition, Nat.not_le.mpr hinput, hraw, hdev, getF_setPin, Nat.not_lt.mpr hcount]

/-- R717: the transition above CHATTER_MAX masks the input. -/
theorem execInputTransition_chatters {s : State} {input : Nat} {level : Bool} (hinput : input < 16) (hraw : (getPin s input).raw ≠ level)
    (hdev : s.top.dev ≠ .off) (hchatter : (getPin s input).chatter = false)
    (hcount : getF s F.PAD_FILT_CFG_CHATTER_MAX < (getPin s input).count + 1) (hpwr : s.top.pwrActive = false) :
    execInputTransition input level s = .next (fire (32 + input) input (setPin input (fun p => { p with chatter := true, filt := p.filt || input == 0 })
      (setPin input (fun p => { p with raw := level, count := p.count + 1 }) s))) := by
  have htop : ∀ f i (u : State), (setPin i f u).top = u.top := fun _ _ _ => rfl
  simp [execInputTransition, Nat.not_le.mpr hinput, hraw, hdev, getF_setPin, hcount, hchatter, hpwr, htop]

theorem pwrwarnEnd_pad (cause : Nat) (s : State) : (pwrwarnEnd cause s).pad = s.pad :=
  (keeps_pwrwarnEnd (sub_refl _) (Keeps.refl _ s)).same.pad (by decide)

theorem jnlSettle_top (s₀ s : State) : (jnlSettle s₀ s).top = s.top := (keeps_jnlSettle (sub_refl _) (Keeps.refl _ s)).top_eq (by decide)

theorem resumeDies_top (s : State) : (resumeDies s).top = s.top := (keeps_resumeDies (sub_refl _) (Keeps.refl _ s)).top_eq (by decide)

theorem pwrwarnEnd_pwrStuck (cause : Nat) (s : State) : (pwrwarnEnd cause s).top.pwrStuck = s.top.pwrStuck := by
  have hrelease : ∀ u, (releaseStore u).top = u.top := fun _ => rfl
  unfold pwrwarnEnd
  split
  · rfl
  · dsimp only
    split
    · simp [jnlSettle_top, resumeDies_top, hrelease]
    · split <;> simp [resumeDies_top, hrelease]

theorem thresholdSettle_pad (old now : Nat) (s : State) : (thresholdSettle old now s).pad = s.pad :=
  (keeps_thresholdSettle (sub_refl _) (Keeps.refl _ s)).same.pad (by decide)

theorem throttleSettle_tj (temp : Nat) (s : State) : (throttleSettle temp s).pad.tj = s.pad.tj := by
  unfold throttleSettle
  split
  · rw [fire_pad]; rfl
  · split
    · rw [fire_pad]; rfl
    · rfl

theorem holdSettle_tj (temp : Nat) (s : State) : (holdSettle temp s).pad.tj = s.pad.tj := by
  unfold holdSettle
  split
  · rw [fire_pad]; rfl
  · split <;> rfl

/-- Settles O14: each command by its branch; what fires on the way leaves the pins alone. -/
theorem pinsAndTap : Obligations.PinsAndTap := by
  refine ⟨?transition, ?chatter, ?maskEnd, ?windowEnd, ?filter, ?warning, ?release, ?stuck, ?unstick, ?sample, ?trip, ?drives, ?bypassed, ?loads, ?test⟩
  case transition =>
    intro s input level hinput hraw hdev hcount
    exact ⟨_, execInputTransition_counted hinput hraw hdev hcount, getPin_setPin _ _ _, fun j hj => getPin_setPin_ne _ _ _ hj, rfl⟩
  case chatter =>
    intro s input level hinput hraw hdev hchatter hcount hpwr
    exact ⟨_, execInputTransition_chatters hinput hraw hdev hchatter hcount hpwr, by simp⟩
  case maskEnd =>
    intro s input hinput hchatter
    exact ⟨_, if_neg (by simp [hinput, hchatter]), getPin_setPin _ _ _, rfl⟩
  case windowEnd =>
    intro s input hinput
    exact ⟨_, if_neg (by omega), getPin_setPin _ _ _, rfl⟩
  case filter =>
    intro s input hpos hinput hfilt hmask hdev
    have hexec : execInputFilterChange input s = .next (setPin input (fun p => { p with filt := p.raw }) s) := by
      simp [execInputFilterChange, Nat.not_le.mpr hinput, hfilt, hmask, hdev, Nat.ne_of_gt hpos]
    exact ⟨_, hexec, getPin_setPin _ _ _, rfl⟩
  case warning =>
    intro s hfilt hraw hmask hdev
    exact (if_neg (by simp [hfilt, hraw, hmask, hdev])).trans (by simp [hraw])
  case release =>
    intro s hfilt hraw hmask hdev
    exact (if_neg (by simp [hfilt, hraw, hmask, hdev])).trans (by simp [hraw])
  case stuck =>
    intro s hpwr hrails hfilt
    refine ⟨_, if_pos ⟨hpwr, hrails, hfilt⟩, ?_⟩
    rw [getPin_pad (pwrwarnEnd_pad _ _), pwrwarnEnd_pad, pwrwarnEnd_pwrStuck, fire_pad, fire_top, getPin_fire]
    exact ⟨rfl, rfl, congrArg Pin.filt (getPin_setPin _ _ _)⟩
  case unstick => exact fun s hstuck hraw => ⟨_, if_pos ⟨hstuck, hraw⟩, rfl, rfl, rfl⟩
  case sample =>
    intro s temp hdev htemp
    have hcool : ¬(temp % 1024 < 512 ∧ 480 ≤ temp % 1024) := by omega
    refine ⟨_, (if_neg hdev).trans (if_neg hcool), ?_⟩
    rw [holdSettle_tj, throttleSettle_tj, thresholdSettle_pad]
    rfl
  case trip => exact fun s temp hdev hlow hhigh => ⟨_, (if_neg hdev).trans (if_pos ⟨hlow, hhigh⟩), rfl, rfl, rfl, rfl⟩
  case drives =>
    intro s cells hlow
    refine ⟨⟨_, rfl, ?_⟩, ⟨_, rfl, ?_⟩, ⟨_, rfl, ?_⟩⟩ <;> simp [tapDrive, updPad, hlow]
  case bypassed =>
    intro s cells hhigh
    have htap : ∀ code d, tapDrive code d s = updPad (fun p => { p with tapIr := 0xFF }) s := fun code d => by simp [tapDrive, hhigh]
    refine ⟨_, rfl, ?_, ?_, ?_, ?_⟩ <;> simp [exec, execClamp, execHighz, hhigh, htap, updPad]
  case loads => exact fun s cells code => ⟨⟨_, rfl, rfl, rfl, rfl⟩, ⟨_, rfl, rfl, rfl⟩, ⟨_, rfl, rfl, rfl⟩⟩
  case test =>
    intro s code
    by_cases h : s.pad.testmode = true ∧ s.pad.testJudged = true ∧ protLevel s = 0 ∧ 0x80 ≤ code ∧ code ≤ 0xBF
    · exact ⟨_, if_pos h, by rw [if_pos h]; rfl, rfl⟩
    · exact ⟨_, if_neg h, by rw [if_neg h]; rfl, rfl⟩

end Sys2Proof.Machine
end

section
/-! Clocks (16): the reference monitors, the loss of a lock, the root switch and the relocks. -/

namespace Sys2Proof.Machine

/-! ## The reference monitors -/

theorem getF_updCru (f : Cru → Cru) (s : State) (g : Fld) : getF (updCru f s) g = getF s g := getF_regs rfl g

theorem windowBad_updCru (f : Cru → Cru) (s : State) (count expected : Nat) : windowBad (updCru f s) count expected = windowBad s count expected := by
  simp only [windowBad, getF_updCru]

/-- A monitoring window of a good RC, after the counts and the runs of bad windows have been recorded (16 R583). -/
def judgedWindow (coreCount netCount : Nat) (s : State) : State :=
  updCru (fun c => { c with
    coreCount := coreCount, netCount := netCount
    coreBadRun := if windowBad s coreCount 1024 then c.coreBadRun + 1 else 0
    netBadRun := if windowBad s netCount 1600 then c.netBadRun + 1 else 0 }) s

theorem execMonitorWindow_judged {s : State} {coreCount netCount : Nat} (hrc : s.cru.rcGood = true) :
    ∃ u, u = (if getF s F.CRU_MON_CFG_BAD_N ≤ (judgedWindow coreCount netCount s).cru.coreBadRun then coreBecomesBad coreCount (judgedWindow coreCount netCount s)
        else judgedWindow coreCount netCount s) ∧
      execMonitorWindow coreCount netCount s =
        .next (if getF s F.CRU_MON_CFG_BAD_N ≤ u.cru.netBadRun then netBecomesBad netCount u else u) := by
  exact ⟨_, rfl, if_pos (c := s.cru.rcGood = true) hrc⟩

theorem netBecomesBad_core (count : Nat) (s : State) : (netBecomesBad count s).cru.coreGood = s.cru.coreGood ∧
    (netBecomesBad count s).cru.coreCount = s.cru.coreCount ∧ (netBecomesBad count s).cru.netCount = s.cru.netCount := by
  obtain ⟨hgood, hcore, hnet, -⟩ := netBad_cru count s
  exact ⟨hgood, hcore, hnet⟩

/-- A lock lost: counted, and announced with the number of its PLL (16 R584). -/
def unlockCounted (n : Nat) (s : State) : State := fire 67 n (bumpF F.CRU_FAULT_CNT_UNLOCK 1 s)

theorem unlockCounted_cru (n : Nat) (s : State) : (unlockCounted n s).cru = s.cru := (fire_cru _ _ _).trans (bumpF_cru _ _ _)

theorem unlockCounted_tu (n : Nat) (s : State) : (unlockCounted n s).tu = s.tu := (fire_tu _ _ _).trans (bumpF_tu _ _ _)

theorem getF_unlockCounted (n : Nat) (s : State) :
    getF (unlockCounted n s) F.CRU_FAULT_CNT_UNLOCK = min 255 (getF s F.CRU_FAULT_CNT_UNLOCK + 1) :=
  (fire_getF _ _ _ _ (by decide)).trans (getF_bumpF_self _ _ _)

theorem pllUnlock_flashTx (n : Nat) (s : State) :
    pllUnlock (.flashTx n) s = updCru (fun c => { c with accFrozen := true }) (unlockCounted (3 + n) s) := rfl

/-- The root's part in a bad RC: a root in Backup returns to Coast (16 R585). -/
theorem returnToCore_cru (s : State) : ∃ sw rt hr rf rl, (returnToCore s).cru =
    { s.cru with switching := sw, retrying := rt, heldReq := hr, refusalFired := rf, relocking := rl } := by
  unfold returnToCore
  dsimp only
  split
  · exact ⟨_, _, _, _, _, rfl⟩
  · obtain ⟨sw, rt, hr, rf, h⟩ := reqSwitch_cru 0 false (updCru (fun c => { c with retrying := none }) s)
    exact ⟨sw, rt, hr, rf, _, h⟩

/-- The state in which the RC has just become bad: counted, announced and restarted (16 R578, R585). -/
def rcRestarted (count : Nat) (s : State) : State :=
  restartRc (fire 66 count (bumpF F.CRU_FAULT_CNT_RC 1
    (updCru (fun c => { c with rcCount := count, vsNet := !c.coreGood, rcGood := false, rcBadRun := 0 }) s)))

theorem rcRestarted_cru (count : Nat) (s : State) : (rcRestarted count s).cru =
    { s.cru with rcCount := count, vsNet := !s.cru.coreGood, rcGood := false, rcBadRun := 0, rcReady := false } := by
  have h : ∀ u : State, (restartRc u).cru = { u.cru with rcReady := false } := fun _ => rfl
  rw [rcRestarted, h, fire_cru]
  rfl

/-- A root that ran on the RC goes back to Coast, and to REFCLK_CORE where that is good. -/
def rootOffRc (s : State) : State :=
  if s.cru.rootMode = 2 then
    let s := updCru (fun c => { c with rootMode := 1 }) s
    if s.cru.coreGood then returnToCore s else s
  else s

theorem rootOffRc_cru (s : State) : (rootOffRc s).cru.rcGood = s.cru.rcGood ∧ (rootOffRc s).cru.rcReady = s.cru.rcReady ∧
    (rootOffRc s).cru.rcBadRun = s.cru.rcBadRun ∧ (rootOffRc s).cru.rcCount = s.cru.rcCount ∧ (s.cru.rootMode = 2 → (rootOffRc s).cru.rootMode = 1) := by
  unfold rootOffRc
  split
  · dsimp only
    split
    · obtain ⟨sw, rt, hr, rf, rl, h⟩ := returnToCore_cru (updCru (fun c => { c with rootMode := 1 }) s)
      rw [h]
      exact ⟨rfl, rfl, rfl, rfl, fun _ => rfl⟩
    · exact ⟨rfl, rfl, rfl, rfl, fun _ => rfl⟩
  · rename_i hmode
    exact ⟨rfl, rfl, rfl, rfl, fun h => absurd h hmode⟩

theorem execRcCheckWindow_bad {s : State} {count : Nat} (hbad : windowBad s count 1024 = true)
    (hrun : getF s F.CRU_MON_CFG_BAD_N ≤ s.cru.rcBadRun + 1) (hgood : s.cru.rcGood = true) :
    execRcCheckWindow count s = .next (doubleFault (rootOffRc (rcRestarted count s))) := by
  exact (if_pos (c := windowBad s count 1024 = true) hbad).trans
    (if_pos (c := getF s F.CRU_MON_CFG_BAD_N ≤ s.cru.rcBadRun + 1 ∧ s.cru.rcGood = true) ⟨hrun, hgood⟩)

/-- Settles O15: the judged window, then what makes a reference or the RC bad. -/
theorem clockReferences : Obligations.ClockReferences := by
  refine ⟨?goodWindow, ?badCore, ?coreStops, ?netStops, ?coreGood, ?netGood, ?flashLock, ?rcGood, ?rcBad, ?rcRun, ?rcReady, ?rcTrim⟩
  case goodWindow =>
    intro s coreCount netCount hrc hn hcore hnet
    obtain ⟨u, hu, hexec⟩ := execMonitorWindow_judged (coreCount := coreCount) (netCount := netCount) hrc
    have hjudged : judgedWindow coreCount netCount s =
        { s with cru := { s.cru with coreCount := coreCount, netCount := netCount, coreBadRun := 0, netBadRun := 0 } } := by
      simp [judgedWindow, updCru, hcore, hnet]
    rw [if_neg (by simp [hjudged]; omega)] at hu
    subst hu
    exact hexec.trans (by rw [if_neg (by simp [hjudged]; omega), hjudged])
  case badCore =>
    intro s coreCount netCount hrc hgood hbad hrun
    obtain ⟨u, hu, hexec⟩ := execMonitorWindow_judged (coreCount := coreCount) (netCount := netCount) hrc
    rw [if_pos (by simpa [judgedWindow, updCru, hbad] using hrun)] at hu
    obtain ⟨hbadCore, hcc, hnc, -⟩ := coreBad_cru coreCount (judgedWindow coreCount netCount s) hgood
    refine ⟨_, hexec, ?_⟩
    subst hu
    split
    · obtain ⟨hg, hc, hn⟩ := netBecomesBad_core netCount (coreBecomesBad coreCount (judgedWindow coreCount netCount s))
      exact ⟨hg.trans hbadCore, hc.trans hcc, hn.trans hnc⟩
    · exact ⟨hbadCore, hcc, hnc⟩
  case coreStops =>
    intro s hgood
    obtain ⟨hbad, -, -, hstopped, hroot, hdouble⟩ := coreBad_cru 0 (updCru (fun c => { c with coreStopped := true }) s) hgood
    exact ⟨_, rfl, hbad, hstopped, hroot, hdouble⟩
  case netStops =>
    intro s hgood
    obtain ⟨-, -, -, hbad, hstopped, hroot⟩ := netBad_cru 0 (updCru (fun c => { c with netStopped := true }) s)
    exact ⟨_, rfl, hbad, hstopped, hroot hgood⟩
  case coreGood =>
    intro s hrc hbad hrun hdouble hreturn
    have hstay : ¬(s.cru.rootMode ≠ 0 ∧ flagF (updCru (fun c => { c with coreGood := true, coreStopped := false }) s) F.CRU_SWITCH_CTL_AUTO_RETURN = true) := by
      rintro ⟨hmode, hflag⟩
      have hauto : getF s F.CRU_SWITCH_CTL_AUTO_RETURN = 1 := of_decide_eq_true hflag
      rcases hreturn with h | h <;> omega
    have hleave : ∀ u : State, u.cru.doubleFault = false → leaveDoubleFault u = u := fun u hu => if_neg (by simp [hu])
    refine (if_neg (by simp [hrc])).trans ((if_neg (by simp)).trans ((if_neg (by simp [hbad, hrun])).trans ?_))
    dsimp only
    rw [hleave _ (by exact hdouble)]
    exact if_neg hstay
  case netGood =>
    intro s hrc hbad hrun hdouble
    refine (if_neg (by simp [hrc])).trans ((if_pos rfl).trans ((if_neg (by simp [hbad, hrun])).trans (next_eq ?_)))
    exact if_neg (by simp [updTu, updCru, hdouble])
  case flashLock =>
    intro s n
    refine ⟨_, next_eq (pllUnlock_flashTx n s), ?_, (updCru_tu _ _).trans (unlockCounted_tu _ _), ?_⟩
    · rw [updCru_cru, unlockCounted_cru]
    · rw [getF_updCru, getF_unlockCounted]
  case rcGood =>
    intro s count hgood
    exact (if_neg (by rw [windowBad_updCru, hgood]; decide)).trans rfl
  case rcBad =>
    intro s count hbad hrun hgood
    obtain ⟨hg, hr, hb, hc, hm⟩ := rootOffRc_cru (rcRestarted count s)
    rw [rcRestarted_cru] at hg hr hb hc hm
    refine ⟨_, execRcCheckWindow_bad hbad hrun hgood, ?_⟩
    rw [dbl_cru]
    exact ⟨hg, hr, hb, hm, hc⟩
  case rcRun =>
    intro s count hbad hrun
    refine (if_pos (by rw [windowBad_updCru, hbad])).trans (if_neg ?_)
    exact fun h => absurd h.1 (Nat.not_le.mpr hrun)
  case rcReady => exact fun s hrails => if_pos (.inl hrails)
  case rcTrim =>
    intro s value
    refine ⟨_, rfl, ?_, rfl, rfl⟩
    exact (getF_regs rfl _).trans ((getF_setF_self _ _ _).trans (by simp [natBits, F.CRU_RC_TRIM_TRIM]))

/-! ## The root switch -/

theorem switchReady_setF (f : Fld) (v : Nat) (s : State) (target : Nat) : switchReady (setF f v s) target = switchReady s target := rfl

/-- A switch by the operator to the backup RC, after TARGET and AUTO_RETURN are stored (16 R592, R612). -/
def rcSwitchRequested (autoReturn : Bool) (s : State) : State :=
  setF F.CRU_SWITCH_CTL_AUTO_RETURN (bitOf autoReturn) (setF F.CRU_SWITCH_CTL_TARGET 1 s)

theorem execClockSwitchRequest_toRc (autoReturn : Bool) (s : State) (hidle : s.cru.switching = none) :
    execClockSwitchRequest .operator 1 autoReturn s =
      if s.cru.rcReady = false then .next (bumpF F.CRU_SWITCH_STATUS_REFUSED 1 (rcSwitchRequested autoReturn s))
      else if s.cru.rootMode = 0 then .next (enterCoast (rcSwitchRequested autoReturn s))
      else if s.cru.current = 1 then .next (rcSwitchRequested autoReturn s)
      else .next (requestSwitch 1 false (rcSwitchRequested autoReturn s)) := by
  have htarget : getF (rcSwitchRequested autoReturn s) F.CRU_SWITCH_CTL_TARGET = 1 := target_auto s autoReturn
  unfold execClockSwitchRequest
  dsimp only
  rw [if_pos (Nat.le_refl 1), ← rcSwitchRequested, htarget, if_neg (show ¬ (rcSwitchRequested autoReturn s).cru.switching.isSome = true by
    simp [rcSwitchRequested, hidle])]
  rfl

theorem enterCoast_switches {s : State} (hidle : s.cru.switching = none) (hready : s.cru.rcReady = true) :
    (enterCoast s).cru = { s.cru with
      rootMode := 1, progHold := true, accFrozen := true, relocking := false, refusalFired := false, switching := some 1, retrying := none } := by
  simp [enterCoast, requestSwitch, updCru, switchReady, hidle, hready]

/-- Settles O16: each command by its branch. -/
theorem clockSwitch : Obligations.ClockSwitch := by
  refine ⟨?retry, ?retryRefused, ?done, ?lockRc, ?lockCore, ?accurate, ?selfRefresh, ?toRc, ?toRcRefused, ?firmware⟩
  case retry => exact fun s target hretry hidle hready => by simp [exec, execSwitchRetry, hretry, hidle, hready, updCru]
  case retryRefused =>
    intro s target hretry hidle hready
    refine ⟨bumpF F.CRU_SWITCH_STATUS_REFUSED 1 s, ?_, getF_bumpF_self _ _ _, rfl⟩
    simp [exec, execSwitchRetry, hretry, hidle, hready]
  case done =>
    intro s target hswitching hheld
    refine ⟨bumpF F.CRU_SWITCH_STATUS_SWITCHES 1 (updCru (fun c => { c with
        current := target, switching := none, heldReq := none, lastForced := false, relocking := true }) s), ?_, rfl, getF_bumpF_self _ _ _⟩
    rcases hheld with hheld | hheld <;> simp [exec, execClockSwitchDone, hswitching, hheld]
  case lockRc =>
    intro s hrelock hidle hcurrent
    exact (if_neg (by simp [hrelock, hidle])).trans (if_pos hcurrent)
  case lockCore =>
    intro s hrelock hidle hcurrent
    refine ⟨_, (if_neg (by simp [hrelock, hidle])).trans (if_neg hcurrent), ?_⟩
    rw [fire_cru]
    exact ⟨rfl, rfl, rfl, rfl, rfl⟩
  case accurate =>
    intro s hfrozen hsource
    by_cases hmode : s.cru.rootMode = 0
    · simp [exec, execAccPllRelock, hfrozen, hmode, updCru]
    · have hnet : s.cru.netGood = true := hsource.resolve_left hmode
      simp [exec, execAccPllRelock, hfrozen, hmode, hnet, updCru]
  case selfRefresh => exact fun s hdouble => ⟨_, if_pos hdouble, rfl, rfl⟩
  case toRc =>
    intro s autoReturn hidle hready hmode
    refine ⟨_, (execClockSwitchRequest_toRc autoReturn s hidle).trans ((if_neg (by simp [hready])).trans (if_pos hmode)), ?_⟩
    rw [enterCoast_switches (s := rcSwitchRequested autoReturn s) hidle hready]
    exact ⟨rfl, rfl, rfl, rfl⟩
  case toRcRefused =>
    intro s autoReturn hidle hready
    refine ⟨_, (execClockSwitchRequest_toRc autoReturn s hidle).trans (if_pos hready), rfl, ?_⟩
    rw [getF_bumpF_self, rcSwitchRequested, getF_setF_ne _ _ _ _ (by decide), getF_setF_ne _ _ _ _ (by decide)]
    rfl
  case firmware => exact fun s autoReturn target => rfl

end Sys2Proof.Machine
end

section
/-! O18 and O19: programs and erases of the firmware store (18 R664 to R671), continuous reads and settings pages. -/

namespace Sys2Proof.Machine

/-! ## Sectors and pages -/

@[simp] theorem getPage_putPage (k : Nat) (d : List Word) (s : State) : getPage (putPage k d s) k = d := mapGet_mapSet_self _ _ _ _

theorem getSector_headSector (sector count : Nat) (pulse : Bool) (pulses : Nat) (s : State) :
    getSector (headSector sector count pulse pulses s) sector =
      ⟨true, bitOf pulse, if pulse then pulses else 0, count, s.top.powerCycles, false, 0⟩ :=
  getSector_updSector _ _ _

theorem getSector_wipeSector (sector : Nat) (s : State) :
    getSector (wipeSector sector s) sector = { getSector s sector with headerOk := false, next := 0 } :=
  (getSector_updSector sector (fun x => { x with headerOk := false, next := 0 }) s :)

/-! ## The running operation -/

theorem beginErase_op (sector : Nat) (user : StoreUser) (s : State) :
    ∃ o, (beginErase sector user s).fws.op = some o ∧ o.erase = true ∧ o.sector = sector ∧ o.user = user := ⟨_, rfl, rfl, rfl, rfl⟩

theorem beginErase_result (sector : Nat) (user : StoreUser) (s : State) : (beginErase sector user s).fws.result = s.fws.result := rfl

theorem beginErase_lastSector (sector : Nat) (user : StoreUser) (s : State) : (beginErase sector user s).fws.lastSector = sector := rfl

theorem getSector_beginErase (sector : Nat) (user : StoreUser) (s : State) :
    (getSector (beginErase sector user s) sector).headerOk = false ∧ (getSector (beginErase sector user s) sector).next = 0 := by
  unfold beginErase
  rw [getSector_wipeSector]
  exact ⟨rfl, rfl⟩

theorem forgetSector_result (sector : Nat) (s : State) : (forgetSector sector s).fws.result = s.fws.result := by
  unfold forgetSector
  dsimp only
  split <;> split <;> rfl

theorem beginProgram_op (sector page : Nat) (data : List Word) (user : StoreUser) (s : State) :
    ∃ o, (beginProgram sector page data user s).fws.op = some o ∧ o.erase = false ∧ o.user = user ∧ o.sector = sector ∧ o.page = page ∧
      o.data = data := ⟨_, rfl, rfl, rfl, rfl, rfl, rfl⟩

theorem jobAdvance_idle {s : State} (hjob : s.fws.job = none) : jobAdvance s = s := by simp [jobAdvance, hjob]

theorem isSuspended_none {s : State} (sector : Nat) (h : s.fws.suspended = none) : isSuspended s sector = false := by simp [isSuspended, h]

theorem isSuspended_some {s : State} {o : StoreOp} {sector : Nat} (h : s.fws.suspended = some o) (hsector : o.sector = sector) :
    isSuspended s sector = true := by simp [isSuspended, h, hsector]

/-! ## The commands -/

theorem execSectorErase_idle {s : State} (hop : s.fws.op = none) (w : Writer) (sector : Nat) :
    execSectorErase w sector s =
      if storePermitted s w (sector % 512) = false then .next (cmdResult 2 (sector % 512) s)
      else if isSuspended s (sector % 512) then .next (cmdResult 4 (sector % 512) s)
      else if s.fws.suspended.isSome then .next (cmdBusy s)
      else .next (beginErase (sector % 512) .command (forgetSector (sector % 512) (cmdResult 0 (sector % 512) s))) :=
  if_neg (by simp [hop])

theorem execPageProgram_permitted {s : State} {w : Writer} {sector : Nat} (hop : s.fws.op = none)
    (hpermit : storePermitted s w (sector % 512) = true) (page : Nat) :
    execPageProgram w sector page s =
      if isSuspended s (sector % 512) ∨ sectorReady s (sector % 512) = false then .next (cmdResult 4 (sector % 512) s)
      else if (getSector s (sector % 512)).next ≠ page % 512 then .next (cmdResult 3 (sector % 512) s)
      else if (progBuf s).all (· == 0xFFFFFFFF) then
        .next (updSector (sector % 512) (fun x => { x with next := x.next + 1 }) (dropLines (sector % 512) (cmdResult 0 (sector % 512) s)))
      else .next (beginProgram (sector % 512) (page % 512) (progBuf s) .command (cmdResult 0 (sector % 512) s)) :=
  (if_neg (by simp [hop])).trans (if_neg (by simp [hpermit]))

theorem execSectorEraseDone_ok {s : State} {o : StoreOp} (hop : s.fws.op = some o) (herase : o.erase = true) (pulses : Nat) :
    execSectorEraseDone true pulses s =
      (let u := headSector o.sector o.count o.pulseMode (min 8 pulses) (endStoreOp o 0 pulses s)
      match o.user with
      | .herdbook =>
        if (getSector s o.sector).bad then
          .next (retryBad o.sector (updEvc (fun e => { e with badSectors := e.badSectors.filter (· != o.sector) }) u))
        else .next (jobAdvance u)
      | .commit => .next (jobAdvance (jobStep true u))
      | .command => .next (jobAdvance (if (getSector s o.sector).bad then updSector o.sector (fun x => { x with bad := true }) u else u))) := by
  unfold execSectorEraseDone
  rw [hop]
  dsimp only
  rw [if_neg (by simp [herase]), if_neg (by simp)]
  cases o.user <;> simp

theorem execPageProgramDone_ok {s : State} {o : StoreOp} (hop : s.fws.op = some o) (hprogram : o.erase = false) (huser : o.user = .command)
    (pulses : Nat) :
    execPageProgramDone true pulses s = .next (jobAdvance (putPage (pageKey o.sector o.page) o.data (endStoreOp o 0 pulses s))) := by
  unfold execPageProgramDone
  rw [hop]
  dsimp only
  rw [if_neg (by simp [hprogram]), if_neg (by simp), huser]
  rfl

theorem exec_failedMargin {s : State} {o : StoreOp} (hop : s.fws.op = some o) (hmode : o.pulseMode = false) (pulses : Nat) :
    exec (if o.erase then .sectorEraseDone false pulses else .pageProgramDone false pulses) s =
      .next { s with fws := { s.fws with op := some { o with pulseMode := true } } } := by
  by_cases herase : o.erase = true
  · rw [if_pos herase]
    show execSectorEraseDone false pulses s = _
    unfold execSectorEraseDone
    rw [hop]
    exact (if_neg (by simp [herase])).trans (if_pos ⟨rfl, hmode⟩)
  · rw [if_neg herase]
    show execPageProgramDone false pulses s = _
    unfold execPageProgramDone
    rw [hop]
    exact (if_neg herase).trans (if_pos ⟨rfl, hmode⟩)

/-- Settles O18: each command by its branch. -/
theorem storeErase : Obligations.StoreErase := by
  refine ⟨?start, ?busy, ?forbidden, ?suspended, ?commit, ?command, ?margin, ?resume, ?suspend⟩
  case start =>
    intro s w sector hop hsusp hpermit
    refine ⟨_, (execSectorErase_idle hop w sector).trans ((if_neg (by simp [hpermit])).trans ((if_neg (by
      simp [isSuspended_none _ hsusp])).trans (if_neg (by simp [hsusp])))), beginErase_op _ _ _, ?_, beginErase_lastSector _ _ _,
      getSector_beginErase _ _ _⟩
    rw [beginErase_result, forgetSector_result]
    rfl
  case busy => exact fun s w sector hop => if_pos hop
  case forbidden => exact fun s w sector hop hpermit => (execSectorErase_idle hop w sector).trans (if_pos hpermit)
  case suspended =>
    exact fun s w sector o hop hpermit hsusp hsector => (execSectorErase_idle hop w sector).trans ((if_neg (by simp [hpermit])).trans
      (if_pos (isSuspended_some hsusp hsector)))
  case commit =>
    intro s o pulses hop herase huser
    refine (execSectorEraseDone_ok hop herase pulses).trans ?_
    rw [huser]
    rfl
  case command =>
    intro s o pulses hop herase huser hbad hjob
    refine ⟨headSector o.sector o.count o.pulseMode (min 8 pulses) (endStoreOp o 0 pulses s), ?_, rfl, rfl, rfl,
      getSector_headSector _ _ _ _ _⟩
    refine (execSectorEraseDone_ok hop herase pulses).trans ?_
    rw [huser, hbad]
    exact next_eq (jobAdvance_idle hjob)
  case margin => exact fun s o pulses hop hmode => ⟨_, exec_failedMargin hop hmode pulses, rfl⟩
  case resume =>
    intro s o hsusp hop hfree
    simp [exec, execStoreEraseResume, hsusp, hop, hfree, updFws]
  case suspend =>
    intro s o hop herase hen
    simp [exec, execStoreEraseSuspend, hop, herase, flagF, hen, updFws]

/-! ## Continuous reads -/

/-- A continuous read that meets a running erase suspends it when SUSP_EN is set (18 R671). -/
def creadSuspended (s : State) : State :=
  match s.fws.op with
  | some o => if o.erase ∧ flagF s F.FWS_CFG_SUSP_EN = true then updFws (fun f => { f with op := none, suspended := some o }) s else s
  | none => s

theorem creadSuspended_frame (s : State) :
    creadSuspended s = { s with fws := { s.fws with op := (creadSuspended s).fws.op, suspended := (creadSuspended s).fws.suspended } } := by
  unfold creadSuspended
  split
  · split <;> rfl
  · rfl

theorem creadNext_eq (s : State) :
    creadNext s = ((creadWord (4 * getF s F.FWS_CREAD_ADDR_ADDR) (creadSuspended s)).1,
      setF F.FWS_CREAD_ADDR_ADDR ((getF s F.FWS_CREAD_ADDR_ADDR + 1) % 2 ^ 25)
        (creadWord (4 * getF s F.FWS_CREAD_ADDR_ADDR) (creadSuspended s)).2) := rfl

/-- A continuous read changes no state but the count of free values. -/
theorem creadWord_frame (addr : Nat) (s : State) : (creadWord addr s).2 = { s with drawn := (creadWord addr s).2.drawn } := by
  unfold creadWord
  dsimp only
  split
  · rfl
  · split <;> rfl

theorem creadWord_data {addr : Nat} {s : State} (hhead : (getSector s (addr / 2 ^ 18)).headerOk = true) (hlevel : protLevel s = 0)
    (hregion : regionOf (addr / 2 ^ 18) ≠ 5) : (creadWord addr s).1 = pageWord (getPage s (addr / 512)) (addr / 4 % 128) := by
  unfold creadWord
  dsimp only
  rw [if_neg (fun h => h.elim hregion (fun hprot => hprot.2 hlevel)), if_neg (ne_false_of_eq_true hhead)]

/-! ## Settings pages -/

theorem getSector_writePage_next (sector : Nat) (data : List Word) (s : State) :
    (getSector (writePage sector data s) sector).next = (getSector s sector).next + 1 :=
  congrArg Sector.next (getSector_updSector sector (fun x => { x with next := (getSector s sector).next + 1 }) s)

theorem eraseNow_fws (k : Nat) (s : State) :
    (eraseNow k s).fws.settingsSector = s.fws.settingsSector ∧ (eraseNow k s).fws.settingsSeq = s.fws.settingsSeq ∧
      (eraseNow k s).fws.saved = s.fws.saved := ⟨rfl, rfl, rfl⟩

theorem foldl_eraseNow_fws (ks : List Nat) (s : State) :
    (ks.foldl (fun s k => eraseNow k s) s).fws.settingsSector = s.fws.settingsSector ∧
      (ks.foldl (fun s k => eraseNow k s) s).fws.settingsSeq = s.fws.settingsSeq ∧
      (ks.foldl (fun s k => eraseNow k s) s).fws.saved = s.fws.saved := by
  induction ks generalizing s with
  | nil => exact ⟨rfl, rfl, rfl⟩
  | cons k ks ih => exact ih (eraseNow k s)

theorem execSettingsPageProgram_ready {s : State} {id : Nat} {vals : List Nat} {rest : SMap (List Nat)}
    (hdirty : s.fws.dirty = (id, vals) :: rest) (hop : s.fws.op = none) (hsusp : s.fws.suspended = none)
    (hready : sectorReady s s.fws.settingsSector = true) (hnext : (getSector s s.fws.settingsSector).next < 512) :
    execSettingsPageProgram s = .next (writePage s.fws.settingsSector [BitVec.ofNat 32 (s.fws.settingsSeq + 1), 1]
      (updFws (fun f => { f with dirty := rest, saved := mapPut f.saved id vals, settingsSeq := s.fws.settingsSeq + 1 }) s)) := by
  unfold execSettingsPageProgram
  rw [hdirty]
  dsimp only
  rw [if_neg (by simp [hop, isSuspended_none _ hsusp]), if_pos hready, if_neg (Nat.not_le.mpr hnext)]

/-- Settles O19: each command by its branch. -/
theorem storePrograms : Obligations.StorePrograms := by
  refine ⟨?start, ?wrongPage, ?unready, ?done, ?cread, ?setting, ?compact⟩
  case start =>
    intro s w sector page hop hsusp hpermit hready hnext hdata
    obtain ⟨o, ho, herase, -, hsector, hpage, hd⟩ :=
      beginProgram_op (sector % 512) (page % 512) (progBuf s) .command (cmdResult 0 (sector % 512) s)
    exact ⟨_, (execPageProgram_permitted hop hpermit page).trans ((if_neg (by simp [isSuspended_none _ hsusp, hready])).trans
      ((if_neg (by simp [hnext])).trans (if_neg (ne_true_of_eq_false hdata)))), ⟨o, ho, herase, hsector, hpage, hd⟩, rfl⟩
  case wrongPage =>
    intro s w sector page hop hsusp hpermit hready hnext
    exact (execPageProgram_permitted hop hpermit page).trans ((if_neg (by simp [isSuspended_none _ hsusp, hready])).trans (if_pos hnext))
  case unready =>
    exact fun s w sector page hop hpermit hready => (execPageProgram_permitted hop hpermit page).trans (if_pos (.inr hready))
  case done =>
    intro s o pulses hop hprogram huser hjob
    refine ⟨putPage (pageKey o.sector o.page) o.data (endStoreOp o 0 pulses s), ?_, rfl, rfl, getPage_putPage _ _ _⟩
    exact (execPageProgramDone_ok hop hprogram huser pulses).trans (next_eq (jobAdvance_idle hjob))
  case cread =>
    intro s
    refine ⟨emit (.value 0x11000014 (creadNext s).1) (creadNext s).2, (creadNext s).1, rfl, ?_, ?_, ?_⟩
    · rw [creadNext_eq]
      show _ :: (creadWord _ (creadSuspended s)).2.out = _
      rw [creadWord_frame, creadSuspended_frame]
    · rw [creadNext_eq]
      refine (getF_setF_self _ _ _).trans (Nat.mod_eq_of_lt ?_)
      exact Nat.mod_lt _ (Nat.two_pow_pos _)
    · intro hhead hlevel hregion
      rw [creadNext_eq]
      show (creadWord _ (creadSuspended s)).1 = _
      have hframe := creadSuspended_frame s
      rw [creadWord_data (by rw [hframe]; exact hhead) (by rw [hframe]; exact hlevel) hregion, hframe]
      rfl
  case setting =>
    intro s id vals rest hdirty hop hsusp hready hnext
    refine ⟨_, execSettingsPageProgram_ready hdirty hop hsusp hready hnext, rfl, mapGet_mapPut_self _ _ _ _, rfl, ?_⟩
    exact getSector_writePage_next _ _ _
  case compact =>
    intro s hop hsusp hnext hsector
    refine ⟨_, if_neg (by simp [hop, hsusp, hnext]), ?_⟩
    obtain ⟨hsec, hseq, hsaved⟩ := foldl_eraseNow_fws _ _
    rw [hsec, hseq, hsaved, if_pos hsector]
    refine ⟨rfl, ?_, ?_⟩
    · split <;> exact Nat.lt_add_of_pos_right (by omega)
    · split <;> rfl

end Sys2Proof.Machine
end

section
/-! O20 and O21: the event collector and the Herdbook (19). -/

namespace Sys2Proof.Machine

/-! ## Sources and their tokens -/

@[simp] theorem srcOf_updSrc (src : Nat) (f : EvcSrc → EvcSrc) (s : State) :
    mapGet evcSrc0 (updSrc src f s).evc.src src = f (mapGet evcSrc0 s.evc.src src) := mapGet_mapUpd_self _ _ _ _

theorem fireSev_disabled {src : Nat} {s : State} (h : evcBit s F.EVC_ENb_EN src = false) (sev index : Nat) (d : List Nat) :
    fireSev src sev index d s = s := by
  unfold fireSev
  rw [if_pos h, ite_self]

theorem execEventFire_set {source : Nat} {s : State} (hexists : evcExists source = true) (hen : evcBit s F.EVC_ENb_EN source = true)
    (sev index : Nat) (detail : List Nat) : ∃ t, exec (.eventFire source sev index detail) s = .next t ∧
      evcBit t F.EVC_LATCHb_LATCH source = true ∧ t = { s with regs := t.regs, evc := t.evc, out := t.out, drawn := t.drawn } := by
  by_cases hfirmware : 896 ≤ source
  · exact ⟨_, if_pos hfirmware, fireSev_bit _ _ _ _ _ hexists hen, fireSev_frame _ _ _ _ _⟩
  · exact ⟨_, if_neg hfirmware, fire_bit _ _ _ hexists hen, fire_frame _ _ _⟩

theorem execEventFire_disabled {source : Nat} {s : State} (hoff : evcBit s F.EVC_ENb_EN source = false) (sev index : Nat)
    (detail : List Nat) : ∃ t, exec (.eventFire source sev index detail) s = .next t ∧ t = { s with drawn := t.drawn } := by
  by_cases hfirmware : 896 ≤ source
  · exact ⟨s, (if_pos hfirmware).trans (next_eq (fireSev_disabled hoff _ _ _)), rfl⟩
  · exact ⟨_, if_neg hfirmware, fire_off _ _ _ hoff⟩

theorem evcTokens_setTokens (source n : Nat) (s : State) : evcTokens (setTokens source n s) source = min (getF s F.EVC_CFG_BURST) n := by
  unfold evcTokens
  rw [setTokens, srcOf_updSrc]
  rfl

theorem summaryReady_setTokens {source : Nat} {s : State} (h : (mapGet evcSrc0 s.evc.src source).supp = 0) (n : Nat) :
    summaryReady (setTokens source n s) source = false := by
  have hsupp : (mapGet evcSrc0 (setTokens source n s).evc.src source).supp = 0 := by rw [setTokens, srcOf_updSrc]; exact h
  simp [summaryReady, hsupp]

/-- Settles O20: the branches of each command. -/
theorem eventSources : Obligations.EventSources := by
  refine ⟨fun s source sev index detail hexists hen => execEventFire_set hexists hen sev index detail,
    fun s source sev index detail hoff => execEventFire_disabled hoff sev index detail, ?raise, ?reserved, ?refill, ?full, ?summary⟩
  case raise => exact fun s value hlo hhi hexists hen => ⟨_, if_pos ⟨hlo, hhi⟩, fireSev_bit _ _ _ _ _ hexists hen, fireSev_frame _ _ _ _ _⟩
  case reserved => exact fun s value hout => if_neg (by omega)
  case refill =>
    intro s source hroom hsupp
    refine ⟨setTokens source (evcTokens s source + 1) s, (if_pos hroom).trans (if_neg (by rw [summaryReady_setTokens hsupp]; decide)), ?_, rfl⟩
    rw [evcTokens_setTokens]
    exact Nat.min_eq_right hroom
  case full => exact fun s source hfull => if_neg (Nat.not_lt.mpr (Nat.le_of_eq hfull.symm))
  case summary =>
    intro s source hready
    exact ⟨_, _, if_pos hready, rfl, rfl, rfl, rfl, congrArg EvcSrc.supp (srcOf_updSrc _ _ _), rfl⟩

/-! ## The Herdbook's pages -/

theorem drainHead_plain {s : State} {r : HbRec} {rest : List HbRec} (hfifo : s.evc.fifo = r :: rest) (htyp : r.typ ≠ 2)
    (hlost : s.evc.lost = 0) (haen : 1536 ≤ r.source ∨ evcBit s F.EVC_AENb_AEN r.source = false) :
    drainHead s = { s with evc := { s.evc with
      fifo := rest, filling := s.evc.filling ++ [{ r with seq := s.evc.nextSeq }], nextSeq := s.evc.nextSeq + 1
      mirrorNow := s.evc.mirrorNow || r.sev == 3 || r.source == 864 } } := by
  have hquiet : ∀ u : State, u.regs = s.regs → ¬(r.source < 1536 ∧ evcBit u F.EVC_AENb_AEN r.source = true) := by
    rintro u hregs ⟨hlt, hset⟩
    rcases haen with h | h
    · omega
    · have hbit : evcBit u F.EVC_AENb_AEN r.source = evcBit s F.EVC_AENb_AEN r.source := by
        rw [evcBit_eq, evcBit_eq, getF_regs hregs]
      simp [hbit, h] at hset
  unfold drainHead
  rw [hfifo]
  dsimp only
  rw [if_neg htyp, if_neg (show ¬(0 < _ ∧ _) by simp [hlost])]
  exact if_neg (hquiet _ rfl)

/-- The SRAM ring holds the last 1,024 records (19 R699). -/
def lastRecords (rs : List HbRec) : List HbRec := rs.drop (rs.length - 1024)

theorem sramAdd_eq (rs : List HbRec) (s : State) :
    sramAdd rs s = { s with evc := { s.evc with sramRing := lastRecords (s.evc.sramRing ++ rs) } } := rfl

theorem hbProgram_degraded {s : State} (hfill : s.evc.filling ≠ []) (hidle : s.evc.programming = none) (hdeg : hbDegraded s = true) :
    hbProgram s = { s with evc := { s.evc with filling := [], sramRing := lastRecords (s.evc.sramRing ++ s.evc.filling) } } := by
  unfold hbProgram
  rw [if_neg (by simp [hfill, hidle]), if_pos hdeg, sramAdd_eq]
  rfl

theorem hbProgram_page {s : State} (hfill : s.evc.filling ≠ []) (hidle : s.evc.programming = none) (hdeg : hbDegraded s = false)
    (hop : s.fws.op = none) (hsusp : s.fws.suspended = none) (hready : sectorReady s s.evc.curSector = true)
    (hnext : (getSector s s.evc.curSector).next < 512) :
    hbProgram s = beginProgram s.evc.curSector (getSector s s.evc.curSector).next (hbPage (s.evc.filling.take 8)) .herdbook
      (updEvc (fun e => { e with programming := some (s.evc.filling.take 8), filling := e.filling.drop 8 }) s) := by
  unfold hbProgram
  dsimp only
  rw [if_neg (by simp [hfill, hidle]), if_neg (by simp [hdeg]), if_neg (by simp [hop, hsusp]), if_neg (by simp [hready, hnext])]
  rfl

/-- What a step leaves of the Herdbook's pages: the ring, the FIFO and the sources may differ. -/
def SamePages (s t : State) : Prop :=
  t.evc.badSectors = s.evc.badSectors ∧ t.evc.programming = s.evc.programming ∧ t.evc.nextSeq = s.evc.nextSeq ∧
    t.evc.filling = s.evc.filling

theorem latchSource_pages (src : Nat) (s : State) : SamePages s (latchSource src s) := by
  unfold latchSource
  dsimp only
  split <;> exact ⟨rfl, rfl, rfl, rfl⟩

theorem hbEraseAhead_pages (s : State) : SamePages s (hbEraseAhead s) := by
  unfold hbEraseAhead
  dsimp only
  split
  · exact ⟨rfl, rfl, rfl, rfl⟩
  · split <;> exact ⟨rfl, rfl, rfl, rfl⟩

theorem fire_pages (src i : Nat) (s : State) : SamePages s (fire src i s) := fire_rec src i s

/-- What the Herdbook holds after the failure of a sector (19 R698): the record of source 864, then those of the failed page. -/
def SectorFailed (s : State) (sect : Nat) (t : State) : Prop :=
  sect ∈ t.evc.badSectors ∧ t.evc.programming = none ∧ t.evc.nextSeq = s.evc.nextSeq + 1 ∧
    ∃ r, t.evc.filling = r :: (s.evc.programming.getD [] ++ s.evc.filling) ∧ r.source = 864 ∧ r.index = sect ∧ r.seq = s.evc.nextSeq

theorem SectorFailed.of_samePages {s u t : State} {sect : Nat} (h : SectorFailed s sect u) (hsame : SamePages u t) :
    SectorFailed s sect t := by
  obtain ⟨hbad, hprog, hnext, hfill⟩ := hsame
  unfold SectorFailed
  rw [hbad, hprog, hnext, hfill]
  exact h

theorem mem_insertBad (sect : Nat) (bad : List Nat) : sect ∈ if sect ∈ bad then bad else sect :: bad := by
  split
  · assumption
  · exact List.mem_cons_self

/-- The end of a sector's failure: the records of the current sector leave the ring, and the writer goes on or runs from SRAM. -/
def hbLeaveSector (sect : Nat) (s : State) : State :=
  let s := if sect = s.evc.curSector then dropRing s.evc.curSector s else s
  if hbDegraded s then fire 865 (goodSectors s) s else hbEraseAhead s

theorem hbLeaveSector_pages (sect : Nat) (s : State) : SamePages s (hbLeaveSector sect s) := by
  have hdrop : SamePages s (if sect = s.evc.curSector then dropRing s.evc.curSector s else s) := by
    split <;> exact ⟨rfl, rfl, rfl, rfl⟩
  unfold hbLeaveSector
  generalize (if sect = s.evc.curSector then dropRing s.evc.curSector s else s) = u at hdrop ⊢
  obtain ⟨hbad, hprog, hnext, hfill⟩ := hdrop
  unfold SamePages
  rw [← hbad, ← hprog, ← hnext, ← hfill]
  dsimp only
  split
  · exact fire_pages _ _ _
  · exact hbEraseAhead_pages _

theorem hbSectorFail_failed (sect result : Nat) (s : State) : SectorFailed s sect (hbSectorFail sect result s) := by
  obtain ⟨-, -, hseq, hfill⟩ := latchSource_pages 864 s
  unfold hbSectorFail
  generalize latchSource 864 s = v at hseq hfill ⊢
  refine SectorFailed.of_samePages (u := updEvc _ (updSector _ _ v)) ?_ (hbLeaveSector_pages sect _)
  refine ⟨mem_insertBad _ _, rfl, congrArg (· + 1) hseq, _,
    congrArg (fun l => _ :: (s.evc.programming.getD [] ++ l)) hfill, rfl, rfl, ?_⟩
  exact hseq

/-! ## The mirror -/

theorem execMirrorProgram_ok {s : State} (hon : s.evc.mirrorOn = true) (hup : s.evc.mirrorDown = false)
    (hnew : ((hbRecords s).filter (fun r => decide (s.evc.mirrorSeq < r.seq))).take 1024 ≠ []) :
    execMirrorProgram true s = .next { s with evc := { s.evc with
      mirror := s.evc.mirror ++ ((hbRecords s).filter (fun r => decide (s.evc.mirrorSeq < r.seq))).take 1024
      mirrorNow := false, mirrorDown := false
      mirrorSeq := (((hbRecords s).filter (fun r => decide (s.evc.mirrorSeq < r.seq))).take 1024).foldl (fun m r => max m r.seq) s.evc.mirrorSeq } } :=
  (if_neg (by simp [hon, hup])).trans ((if_neg (by decide)).trans (if_neg hnew))

/-- The memory of the mirror is gone or not as the flash side says (19 R700). -/
def mirrorJudged (s : State) : State := { s with evc := { s.evc with mirrorDown := mirrorBlockless s } }

theorem evcBit_mirrorJudged (f : Nat → Fld) (src : Nat) (s : State) : evcBit (mirrorJudged s) f src = evcBit s f src := rfl

theorem execMirrorProgram_failed {s : State} (hon : s.evc.mirrorOn = true) (hup : s.evc.mirrorDown = false) :
    execMirrorProgram false s = .next (fire 867 s.evc.mirrorSeq (mirrorJudged s)) :=
  (if_neg (by simp [hon, hup])).trans (if_pos rfl)

/-- Settles O21: each command by its branch. -/
theorem eventRecords : Obligations.EventRecords := by
  refine ⟨?drain, ?degraded, ?page, ?fail, ?mirror, ?mirrorFails⟩
  case drain =>
    intro s r rest hfifo hfill hboot htyp hlost haen
    rw [← drainHead_plain hfifo htyp hlost haen]
    exact if_pos ⟨hfill, hboot⟩
  case degraded =>
    intro s hfill hidle hdeg
    refine ⟨_, next_eq (hbProgram_degraded hfill hidle hdeg), rfl, ?_, rfl⟩
    rw [lastRecords]
  case page =>
    intro s hfill hidle hdeg hop hsusp hready hnext
    obtain ⟨o, ho, herase, huser, hsector, hpage, hdata⟩ := beginProgram_op s.evc.curSector (getSector s s.evc.curSector).next
      (hbPage (s.evc.filling.take 8)) .herdbook
      (updEvc (fun e => { e with programming := some (s.evc.filling.take 8), filling := e.filling.drop 8 }) s)
    exact ⟨_, next_eq (hbProgram_page hfill hidle hdeg hop hsusp hready hnext), rfl, rfl, o, ho, herase, huser, hsector, hpage, hdata⟩
  case fail => exact fun s result => ⟨_, rfl, hbSectorFail_failed _ _ _⟩
  case mirror => exact fun s hon hup hnew => ⟨_, execMirrorProgram_ok hon hup hnew, rfl, rfl, rfl⟩
  case mirrorFails =>
    intro s hon hup hen
    obtain ⟨hmirror, hdown⟩ := fire_mir 867 s.evc.mirrorSeq (mirrorJudged s)
    have hexists : evcExists 867 = true := by decide
    have hset := fire_bit 867 s.evc.mirrorSeq (mirrorJudged s) hexists (by rw [evcBit_mirrorJudged, hen])
    exact ⟨_, execMirrorProgram_failed hon hup, hmirror, hdown, hset⟩

end Sys2Proof.Machine
end

section
/-! O22 and O23: the buffer pools (14). Before them, what storing a field leaves of the other fields of its register. -/

namespace Sys2Proof.Machine

/-! ## Two fields of one register -/

/-- The parts of a stored word: the bits below the field, the field, the bits above it. -/
theorem natSetBits_eq (v lo n x : Nat) : natSetBits v lo n x = v % 2 ^ lo + 2 ^ lo * (x % 2 ^ n + 2 ^ n * (v / 2 ^ lo / 2 ^ n)) := by
  have hlow := Nat.div_add_mod v (2 ^ lo)
  have hhigh := Nat.div_add_mod (v / 2 ^ lo) (2 ^ n)
  unfold natSetBits natBits
  rw [Nat.shiftRight_eq_div_pow]
  generalize v / 2 ^ lo = q at hlow hhigh ⊢
  have hv : v = 2 ^ lo * (2 ^ n * (q / 2 ^ n)) + 2 ^ lo * (q % 2 ^ n) + v % 2 ^ lo := by rw [← Nat.mul_add, hhigh, hlow]
  rw [Nat.mul_add, Nat.mul_comm (q % 2 ^ n), Nat.mul_comm (x % 2 ^ n)]
  omega

theorem natBits_natSetBits_below {v lo n x lo' n' : Nat} (h : lo + n ≤ lo') : natBits (natSetBits v lo n x) lo' n' = natBits v lo' n' := by
  obtain ⟨k, rfl⟩ := Nat.exists_eq_add_of_le h
  unfold natBits
  rw [natSetBits_eq, Nat.shiftRight_eq_div_pow, Nat.shiftRight_eq_div_pow, Nat.pow_add, Nat.pow_add, ← Nat.div_div_eq_div_mul,
    ← Nat.div_div_eq_div_mul, Nat.add_mul_div_left _ _ (Nat.two_pow_pos lo), Nat.div_eq_of_lt (Nat.mod_lt v (Nat.two_pow_pos lo)), Nat.zero_add,
    Nat.add_mul_div_left _ _ (Nat.two_pow_pos n), Nat.div_eq_of_lt (Nat.mod_lt x (Nat.two_pow_pos n)), Nat.zero_add,
    ← Nat.div_div_eq_div_mul, ← Nat.div_div_eq_div_mul]

/-- A field stays when one below it in the same register is stored. -/
theorem getF_setF_below {f g : Fld} (haddr : g.addr = f.addr) (h : f.lo + f.width ≤ g.lo) (v : Nat) (s : State) :
    getF (setF f v s) g = getF s g := by
  simp only [getF, setF, haddr, getReg_setReg_self, natBits_natSetBits_below h]

/-! ## Allocation -/

theorem execBufferAllocate_linkGood (port owner tenant size : Nat) (opp : Bool) (s : State) :
    exec (.bufferAllocate port owner tenant size opp false) s = .next (bpmAllocate port owner tenant size opp s) := by
  show execBufferAllocate port owner tenant size opp false s = _
  unfold execBufferAllocate
  exact if_neg (by simp)

@[simp] theorem poolOf_updPool (p : Nat) (f : Pool → Pool) (s : State) :
    mapGet pool0 (updPool p f s).bpm.pools p = f (mapGet pool0 s.bpm.pools p) := mapGet_mapUpd_self _ _ _ _

@[simp] theorem bpmCount_pools (p sel : Nat) (s : State) : (bpmCount p sel s).bpm.pools = s.bpm.pools := rfl

@[simp] theorem bpmAnswer_bufs (st : Nat) (s : State) : (bpmAnswer st s).bpm.bufs = s.bpm.bufs := rfl

@[simp] theorem bpmAnswer_pools (st : Nat) (s : State) : (bpmAnswer st s).bpm.pools = s.bpm.pools := rfl

/-- A request that passes the checks of 14 R526. -/
theorem bpmAllocate_checked {port owner size : Nat} (howner : ownerOk port owner = true) (hlo : 0 < size) (hhi : size ≤ 1048576)
    (tenant : Nat) (opp : Bool) (s : State) :
    bpmAllocate port owner tenant size opp s =
      if opp then
        if poolFree s (poolFor size) ≤ poolReserve s (poolFor size) then bpmAnswer 1 (bpmCount (poolFor size) 1 s)
        else
          match allocFrom (poolFor size) owner tenant s with
          | some (_, s) => s
          | none => bpmAnswer 1 (bpmCount (poolFor size) 1 s)
      else allocNormal (poolFor size) port owner tenant s 4 :=
  if_neg (fun h => h.elim (ne_false_of_eq_true howner) (by omega))

/-- The state after buffer `i` of a pool, whose list is then `x`, is granted (14 R527, R528). -/
def granted (p i owner tenant : Nat) (x : Pool) (s : State) : State :=
  bpmCount p 0 (updBpm (fun b => { b with
    pools := mapSet pool0 b.pools p x, bufs := mapSet buf0 b.bufs (handleOf p i) ⟨1, owner, tenant, 1⟩
    status := 0, handle := handleOf p i }) s)

theorem allocFrom_pop {p i : Nat} {x : Pool} {s : State} (h : poolPop p (mapGet pool0 s.bpm.pools p) = some (i, x)) (owner tenant : Nat) :
    allocFrom p owner tenant s = some (handleOf p i, granted p i owner tenant x s) := by
  unfold allocFrom
  rw [h]
  rfl

theorem allocFrom_empty {p : Nat} {s : State} (h : poolPop p (mapGet pool0 s.bpm.pools p) = none) (owner tenant : Nat) :
    allocFrom p owner tenant s = none := by
  unfold allocFrom
  rw [h]

theorem bpmAllocate_granted {port owner size i : Nat} {x : Pool} {opp : Bool} {s : State} (howner : ownerOk port owner = true)
    (hlo : 0 < size) (hhi : size ≤ 1048576) (hpop : poolPop (poolFor size) (mapGet pool0 s.bpm.pools (poolFor size)) = some (i, x))
    (hreserve : opp = true → poolReserve s (poolFor size) < poolFree s (poolFor size)) (tenant : Nat) :
    bpmAllocate port owner tenant size opp s = granted (poolFor size) i owner tenant x s := by
  rw [bpmAllocate_checked howner hlo hhi]
  cases opp with
  | false =>
    unfold allocNormal
    rw [allocFrom_pop hpop]
    rfl
  | true =>
    rw [if_pos rfl, if_neg (Nat.not_le.mpr (hreserve rfl)), allocFrom_pop hpop]

theorem bpmAllocate_waits {port owner size : Nat} {s : State} (howner : ownerOk port owner = true) (hlo : 0 < size)
    (hhi : size ≤ 1048576) (hpop : poolPop (poolFor size) (mapGet pool0 s.bpm.pools (poolFor size)) = none)
    (hfallback : poolFallback s (poolFor size) = false) (hroom : (mapGet pool0 s.bpm.pools (poolFor size)).waiters.length < 64)
    (tenant : Nat) :
    bpmAllocate port owner tenant size false s =
      bpmAnswer 2 (bpmCount (poolFor size) 3 (updPool (poolFor size) (fun x => { x with waiters := x.waiters ++ [⟨port, owner, tenant⟩] }) s)) := by
  rw [bpmAllocate_checked howner hlo hhi, if_neg (by simp)]
  unfold allocNormal
  rw [allocFrom_empty hpop]
  exact (if_neg (by simp [hfallback])).trans (if_pos hroom)

theorem granted_self (p i owner tenant : Nat) (x : Pool) (s : State) :
    mapGet buf0 (granted p i owner tenant x s).bpm.bufs (handleOf p i) = ⟨1, owner, tenant, 1⟩ ∧
      mapGet pool0 (granted p i owner tenant x s).bpm.pools p = x :=
  ⟨mapGet_mapSet_self buf0 s.bpm.bufs (handleOf p i) ⟨1, owner, tenant, 1⟩, mapGet_mapSet_self pool0 s.bpm.pools p x⟩

theorem granted_ne {p i h : Nat} (owner tenant : Nat) (x : Pool) (s : State) (hne : h ≠ handleOf p i) :
    mapGet buf0 (granted p i owner tenant x s).bpm.bufs h = mapGet buf0 s.bpm.bufs h :=
  mapGet_mapSet_ne buf0 s.bpm.bufs ⟨1, owner, tenant, 1⟩ hne

/-! ## Requests that name a buffer -/

/-- A buffer's new entry is stored and the request answered OK. -/
def bufStored (h : Nat) (b : Buf) (s : State) : State := bpmAnswer 0 (updBpm (fun x => { x with bufs := mapSet buf0 x.bufs h b }) s)

theorem bufStored_self (h : Nat) (b : Buf) (s : State) : mapGet buf0 (bufStored h b s).bpm.bufs h = b := mapGet_mapSet_self _ _ _ _

theorem bufStored_ne {h k : Nat} (b : Buf) (s : State) (hne : k ≠ h) :
    mapGet buf0 (bufStored h b s).bpm.bufs k = mapGet buf0 s.bpm.bufs k := mapGet_mapSet_ne _ _ _ hne

theorem bpmHandOver_owner {port owner h new : Nat} {s : State} (hcheck : handleCheck s port owner h = none)
    (hmode : poolRefMode s (handlePool h % 4) = false) (hnew : ownerExists new = true) (hst : (mapGet buf0 s.bpm.bufs h).st = 1)
    (howner : (mapGet buf0 s.bpm.bufs h).owner = owner) :
    bpmHandOver port owner h new s = bufStored h { mapGet buf0 s.bpm.bufs h with owner := new } s := by
  unfold bpmHandOver
  dsimp only
  rw [hcheck]
  exact (if_neg (by simp [hmode, hnew])).trans (if_neg (by simp [hst, howner]))

theorem bpmReference_used {port owner h : Nat} {s : State} (hcheck : handleCheck s port owner h = none)
    (hmode : poolRefMode s (handlePool h % 4) = true) (hst : (mapGet buf0 s.bpm.bufs h).st ≠ 0)
    (hrefs : (mapGet buf0 s.bpm.bufs h).refs ≠ 1023) :
    bpmReference port owner h s = bufStored h { mapGet buf0 s.bpm.bufs h with refs := (mapGet buf0 s.bpm.bufs h).refs + 1 } s := by
  unfold bpmReference
  dsimp only
  rw [hcheck]
  exact (if_neg (by simp [hmode])).trans ((if_neg hst).trans (if_neg hrefs))

theorem bpmRelease_shared {port owner h : Nat} {s : State} (hcheck : handleCheck s port owner h = none)
    (hmode : poolRefMode s (handlePool h % 4) = true) (hst : (mapGet buf0 s.bpm.bufs h).st ≠ 0)
    (hrefs : 1 < (mapGet buf0 s.bpm.bufs h).refs) :
    bpmRelease port owner h s = bufStored h { mapGet buf0 s.bpm.bufs h with refs := (mapGet buf0 s.bpm.bufs h).refs - 1 } s := by
  unfold bpmRelease
  dsimp only
  rw [hcheck]
  exact (if_pos hmode).trans ((if_neg hst).trans (if_neg (Nat.not_le.mpr hrefs)))

theorem bpmRelease_owner {port owner h : Nat} {s : State} (hcheck : handleCheck s port owner h = none)
    (hmode : poolRefMode s (handlePool h % 4) = false) (hst : (mapGet buf0 s.bpm.bufs h).st = 1)
    (howner : (mapGet buf0 s.bpm.bufs h).owner = owner) : bpmRelease port owner h s = bpmAnswer 0 (freeBuffer h s) := by
  unfold bpmRelease
  dsimp only
  rw [hcheck]
  exact (if_neg (by simp [hmode])).trans ((if_neg (by simp [hst])).trans (if_neg (by simp [howner])))

theorem bpmRelease_double {port owner h : Nat} {s : State} (hcheck : handleCheck s port owner h = none)
    (hmode : poolRefMode s (handlePool h % 4) = false) (hst : (mapGet buf0 s.bpm.bufs h).st = 0) :
    bpmRelease port owner h s = bpmRefuse (handlePool h % 4) h 4 owner port 1 s := by
  unfold bpmRelease
  dsimp only
  rw [hcheck]
  exact (if_neg (by simp [hmode])).trans (if_pos hst)

theorem freeBuffer_idle {h : Nat} {s : State} (hidle : (mapGet pool0 s.bpm.pools (handlePool h)).waiters = []) :
    freeBuffer h s = updBpm (fun b => { b with bufs := mapDel b.bufs h })
      (updPool (handlePool h) (fun x => { x with freed := handleIndex h :: x.freed }) s) := by
  unfold freeBuffer
  dsimp only
  rw [hidle]

@[simp] theorem updBufs_pools (f : SMap Buf → SMap Buf) (s : State) :
    (updBpm (fun b => { b with bufs := f b.bufs }) s).bpm.pools = s.bpm.pools := rfl

theorem freeBuffer_waiting {h : Nat} {w : Waiter} {rest : List Waiter} {s : State}
    (hwait : (mapGet pool0 s.bpm.pools (handlePool h)).waiters = w :: rest) :
    freeBuffer h s = { s with bpm := { s.bpm with
      pools := mapUpd pool0 s.bpm.pools (handlePool h) (fun x => { x with waiters := rest })
      bufs := mapSet buf0 s.bpm.bufs h ⟨1, w.owner, w.tenant, 1⟩
      counters := mapUpd 0 s.bpm.counters (handlePool h * 16) (satAdd 0xFFFFFFFF · 1) } } := by
  unfold freeBuffer
  dsimp only
  rw [hwait]
  rfl

/-! ## Cancels -/

/-- An owner waits in a pool's queue. -/
def waitsIn (s : State) (owner p : Nat) : Bool := (mapGet pool0 s.bpm.pools p).waiters.any (fun w => w.owner == owner)

theorem bpmCancel_eq (owner : Nat) (s : State) :
    bpmCancel owner s = bpmAnswer (if [0, 1, 2, 3].filter (waitsIn s owner) = [] then 0 else 10)
      (([0, 1, 2, 3].filter (waitsIn s owner)).foldl
        (fun s p => bpmCount p 11 (updPool p (fun x => { x with waiters := dropWaiter owner x.waiters }) s)) s) := rfl

theorem bpmCancel_none {owner : Nat} {s : State} (h : ∀ p < 4, waitsIn s owner p = false) : bpmCancel owner s = bpmAnswer 0 s := by
  rw [bpmCancel_eq]
  simp [h 0, h 1, h 2, h 3]

theorem bpmCancel_first {owner : Nat} {s : State} (h0 : waitsIn s owner 0 = true) (h : ∀ p < 4, 0 < p → waitsIn s owner p = false) :
    bpmCancel owner s = bpmAnswer 10 (bpmCount 0 11 (updPool 0 (fun x => { x with waiters := dropWaiter owner x.waiters }) s)) := by
  rw [bpmCancel_eq]
  simp [h0, h 1, h 2, h 3]

/-- Settles O22: each request by its branch. -/
theorem bufferAllocation : Obligations.BufferAllocation := by
  refine ⟨?granted, ?reserve, ?waits, ?range, ?handOver, ?reference, ?cancelNone, ?cancel⟩
  case granted =>
    intro s port owner tenant size i x opp howner hlo hhi hpop hreserve
    obtain ⟨hbuf, hpool⟩ := granted_self (poolFor size) i owner tenant x s
    exact ⟨_, (execBufferAllocate_linkGood _ _ _ _ _ _).trans (next_eq (bpmAllocate_granted howner hlo hhi hpop hreserve tenant)), rfl, rfl,
      hbuf, hpool, fun h hne => granted_ne _ _ _ _ hne, rfl⟩
  case reserve =>
    intro s port owner tenant size howner hlo hhi hfree
    refine ⟨bpmAnswer 1 (bpmCount (poolFor size) 1 s), ?_, rfl, rfl, rfl, rfl⟩
    rw [execBufferAllocate_linkGood, bpmAllocate_checked howner hlo hhi, if_pos rfl, if_pos hfree]
  case waits =>
    intro s port owner tenant size howner hlo hhi hpop hfallback hroom
    exact ⟨_, (execBufferAllocate_linkGood _ _ _ _ _ _).trans (next_eq (bpmAllocate_waits howner hlo hhi hpop hfallback hroom tenant)), rfl, rfl,
      by simp, rfl⟩
  case range =>
    exact fun s port owner tenant size opp hbad => (execBufferAllocate_linkGood _ _ _ _ _ _).trans (next_eq (if_pos hbad))
  case handOver =>
    intro s port owner handle newOwner hcheck hmode hnew hst howner
    exact ⟨_, next_eq (bpmHandOver_owner hcheck hmode hnew hst howner), rfl, bufStored_self _ _ _, fun h hne => bufStored_ne _ _ hne, rfl⟩
  case reference =>
    intro s port owner handle hcheck hmode hst hrefs
    exact ⟨_, next_eq (bpmReference_used hcheck hmode hst hrefs), rfl, bufStored_self _ _ _, rfl⟩
  case cancelNone => exact fun s port owner howner hnone => (if_pos howner).trans (next_eq (bpmCancel_none hnone))
  case cancel =>
    intro s port owner howner hwaits hothers
    exact ⟨_, (if_pos howner).trans (next_eq (bpmCancel_first hwaits hothers)), rfl, by simp, rfl⟩

/-! ## Refusals, rebuilds and counters -/

theorem bpmRefuse_bpm (p h cause owner port op : Nat) (s : State) :
    (bpmRefuse p h cause owner port op s).bpm = { (bpmCount p (refusalSel cause) s).bpm with
      errHandle := h, errCause := cause, errOwner := owner, errPort := port, errOp := op, status := cause, handle := 0 } :=
  congrArg (fun b : Bpm => { b with status := cause, handle := 0 }) (fire_bpm _ _ _)

/-- POOL and SEL of BPM_CNT_SEL hold the written values. -/
def cntSelected (pool sel : Nat) (s : State) : State := setF F.BPM_CNT_SEL_SEL sel (setF F.BPM_CNT_SEL_POOL (pool % 4) s)

theorem getF_cntSelected {pool sel : Nat} (hpool : pool < 4) (hsel : sel ≤ 11) (s : State) :
    getF (cntSelected pool sel s) F.BPM_CNT_SEL_POOL = pool ∧ getF (cntSelected pool sel s) F.BPM_CNT_SEL_SEL = sel := by
  unfold cntSelected
  constructor
  · rw [getF_setF_below (f := F.BPM_CNT_SEL_SEL) (g := F.BPM_CNT_SEL_POOL) rfl (by decide), getF_setF_self]
    exact (Nat.mod_eq_of_lt (Nat.mod_lt _ (by decide))).trans (Nat.mod_eq_of_lt hpool)
  · rw [getF_setF_self]
    exact Nat.mod_eq_of_lt (Nat.lt_of_le_of_lt hsel (by decide))

theorem execBpmCntClear_sel {pool sel : Nat} (hpool : pool < 4) (hsel : sel ≤ 11) (s : State) :
    execBpmCntClear pool sel s =
      .next (updBpm (fun b => { b with counters := mapDel b.counters (pool * 16 + sel) }) (cntSelected pool sel s)) := by
  obtain ⟨hgetPool, hgetSel⟩ := getF_cntSelected hpool hsel s
  unfold execBpmCntClear
  dsimp only
  rw [if_pos hsel, ← cntSelected, hgetPool, hgetSel]

/-- Settles O23: each request by its branch. -/
theorem bufferRelease : Obligations.BufferRelease := by
  refine ⟨?owner, ?toWaiter, ?shared, ?refused, ?double, ?refusal, ?rebuilt, ?cleared⟩
  case owner =>
    intro s port owner handle hcheck hmode hst howner hidle
    have hrelease := (bpmRelease_owner hcheck hmode hst howner).trans (congrArg (bpmAnswer 0) (freeBuffer_idle hidle))
    exact ⟨_, next_eq hrelease, rfl, mapGet_mapDel_self _ _ _, by simp,
      fun h hne => mapGet_mapDel_ne _ _ hne, rfl⟩
  case toWaiter =>
    intro s port owner handle w rest hcheck hmode hst howner hwait
    have hrelease := (bpmRelease_owner hcheck hmode hst howner).trans (congrArg (bpmAnswer 0) (freeBuffer_waiting hwait))
    exact ⟨_, next_eq hrelease, rfl, by simp, by simp, rfl⟩
  case shared =>
    intro s port owner handle hcheck hmode hst hrefs
    exact ⟨_, next_eq (bpmRelease_shared hcheck hmode hst hrefs), rfl, bufStored_self _ _ _, rfl⟩
  case refused =>
    intro s port owner handle cause newOwner hcheck
    refine ⟨next_eq ?_, next_eq ?_, next_eq ?_⟩
    · unfold bpmRelease; dsimp only; rw [hcheck]
    · unfold bpmHandOver; dsimp only; rw [hcheck]
    · unfold bpmReference; dsimp only; rw [hcheck]
  case double => exact fun s port owner handle hcheck hmode hst => next_eq (bpmRelease_double hcheck hmode hst)
  case refusal =>
    intro s p h cause owner port op
    rw [bpmRefuse_bpm]
    exact ⟨rfl, rfl, rfl, rfl, rfl, rfl, rfl, rfl⟩
  case rebuilt =>
    intro s pool hrebuild
    refine ⟨_, if_pos hrebuild, ?_⟩
    rw [fire_bpm]
    exact ⟨congrArg Pool.rebuilding (poolOf_updPool pool _ s), rfl⟩
  case cleared =>
    intro s pool sel hpool hsel
    exact ⟨_, execBpmCntClear_sel hpool hsel s, mapGet_mapDel_self _ _ _, fun k hne => mapGet_mapDel_ne _ _ hne, rfl⟩

end Sys2Proof.Machine
end

section
/-! O24, O25 and O26: the DRAM controller's rows (15), the tenant keys and the tags of units (13). -/

namespace Sys2Proof.Machine

/-! ## Banks -/

@[simp] theorem bankOf_updBank (k : Nat) (f : Bank → Bank) (s : State) :
    mapGet bank0 (updBank k f s).dmc.banks k = f (mapGet bank0 s.dmc.banks k) := mapGet_mapUpd_self _ _ _ _

theorem bankOf_updBank_ne {k j : Nat} (f : Bank → Bank) (s : State) (h : j ≠ k) :
    mapGet bank0 (updBank k f s).dmc.banks j = mapGet bank0 s.dmc.banks j := mapGet_mapUpd_ne _ _ _ _ h

/-- What every changed value and the default have in common holds of each entry. -/
theorem mapGet_mapMapVals_of {α : Type} [DecidableEq α] {P : α → Prop} {d : α} {f : Nat → α → α} (hd : P d) (hf : ∀ k v, P (f k v))
    (m : SMap α) (k : Nat) : P (mapGet d (mapMapVals d f m) k) := by
  induction m with
  | nil => exact hd
  | cons q m ih =>
    unfold mapMapVals at ih ⊢
    rw [List.filterMap_cons]
    split
    · exact ih
    next p hp =>
      split at hp
      · cases hp
      · obtain rfl := Option.some.inj hp
        unfold mapGet
        split
        · exact hf _ _
        · exact ih

/-- Activations of a row by a port: the row is open, counted and tracked (15 R558). -/
def activated (k row port acts : Nat) (s : State) : State :=
  updBank k (fun b => { b with openRow := some row, raa := b.raa + acts, track := trackRow b.track row port acts }) s

/-- The targeted RFM of a row (15 R558). -/
def rfmIssued (k row : Nat) (s : State) : State :=
  updBank k (fun b => { b with openRow := none, track := b.track.map (fun x => if x.1 = row then (row, 0, x.2.2.1, true) else x) })
    (bumpF F.DMC_RH_CNT_RFM_TARGETED 1 s)

/-- A throttle of a port on a bank starts (15 R559). -/
def throttled (p k : Nat) (s : State) : State :=
  updDmc (fun d => { d with throttles := (p, k) :: d.throttles.filter (fun x => x != (p, k)) }) s

theorem execRowHammerRfm_tracked {channel bank row port acts : Nat} {s : State} {e : Nat × Nat × List Nat × Bool}
    (h : (trackRow (mapGet bank0 s.dmc.banks (bankKey channel bank)).track row port acts).find? (fun e => e.1 == row) = some e) :
    execRowHammerRfm channel bank row port acts s =
      (let u := activated (bankKey channel bank) row port acts s
      if e.2.1 < getF s F.DMC_RH_CFG_ROW_THR then .next u
      else if e.2.2.2 then
        .next (fire 771 (topPort e.2.2.1 * 256 + bank % 16) (bumpF F.DMC_RH_CNT_THROTTLES 1
          (throttled (topPort e.2.2.1) (bankKey channel bank) (rfmIssued (bankKey channel bank) row u))))
      else .next (rfmIssued (bankKey channel bank) row u)) := by
  unfold execRowHammerRfm
  dsimp only
  rw [bankOf_updBank]
  dsimp only
  rw [h]
  rfl

theorem rfmIssued_count (k row : Nat) (s : State) :
    getF (rfmIssued k row s) F.DMC_RH_CNT_RFM_TARGETED = min 65535 (getF s F.DMC_RH_CNT_RFM_TARGETED + 1) :=
  (getF_regs rfl _).trans (getF_bumpF_self _ _ _)

theorem rfmIssued_open (k row : Nat) (s : State) : (mapGet bank0 (rfmIssued k row s).dmc.banks k).openRow = none := by
  rw [rfmIssued, bankOf_updBank]

theorem natBits_setOne (v i x : Nat) (hx : x < 2) : natBits (natSetBits v i 1 x) i 1 = x := by
  rw [natBits_natSetBits_self, Nat.pow_one, Nat.mod_eq_of_lt hx]

theorem execDramCrcMismatch_noted {addr port object key : Nat} {s : State} (hspace : addr < dramSpace s)
    (hobject : object = 1 ∨ object = 2 ∨ object = 5 ∨ object = 7 ∨ object = 8) :
    execDramCrcMismatch addr port object key s =
      .next (if object ≤ 2 then bumpF F.WPE_FAIL_CNT_RECON 1 (crcNote addr port s) else crcNote addr port s) := by
  unfold execDramCrcMismatch
  rw [if_neg (Nat.not_le.mpr hspace)]
  rcases hobject with rfl | rfl | rfl | rfl | rfl <;> rfl

theorem crcNote_dmc (addr port : Nat) (s : State) :
    (crcNote addr port s).dmc = { s.dmc with lastAddr := addr / 512 * 512, lastChannel := (dramMap s addr).channel, lastPort := port } :=
  fire_dmc _ _ _

theorem crcNote_count (addr port : Nat) (s : State) :
    getF (crcNote addr port s) F.DMC_CRC_CNT_MISMATCH = min (2 ^ F.DMC_CRC_CNT_MISMATCH.width - 1) (getF s F.DMC_CRC_CNT_MISMATCH + 1) :=
  (fire_getF _ _ _ _ (by decide)).trans ((getF_regs rfl _).trans (getF_bumpF_self _ _ _))

/-- Settles O24: each command by its branch. -/
theorem dramRows : Obligations.DramRows := by
  refine ⟨?refresh, ?rate, ?below, ?first, ?second, ?window, ?expire, ?panic, ?long, ?close, ?track, ?mismatch⟩
  case refresh => exact fun s channel bank => ⟨_, rfl, bankOf_updBank _ _ _, fun k hne => bankOf_updBank_ne _ _ hne, rfl⟩
  case rate => exact fun s channel rate => ⟨_, rfl, mapGet_mapSet_self _ _ _ _, fun k hne => mapGet_mapSet_ne _ _ _ hne, rfl⟩
  case below =>
    exact fun s channel bank row port acts e hfind hlt => ⟨_, (execRowHammerRfm_tracked hfind).trans (if_pos hlt), bankOf_updBank _ _ _, rfl⟩
  case first =>
    intro s channel bank row port acts e hfind hthr hnew
    refine ⟨_, (execRowHammerRfm_tracked hfind).trans ((if_neg (Nat.not_lt.mpr hthr)).trans (if_neg (by simp [hnew]))),
      rfmIssued_open _ _ _, rfl, ?_⟩
    exact (rfmIssued_count _ _ _)
  case second =>
    intro s channel bank row port acts e hfind hthr hagain
    refine ⟨_, (execRowHammerRfm_tracked hfind).trans ((if_neg (Nat.not_lt.mpr hthr)).trans (if_pos hagain)), ?_⟩
    rw [fire_dmc]
    exact ⟨rfmIssued_open _ _ _, List.mem_cons_self⟩
  case window =>
    intro s
    refine ⟨_, rfl, fun k => ?_, rfl⟩
    show (mapGet bank0 (mapMapVals bank0 (fun _ b => { b with track := [] }) s.dmc.banks) k).track = []
    exact mapGet_mapMapVals_of (P := fun b : Bank => b.track = []) rfl (fun _ _ => rfl) _ _
  case expire =>
    intro s port bank
    refine ⟨_, rfl, ?_, fun x hne => ?_, rfl⟩
    · simp [updDmc]
    · simp [updDmc, hne]
  case panic =>
    exact fun s port => ⟨_, _, rfl, natBits_setOne _ _ 1 (by decide), rfl, natBits_setOne _ _ 0 (by decide), rfl, rfl⟩
  case long =>
    intro s port hpanic
    refine ⟨_, if_pos hpanic, fire_dmc _ _ _, ?_⟩
    rw [fire_getF _ _ _ _ (by decide), getF_bumpF_self]
  case close => exact fun s channel bank => ⟨_, rfl, bankOf_updBank _ _ _, rfl⟩
  case track => exact fun s channel => ⟨_, _, rfl, mapGet_mapUpd_self 0 s.dmc.tracked channel (· + 1), rfl,
    mapGet_mapUpd_self 0 s.dmc.zq channel (· + 1), rfl, rfl⟩
  case mismatch =>
    intro s addr port object key hspace hobject
    refine ⟨_, execDramCrcMismatch_noted hspace hobject, ?_⟩
    have hdmc := crcNote_dmc addr port s
    have hcount := crcNote_count addr port s
    have hbpm : (crcNote addr port s).bpm = s.bpm := fire_bpm _ _ _
    have hclc : (crcNote addr port s).clc = s.clc := fire_clc _ _ _
    split
    · rw [bumpF_dmc, bumpF_bpm, bumpF_clc, getF_bumpF_ne _ _ _ _ (by decide), hdmc]
      exact ⟨rfl, rfl, rfl, hcount, hbpm, hclc⟩
    · rw [hdmc]
      exact ⟨rfl, rfl, rfl, hcount, hbpm, hclc⟩

/-! ## Key slots -/

@[simp] theorem slotOf_updSlot (t i : Nat) (f : KeySlot → KeySlot) (s : State) :
    getSlot (getKeys (updSlot t i f s) t) i = f (getSlot (getKeys s t) i) := by
  unfold updSlot
  rw [getKeys_updKeys]
  exact mapGet_mapUpd_self _ _ _ _

theorem getKeys_updSlot (t i : Nat) (f : KeySlot → KeySlot) (s : State) :
    getKeys (updSlot t i f s) t = { getKeys s t with slots := mapUpd slot0 (getKeys s t).slots i f } := getKeys_updKeys _ _ _

@[simp] theorem getKeys_iteBegin (cls t : Nat) (s : State) : getKeys (iteBegin cls s) t = getKeys s t :=
  iteBegin_part (p := fun s => getKeys s t) (fun _ _ _ => rfl) cls s

@[simp] theorem getKeys_keyAccept (tenant kcv t : Nat) (s : State) : getKeys (keyAccept tenant kcv s) t = getKeys s t := rfl

@[simp] theorem getKeys_saveKeys (tenant t : Nat) (s : State) : getKeys (saveKeys tenant s) t = getKeys s t := rfl

@[simp] theorem getKeys_updClearing (c : Option (Nat × Nat)) (t : Nat) (s : State) :
    getKeys (updIte (fun x => { x with clearing := c }) s) t = getKeys s t := rfl

theorem keyRefuse_ite (code tenant : Nat) (s : State) : (keyRefuse code tenant s).ite = { s.ite with code := code } := fire_ite _ _ _

theorem keyAccept_result (tenant kcv : Nat) (s : State) :
    (keyAccept tenant kcv s).ite.busy = true ∧ (keyAccept tenant kcv s).ite.nextTenant = tenant ∧
      (keyAccept tenant kcv s).ite.nextKcv = kcv := ⟨rfl, rfl, rfl⟩

/-- The keys of a tenant whose slot a commit has loaded (13 Table 13-3). -/
def keysLoaded (k : TenKeys) (i keyId : Nat) (key : List Nat) : TenKeys :=
  { k with slots := mapUpd slot0 k.slots i (fun _ => ⟨[], [], key, keyId, true⟩), gen := max k.gen keyId + 1 }

theorem slotOf_keysLoaded (k : TenKeys) (i keyId : Nat) (key : List Nat) : getSlot (keysLoaded k i keyId key) i = ⟨[], [], key, keyId, true⟩ :=
  mapGet_mapUpd_self slot0 k.slots i (fun _ => ⟨[], [], key, keyId, true⟩)

theorem keyCommit_loads {t i : Nat} {s : State} (hfree : keyBlocked s t = none) (hstate : tenantState s t ≠ 0)
    (hslot : (getSlot (getKeys s t) i).loaded = false) (hmarks : 8 ≤ (getSlot (getKeys s t) i).marks.length)
    (hid : getF s F.ITE_KEY_ID_ID = 0 ∨ slotWith s t (getF s F.ITE_KEY_ID_ID) = none) :
    ∃ u, keyCommit t i s = keyAccept t (kcvOf (stagedKey (getSlot (getKeys s t) i))) u ∧
      getKeys u t = keysLoaded (getKeys s t) i (if getF s F.ITE_KEY_ID_ID = 0 then (getKeys s t).gen else getF s F.ITE_KEY_ID_ID)
        (stagedKey (getSlot (getKeys s t) i)) := by
  have hunused : ¬(getF s F.ITE_KEY_ID_ID ≠ 0 ∧ (slotWith s t (getF s F.ITE_KEY_ID_ID)).isSome = true) := by
    rintro ⟨hne, hsome⟩
    rcases hid with h | h
    · exact hne h
    · simp [h] at hsome
  unfold keyCommit
  dsimp only
  rw [hfree]
  refine ⟨_, (if_neg hstate).trans ((if_neg (by simp [hslot])).trans ((if_neg (Nat.not_lt.mpr hmarks)).trans (if_neg hunused))), ?_⟩
  rw [getKeys_iteBegin, getKeys_updKeys, getKeys_updSlot]
  rfl

theorem keyCommit_unready {t i : Nat} {s : State} (hfree : keyBlocked s t = none) (hstate : tenantState s t ≠ 0)
    (h : (getSlot (getKeys s t) i).loaded = true ∨ (getSlot (getKeys s t) i).marks.length < 8) :
    keyCommit t i s = keyRefuse (if (getSlot (getKeys s t) i).loaded then 3 else 2) t s := by
  unfold keyCommit
  dsimp only
  rw [hfree]
  refine (if_neg hstate).trans ?_
  by_cases hslot : (getSlot (getKeys s t) i).loaded = true
  · rw [if_pos hslot, if_pos hslot]
  · rw [if_neg hslot, if_neg hslot, if_pos (h.resolve_left hslot)]

theorem keyActivate_eq {t : Nat} {s : State} (hfree : keyBlocked s t = none) (i : Nat) :
    keyActivate t i s = if (getSlot (getKeys s t) i).loaded = false then keyRefuse 4 t s
      else keyAccept t 0 (updKeys t (fun k => { k with active := some i }) s) := by
  unfold keyActivate
  rw [hfree]

/-- A clear is taken up: it is busy until its slot is zeroed. -/
def clearStarted (t i : Nat) (s : State) : State :=
  updIte (fun x => { x with busy := true, nextTenant := t, nextKcv := 0, clearing := some (t, i) }) s

theorem keyClear_now {t i : Nat} {s : State} (hfree : keyBlocked s t = none) (hinactive : (getKeys s t).active ≠ some i)
    (hwaits : clearWaits s t i = false) : keyClear t i s = clearNow t i (clearStarted t i s) := by
  unfold keyClear
  dsimp only
  rw [hfree]
  exact (if_neg fun h => hinactive h.1).trans (if_neg (show ¬ clearWaits s t i = true by simp [hwaits]))

theorem getKeys_clearNow (t i : Nat) (s : State) :
    getKeys (clearNow t i s) t = { getKeys s t with
      slots := mapDel (getKeys s t).slots i, active := if (getKeys s t).active = some i then none else (getKeys s t).active } :=
  getKeys_updKeys t (fun k => { k with slots := mapDel k.slots i, active := if k.active = some i then none else k.active }) s

theorem slotOf_clearNow (t i : Nat) (s : State) : getSlot (getKeys (clearNow t i s) t) i = slot0 := by
  rw [getKeys_clearNow]
  exact mapGet_mapDel_self _ _ _

/-- Settles O25: each action by its branch. -/
theorem tenantKeys : Obligations.TenantKeys := by
  refine ⟨?word, ?wordIgnored, ?commit, ?commitRefused, ?activate, ?activateRefused, ?clear, ?blocked, ?refusal, ?result, ?cleared⟩
  case word =>
    intro s tenant slot word value htenant hslot hword hunloaded
    refine ⟨_, next_eq (if_neg (by simp [hunloaded]; omega)), ?_, ?_, rfl⟩
    · rw [slotOf_updSlot]
      exact mapGet_mapPut_self _ _ _ _
    · rw [slotOf_updSlot]
      dsimp only
      split
      · rename_i hmem; simpa using hmem
      · simp
  case wordIgnored => exact fun s tenant slot word value hbad => next_eq (if_pos hbad)
  case commit =>
    intro s tenant slot hfree hstate hunloaded hmarks hid
    obtain ⟨u, hcommit, hkeys⟩ := keyCommit_loads hfree hstate hunloaded hmarks hid
    refine ⟨_, next_eq hcommit, ?_⟩
    rw [getKeys_keyAccept, hkeys]
    obtain ⟨hbusy, htenant, hkcv⟩ := keyAccept_result tenant (kcvOf (stagedKey (getSlot (getKeys s tenant) slot))) u
    exact ⟨slotOf_keysLoaded _ _ _ _, rfl, rfl, hbusy, htenant, hkcv⟩
  case commitRefused => exact fun s tenant slot hfree hstate hunready => next_eq (keyCommit_unready hfree hstate hunready)
  case activate =>
    intro s tenant slot hfree hloaded
    refine ⟨_, next_eq ((keyActivate_eq hfree slot).trans (if_neg (by simp [hloaded]))), ?_⟩
    rw [getKeys_keyAccept, getKeys_updKeys]
    exact ⟨rfl, rfl, rfl, rfl⟩
  case activateRefused => exact fun s tenant slot hfree hunloaded => next_eq ((keyActivate_eq hfree slot).trans (if_pos hunloaded))
  case clear =>
    intro s tenant slot hfree hinactive hwaits
    refine ⟨_, next_eq (keyClear_now hfree hinactive hwaits), slotOf_clearNow _ _ _, ?_⟩
    rw [getKeys_clearNow]
    exact ⟨fun j hne => mapGet_mapDel_ne _ _ hne, if_neg hinactive, rfl, rfl⟩
  case blocked =>
    intro s tenant slot code hblocked
    refine ⟨next_eq ?_, next_eq ?_, next_eq ?_⟩
    · unfold keyCommit; rw [hblocked]
    · unfold keyActivate; rw [hblocked]
    · unfold keyClear; rw [hblocked]
  case refusal => exact fun s code tenant => keyRefuse_ite code tenant s
  case result =>
    intro s hbusy hnone hdirty
    refine ⟨fire 707 (s.ite.nextTenant * 2 ^ 16) (updIte (fun x => { x with busy := false, code := 0, kcv := x.nextKcv }) s), ?_,
      fire_ite _ _ _, fire_fws _ _ _⟩
    show execKeyActionResult s = _
    unfold execKeyActionResult
    rw [if_neg (by simp [hbusy]), hnone]
    exact if_neg (by simp [hdirty])
  case cleared =>
    intro s tenant slot hbusy hclearing hwaits
    refine ⟨clearNow tenant slot s, ?_, slotOf_clearNow _ _ _, rfl⟩
    show execKeyActionResult s = _
    unfold execKeyActionResult
    rw [if_neg (by simp [hbusy]), hclearing]
    exact if_neg (by simp [hwaits])

/-! ## Tags of units -/

theorem getKeys_dropCw (cw t : Nat) (s : State) : getKeys (dropCw cw s) t = getKeys s t := rfl

theorem getKeys_bumpF (f : Fld) (n t : Nat) (s : State) : getKeys (bumpF f n s) t = getKeys s t := rfl

/-- A unit with its first tag, under the active key `k` of its tenant (13 R496, R499). -/
def firstTagged (s : State) (slot unit : Nat) (k : KeySlot) : TUnit :=
  let t := getTask s slot
  let u := mapGet tunit0 t.units unit
  let zgen := if (getNs s t.ns).conv then 0 else (getZone s (zoneOfLba t.ns t.slba)).zgen
  { u with
    keyId := k.keyId, recheck := false
    tag := some (unitTag k.key (getNs s t.ns).tenant t.ns (t.slba + unit) zgen k.keyId (leBytes 4096 u.data)) }

theorem execTagCompute_first {s : State} {slot unit : Nat} {k : KeySlot} (hopen : (getTask s slot).uncommitted = true)
    (hst : (getTask s slot).st = .receiving ∨ (getTask s slot).st = .executing)
    (hbytes : (mapGet tunit0 (getTask s slot).units unit).bytes = 4096) (htag : (mapGet tunit0 (getTask s slot).units unit).tag = none)
    (hkey : (mapGet tunit0 (getTask s slot).units unit).keyId = 0) (hactive : activeSlot s (getNs s (getTask s slot).ns).tenant = some k) :
    execTagCompute slot unit s =
      .next (updTask slot (fun t => { t with units := mapPut t.units unit (firstTagged s slot unit k) }) (iteBegin 1 s)) := by
  unfold execTagCompute
  dsimp only
  rw [if_neg (by rcases hst with h | h <;> simp [hopen, h, hbytes, htag]), if_pos hkey, hactive]
  dsimp only
  rw [htag]
  rfl

/-- Settles O26: the branches of TAG_COMPUTE and TAG_CHECK. -/
theorem unitTags : Obligations.UnitTags := by
  refine ⟨?compute, ?lost, ?check⟩
  case compute =>
    intro s slot unit k hopen hst hbytes htag hkey hactive
    refine ⟨_, execTagCompute_first hopen hst hbytes htag hkey hactive, ?_⟩
    rw [getTask_updTask]
    exact mapGet_mapPut_self _ _ _ _
  case lost =>
    intro s cw slot hslot hparent hst
    show execTagCheck cw s = _
    unfold execTagCheck
    dsimp only
    rw [hslot]
    exact (if_neg (by simp [hparent])).trans (if_pos hst)
  case check =>
    intro s cw slot hslot hparent hst
    obtain ⟨t, ht, -⟩ := everyCommandCompletes (.tagCheck cw) s
    have hrun := fun v (h : exec (.tagCheck cw) s = .next v) => Host.Outcome.next.inj (ht.symm.trans h)
    refine ⟨t, _, ht, rfl, iteBegin_part (p := State.clc) (fun _ _ _ => rfl) _ _, iteBegin_part (p := State.qe) (fun _ _ _ => rfl) _ _,
      fun hpass => hrun _ ?_, fun hkey hreport => hrun _ ?_, fun hfail hfirst => hrun _ ?_⟩
    all_goals
      show execTagCheck cw s = _
      unfold execTagCheck
      dsimp only
      rw [hslot]
      refine (if_neg (by simp [hparent])).trans ((if_neg (by simp [hst])).trans ((if_neg (by simp [hst])).trans ?_))
      rw [checkUnit_ite]
    · rw [hpass]
      rfl
    · rw [hkey]
      exact if_neg (by rw [getKeys_dropCw, getKeys_bumpF, getKeys_iteBegin]; simp [hreport])
    · rcases hfail with hfail | hfail <;> rw [hfail] <;> exact if_pos hfirst

end Sys2Proof.Machine
end

section
/-! Equality of a whole component from the rules of `Same`: the journal, the tables, the flash links, the retention, the queue engine, the
front end, the management complex and the firmware store. -/

namespace Sys2Proof.Machine

theorem Keeps.jnl_eq {m : Nat} {s t : State} (h : Keeps m s t) (hm : m &&& 0x78000000000000 = 0) : t.jnl = s.jnl := by
  have hbuffer := h.same.buffer (testBit_of_disjoint hm (by decide))
  have hcommits := h.same.commits (testBit_of_disjoint hm (by decide))
  have hpairs := h.same.pairs (testBit_of_disjoint hm (by decide))
  have hrest := h.same.jnl (testBit_of_disjoint hm (by decide))
  simp only [Prod.mk.injEq] at hbuffer hpairs hrest
  cases ht : t.jnl
  cases hs : s.jnl
  simp_all

theorem Keeps.tabs_eq {m : Nat} {s t : State} (h : Keeps m s t) (hm : m &&& 0x1fc00000000 = 0) : t.tabs = s.tabs := by
  have hnss := h.same.nss (testBit_of_disjoint hm (by decide))
  have hzones := h.same.zones (testBit_of_disjoint hm (by decide))
  have hstripes := h.same.stripes (testBit_of_disjoint hm (by decide))
  have hblocks := h.same.blocks (testBit_of_disjoint hm (by decide))
  have hslices := h.same.slices (testBit_of_disjoint hm (by decide))
  have hsan := h.same.san (testBit_of_disjoint hm (by decide))
  have hrest := h.same.tabs (testBit_of_disjoint hm (by decide))
  simp only [Prod.mk.injEq] at hsan hrest
  cases ht : t.tabs
  cases hs : s.tabs
  simp_all

theorem Keeps.flc_eq {m : Nat} {s t : State} (h : Keeps m s t) (hm : m &&& 0x380000000000 = 0) : t.flc = s.flc := by
  have hlinks := h.same.links (testBit_of_disjoint hm (by decide))
  have hdies := h.same.dies (testBit_of_disjoint hm (by decide))
  have hrest := h.same.flc (testBit_of_disjoint hm (by decide))
  simp only [Prod.mk.injEq] at hrest
  cases ht : t.flc
  cases hs : s.flc
  simp_all

theorem Keeps.rcu_eq {m : Nat} {s t : State} (h : Keeps m s t) (hm : m &&& 0x1800000000000 = 0) : t.rcu = s.rcu := by
  have hages := h.same.ages (testBit_of_disjoint hm (by decide))
  have hrest := h.same.rcu (testBit_of_disjoint hm (by decide))
  simp only [Prod.mk.injEq] at hrest
  cases ht : t.rcu
  cases hs : s.rcu
  simp_all

theorem Keeps.qe_eq {m : Nat} {s t : State} (h : Keeps m s t) (hm : m &&& 0x3c000000 = 0) : t.qe = s.qe := by
  have htasks := h.same.tasks (testBit_of_disjoint hm (by decide))
  have hctls := h.same.ctls (testBit_of_disjoint hm (by decide))
  have htenants := h.same.tenants (testBit_of_disjoint hm (by decide))
  have hrest := h.same.qe (testBit_of_disjoint hm (by decide))
  simp only [Prod.mk.injEq] at hrest
  cases ht : t.qe
  cases hs : s.qe
  simp_all

theorem Keeps.hfe_eq {m : Nat} {s t : State} (h : Keeps m s t) (hm : m &&& 0x3e00000 = 0) : t.hfe = s.hfe := by
  have hconns := h.same.conns (testBit_of_disjoint hm (by decide))
  have hports := h.same.ports (testBit_of_disjoint hm (by decide))
  have hlanes := h.same.lanes (testBit_of_disjoint hm (by decide))
  have hcounters := h.same.counters (testBit_of_disjoint hm (by decide))
  have hrest := h.same.hfe (testBit_of_disjoint hm (by decide))
  simp only [Prod.mk.injEq] at hconns hrest
  cases ht : t.hfe
  cases hs : s.hfe
  simp_all

theorem Keeps.mgc_eq {m : Nat} {s t : State} (h : Keeps m s t) (hm : m &&& 0x3c0000000 = 0) : t.mgc = s.mgc := by
  have hpaths := h.same.paths (testBit_of_disjoint hm (by decide))
  have hadmitted := h.same.admitted (testBit_of_disjoint hm (by decide))
  have hact := h.same.act (testBit_of_disjoint hm (by decide))
  have hrest := h.same.mgc (testBit_of_disjoint hm (by decide))
  simp only [Prod.mk.injEq] at hadmitted hact hrest
  cases ht : t.mgc
  cases hs : s.mgc
  simp_all

theorem Keeps.fws_eq {m : Nat} {s t : State} (h : Keeps m s t) (hm : m &&& 0xc0000 = 0) : t.fws = s.fws := by
  have hsettings := h.same.settings (testBit_of_disjoint hm (by decide))
  have hrest := h.same.fws (testBit_of_disjoint hm (by decide))
  simp only [Prod.mk.injEq] at hsettings hrest
  cases ht : t.fws
  cases hs : s.fws
  simp_all

end Sys2Proof.Machine
end

section
/-! O27: journal pages, checkpoints and re-basing (12). -/

namespace Sys2Proof.Machine

/-! ## Pages -/

theorem sendPage_jnl (seq pair : Nat) (s : State) : (sendPage seq pair s).jnl = s.jnl :=
  (keeps_sendPage (sub_refl _) (Keeps.refl _ s)).jnl_eq (by decide)

theorem dropJournalOps_jnl (seq : Nat) (s : State) : (dropJournalOps seq s).jnl = s.jnl := rfl

theorem sealOn_jnl {s : State} (pair : Nat) (hrecs : takeRecs 65472 s.jnl.buffer ≠ []) :
    (sealOn pair s).jnl = { s.jnl with
      buffer := s.jnl.buffer.drop (takeRecs 65472 s.jnl.buffer).length, nextSeq := s.jnl.nextSeq + 1
      pages := s.jnl.pages ++ [⟨s.jnl.nextSeq, s.jnl.nextJsn - s.jnl.buffer.length, takeRecs 65472 s.jnl.buffer, pair, false⟩] } := by
  unfold sealOn
  dsimp only
  rw [if_neg hrecs]
  exact sendPage_jnl _ _ _

theorem sealPage_first {s : State} {p : Nat} {rest : List Nat} (hmode : s.jnl.emergencyMode = false) (hfree : freePairs s = p :: rest) :
    sealPage s = sealOn p s := by
  unfold sealPage
  rw [if_neg (by simp [hmode]), hfree]

/-- Both copies of the page of a sequence number have returned (12 R462). -/
def pageReturnedOk (seq : Nat) (s : State) : State :=
  updJnl (fun j => { j with pages := j.pages.map (fun g => if g.seq = seq then { g with ok := true } else g) }) (dropJournalOps seq s)

theorem pageReturned_waiting {s : State} {seq : Nat} (h : s.jnl.pages.any (fun g => g.seq == seq && !g.ok) = true) :
    pageReturned seq s = jnlSettle s (settle (runWipes (acceptPages (pageReturnedOk seq s) (pageReturnedOk seq s).jnl.pages.length))) :=
  if_pos h

/-- The oldest page leaves the list as its records are accepted. -/
def pageAccepted (p : JPage) (rest : List JPage) (s : State) : State :=
  updJnl (fun j => { j with pages := rest, accSeq := p.seq, accJsn := p.first + p.recs.length }) s

theorem acceptPages_single {s : State} {p : JPage} (hpages : s.jnl.pages = [p]) (hok : p.ok = true) :
    acceptPages s s.jnl.pages.length = p.recs.foldl (fun s r => acceptRec r s) (pageAccepted p [] s) := by
  rw [hpages]
  unfold acceptPages
  rw [hpages]
  exact if_pos hok

theorem copyFailed_program {s : State} {seq copy status : Nat} {g : JPage}
    (hpage : s.jnl.pages.find? (fun g => g.seq == seq && !g.ok) = some g) (hstatus : status ≠ 0) :
    copyFailed seq copy status s =
      rewritePage seq (if copy = 0 then (pagePair s g.pair).1 else (pagePair s g.pair).2)
        (retireBlock (if copy = 0 then (pagePair s g.pair).1 else (pagePair s g.pair).2) 0 s) := by
  unfold copyFailed
  rw [hpage]
  dsimp only
  rw [if_neg hstatus]

/-! ## Checkpoints -/

theorem execCheckpointStart_runs {s : State} (hdev : s.top.dev = .serving ∨ s.top.dev = .quiescing) :
    exec .checkpointStart s = .next (startCkpt s) ∧ exec .checkpointStartWrite s = .next (startCkpt s) :=
  ⟨if_pos hdev, next_eq (if_pos ⟨by decide, hdev⟩)⟩

theorem startCkpt_held {s : State} (hactive : s.jnl.ckptActive = true) :
    startCkpt s = { s with jnl := { s.jnl with ckptHeld := true } } := if_pos hactive

/-- The volume from which replay needs the journal once the image that begins is complete (12 R476). -/
def ckptFromVolume (s : State) : Nat := s.jnl.commits.foldl (fun m c => min m c.vol) s.jnl.volume

/-- The image that a checkpoint captures as it begins (12 R474). -/
def ckptOpened (s : State) : State :=
  let s := updJnl (fun j => { j with
    ckptActive := true, endAccepted := false, imageSeq := j.imageSeq + 1, ckptJsn := j.nextJsn, ckptFrom := ckptFromVolume s
    lastStart := s.tu.ticks }) s
  let s := updRcu (fun r => { r with
    imgAges := r.dies.map (fun e => (e.1, e.2.age))
    imgRefreshed := (r.dies.filter (fun e => e.2.refreshed != 0)).map (fun e => (e.1, e.2.refreshed))
    imgLearned := (r.dies.filter (fun e => e.2.learned.isSome)).map (fun e => (e.1, e.2.learned)) }) s
  updMme (fun m => { m with imgCursor := m.cursor }) s

theorem startCkpt_fresh {s : State} (hidle : s.jnl.ckptActive = false) :
    startCkpt s = issue 0x12 16 [s.jnl.imageSeq + 1] [] .ckptBegun (ckptOpened (issueTime s)) := if_neg (by simp [hidle])

theorem issueTime_buffer (s : State) : ∃ r, (issueTime s).jnl.buffer = s.jnl.buffer ++ [r] ∧ r.typ = 0x11 := ⟨_, rfl, rfl⟩

theorem startCkpt_buffer {s : State} (hidle : s.jnl.ckptActive = false) :
    ((startCkpt s).jnl.buffer.drop s.jnl.buffer.length).map Rec.typ = [0x11, 0x12] := by
  obtain ⟨r, hr, htyp⟩ := issueTime_buffer s
  rw [startCkpt_fresh hidle, issue_buffer]
  have hkeep : (ckptOpened (issueTime s)).jnl.buffer = (issueTime s).jnl.buffer := rfl
  rw [hkeep, hr, List.append_assoc, List.drop_left]
  simp [htyp]

theorem writeAnchor_frame (k : Nat) (s : State) :
    (writeAnchor k s).jnl = s.jnl ∧ (writeAnchor k s).rcu = s.rcu ∧ (writeAnchor k s).mme = s.mme := by
  have h := keeps_writeAnchor (a0 := k) (sub_refl _) (Keeps.refl _ s)
  exact ⟨h.jnl_eq (by decide), h.rcu_eq (by decide), h.same.mme (by decide)⟩

/-- The tower after the last one of an anchor. -/
def nextAnchorTower (towers : List Nat) (s : State) : Nat :=
  match towers.getLast? with
  | some k => k + 1
  | none => s.jnl.anchorTower

/-- The image is complete: its anchor is named and its values are those of the newest checkpoint (12 R477). -/
def imageComplete (towers : List Nat) (s : State) : State :=
  let next := nextAnchorTower towers s
  let s := updJnl (fun j => { j with
    ckptActive := false, ckptForQuiesce := false, endAccepted := false, anchors := towers, anchorTower := next
    lastSeq := j.imageSeq, fromVol := j.ckptFrom }) s
  let s := updRcu (fun r => { r with
    ckptAges := r.imgAges, ckptRefreshed := r.imgRefreshed, ckptLearned := r.imgLearned, marks := r.imgMarks }) s
  let s := updMme (fun m => { m with ckptCursor := m.imgCursor }) s
  { s with dur := { s.dur with blocks := s.dur.blocks.map (fun e => (e.1, { e.2 with senses := (getBlock s e.1).senses })) } }

/-- The anchor of the running image is on its towers and the blocks that no kept image needs are released. -/
def anchorWritten (s : State) : State :=
  let u := imageComplete (anchorTowers s) ((anchorTowers s).foldl (fun s k => writeAnchor k s) s)
  releaseOld (fire 676 (u.jnl.lastSeq % 2 ^ 32) u)

theorem completeCkpt_eq (s : State) :
    completeCkpt s =
      (let u := if s.jnl.ckptForQuiesce then { anchorWritten s with top := { (anchorWritten s).top with ckptAccepted := true } } else anchorWritten s
      if u.jnl.ckptHeld then startCkpt (updJnl (fun j => { j with ckptHeld := false }) u) else u) := rfl

theorem releaseOld_none {s : State} (h : s.jnl.old = []) : releaseOld s = updJnl (fun j => { j with old := [] }) s := by
  unfold releaseOld
  rw [h]
  rfl

/-- What a completed checkpoint records. -/
def CkptRecorded (s t : State) : Prop :=
  t.jnl.ckptActive = false ∧ t.jnl.lastSeq = s.jnl.imageSeq ∧ t.jnl.anchors = anchorTowers s ∧ t.jnl.fromVol = s.jnl.ckptFrom ∧
    t.rcu.ckptAges = s.rcu.imgAges ∧ t.mme.ckptCursor = s.mme.imgCursor

theorem anchorWritten_recorded {s : State} (hheld : s.jnl.ckptHeld = false) (hold : s.jnl.old = []) :
    CkptRecorded s (anchorWritten s) ∧ (anchorWritten s).jnl.ckptHeld = false := by
  obtain ⟨hjnl, hrcu, hmme⟩ : ((anchorTowers s).foldl (fun s k => writeAnchor k s) s).jnl = s.jnl ∧
      ((anchorTowers s).foldl (fun s k => writeAnchor k s) s).rcu = s.rcu ∧
      ((anchorTowers s).foldl (fun s k => writeAnchor k s) s).mme = s.mme :=
    ⟨fold_same State.jnl _ (fun w a => (writeAnchor_frame a w).1) _ _, fold_same State.rcu _ (fun w a => (writeAnchor_frame a w).2.1) _ _,
      fold_same State.mme _ (fun w a => (writeAnchor_frame a w).2.2) _ _⟩
  unfold anchorWritten
  generalize (anchorTowers s).foldl (fun s k => writeAnchor k s) s = u at hjnl hrcu hmme ⊢
  have himage : CkptRecorded s (imageComplete (anchorTowers s) u) := ⟨rfl, congrArg Jnl.imageSeq hjnl, rfl, congrArg Jnl.ckptFrom hjnl,
    congrArg Rcu.imgAges hrcu, congrArg Mme.imgCursor hmme⟩
  have hidle : (imageComplete (anchorTowers s) u).jnl.ckptHeld = false := (congrArg Jnl.ckptHeld hjnl).trans hheld
  have hnone : (imageComplete (anchorTowers s) u).jnl.old = [] := (congrArg Jnl.old hjnl).trans hold
  generalize imageComplete (anchorTowers s) u = v at himage hidle hnone ⊢
  dsimp only
  rw [releaseOld_none (by rw [fire_jnl, hnone])]
  unfold CkptRecorded
  simp only [updJnl_jnl, updJnl_rcu, updJnl_mme, fire_jnl, fire_rcu, fire_mme]
  exact ⟨himage, hidle⟩

theorem completeCkpt_recorded {s : State} (hheld : s.jnl.ckptHeld = false) (hold : s.jnl.old = []) : CkptRecorded s (completeCkpt s) := by
  obtain ⟨hrecorded, hidle⟩ := anchorWritten_recorded hheld hold
  rw [completeCkpt_eq]
  generalize anchorWritten s = u at hrecorded hidle ⊢
  have hframe : (if s.jnl.ckptForQuiesce then { u with top := { u.top with ckptAccepted := true } } else u).jnl.ckptHeld = false := by
    split <;> exact hidle
  dsimp only
  rw [if_neg (by simp [hframe])]
  split <;> exact hrecorded

/-! ## Re-basing -/

/-- The copy of a re-based zone may go on (12 R472, 11 R442). -/
def RebaseRuns (s : State) : Prop := natBits s.mme.above 2 1 = 0 ∧ bufFull s = false ∧ s.top.dev = .serving

theorem execRebaseCopyRow_runs {s : State} {zone src tgt : Nat} (hrebase : (getZone s zone).rebase = true)
    (hsrc : (getZone s zone).stripe = some src) (htgt : (getZone s zone).target = some tgt) (hruns : RebaseRuns s) :
    execRebaseCopyRow zone s =
      (let u := match rebaseNext s tgt with
        | some r => rebaseCopied tgt r s
        | none => s
      if (rebaseNext u tgt).isNone then .next (rebaseDone zone src tgt u) else .next u) := by
  obtain ⟨habove, hfull, hdev⟩ := hruns
  unfold execRebaseCopyRow
  dsimp only
  rw [hrebase, hsrc, htgt]
  exact if_neg (by simp [habove, hfull, hdev])

/-- The binding of a zone moves to the target of its re-base. -/
def zoneRebound (zone tgt : Nat) (s : State) : State := updZone zone (fun z => { z with stripe := some tgt, target := none, rebase := false }) s

theorem rebaseDone_zone (zone src tgt : Nat) (s : State) :
    getZone (rebaseDone zone src tgt s) zone = { getZone s zone with stripe := some tgt, target := none, rebase := false } :=
  getZone_updZone zone (fun z => { z with stripe := some tgt, target := none, rebase := false }) s

/-- Settles O27: each command by its branch. -/
theorem journalPages : Obligations.JournalPages := by
  refine ⟨?sealed, ?emergency, ?accept, ?unknown, ?copyFail, ?start, ?held, ?complete, ?copyRow, ?rebased⟩
  case sealed =>
    intro s p rest hmode hfree hrecs
    refine ⟨_, next_eq (sealPage_first hmode hfree), ?_⟩
    rw [sealOn_jnl p hrecs]
    exact ⟨rfl, rfl, rfl⟩
  case emergency => exact fun s hmode => next_eq (if_pos hmode)
  case accept =>
    intro s p hpages hwait hplain
    have hreturned : (pageReturnedOk p.seq s).jnl.pages = [{ p with ok := true }] := by
      show (s.jnl.pages.map fun g => if g.seq = p.seq then { g with ok := true } else g) = _
      rw [hpages]
      exact congrArg (· :: []) (if_pos rfl)
    obtain ⟨hseq, hjsn, hleft, hdur⟩ := accept_plain p.recs (pageAccepted { p with ok := true } [] (pageReturnedOk p.seq s)) hplain
    refine ⟨_, _, next_eq ((pageReturned_waiting (by simp [hpages, hwait])).trans ?_), rfl, hseq, hjsn, hleft, hdur⟩
    rw [acceptPages_single hreturned rfl]
  case unknown => exact fun s seq hnone => next_eq (if_neg (by rw [hnone]; decide))
  case copyFail =>
    intro s seq copy status g hpage hstatus
    refine ⟨_, rfl, rfl, next_eq (congrArg (jnlSettle s) (copyFailed_program ?_ hstatus))⟩
    exact hpage
  case start =>
    intro s hdev hidle
    obtain ⟨hrun, hwrite⟩ := execCheckpointStart_runs hdev
    have hfresh := startCkpt_fresh hidle
    refine ⟨_, hrun, hwrite, ?_, ?_, ?_, ?_, ?_, startCkpt_buffer hidle⟩ <;> rw [hfresh] <;> rfl
  case held =>
    intro s hdev hactive
    obtain ⟨hrun, hwrite⟩ := execCheckpointStart_runs hdev
    exact ⟨hrun.trans (next_eq (startCkpt_held hactive)), hwrite.trans (next_eq (startCkpt_held hactive))⟩
  case complete => exact fun s hactive hend hheld hold => ⟨_, if_pos ⟨hactive, hend⟩, completeCkpt_recorded hheld hold⟩
  case copyRow =>
    intro s zone src tgt r hrebase hsrc htgt habove hfull hdev hnext
    refine ⟨_, _, ?_, rfl, rfl⟩
    refine (execRebaseCopyRow_runs hrebase hsrc htgt ⟨habove, hfull, hdev⟩).trans ?_
    rw [hnext]
    exact (apply_ite Host.Outcome.next _ _ _).symm
  case rebased =>
    intro s zone src tgt hrebase hsrc htgt habove hfull hdev hnext
    refine ⟨rebaseDone zone src tgt s, ?_, ?_⟩
    · refine (execRebaseCopyRow_runs hrebase hsrc htgt ⟨habove, hfull, hdev⟩).trans ?_
      rw [hnext]
      exact if_pos (by rw [hnext]; rfl)
    · rw [rebaseDone_zone]
      exact ⟨rfl, rfl, rfl, rfl⟩

end Sys2Proof.Machine
end

section
/-! O28: rows, parked wordlines, staging, the horizon and program failures (10). -/

namespace Sys2Proof.Machine

/-! ## Issuing a row -/

/-- A row of a log stripe has its units placed before it is issued. -/
def rowPlaced (k r : Nat) (s : State) : State := if isLog k then placeLogRow k r s else s

theorem rowPlaced_issued (k r : Nat) (s : State) : (getStripe (rowPlaced k r s) k).issued = (getStripe s k).issued := by
  unfold rowPlaced
  split
  · rw [placeLogRow_stripe]
  · rfl

theorem rowPlaced_jnl (k r : Nat) (s : State) : (rowPlaced k r s).jnl = s.jnl := by
  unfold rowPlaced
  split
  · exact (placeLogRow_jnl k r s).1
  · rfl

/-- The stripe lists the row; its last row seals a log stripe (10 R387). -/
def rowListed (k r : Nat) (s : State) : State :=
  let last := isLog k && r == 255
  let s := updStripe k (fun x => { x with
    issued := x.issued ++ [r], sealed := x.sealed || last, sealedAt := if last then s.jnl.nextJsn else x.sealedAt }) s
  if last then updWpe (fun w => { w with openLog := mapDel w.openLog (getStripe s k).tenant }) s else s

theorem rowListed_issued (k r : Nat) (s : State) : (getStripe (rowListed k r s) k).issued = (getStripe s k).issued ++ [r] := by
  unfold rowListed
  dsimp only
  split <;> exact congrArg Stripe.issued (getStripe_updStripe k _ s)

theorem rowListed_jnl (k r : Nat) (s : State) : (rowListed k r s).jnl = s.jnl := by
  unfold rowListed
  dsimp only
  split <;> rfl

/-- The row is held in the Vat and the Pail. -/
def rowHeld (k r : Nat) (s : State) : State :=
  updRow k r (fun _ => { row0 with vat := true, pail := true }) (updWpe (fun w => { w with setAside := mapDel w.setAside (rowKey k r) }) s)

theorem getStripe_rowHeld (k r j : Nat) (s : State) : getStripe (rowHeld k r s) j = getStripe s j := rfl

theorem getStripe_issue (typ len : Nat) (w : List Nat) (p : List Patch) (a : After) (s : State) (k : Nat) :
    getStripe (issue typ len w p a s) k = getStripe s k := rfl

theorem issueRow_eq (k r : Nat) (s : State) :
    issueRow k r s =
      (let u := rowHeld k r (rowListed k r (rowPlaced k r s))
      issue 0x06 16 [k, r] [.stripe k (getStripe u k)] (.startRow k r) u) := rfl

theorem issueRow_issued (k r : Nat) (s : State) : (getStripe (issueRow k r s) k).issued = (getStripe s k).issued ++ [r] := by
  rw [issueRow_eq, getStripe_issue, getStripe_rowHeld, rowListed_issued, rowPlaced_issued]

theorem issueRow_jnl (k r : Nat) (s : State) : ∃ rec : Rec, rec.typ = 0x06 ∧ (issueRow k r s).jnl.nextJsn = s.jnl.nextJsn + 1 ∧
    (issueRow k r s).jnl.buffer = s.jnl.buffer ++ [rec] := by
  have hjnl : (rowHeld k r (rowListed k r (rowPlaced k r s))).jnl = s.jnl := (rowListed_jnl _ _ _).trans (rowPlaced_jnl _ _ _)
  rw [issueRow_eq]
  refine ⟨_, ?_, ?_, issue_buffer _ _ _ _ _ _ |>.trans (congrArg (fun j : Jnl => j.buffer ++ [_]) hjnl)⟩
  · rfl
  · exact congrArg (fun j : Jnl => j.nextJsn + 1) hjnl

theorem progFail_member {s : State} {k m : Nat} (hlive : (getStripe s k).live = true) (hm : m < (getStripe s k).members.length)
    (hpresent : (getStripe s k).lost.contains m = false) :
    progFail k m s = retireBlock ((getStripe s k).members.getD m 0) 0
      (memberGone k m (fire 611 (refDie ((getStripe s k).members.getD m 0)) (bumpF F.WPE_FAIL_CNT_PROG_FAIL 1 s))) :=
  if_neg (by
    rintro (h | h | h)
    · simp [hlive] at h
    · omega
    · rw [hpresent] at h; cases h)

/-- A full staging block takes no more slices. -/
def stagingClosed (b : Nat) (s : State) : State := updBlock b (fun x => { x with wl := max x.wl stageCap }) s

/-- The slices that a staging block holds a copy of. -/
def slicesOn (b : Nat) (s : State) : List Nat := mapKeysWhere (fun _ x => x.refs.contains b) s.tabs.slices

theorem execCoolerBlockReclaim_eq {s : State} {b : Nat} (harea : s.wpe.areaBlocks.contains b = true) (hbound : (getBlock s b).st = .bound)
    (hroom : bufFull s = false) :
    execCoolerBlockReclaim b s =
      (let u := (slicesOn b (stagingClosed b s)).foldl restage (stagingClosed b s)
      .next (coolerSettle (if slicesOn b u = [] then issueRelease b u else u))) :=
  if_neg (by simp only [harea, hbound, hroom]; decide)

theorem slicesOn_stagingClosed (b : Nat) (s : State) : slicesOn b (stagingClosed b s) = slicesOn b s := rfl

/-- Settles O28: each command by its branch. -/
theorem rowsAndStaging : Obligations.RowsAndStaging := by
  refine ⟨?row, ?noRow, ?park, ?stage, ?noStage, ?miss, ?reclaim, ?noReclaim, ?fail⟩
  case row =>
    intro s k hlive hrow hcomplete hroom
    obtain ⟨rec, htyp, hjsn, hbuffer⟩ := issueRow_jnl k (currentRow s k) s
    refine ⟨_, if_pos ⟨hlive, hrow, hcomplete, hroom⟩, issueRow_issued _ _ _, issueRow_row _ _ _, hjsn, ?_⟩
    rw [hbuffer, List.map_append, List.map_singleton, htyp]
  case noRow =>
    intro s k hno
    refine if_neg ?_
    rintro ⟨hlive, hrow, hcomplete, hroom⟩
    rcases hno with h | h | h | h
    · simp [hlive] at h
    · omega
    · simp [hcomplete] at h
    · simp [hroom] at h
  case park => exact fun s die => rfl
  case stage => exact fun s k hlive hroom => if_pos ⟨hlive, hroom⟩
  case noStage =>
    intro s k hno
    refine if_neg ?_
    rintro ⟨hlive, hroom⟩
    rcases hno with h | h
    · simp [hlive] at h
    · simp [hroom] at h
  case miss =>
    intro s ns c hfind
    refine ⟨fire 608 ns (bumpF F.WPE_HORIZON_STATUS_MISS 1
      (updJnl (fun j => { j with commits := j.commits.map (fun x => if x = c then { x with missed := true } else x) }) s)), ?_, ?_, ?_⟩
    · show execHorizonMiss ns s = _
      unfold execHorizonMiss
      rw [hfind]
    · rw [fire_getF _ _ _ _ (by decide), getF_bumpF_self]
      rfl
    · rw [fire_jnl]
      rfl
  case reclaim =>
    intro s b harea hbound hroom hnone
    have hclosed : slicesOn b (stagingClosed b s) = [] := (slicesOn_stagingClosed b s).trans hnone
    refine (execCoolerBlockReclaim_eq harea hbound hroom).trans ?_
    rw [hclosed, List.foldl_nil]
    dsimp only
    rw [if_pos hclosed]
    rfl
  case noReclaim => exact fun s b hno => if_pos hno
  case fail =>
    exact fun s k m hlive hm hpresent => ⟨_, rfl, next_eq (congrArg (zmSettle s) (progFail_member hlive hm hpresent))⟩

end Sys2Proof.Machine
end

section
/-! O29: zone upkeep (06). -/

namespace Sys2Proof.Machine

/-! ## Spares, ready entries and homes -/

theorem shrinkDone_empty {s : State} {zk : Nat} (hshrink : (getZone s zk).shrinking = true) (hdone : (zonePending s zk).isEmpty = true) :
    shrinkDone zk s = zoneChanged zk (issueZone zk 1 0 .nothing (sealZone zk .full true s)) := if_pos ⟨hshrink, hdone⟩

theorem replenish_target {s : State} {zk : Nat} (hlow : spare s < getF s F.ZM_RSV_CFG_LOW_MARK) (htarget : replenishTarget s = some zk) :
    replenish s = offlineByController zk s := by
  unfold replenish
  rw [if_pos hlow, htarget]

/-- A die-block of an entry becomes Ready. -/
def blockReady (s : State) (r : Nat) : State := updBlock r (fun b => { b with st := .ready }) s

theorem blocksReady_frame (bs : List Nat) (s : State) : (bs.foldl blockReady s).mme = s.mme ∧ (bs.foldl blockReady s).jnl = s.jnl :=
  ⟨fold_same State.mme blockReady (fun _ _ => rfl) bs s, fold_same State.jnl blockReady (fun _ _ => rfl) bs s⟩

theorem execReadyListRefill_general {s : State} {bs : List Nat} (hok : entryOk s bs = true) :
    execReadyListRefill 0 bs s = .next (updMme (fun m => { m with ready := m.ready ++ [bs] }) (bs.foldl blockReady s)) :=
  (if_neg (by simp [hok])).trans (if_pos rfl)

theorem execReservationReplace_void {s : State} {zk b : Nat} (hmem : (getZone s zk).reserve.contains b = true)
    (hactive : (getZone s zk).isActive = true) :
    execReservationReplace zk b s =
      if 1 ≤ spare (voidReserve zk b s) then
        match takeReserve zk (getNs (voidReserve zk b s) (zoneNs zk)).tenant (voidReserve zk b s) 1 with
        | some u => .next (zmSettle s u)
        | none => .next (voidReserve zk b s)
      else .next (voidReserve zk b s) :=
  if_neg (by
    rintro (h | h)
    · rw [hmem] at h; cases h
    · rw [hactive] at h; cases h)

theorem voidReserve_zone (zk b : Nat) (s : State) :
    (getZone (voidReserve zk b s) zk).reserve = (getZone s zk).reserve.filter (· != b) :=
  congrArg Zone.reserve (getZone_updZone zk (fun z => { z with reserve := z.reserve.filter (· != b) }) s)

theorem execRehome_new {s : State} {g zk : Nat} {z : Zone}
    (hfind : s.tabs.zones.find? (fun e => natBits e.2.hint 0 12 == g && natBits e.2.hint 12 2 == 1) = some (zk, z))
    (hhome : mapGet 0 s.tabs.homes g ≠ 0) (hloose : mapGet 0 s.tabs.homes g % 2 = 0) (hauto : flagF s F.ZM_HINT_CFG_AUTO_REHOME = true)
    (hfew : homeLinks s (getNs s (zoneNs zk)).tenant (mapGet 0 s.tabs.homes g / 2) < 52) :
    execRehome g s = .next (updMme (fun m => { m with homeReady := mapDel m.homeReady g })
      (chooseHome g z.hint (getNs s (zoneNs zk)).tenant s)) := by
  unfold execRehome
  dsimp only
  rw [hfind]
  refine if_neg ?_
  rintro (h | h | h | h)
  · exact hhome h
  · omega
  · simp [hauto] at h
  · omega

/-! ## Assembling a log stripe -/

/-- A die-block is bound to a log stripe of a tenant. -/
def blockBound (k tenant : Nat) (s : State) (r : Nat) : State :=
  updBlock r (fun b => { b with st := .bound, owner := tenant, stripe := some k }) s

/-- A fresh log stripe, before its die-blocks are bound. -/
def logStripeNew (k tenant : Nat) (blocks : List Nat) (s : State) : State :=
  updStripe k (fun _ => { stripe0 with live := true, tenant := tenant, members := blocks }) s

/-- A new log stripe of a tenant is bound, journaled and open (06 R225). -/
def logStripeBound (k tenant : Nat) (blocks : List Nat) (s : State) : State :=
  let s := blocks.foldl (blockBound k tenant) (logStripeNew k tenant blocks s)
  issueBind k (updWpe (fun w => { w with openLog := mapSet 0 w.openLog tenant (k + 1) }) s)

/-- A committed unit takes its place in a log stripe. -/
def logUnitTaken (k : Nat) (s : State) (e : Nat × List UnitV) : State :=
  updUnit e.1 (fun l => match l with
    | v :: rest => { v with place := some (k, 256, 0) } :: rest
    | [] => []) (updStripe k (fun x => { x with filling := x.filling ++ [e.1] }) s)

/-- The committed units of the tenant that wait for a place take one in its new log stripe. -/
def logUnitsTaken (k tenant : Nat) (s : State) : State :=
  let waits (e : Nat × List UnitV) : Bool := (getNs s (unitNs e.1)).conv && (getNs s (unitNs e.1)).tenant == tenant
    && (match e.2.head? with
      | some v => v.place.isNone && v.kind != 256 && v.vat
      | none => false)
  let us := sortBy (fun (e : Nat × List UnitV) => (e.2.head?.map (·.stamp)).getD 0) (s.units.filter waits)
  let s := us.foldl (logUnitTaken k) s
  let hs := mapGet [] s.wpe.rowBufs (waitKey tenant)
  let rows := ((List.range us.length).map (fun i => landRow s k tenant i)).eraseDups
  let s := (rows.drop 1).foldl (fun s _ => hs.foldl (fun s h => bpmReference 2 3 h s) s) s
  updWpe (fun w => { w with rowBufs := (rows.foldl (fun m r => mapUpd [] m r (· ++ hs)) (mapDel w.rowBufs (waitKey tenant))) }) s

theorem execLogStripeAssemble_bound {s : State} {tn : Nat} {bs : List Nat} (hnone : mapGet 0 s.wpe.openLog tn = 0) (hwide : 4 ≤ logWidth s)
    (hlen : bs.length = logWidth s + 2) (hdistinct : (bs.map refLink).Nodup)
    (hfree : bs.any (fun r => !((candidates s 1 [] (posOwn s tn)).contains r)) = false) :
    execLogStripeAssemble tn bs s =
      .next (logUnitsTaken (freeStripe s 262144 8192) tn (logStripeBound (freeStripe s 262144 8192) tn bs s)) := by
  refine (if_neg ?_).trans rfl
  rintro (h | h | h | h | h)
  · exact h hnone
  · omega
  · exact h hlen
  · exact h hdistinct
  · rw [hfree] at h; cases h

theorem bpmReference_aside (port owner h : Nat) (s : State) : (bpmReference port owner h s).tabs = s.tabs ∧
    (bpmReference port owner h s).wpe = s.wpe ∧ (bpmReference port owner h s).jnl = s.jnl := by
  have hkeep := keeps_bpmReference (a0 := port) (a1 := owner) (a2 := h) (sub_refl _) (Keeps.refl _ s)
  exact ⟨hkeep.tabs_eq (by decide), hkeep.same.wpe (by decide), hkeep.jnl_eq (by decide)⟩

/-- What the units that a log stripe takes leave alone. -/
def logFrame (k : Nat) (s : State) : (List Nat × Nat × Bool) × SMap Nat × Jnl :=
  (((getStripe s k).members, (getStripe s k).tenant, (getStripe s k).live), s.wpe.openLog, s.jnl)

theorem logFrame_fill (k key : Nat) (f : List UnitV → List UnitV) (s : State) :
    logFrame k (updUnit key f (updStripe k (fun x => { x with filling := x.filling ++ [key] }) s)) = logFrame k s := by
  have hstripe : getStripe (updUnit key f (updStripe k (fun x => { x with filling := x.filling ++ [key] }) s)) k =
      { getStripe s k with filling := (getStripe s k).filling ++ [key] } :=
    getStripe_updStripe k (fun x => { x with filling := x.filling ++ [key] }) s
  unfold logFrame
  rw [hstripe]
  rfl

theorem logFrame_bpmReference (k port owner h : Nat) (s : State) : logFrame k (bpmReference port owner h s) = logFrame k s := by
  obtain ⟨htabs, hwpe, hjnl⟩ := bpmReference_aside port owner h s
  unfold logFrame getStripe
  rw [htabs, hwpe, hjnl]

theorem logFrame_updRowBufs (k : Nat) (f : SMap (List Nat) → SMap (List Nat)) (s : State) :
    logFrame k (updWpe (fun w => { w with rowBufs := f w.rowBufs }) s) = logFrame k s := rfl

theorem logUnitsTaken_frame (k tenant : Nat) (s : State) : logFrame k (logUnitsTaken k tenant s) = logFrame k s := by
  unfold logUnitsTaken
  dsimp only
  rw [logFrame_updRowBufs k (fun m => List.foldl _ (mapDel m (waitKey tenant)) _),
    fold_same (logFrame k) _ (fun w _ => fold_same (logFrame k) _ (fun w h => logFrame_bpmReference k 2 3 h w) _ w),
    fold_same (logFrame k) (logUnitTaken k) (fun w e => logFrame_fill k e.1 _ w)]

theorem logFrame_blocks (k tenant : Nat) (blocks : List Nat) (s : State) :
    logFrame k (blocks.foldl (blockBound k tenant) (logStripeNew k tenant blocks s)) = ((blocks, tenant, true), s.wpe.openLog, s.jnl) := by
  rw [fold_same (logFrame k) (blockBound k tenant) (fun _ _ => rfl), logFrame, logStripeNew, getStripe_updStripe]
  rfl

theorem logStripeBound_frame (k tenant : Nat) (blocks : List Nat) (s : State) :
    ((getStripe (logStripeBound k tenant blocks s) k).members = blocks ∧ (getStripe (logStripeBound k tenant blocks s) k).tenant = tenant ∧
      (getStripe (logStripeBound k tenant blocks s) k).live = true) ∧
      (logStripeBound k tenant blocks s).wpe.openLog = mapSet 0 s.wpe.openLog tenant (k + 1) ∧
      (logStripeBound k tenant blocks s).jnl.nextJsn = s.jnl.nextJsn + 1 := by
  have hblocks := logFrame_blocks k tenant blocks s
  unfold logStripeBound
  generalize blocks.foldl (blockBound k tenant) (logStripeNew k tenant blocks s) = u at hblocks ⊢
  obtain ⟨⟨hmembers, htenant, hlive⟩, hopen, hjnl⟩ := by simpa only [logFrame, Prod.mk.injEq] using hblocks
  exact ⟨⟨hmembers, htenant, hlive⟩, congrArg (fun m => mapSet 0 m tenant (k + 1)) hopen, congrArg (fun j : Jnl => j.nextJsn + 1) hjnl⟩

/-- Settles O29: each command by its branch. -/
theorem zoneUpkeep : Obligations.ZoneUpkeep := by
  refine ⟨fun s k m => rfl, ?shrink, ?replenish, ?refill, ?refillBad, ?replace, ?void, ?rehome, ?assemble⟩
  case shrink => exact fun s zk hshrink hdone => next_eq (congrArg (zmSettle s) (shrinkDone_empty hshrink hdone))
  case replenish => exact fun s zk hlow htarget => next_eq (congrArg (zmSettle s) (replenish_target hlow htarget))
  case refill =>
    intro s bs hok
    obtain ⟨hmme, hjnl⟩ := blocksReady_frame bs s
    exact ⟨_, execReadyListRefill_general hok, congrArg (fun m : Mme => m.ready ++ [bs]) hmme, (congrArg Mme.homeReady hmme :), hjnl⟩
  case refillBad => exact fun s home bs hbad => if_pos hbad
  case replace =>
    intro s u zk b hmem hactive hspare htake
    refine (execReservationReplace_void hmem hactive).trans ((if_pos hspare).trans ?_)
    rw [htake]
  case void =>
    intro s zk b hmem hactive hspare
    refine ⟨voidReserve zk b s, ?_, rfl, voidReserve_zone _ _ _, rfl⟩
    exact (execReservationReplace_void hmem hactive).trans (if_neg (Int.not_le.mpr hspare))
  case rehome =>
    exact fun s g zk z hfind hhome hloose hauto hfew => ⟨_, execRehome_new hfind hhome hloose hauto hfew, rfl, rfl, rfl⟩
  case assemble =>
    intro s tn bs hnone hwide hlen hdistinct hfree
    obtain ⟨⟨hmembers, htenant, hlive⟩, hopen, hjsn⟩ := logStripeBound_frame (freeStripe s 262144 8192) tn bs s
    have hframe := logUnitsTaken_frame (freeStripe s 262144 8192) tn (logStripeBound (freeStripe s 262144 8192) tn bs s)
    obtain ⟨⟨hmembers', htenant', hlive'⟩, hopen', hjnl'⟩ := by simpa only [logFrame, Prod.mk.injEq] using hframe
    refine ⟨_, _, execLogStripeAssemble_bound hnone hwide hlen hdistinct hfree, rfl, ?_, hmembers'.trans hmembers, htenant'.trans htenant,
      hlive'.trans hlive, (congrArg Jnl.nextJsn hjnl').trans hjsn⟩
    rw [hopen', hopen, mapGet_mapSet_self]

end Sys2Proof.Machine
end

section
/-! O30 and O31: the retention arithmetic (09) and the read ladder (08). -/

namespace Sys2Proof.Machine

/-- An entry of a changed map is the change of an entry. -/
theorem mem_mapMapVals {α : Type} [DecidableEq α] {d : α} {f : Nat → α → α} {m : SMap α} {p : Nat × α} (hp : p ∈ mapMapVals d f m) :
    ∃ q ∈ m, p = (q.1, f q.1 q.2) := by
  obtain ⟨q, hq, h⟩ := List.mem_filterMap.mp hp
  split at h
  · cases h
  · exact ⟨q, hq, (Option.some.inj h).symm⟩

theorem foldl_tickDie_frame (ds : List Nat) (s : State) :
    (ds.foldl tickDie s).top.poweredSec = s.top.poweredSec ∧ (ds.foldl tickDie s).tu = s.tu ∧ (ds.foldl tickDie s).units = s.units :=
  ⟨fold_same (fun s => s.top.poweredSec) tickDie (fun w d => eq_of_keeps_pow (keeps_tickDie (a1 := d) (sub_refl _) (Keeps.refl _ w)) (by decide)) ds s,
    fold_same State.tu tickDie (fun w d => (keeps_tickDie (a1 := d) (sub_refl _) (Keeps.refl _ w)).same.tu (by decide)) ds s,
    fold_same State.units tickDie (fun w d => (keeps_tickDie (a1 := d) (sub_refl _) (Keeps.refl _ w)).same.units (by decide)) ds s⟩

theorem skimSettle_frame (s : State) :
    (skimSettle s).top.poweredSec = s.top.poweredSec ∧ (skimSettle s).tu = s.tu ∧ (skimSettle s).units = s.units := by
  have h := keeps_skimSettle (sub_refl _) (Keeps.refl _ s)
  exact ⟨eq_of_keeps_pow h (by decide), h.same.tu (by decide), h.same.units (by decide)⟩

theorem popReport_at {p : Report → Bool} {s : State} {i : Nat} {r : Report} (hidx : s.clc.reports.findIdx? p = some i)
    (hget : s.clc.reports[i]? = some r) :
    popReport p s = some (r, updClc (fun c => { c with reports := c.reports.eraseIdx i }) s) := by
  unfold popReport
  rw [hidx]
  dsimp only
  rw [hget]
  rfl

theorem popReport_none {p : Report → Bool} {s : State} (hidx : s.clc.reports.findIdx? p = none) : popReport p s = none := by
  unfold popReport
  rw [hidx]

theorem execProbeResult_valid {s u : State} {d ep snap : Nat} {r : Report}
    (hpop : popReport (fun r => r.probe && r.die == d) s = some (r, u)) (hsealed : u.rcu.sealed = false)
    (hvalid : (r.planes.filter (fun p => p.2.2)).map (fun p => p.2.1) ≠ [])
    (hage : pilotAge (modelOf u d) (peOf u r.ref) ((r.planes.filter (fun p => p.2.2)).map (fun p => p.2.1)) = some ep)
    (hsnap : snapOf u r.ref (r.wl / 32) = some snap) :
    execProbeResult d s =
      (let v := updAge d (fun a => { a with probing := false, probe := some (ep, ageInt u d - snap, snap) }) u
      .next (probesSettle (skimSettle (darkDie (tuLocked v) v d)))) := by
  unfold execProbeResult
  rw [hpop]
  dsimp only
  rw [hage, hsnap]
  exact if_neg (by simp only [hvalid, hsealed]; decide)

/-- Settles O30: each command by its branch. -/
theorem agesAndProbes : Obligations.AgesAndProbes := by
  refine ⟨?tick, ?constants, ?cap, ?firmware, ?shelf, ?shelfIgnored, fun s => rfl, ?dark, ?darkWaits, ?probe, ?noProbe, ?pilot, ?resetDie, ?resetAll⟩
  case tick =>
    intro s
    refine ⟨_, _, rfl, rfl, rfl, ?_, ?_, ?_⟩
    all_goals
      obtain ⟨hsec, htu, hunits⟩ := skimSettle_frame
        ((allDies s).foldl tickDie { s with top := { s.top with poweredSec := satAdd (2 ^ 40 - 1) s.top.poweredSec 1 } })
      obtain ⟨hsec', htu', hunits'⟩ :=
        foldl_tickDie_frame (allDies s) { s with top := { s.top with poweredSec := satAdd (2 ^ 40 - 1) s.top.poweredSec 1 } }
    · exact hsec.trans hsec'
    · exact htu.trans htu'
    · exact hunits.trans hunits'
  case constants => exact fun s reg v hreg => ⟨_, _, if_pos hreg, rfl, rfl⟩
  case cap => exact fun s v => rfl
  case firmware => exact fun s reg v => rfl
  case shelf => exact fun s v hadmin hdev => ⟨_, _, next_eq (if_pos ⟨hadmin, hdev⟩), rfl, rfl⟩
  case shelfIgnored =>
    intro s v hno
    refine next_eq (if_neg ?_)
    rintro ⟨hadmin, hdev⟩
    rcases hno with h | h
    · simp [hadmin] at h
    · exact hdev h
  case dark => exact fun s hreads hopen => next_eq (if_pos ⟨hreads, hopen⟩)
  case darkWaits =>
    intro s hno
    refine next_eq (if_neg ?_)
    rintro ⟨hreads, hopen⟩
    rcases hno with h | h
    · simp [hreads] at h
    · simp [hopen] at h
  case probe =>
    intro s d ep snap i r hidx hget hsealed hvalid hage hsnap
    exact ⟨_, _, rfl, rfl, execProbeResult_valid (popReport_at hidx hget) hsealed hvalid hage hsnap⟩
  case noProbe =>
    intro s d hidx
    show execProbeResult d s = _
    unfold execProbeResult
    rw [popReport_none hidx]
  case pilot =>
    intro s i r hidx hget
    show execPilotReport s = _
    unfold execPilotReport
    rw [popReport_at hidx hget]
    rfl
  case resetDie => exact fun s d => ⟨_, rfl, congrArg DieAge.learned (getAge_updAge _ _ _), fun e hne => getAge_updAge_ne _ _ _ _ hne⟩
  case resetAll =>
    intro s
    refine ⟨_, rfl, fun e he => ?_⟩
    change e ∈ mapMapVals dieAge0 (fun _ a => { a with learned := none }) s.rcu.dies at he
    obtain ⟨q, -, rfl⟩ := mem_mapMapVals he
    rfl

/-! ## The read ladder -/

theorem execL5Reconstruct_ready {s : State} {i : Nat} (hst : (getCw s i).st = 3) (hparts : needParts s (getCw s i) ≤ (getCw s i).parts.length)
    (hsome : (getCw s i).parts ≠ []) :
    execL5Reconstruct i s =
      if cwCrcOk (rebuiltBytes s (getCw s i)) then .next (cwPassed i (rebuiltBytes s (getCw s i)) (exitCount 5 (dropParts i s)))
      else .next (updCw i (fun c => { c with st := 4 }) (exitCount 6 (dropParts i s))) :=
  if_neg (by
    rintro (h | h | h)
    · exact h hst
    · omega
    · exact hsome h)

theorem execCodewordDecodeDone_sensed {s : State} {i : Nat} (hst : (getCw s i).st = 1) :
    execCodewordDecodeDone i s =
      if (getCw s i).cls = 4 ∧ (getCw s i).parent = none then .next (skimDecoded i (decodeCw s (getCw s i)) s)
      else if (getCw s i).cls = 0 then .next (scanDecoded (getCw s i) (decodeCw s (getCw s i)) (dropCw i s))
      else .next (endDecode i (decodeCw s (getCw s i)) s) := if_neg (fun h => h hst)

/-- Settles O31: each command by its branch. -/
theorem readLadder : Obligations.ReadLadder := by
  refine ⟨?skim, ?scan, ?host, ?idle, ?rebuild, ?waits, ?expire, ?clear⟩
  case skim => exact fun s i hst hcls hparent => (execCodewordDecodeDone_sensed hst).trans (if_pos ⟨hcls, hparent⟩)
  case scan =>
    intro s i hst hcls
    exact (execCodewordDecodeDone_sensed hst).trans ((if_neg (by rw [hcls]; simp)).trans (if_pos hcls))
  case host =>
    intro s i hst hcls hother
    refine (execCodewordDecodeDone_sensed hst).trans ((if_neg ?_).trans (if_neg hcls))
    rintro ⟨hskim, hparent⟩
    rcases hother with h | h
    · exact h hskim
    · exact h hparent
  case idle => exact fun s i hst => if_pos hst
  case rebuild =>
    intro s i hst hparts hsome
    exact ⟨_, rfl, (execL5Reconstruct_ready hst hparts hsome).trans (apply_ite Host.Outcome.next _ _ _).symm⟩
  case waits => exact fun s i hno => if_pos hno
  case expire =>
    intro s k e x hfind
    refine next_eq ?_
    unfold dropHeld
    rw [hfind]
    rfl
  case clear =>
    intro s sel
    refine ⟨_, rfl, ?_, ?_⟩
    · exact (getF_regs rfl _).trans (getF_setF_self _ _ _)
    · show mapDel s.clc.exits (getF (setF F.CLC_EXIT_SEL_SEL sel s) F.CLC_EXIT_SEL_SEL) = _
      rw [getF_setF_self]

end Sys2Proof.Machine
end

section
/-! O33: Churn, releases and erases (11). -/

namespace Sys2Proof.Machine

theorem execChurnStart_runs {s : State} (hreads : s.top.readsOk = true) (habove : natBits s.mme.above 0 1 = 0) (hroom : bufFull s = false)
    (hcause : s.mme.churning = true ∨ churnDue s = true) :
    execChurnStart s =
      (match (match s.mme.victim with
        | some k => some k
        | none => churnVictim s) with
      | none => .next (updMme (fun m => { m with churning := true }) s)
      | some k =>
        let s := updMme (fun m => { m with churning := true, victim := some k }) s
        .next ((validUnits s k).foldl (churnUnit k) s)) :=
  if_neg (by rcases hcause with h | h <;> simp [hreads, habove, hroom, h])

/-- A version lies in a stripe. -/
def placedIn (k : Nat) (v : UnitV) : Bool :=
  match v.place with
  | some p => p.1 == k
  | none => false

/-- The copy of a moved unit may take its source's place (11 R428 step 2). -/
def MoveReady (s : State) (c v : UnitV) : Prop := c.durable = true ∧ c.stamp = v.stamp ∧ v.rgen < c.rgen ∧ bufFull s = false

theorem execUnitRemap_ready {s : State} {ns lba source target : Nat} {c v : UnitV}
    (hcopy : (mapGet [] s.units (unitKey ns lba)).find? (placedIn target) = some c)
    (hsource : (mapGet [] s.units (unitKey ns lba)).find? (placedIn source) = some v) (hready : MoveReady s c v) :
    execUnitRemap ns lba source target s =
      if (mapGet [] s.units (unitKey ns lba)).any (fun w => decide (c.stamp < w.stamp)) then
        .next (updUnit (unitKey ns lba) (fun l => l.filter (fun w => !(placedIn target w && w.stamp == c.stamp))) s)
      else
        .next (updMme (fun m => { m with remaps := m.remaps + 1 }) (issue 0x0B 32 [0, ns, c.rgen, lba, source, target] [] .nothing
          (updUnit (unitKey ns lba) (fun l => l.filter (fun w => !(placedIn source w && w.stamp == v.stamp))) s))) := by
  obtain ⟨hdurable, hstamp, hrgen, hroom⟩ := hready
  unfold execUnitRemap
  dsimp only
  change (match (mapGet [] s.units (unitKey ns lba)).find? (placedIn target),
    (mapGet [] s.units (unitKey ns lba)).find? (placedIn source) with | some c, some v => _ | _, _ => _) = _
  rw [hcopy, hsource]
  exact if_neg (by simp [hdurable, hstamp, hrgen, hroom])

@[simp] theorem unitsOf_updUnit (key : Nat) (f : List UnitV → List UnitV) (s : State) :
    mapGet [] (updUnit key f s).units key = f (mapGet [] s.units key) := mapGet_mapUpd_self _ _ _ _

theorem execBlockRelease_foreign {s : State} {r k : Nat} (hstripe : (getBlock s r).stripe = some k) (hbound : (getBlock s r).st = .bound)
    (hroom : bufFull s = false) (hforeign : (getStripe s k).members.findIdx? (· == r) = none) :
    execBlockRelease r s = .next (issueRelease r s) := by
  unfold execBlockRelease
  dsimp only
  rw [hstripe]
  dsimp only
  rw [if_neg (by simp [hbound, hroom]), hforeign]

/-- A die-block is Released; its record says so. -/
def blockReleased (r : Nat) (s : State) : State := updBlock r (fun b => { b with st := .released, stripe := none }) s

theorem issueRelease_bound {s : State} {r : Nat} (hbound : (getBlock s r).st = .bound) :
    issueRelease r s = issue 0x0D 16 [r, (getBlock s r).owner] [.block r (getBlock (blockReleased r s) r)] .nothing (blockReleased r s) :=
  if_neg (by simp [hbound])

/-- ERASE_BEGIN finds a die-block that waits for its erase and can be reached. -/
def EraseReady (s : State) (r : Nat) : Prop :=
  refDie r < linkCount s * 32 ∧ refBlock r < 3800 ∧ isAnchor r = false ∧ s.top.readsOk = true ∧ waitsErase s r = true ∧
    dieIsLost s (refDie r) = false ∧ (getDie s (refDie r)).usable = true ∧ bufFull s = false ∧ s.tabs.san.active = false

/-- The mode of the next erase of a die-block: an unconfirmed one is repeated in its own mode. -/
def nextMode (s : State) (r : Nat) : Nat := if (getBlock s r).unconf then (getBlock s r).mode else eraseMode s

theorem execEraseBegin_ready {s : State} {r : Nat} (h : EraseReady s r) :
    execEraseBegin r s =
      if (getDie s (refDie r)).draining then .next (zmSettle s (retireBlock r 3 s))
      else if (getBlock s r).unconf = false ∧ getF s F.MME_WEAR_CFG_LIMIT < (getBlock s r).wear + eraseCharge (nextMode s r) then
        .next (zmSettle s (retireBlock r 2 s))
      else .next (issueErase r (nextMode s r) (getBlock s r).unconf s) := by
  obtain ⟨hdie, hblock, hanchor, hreads, hwaits, hlost, husable, hroom, hsan⟩ := h
  exact if_neg (by simp [hdie, hblock, hanchor, hreads, hwaits, hlost, husable, hroom, hsan])

theorem issueErase_block (r mode : Nat) (repeats : Bool) (s : State) :
    getBlock (issueErase r mode repeats s) r = { getBlock s r with
      st := .erasing, mode := mode, stage := 1, unconf := true, recovery := repeats
      wear := if repeats then (getBlock s r).wear else min 65535 ((getBlock s r).wear + eraseCharge mode)
      senses := 0, stripe := none, wl := 0, snaps := [], stamps := [] } :=
  getBlock_updBlock r (fun b => { b with
    st := .erasing, mode := mode, stage := 1, unconf := true, recovery := repeats
    wear := if repeats then b.wear else min 65535 (b.wear + eraseCharge mode)
    senses := 0, stripe := none, wl := 0, snaps := [], stamps := [] }) s

/-- A die-block whose header is durable is Free (11 R422). -/
def blockFreed (r : Nat) (s : State) : State :=
  updBlock r (fun b => { b with st := .free, stage := 0, unconf := false, recovery := false, owner := 0xFFFF }) s

/-- Churn stops when its pool holds HIGH (11 R426). -/
def churnSettled (s : State) : State :=
  if getF s F.MME_CHURN_CFG_HIGH ≤ freeTlc s then updMme (fun m => { m with churning := false }) s else s

theorem churnSettled_frame (s : State) (r : Nat) : getBlock (churnSettled s) r = getBlock s r ∧ (churnSettled s).jnl = s.jnl := by
  unfold churnSettled
  split <;> exact ⟨rfl, rfl⟩

/-- Settles O33: each command by its branch. -/
theorem churnAndErase : Obligations.ChurnAndErase := by
  refine ⟨?victim, ?noVictim, ?idle, ?remap, ?superseded, ?release, ?unowned, ?erase, ?drain, ?free⟩
  case victim =>
    intro s k hreads habove hroom hvictim hcause
    refine ⟨_, rfl, (execChurnStart_runs hreads habove hroom hcause).trans ?_⟩
    rcases hvictim with hcurrent | ⟨hnone, hchosen⟩
    · rw [hcurrent]
    · rw [hnone]
      dsimp only
      rw [hchosen]
  case noVictim =>
    intro s hreads habove hroom hnone hchosen hcause
    refine (execChurnStart_runs hreads habove hroom hcause).trans ?_
    rw [hnone]
    dsimp only
    rw [hchosen]
  case idle =>
    intro s hno
    refine if_pos ?_
    rcases hno with h | h | h
    · exact .inl h
    · exact .inr (.inr (.inl h))
    · exact .inr (.inr (.inr h))
  case remap =>
    intro s ns lba source target c v hcopy hsource hdurable hstamp hrgen hroom hnewest
    refine ⟨_, (execUnitRemap_ready hcopy hsource ⟨hdurable, hstamp, hrgen, hroom⟩).trans (if_neg (by simp only [hnewest]; decide)),
      unitsOf_updUnit _ _ s, rfl, rfl, ?_⟩
    exact List.map_append
  case superseded =>
    intro s ns lba source target c v hcopy hsource hdurable hstamp hrgen hroom hnewer
    exact ⟨_, (execUnitRemap_ready hcopy hsource ⟨hdurable, hstamp, hrgen, hroom⟩).trans (if_pos hnewer), unitsOf_updUnit _ _ s, rfl⟩
  case release =>
    intro s r k hstripe hbound hroom hforeign
    have hblock : getBlock (blockReleased r s) r = { getBlock s r with st := .released, stripe := none } := getBlock_updBlock _ _ _
    refine ⟨_, (execBlockRelease_foreign hstripe hbound hroom hforeign).trans (next_eq (issueRelease_bound hbound)),
      congrArg Block.st hblock, congrArg Block.stripe hblock, rfl, fun q hne => getBlock_updBlock_ne _ _ s _ hne⟩
  case unowned =>
    intro s r hnone
    show execBlockRelease r s = _
    unfold execBlockRelease
    dsimp only
    rw [hnone]
  case erase =>
    intro s r hdie hblock hanchor hreads hwaits hlost husable hroom hsan hdrain hwear
    have hready : EraseReady s r := ⟨hdie, hblock, hanchor, hreads, hwaits, hlost, husable, hroom, hsan⟩
    have hlimit : ¬((getBlock s r).unconf = false ∧ getF s F.MME_WEAR_CFG_LIMIT < (getBlock s r).wear + eraseCharge (nextMode s r)) := by
      rintro ⟨hconf, hover⟩
      rcases hwear with h | h
      · simp [hconf] at h
      · exact absurd hover (Nat.not_lt.mpr h)
    have hissued := issueErase_block r (nextMode s r) (getBlock s r).unconf s
    refine ⟨_, _, rfl, (execEraseBegin_ready hready).trans ((if_neg (by simp [hdrain])).trans (if_neg hlimit)), congrArg Block.st hissued,
      congrArg Block.mode hissued, congrArg Block.wear hissued, congrArg Block.snaps hissued, rfl⟩
  case drain =>
    intro s r hdie hblock hanchor hreads hwaits hlost husable hroom hsan hdrain
    exact (execEraseBegin_ready ⟨hdie, hblock, hanchor, hreads, hwaits, hlost, husable, hroom, hsan⟩).trans (if_pos hdrain)
  case free =>
    intro s r hst hstage hdurable
    obtain ⟨hblock, hjnl⟩ := churnSettled_frame (blockFreed r s) r
    exact ⟨churnSettled (blockFreed r s), if_pos ⟨hst, hstage, hdurable⟩, hblock.trans (getBlock_updBlock _ _ _), hjnl⟩

end Sys2Proof.Machine
end

section
/-! O34: the scan, refresh, wear levelling, rebuild and the rates (11). -/

namespace Sys2Proof.Machine

/-! ## The scan -/

theorem wakeGroup_tabs (g : Nat) (s : State) : (wakeGroup g s).tabs = s.tabs := (keeps_wakeGroup (sub_refl _) (Keeps.refl _ s)).tabs_eq (by decide)

/-- The scan may probe (11 R431). -/
def ScanRuns (s : State) : Prop :=
  s.top.readsOk = true ∧ s.top.dev ≠ .quiescing ∧ s.top.dev ≠ .retained ∧ natBits s.mme.above 1 1 = 0

theorem ScanRuns.open {s : State} (h : ScanRuns s) :
    ¬(s.top.readsOk = false ∨ s.top.dev = .quiescing ∨ s.top.dev = .retained ∨ natBits s.mme.above 1 1 = 1) := by
  obtain ⟨hreads, hquiesce, hretained, habove⟩ := h
  simp [hreads, hquiesce, hretained, habove]

/-- The scan moves past a point. -/
def scanMoved (key : Nat) (s : State) : State :=
  { s with mme := { s.mme with passActive := true, cursor := key + 1, scanned := s.mme.scanned + 1 } }

theorem execScanProbe_plc {s : State} {key r g : Nat} (hruns : ScanRuns s) (hnext : nextScan s = some (key, r, g))
    (hpresent : dieIsLost s (refDie r) = false) (hmode : (getBlock s r).mode = 0) :
    execScanProbe s = .next (enqueue (refDie r)
      { dieOp0 with kind := .readLevel, block := refBlock r, wl := g * 32, planes := 15, count := 608, probe := 2, work := 2 }
      (wakeGroup (refDie r / 256) (scanMoved key s))) := by
  have hactive : nextScan (updMme (fun m => { m with passActive := true }) s) = some (key, r, g) := hnext
  have hblock : (getBlock (wakeGroup (refDie r / 256) (scanMoved key s)) r).mode = 0 := by
    unfold getBlock
    rw [wakeGroup_tabs]
    exact hmode
  unfold execScanProbe
  rw [if_neg hruns.open]
  dsimp only
  rw [hactive]
  exact (if_neg (show ¬ dieIsLost s (refDie r) = true by simp [hpresent])).trans (if_pos hblock)

theorem execScanProbe_end {s : State} (hruns : ScanRuns s) (hnext : nextScan s = none) :
    execScanProbe s = .next { s with mme := { s.mme with passActive := true } } := by
  have hactive : nextScan (updMme (fun m => { m with passActive := true }) s) = none := hnext
  unfold execScanProbe
  rw [if_neg hruns.open]
  dsimp only
  rw [hactive]
  rfl

/-! ## Refresh -/

/-- A refresh may start (11 R432). -/
def RefreshRuns (s : State) : Prop :=
  s.top.readsOk = true ∧ s.mme.current = none ∧ natBits s.mme.above 1 1 = 0 ∧ bufFull s = false

theorem RefreshRuns.open {s : State} (h : RefreshRuns s) :
    ¬(s.top.readsOk = false ∨ s.mme.current.isSome = true ∨ natBits s.mme.above 1 1 = 1 ∨ bufFull s = true) := by
  obtain ⟨hreads, hidle, habove, hroom⟩ := h
  simp [hreads, hidle, habove, hroom]

/-- The stored versions of a unit move to the target of its zone (11 R428, 13 R505). -/
def unitRelocated (s : State) (key : Nat) : State :=
  let s := match (mapGet [] s.units key).head? with
    | some v => relocateCount (unitNs key) (unitLba key) v s
    | none => s
  updUnit key (fun l => l.map (fun v => relocate s (unitNs key) (unitLba key) v)) s

theorem unitRelocated_jnl (s : State) (key : Nat) : (unitRelocated s key).jnl = s.jnl := by
  unfold unitRelocated
  split
  · exact (keeps_relocateCount (sub_refl _) (Keeps.refl _ s)).jnl_eq (by decide)
  · rfl

/-- The target of a zone holds the rows of its source and is bound to it. -/
def targetBound (zk g : Nat) (x : Stripe) (s : State) : State :=
  updZone zk (fun z => { z with stripe := some g, target := none })
    (fillTarget g x.issued.length (updStripe g (fun y => { y with issued := x.issued, prog := x.prog, skimmed := x.skimmed }) s))

theorem targetBound_jnl (zk g : Nat) (x : Stripe) (s : State) : (targetBound zk g x s).jnl = s.jnl := by
  have h := (keeps_fillTarget (a0 := g) (a1 := x.issued.length) (sub_refl _)
    (Keeps.refl _ (updStripe g (fun y => { y with issued := x.issued, prog := x.prog, skimmed := x.skimmed }) s))).jnl_eq (by decide)
  exact h

theorem targetBound_zone (zk g : Nat) (x : Stripe) (s : State) :
    (getZone (targetBound zk g x s) zk).stripe = some g ∧ (getZone (targetBound zk g x s) zk).target = none := by
  unfold targetBound
  rw [getZone_updZone]
  exact ⟨rfl, rfl⟩

/-- The units that lie in a zone. -/
def unitsOfZone (s : State) (zk : Nat) : List Nat :=
  (s.units.filter (fun e => unitNs e.1 == zoneNs zk && unitLba e.1 / zoneLbas == zoneNum zk)).map Prod.fst

/-- The REMAP record of a refreshed zone is issued and the refresh is over (11 R432, 12 Table 12-4). -/
def refreshEnded (zk k g : Nat) (s : State) : State :=
  let y := getStripe s g
  updMme (fun m => { m with
      current := none, remaps := m.remaps + 1, passQueued := m.passQueued.filter (· != k)
      queue := m.queue.filter (fun q => q.stripe != k)
      wlQueued := m.wlQueued && m.queue.any (fun q => q.cls == 5) })
    (issue 0x0B 32 [1, zoneNs zk, zoneNum zk, k, g]
      (.zone zk (getZone s zk) :: .stripe g y :: y.members.map (fun r => .block r (getBlock s r))) (.releaseSource k) s)

theorem execRefreshRemap_done {s : State} {zk k g : Nat} (hsource : (getZone s zk).stripe = some k) (htarget : (getZone s zk).target = some g)
    (hplain : (getZone s zk).rebase = false) (hrows : rowsOf s k = []) (hroom : bufFull s = false) :
    execRefreshRemap zk s =
      .next (zmSettle s (skimSettle (refreshEnded zk k g (targetBound zk g (getStripe s k) ((unitsOfZone s zk).foldl unitRelocated s))))) := by
  unfold execRefreshRemap
  dsimp only
  rw [hsource, htarget]
  exact if_neg (by simp [hplain, hrows, hroom])

/-- F of a die is set (09 R358). -/
def dieRefreshed (s : State) (d : Nat) : State := updAge d (fun a => { a with refreshed := a.age / 2 ^ 32 }) s

/-- A pass of the scan is over and the next one starts (11 R434). -/
def passEnded (s : State) : State :=
  updMme (fun m => { m with cursor := 0, scanned := 0, passQueued := [] }) ((allDies s).foldl dieRefreshed s)

theorem execRefreshPassComplete_done {s : State} (hreads : s.top.readsOk = true) (hactive : s.mme.passActive = true)
    (hend : nextScan s = none)
    (hidle : s.mme.passQueued.any (fun k => s.mme.queue.any (fun q => q.stripe == k) || s.mme.current == some k) = false) :
    execRefreshPassComplete s = .next (skimSettle (fire 645 0 (passEnded s))) :=
  if_neg (by
    rintro (h | h | h | h)
    · simp [hreads] at h
    · simp [hactive] at h
    · simp [hend] at h
    · rw [hidle] at h; cases h)

/-! ## Rebuild -/

theorem execRebuildRow_zone {s : State} {k m r : Nat} (hnext : nextRebuild s k = some (m, r)) (hzone : isLog k = false)
    (hlive : (getStripe s k).live = true) (hroom : bufFull s = false) (habove : natBits s.mme.above 2 1 = 0) :
    execRebuildRow k s =
      if (getStripe s k).issued.length ≤ r then .next (updStripe k (fun x => { x with rebuild := x.rebuild.filter (fun p => p.1 != m) }) s)
      else if rowNeeds s k r ≤ (rowMembers s k r m).length then .next (rebuildStep k m r s)
      else if 2 < rowGone s k r m then
        .next (rebuildStep k m r (queueRefresh 2 0 k ((memberUnits s k r m).foldl (fun s key => loseUnit k r key s) s)))
      else .next s := by
  unfold execRebuildRow
  rw [hnext]
  exact if_neg (by simp [hzone, hlive, hroom, habove])

/-- Stripes with a lost member. -/
def losingStripes (s : State) : List (Nat × Stripe) := s.tabs.stripes.filter (fun e => e.2.live && e.2.zone.isSome && e.2.lost != [])

theorem execRebuildReplacementRetry_eq (s : State) :
    execRebuildReplacementRetry s = .next (zmSettle s
      (((losingStripes s).filter (fun e => decide (2 ≤ e.2.lost.length)) ++ (losingStripes s).filter (fun e => decide (e.2.lost.length < 2))).foldl
        (fun s e => e.2.lost.foldl (fun s m => replaceLost e.1 m s) s) s)) := rfl

/-- The lowest wear of the members of Full zones. -/
def lowestWear (s : State) (full : List Nat) : Nat :=
  (full.flatMap (fun k => (getStripe s k).members.map (fun r => (getBlock s r).wear))).foldl min 65536

theorem execWearLevelCheck_one {s : State} {k : Nat} (hen : flagF s F.MME_WEAR_CFG_WL_EN = true) (hidle : s.mme.wlQueued = false)
    (hfull : fullStripes s = [k])
    (hgap : lowestWear s [k] + 100 * getF s F.MME_WEAR_CFG_WL_DELTA < (poolWear s).foldl max 0) :
    execWearLevelCheck s = .next (updMme (fun m => { m with wlQueued := true }) (queueRefresh 5 0 k s)) := by
  unfold execWearLevelCheck
  dsimp only
  rw [hfull, if_neg (by
    rintro (h | h | h | h)
    · simp [hen] at h
    · simp [hidle] at h
    · cases h
    · exact absurd hgap (Nat.not_lt.mpr h))]
  rfl

/-- Settles O34: each command by its branch. -/
theorem refreshAndRebuild : Obligations.RefreshAndRebuild := by
  refine ⟨?probe, ?scanEnd, ?start, ?noRefresh, ?remap, ?pass, ?noLevel, ?level, ?row, ?rowsDone, ?noHurt, ?hurt, ?rates, ?floors⟩
  case probe =>
    intro s key r g hreads hquiesce hretained habove hnext hpresent hmode
    exact ⟨_, rfl, execScanProbe_plc ⟨hreads, hquiesce, hretained, habove⟩ hnext hpresent hmode⟩
  case scanEnd =>
    exact fun s hreads hquiesce hretained habove hnext => execScanProbe_end ⟨hreads, hquiesce, hretained, habove⟩ hnext
  case start =>
    intro s k zk g e b u hreads hidle habove hroom hnext hzone hentry htake
    refine ⟨_, rfl, ?_⟩
    show execRefreshStart s = _
    unfold execRefreshStart
    rw [if_neg (RefreshRuns.open ⟨hreads, hidle, habove, hroom⟩), hnext]
    dsimp only
    rw [hzone]
    dsimp only
    rw [hentry]
    dsimp only
    rw [htake]
  case noRefresh =>
    intro s hreads hidle habove hroom hnext
    show execRefreshStart s = _
    unfold execRefreshStart
    rw [if_neg (RefreshRuns.open ⟨hreads, hidle, habove, hroom⟩), hnext]
  case remap =>
    intro s zk k g hsource htarget hplain hrows hroom
    have hrun := execRefreshRemap_done hsource htarget hplain hrows hroom
    have hjnl : ((unitsOfZone s zk).foldl unitRelocated s).jnl = s.jnl := fold_same State.jnl unitRelocated unitRelocated_jnl _ _
    generalize (unitsOfZone s zk).foldl unitRelocated s = w at hrun hjnl
    obtain ⟨hstripe, hnone⟩ := targetBound_zone zk g (getStripe s k) w
    have hbound := (targetBound_jnl zk g (getStripe s k) w).trans hjnl
    generalize targetBound zk g (getStripe s k) w = u at hrun hstripe hnone hbound
    exact ⟨_, refreshEnded zk k g u, hrun, rfl, hstripe, hnone, rfl, congrArg (fun j : Jnl => j.nextJsn + 1) hbound⟩
  case pass =>
    intro s hreads hactive hend hidle
    refine ⟨_, passEnded s, execRefreshPassComplete_done hreads hactive hend hidle, rfl, rfl, rfl, rfl, ?_⟩
    rw [passEnded, updMme_rcu]
    rfl
  case noLevel =>
    intro s hno
    refine if_pos ?_
    rcases hno with h | h | h
    · exact .inl h
    · exact .inr (.inl h)
    · exact .inr (.inr (.inl h))
  case level =>
    intro s k hen hidle hfull hgap
    refine ⟨_, execWearLevelCheck_one hen hidle hfull ?_, rfl, rfl⟩
    rw [lowestWear, List.flatMap_singleton]
    exact hgap
  case row =>
    intro s k m r hnext hzone hlive hroom habove hrow hneeds
    exact (execRebuildRow_zone hnext hzone hlive hroom habove).trans ((if_neg (Nat.not_le.mpr hrow)).trans (if_pos hneeds))
  case rowsDone =>
    intro s k m r hnext hzone hlive hroom habove hrow
    exact ⟨_, (execRebuildRow_zone hnext hzone hlive hroom habove).trans (if_pos hrow), congrArg Stripe.rebuild (getStripe_updStripe _ _ _)⟩
  case noHurt =>
    intro s hnone
    refine (execRebuildReplacementRetry_eq s).trans ?_
    rw [show losingStripes s = [] from hnone]
    rfl
  case hurt =>
    intro s k m x hone hlost
    refine (execRebuildReplacementRetry_eq s).trans ?_
    rw [show losingStripes s = [(k, x)] from hone]
    simp [hlost]
  case rates =>
    intro s a b c hcool
    show execMmeRateWindow a b c s = _
    unfold execMmeRateWindow
    simp only [hcool, Bool.false_eq_true, if_false]
  case floors =>
    intro s v
    refine ⟨next_eq ?_, rfl⟩
    simp [floorWrite, floorRefused]

end Sys2Proof.Machine
end

section
/-! O35 and O36: ports and lanes, frames and flow control (03). -/

namespace Sys2Proof.Machine

/-! ## Modes and lanes -/

/-- The active mode and whether it is the saved one. -/
def modeOf (s : State) : Nat × Bool := (s.hfe.mode, s.hfe.savedMode)

theorem Keeps.modeOf_eq {m : Nat} {s t : State} (h : Keeps m s t) (hm : m.testBit 25 = false) : modeOf t = modeOf s := by
  have hrest := h.same.hfe hm
  simp only [Prod.mk.injEq] at hrest
  exact Prod.ext hrest.1 hrest.2.2.2.1

theorem modeOf_portTrainFull (p : Nat) (s : State) : modeOf (portTrainFull p s) = modeOf s :=
  (keeps_portTrainFull (sub_refl _) (Keeps.refl _ s)).modeOf_eq (by decide)

theorem modeOf_trainSettle (s : State) : modeOf (trainSettle s) = modeOf s := by
  unfold trainSettle
  split <;> rfl

theorem modeOf_fire (src i : Nat) (s : State) : modeOf (fire src i s) = modeOf s := by rw [modeOf, fire_hfe, modeOf]

theorem modeOf_discChanged (s : State) : modeOf (discChanged s) = modeOf s :=
  ((keeps_raiseAenWhere (sub_refl _) (Keeps.refl _ _)).modeOf_eq (by decide) :
    modeOf (discChanged s) = modeOf { s with hfe := { s.hfe with discGen := s.hfe.discGen + 1 } })

/-- The host side of an apply: every connection is closed and every port is down (03 R69). -/
def portsCleared (s : State) : State :=
  (List.range 8).foldl (fun s p => portOff p s) ((s.hfe.conns.map Prod.fst).foldl (fun s c => loseConn c s) s)

/-- The lanes train in the written mode. -/
def modeTrained (saved : Bool) (s : State) : State :=
  let m := getF s F.HFE_MODE_CTL_MODE
  let s := updHfe (fun h => { h with ports := [], mode := m, training := true, savedMode := saved }) s
  let s := (List.range 8).foldl (fun s p => portTrainFull p s) s
  discChanged (fire 162 m (trainSettle s))

theorem modeOf_modeTrained (saved : Bool) (s : State) : modeOf (modeTrained saved s) = (getF s F.HFE_MODE_CTL_MODE, saved) := by
  unfold modeTrained
  dsimp only
  rw [modeOf_discChanged, modeOf_fire, modeOf_trainSettle, fold_same modeOf (fun s p => portTrainFull p s) (fun w p => modeOf_portTrainFull p w)]
  rfl

theorem modeApply_eq {s : State} (hidle : s.hfe.training = false) (saved : Bool) : modeApply saved s = modeTrained saved (portsCleared s) :=
  if_neg (by simp [hidle])

/-! ## Ports -/

/-- A lane has lost lock. -/
def laneUnlocked (l : Nat) (s : State) : State := updLane l (fun x => { x with locked := false }) s

theorem execLaneLossOfLockTimeout_carries {s : State} {l : Nat} (hcarries : laneCarries s l = true) (all : Bool) :
    execLaneLossOfLockTimeout l all s =
      if all then .next (portDown (portOfLane s l)
        ((portLanes s.hfe.mode (portOfLane s l)).foldl (fun s l => laneUnlocked l s) (laneUnlocked l s)))
      else .next (lanesLost (portOfLane s l) l (laneUnlocked l s)) := if_neg (by simp [hcarries])

/-- The counters of an interval of a lane (03 Table 03-7). -/
def laneCounted (l n : Nat) (s : State) : State :=
  portCount (portOfLane s l) 5 n (updLane l (fun x => { x with degraded := decide (0 < n), uncorr := n }) s)

theorem laneCounted_hfe (l n : Nat) (s : State) :
    (∀ k, getLane (laneCounted l n s) k = getLane (updLane l (fun x => { x with degraded := decide (0 < n), uncorr := n }) s) k) ∧
      (laneCounted l n s).hfe.ports = s.hfe.ports := by
  unfold laneCounted portCount
  split <;> exact ⟨fun _ => rfl, rfl⟩

theorem execLaneUncorrInterval_kept {s : State} {l n : Nat} (hl : l < 8)
    (hkept : laneCarries s l = false ∨ getF s F.HFE_LANE_FAIL_CFG_UNCORR_MAX = 0 ∨ n ≤ getF s F.HFE_LANE_FAIL_CFG_UNCORR_MAX) :
    execLaneUncorrInterval l n s = .next (laneCounted l n s) := by
  have hlost : ¬(laneCarries s l && getF s F.HFE_LANE_FAIL_CFG_UNCORR_MAX != 0 && decide (getF s F.HFE_LANE_FAIL_CFG_UNCORR_MAX < n)) = true := by
    rcases hkept with h | h | h <;> simp [h]
  exact (if_neg (Nat.not_le.mpr hl)).trans (if_neg hlost)

theorem execPortTrainingDone_training {s : State} {p : Nat} (hst : (getPort s p).st = 1) (ok : Bool) (m : Nat) :
    execPortTrainingDone p ok m s =
      if ok then .next (portUp p s)
      else if (portLanes s.hfe.mode p).length ≤ 1 then .next (portDown p s)
      else .next (narrow p (if (getPort s p).narrowing then (getPort s p).trying else 0)
        ((maskLanes ((getPort s p).trying &&& m)).foldl (fun s l => failLane l s) s)) := if_neg (fun h => h hst)

theorem portTrainFull_port {s : State} {p : Nat} (hdefined : portDefined s p = true) (hen : flagF s (F.HFE_PORT_CTL_ENABLE p) = true)
    (hrun : lanesRun s = true) :
    getPort (portTrainFull p s) p = { getPort (portOff p s) p with st := 1, trying := laneMask (portLanes s.hfe.mode p), narrowing := false } := by
  unfold portTrainFull
  rw [if_pos ⟨hdefined, hen, hrun⟩, portTrain, getPort_updPort]

/-- Settles O35: each command by its branch. -/
theorem portModesAndLanes : Obligations.PortModesAndLanes := by
  refine ⟨fun s htraining => next_eq (if_pos htraining), ?apply, ?save, ?lock, ?noLane, ?interval, ?up, ?failed, ?idle, ?candidate, ?retrain,
    fun s p => rfl, ?auto⟩
  case apply =>
    intro s hidle
    have hmode := modeOf_modeTrained false (portsCleared s)
    refine ⟨modeApply false s, portsCleared s, rfl, rfl, rfl, ?_⟩
    rw [modeApply_eq hidle]
    exact ⟨congrArg Prod.fst hmode, congrArg Prod.snd hmode⟩
  case save => exact fun s f => ⟨(apply_ite Host.Outcome.next _ _ _).symm, (apply_ite Host.Outcome.next _ _ _).symm⟩
  case lock =>
    exact fun s l hcarries => ⟨_, rfl, execLaneLossOfLockTimeout_carries hcarries false, execLaneLossOfLockTimeout_carries hcarries true⟩
  case noLane => exact fun s l b hno => if_pos hno
  case interval =>
    intro s l n hl hkept
    obtain ⟨hlane, hports⟩ := laneCounted_hfe l n s
    refine ⟨_, execLaneUncorrInterval_kept hl hkept, ?_, ?_, fun k hne => ?_, hports⟩
    · rw [hlane, getLane_updLane]
    · rw [hlane, getLane_updLane]
    · rw [hlane, getLane_updLane_ne _ _ _ _ hne]
  case up => exact fun s p m hst => execPortTrainingDone_training hst true m
  case failed =>
    exact fun s p m hst => (execPortTrainingDone_training hst false m).trans (apply_ite Host.Outcome.next _ _ _).symm
  case idle => exact fun s p m ok hst => ⟨if_pos hst, if_neg (fun h => hst h.1)⟩
  case candidate => exact fun s p hst hnarrow => if_pos ⟨hst, hnarrow⟩
  case retrain =>
    intro s p hst hdefined hen hrun
    refine ⟨_, if_pos hst, ?_⟩
    rw [portTrainFull_port hdefined hen hrun]
    exact ⟨rfl, rfl, rfl⟩
  case auto => exact fun s p hauto hst => if_pos ⟨hauto, hst⟩

/-! ## Priorities -/

theorem xonBytes_updPrio (p : Nat) (b : Bool) (f : Prio → Prio) (s : State) : xonBytes (updPrio p b f s) p = xonBytes s p := by
  have hmask : (getPort (updPrio p b f s) p).mask = (getPort s p).mask := by
    unfold updPrio
    rw [getPort_updPort]
    cases b <;> rfl
  unfold xonBytes prioRegion
  rw [hmask]
  rfl

theorem getPrio_portCount (p sel n q : Nat) (b : Bool) (s : State) : getPrio (portCount p sel n s) q b = getPrio s q b := by
  unfold portCount
  split <;> rfl

theorem execPfcXon_drained {s : State} {p n : Nat} {b : Bool} (hxoff : (getPrio s p b).xoff = true)
    (hdrained : (getPrio s p b).fill - n ≤ xonBytes s p) :
    execPfcXon p b n s = .next (sendPfc p b 0 (updPrio p b (fun x => { x with xoff := false }) (updPrio p b (fun x => { x with fill := x.fill - n }) s))) := by
  refine if_pos ?_
  rw [getPrio_updPrio, xonBytes_updPrio]
  exact ⟨hxoff, hdrained⟩

theorem execPfcFrameReceive_enabled {s : State} {p prio : Nat} {b : Bool} (hprio : prioIs s p prio = some b)
    (hcalm : (getPrio s p b).storm = false) (q : Nat) :
    execPfcFrameReceive p prio q s =
      if q = 0 then .next (prioResume p b (portCount p (if b then 8 else 6) 1 s))
      else .next (updPrio p b (fun x => { x with paused := true }) (portCount p (if b then 8 else 6) 1 s)) := by
  unfold execPfcFrameReceive
  rw [hprio]
  exact if_neg (by rw [getPrio_portCount]; simp [hcalm])

/-- A frame reaches a port that is up (03 R71). -/
theorem execFrameReceive_up {s : State} {p : Nat} (hst : 2 ≤ (getPort s p).st) (hp : p < 8) (len : Nat) (ok : Bool) (d v : Option Nat)
    (pcp : Nat) :
    execFrameReceive p len ok d v pcp s =
      if ok = false then .next (portCount p 2 1 s)
      else if 9216 < len then .next (portCount p 3 1 s)
      else if v.any (fun v => !vlanKnown s p v) = true then .next (portCount p 0x13 1 s)
      else
        match prioIs (portCount p 0 1 s) p
          (if flagF s (F.HFE_PORT_PFC_CFG_TRUST_DSCP p) = true ∧ d.isSome = true then d.getD 0 / 8 % 8
            else if flagF s (F.HFE_PORT_PFC_CFG_TRUST_DSCP p) = true then 0 else if v.isSome then pcp % 8 else 0) with
        | some b => .next (prioFill p b len (portCount p 0 1 s))
        | none => .next (portCount p 0 1 s) := if_neg (by omega)

theorem prioIs_portCount (p sel n q prio : Nat) (s : State) : prioIs (portCount p sel n s) q prio = prioIs s q prio := by
  unfold portCount
  split <;> rfl

/-- Settles O36: each command by its branch. -/
theorem framesAndFlowControl : Obligations.FramesAndFlowControl := by
  refine ⟨?good, ?unreached, ?bad, ?xoff, ?xon, ?pfc, ?noPrio, ?expire, ?storm, ?stormEnd, ?resolved, fun s hop => rfl⟩
  case good =>
    intro s p len prio b hst hp hlen htrust hprio d hd
    refine (execFrameReceive_up hst hp _ _ _ _ _).trans ((if_neg (by decide)).trans ((if_neg (Nat.not_lt.mpr hlen)).trans ((if_neg (by simp)).trans ?_)))
    rw [if_pos ⟨htrust, rfl⟩, Option.getD_some, hd, prioIs_portCount, hprio]
  case unreached => exact fun s p len pcp d v ok hno => if_pos hno
  case bad =>
    intro s p len pcp d v hst hp
    refine ⟨execFrameReceive_up hst hp _ _ _ _ _, fun hlen => ?_, fun hlen hvlan => ?_⟩
    · exact (execFrameReceive_up hst hp _ _ _ _ _).trans ((if_neg (by decide)).trans (if_pos hlen))
    · exact (execFrameReceive_up hst hp _ _ _ _ _).trans ((if_neg (by decide)).trans ((if_neg (Nat.not_lt.mpr hlen)).trans (if_pos hvlan)))
  case xoff => exact fun s p b hxoff hon => if_pos ⟨hxoff, hon⟩
  case xon =>
    intro s p n b hxoff hdrained
    refine ⟨_, _, execPfcXon_drained hxoff hdrained, rfl, ?_⟩
    rw [getPrio_updPrio, getPrio_updPrio]
  case pfc =>
    intro s p prio q b hprio hcalm hq
    exact ⟨(execPfcFrameReceive_enabled hprio hcalm q).trans (if_neg hq), execPfcFrameReceive_enabled hprio hcalm 0⟩
  case noPrio =>
    intro s p prio q hnone
    show execPfcFrameReceive p prio q s = _
    unfold execPfcFrameReceive
    rw [hnone]
  case expire => exact fun s p b hpaused => if_pos hpaused
  case storm =>
    intro s p b hpaused hlimit
    refine ⟨_, updPrio p b (fun x => { x with storm := true, paused := false, queued := 0 }) s, if_neg (by simp [hpaused, hlimit]), rfl, ?_⟩
    rw [getPrio_updPrio]
  case stormEnd => exact fun s p b => ⟨_, rfl, getPrio_updPrio _ _ _ _, rfl⟩
  case resolved =>
    intro s hop
    refine ⟨_, if s.hfe.neigh.contains hop then s else updHfe (fun h => { h with neigh := (hop :: h.neigh).take 4096 }) s, rfl, ?_, ?_⟩
    · split <;> rfl
    · unfold hopWaiters
      split <;> rfl

end Sys2Proof.Machine
end

section
/-! The host fabric, messages (03): RoCEv2 packets and their retries, connections, NVMe/TCP PDUs and PTP messages. -/

namespace Sys2Proof.Machine

/-! ## RoCEv2 packets -/

theorem execRocePacketReceive_rdma {s : State} {c : Nat} (hport : (getConn s c).port ≠ 8) (htcp : (getConn s c).tcp = false) (psn : Nat)
    (op : RoceOp) (icrc ce : Bool) (len : Nat) (cap : CapsuleIn) :
    execRocePacketReceive c psn op icrc ce len cap s =
      if icrc = false then .next (portCount (getConn s c).port 0x0D 1 s)
      else .next (roceOp c psn op len cap (if ce then markCe c s else s)) := if_neg (by simp [hport, htcp])

/-- A SEND at the expected PSN that fits a capsule is queued and acknowledged. -/
theorem roceOp_send {s : State} {c psn len : Nat} (hpsn : psn = (getConn s c).psn) (hlen : len ≤ capsuleMax (getConn s c)) (cap : CapsuleIn) :
    roceOp c psn .send len cap s =
      emit (.frame c "ACK" psn) (pushCapsule c (capOf cap) (updConn c (fun x => { x with psn := (x.psn + 1) % 2 ^ 24 }) s)) :=
  (if_neg (fun h => h.2 hpsn)).trans (if_neg (Nat.not_lt.mpr hlen))

/-- A SEND at another PSN is answered and changes nothing. -/
theorem roceOp_send_outOfOrder {s : State} {c psn : Nat} (hpsn : psn ≠ (getConn s c).psn) (len : Nat) (cap : CapsuleIn) :
    roceOp c psn .send len cap s =
      emit (if psnLe psn (getConn s c).psn then .frame c "ACK" psn else .frame c "NAK" (getConn s c).psn) s :=
  (if_pos ⟨Or.inl rfl, hpsn⟩).trans (apply_ite (fun o => emit o s) _ _ _).symm

theorem getConn_pushCapsule (c : Nat) (x : Capsule) (s : State) :
    getConn (pushCapsule c x s) c = { getConn s c with ring := (getConn s c).ring ++ [x] } := getConn_updConn _ _ _

theorem execRateRecoverTimer_rdma {s : State} {c : Nat} (hport : (getConn s c).port ≠ 8) (htcp : (getConn s c).tcp = false) :
    execRateRecoverTimer c s = .next (updConn c (fun x => { x with
      rate := if flagF s F.HFE_CC_RP_RP_EN then min (portRate s (getConn s c).port) ((getConn s c).rate + max 10 ((portRate s (getConn s c).port - (getConn s c).rate) / 8)) else portRate s (getConn s c).port
      tStep := nowNs s }) s) := if_neg (by simp [hport, htcp])

/-! ## Connections -/

/-- A request that may open a connection takes a token of its tenant. -/
theorem execRdmaConnectRequest_open {s : State} {p e : Nat} {io : Bool} (hreached : portReached s p e = true) (hopen : fabricOpen s = true)
    (hwait : connsWaiting s < 4096) (hrole : io = false ∨ connsRole s .io < 1048576) (tn hop : Nat) :
    execRdmaConnectRequest p e tn hop io s =
      if (takeToken tn s).1 then .next (openConn false p e tn hop (takeToken tn s).2)
      else .next (rejectConn "CM REJ no resources" 2 (takeToken tn s).2) := by
  unfold execRdmaConnectRequest
  rw [if_neg (by simp [hreached]), if_neg (by simp [hopen]; omega), if_neg (by rcases hrole with h | h <;> simp [h])]
  rcases takeToken tn s with ⟨_ | _, u⟩ <;> rfl

theorem execTcpSyn_open {s : State} {p e : Nat} (hreached : portReached s p e = true) (hopen : fabricOpen s = true)
    (hwait : connsWaiting s < 4096) (htcp : connsTcp s < 99392) (tn hop : Nat) :
    execTcpSyn p e 4420 tn hop s =
      if (takeToken tn s).1 then .next (openConn true p e tn hop (takeToken tn s).2)
      else .next (rejectConn "RST" 4420 (takeToken tn s).2) := by
  unfold execTcpSyn
  rw [if_neg (by simp [hreached]), if_neg (by simp [hopen]; omega), if_neg (by decide)]
  rcases takeToken tn s with ⟨_ | _, u⟩ <;> rfl

/-- Settles O37: each packet and each request by the checks it passes. -/
theorem rocePackets : Obligations.RocePackets := by
  refine ⟨?packet, ?send, ?outOfOrder, ?cnp, ?recover, ?ackTimeout, ?rnr, ?noResources, ?opened, ?noToken,
    fun s p e d tn hop io hno => ⟨if_pos hno, if_pos hno⟩⟩
  case packet =>
    exact fun s c psn len op ce cap hport htcp => ⟨execRocePacketReceive_rdma hport htcp _ _ _ _ _ _, execRocePacketReceive_rdma hport htcp _ _ _ _ _ _⟩
  case send =>
    intro s c psn len cap hport htcp hpsn hlen
    refine ⟨_, (execRocePacketReceive_rdma hport htcp _ _ _ _ _ _).trans (next_eq (roceOp_send hpsn hlen cap)), ?_, ?_, rfl, rfl⟩
    · exact (congrArg Conn.ring (getConn_pushCapsule _ _ _)).trans (by rw [getConn_updConn])
    · exact (congrArg Conn.psn (getConn_pushCapsule _ _ _)).trans (by rw [getConn_updConn, hpsn])
  case outOfOrder =>
    intro s c psn len cap hport htcp hpsn
    exact ⟨_, (execRocePacketReceive_rdma hport htcp _ _ _ _ _ _).trans (next_eq (roceOp_send_outOfOrder hpsn len cap)), rfl, rfl⟩
  case cnp => exact fun s c hport htcp => if_neg (by simp [hport, htcp])
  case recover =>
    intro s c hport htcp
    refine ⟨_, execRateRecoverTimer_rdma hport htcp, ?_, ?_⟩ <;> rw [getConn_updConn]
  case ackTimeout => exact fun s c hport htcp hunacked => if_neg (by simp [hport, htcp, hunacked])
  case rnr =>
    exact fun s c hport hwait => (if_neg (by simp [hport, hwait])).trans (apply_ite Host.Outcome.next _ _ _).symm
  case noResources =>
    intro s p e tn hop io hreached hfull
    have hopen : ¬portReached s p e = false := by simp [hreached]
    refine ⟨(if_neg hopen).trans (if_pos hfull), fun d => (if_neg hopen).trans (if_pos ?_)⟩
    exact hfull.imp_right fun h => Or.inr (Or.inr h)
  case opened =>
    intro s u p e tn hop hreached hopen hwait htoken
    refine ⟨(execRdmaConnectRequest_open hreached hopen hwait (Or.inl rfl) tn hop).trans ?_,
      fun htcp => (execTcpSyn_open hreached hopen hwait htcp tn hop).trans ?_⟩ <;> rw [htoken] <;> rfl
  case noToken =>
    intro s u p e tn hop io hreached hopen hwait hrole htoken
    refine (execRdmaConnectRequest_open hreached hopen hwait (Or.inr hrole) tn hop).trans ?_
    rw [htoken]
    rfl

/-! ## NVMe/TCP -/

theorem dataSlot_tcpAck (s : State) (c cid k : Nat) : dataSlot (tcpAck k s) c cid = dataSlot s c cid := rfl

theorem execH2cDataPdu_slot {s : State} {c cid slot : Nat} (hport : (getConn s c).port ≠ 8) (htcp : (getConn s c).tcp = true)
    (hslot : dataSlot s c cid = some slot) (off len : Nat) (ok : Bool) (data : List Nat) :
    execH2cDataPdu c cid off len ok data s =
      if ok = false ∧ (getConn s c).ddgst = true then
        .next (dropWrite slot (finishRetry slot 0 0x22) (portCount (getConn s c).port 0x11 1 (tcpAck c s)))
      else .next (landData slot off (data.take len) (tcpAck c s)) := by
  unfold execH2cDataPdu
  rw [if_neg (by simp [hport, htcp])]
  dsimp only
  rw [dataSlot_tcpAck, hslot]

theorem execTcpIcreq_first {s : State} {c : Nat} (hport : (getConn s c).port ≠ 8) (htcp : (getConn s c).tcp = true)
    (hfirst : (getConn s c).icDone = false) (hd dd : Bool) (m : Nat) (tls : Bool) :
    execTcpIcreq c hd dd m tls s =
      if tls then .next (loseConn c s)
      else .next (emit (.frame c "ICResp" 131072) (updConn c (fun x => { x with icDone := true, hdgst := hd, ddgst := dd, maxR2t := m }) s)) :=
  if_neg (by simp [hport, htcp, hfirst])

theorem execTcpCapsuleCmd_open {s : State} {c : Nat} (hport : (getConn s c).port ≠ 8) (htcp : (getConn s c).tcp = true)
    (hic : (getConn s c).icDone = true) (cap : CapsuleIn) :
    execTcpCapsuleCmd c cap s =
      if (getConn s c).role = .io ∧ cap.inCapsule ≠ [] then
        .next (emit (.completion c cap.cid 0 0x0F true 0 0 0) (transmit c (tcpAck c s)))
      else .next (pushCapsule c (capOf cap) (tcpAck c s)) := if_neg (by simp [hport, htcp, hic])

/-! ## PTP -/

/-- A message of the configured domain that the PTP port takes. -/
theorem ptpMessage_taken {s : State} {p tr dom : Nat} {m : PtpMsg} (hruns : ptpRuns s p = true) (htr : tr < 3)
    (hen : natBits (getF s F.HFE_PTP_CFG_TRANSPORT) tr 1 ≠ 0) (hdom : dom = getF s F.HFE_PTP_CFG_DOMAIN)
    (hm : m ≠ .management ∧ m ≠ .signalling) :
    ¬(ptpRuns s p = false ∨ 3 ≤ tr ∨ natBits (getF s F.HFE_PTP_CFG_TRANSPORT) tr 1 = 0 ∨ dom ≠ getF s F.HFE_PTP_CFG_DOMAIN ∨
      m = .management ∨ m = .signalling) := by
  rintro (h | h | h | h | h | h)
  · simp [hruns] at h
  · omega
  · exact hen h
  · exact h hdom
  · exact hm.1 h
  · exact hm.2 h

theorem execPtpDelayReqSend_runs {s : State} (hruns : ptpRuns s (getF s F.HFE_PTP_CFG_PORT) = true) (q sec ns fr : Nat) :
    execPtpDelayReqSend q sec ns fr s =
      .next (emit (.ptp (if flagF s F.HFE_PTP_CFG_DELAY_MECH then "Pdelay_Req" else "Delay_Req") q) (ptpPush ⟨q % 2 ^ 16,
        if flagF s F.HFE_PTP_CFG_DELAY_MECH then 2 else 1, true, getF s F.HFE_PTP_CFG_PORT, sec % 2 ^ 48, ns % 1000000000, fr % 2 ^ 16⟩ s)) :=
  if_neg (by simp [hruns])

theorem execPtpTsRead_head {s : State} {x : PtpTs} {l : List PtpTs} (hfifo : s.hfe.fifo = x :: l) :
    execPtpTsRead s =
      .next (emit (.value 0x3000050 (BitVec.ofNat 32 (ptpWord x))) (updHfe (fun h => { h with fifo := l, lastTs := x }) s)) := by
  unfold execPtpTsRead ptpPop
  rw [hfifo]

/-- Settles O38: each PDU and each message by the checks it passes. -/
theorem tcpAndPtp : Obligations.TcpAndPtp := by
  refine ⟨?icreq, ?landed, ?badDigest, ?capsule, ?inCapsule, ?fatal, ?retransmit, ?message, ?ignored, ?delayReq, ?read, ?clear⟩
  case icreq =>
    intro s c m hd dd hport htcp hfirst
    exact ⟨_, execTcpIcreq_first hport htcp hfirst hd dd m false, getConn_updConn _ _ _, rfl, execTcpIcreq_first hport htcp hfirst hd dd m true⟩
  case landed =>
    intro s c cid off len slot ok data hport htcp hslot hok
    exact (execH2cDataPdu_slot hport htcp hslot off len ok data).trans (if_neg (by rcases hok with h | h <;> simp [h]))
  case badDigest =>
    intro s c cid off len slot data hport htcp hslot hdigest
    exact (execH2cDataPdu_slot hport htcp hslot off len false data).trans (if_pos ⟨rfl, hdigest⟩)
  case capsule =>
    intro s c cap hport htcp hic hcap
    refine ⟨_, (execTcpCapsuleCmd_open hport htcp hic cap).trans (if_neg ?_), ?_, ?_, rfl⟩
    · exact fun h => hcap.elim (fun hrole => hrole h.1) h.2
    · rw [getConn_pushCapsule, tcpAck, getConn_updConn]
    · rw [getConn_pushCapsule, tcpAck, getConn_updConn]
  case inCapsule =>
    exact fun s c cap hport htcp hic hrole hcap => (execTcpCapsuleCmd_open hport htcp hic cap).trans (if_pos ⟨hrole, hcap⟩)
  case fatal =>
    intro s c field dg hport htcp hdg
    refine if_neg ?_
    rintro (h | h | ⟨h, hoff⟩)
    · exact hport h
    · simp [htcp] at h
    · simp [hdg h] at hoff
  case retransmit => exact fun s c hport htcp => if_neg (by simp [hport, htcp])
  case message =>
    intro s p tr dom q sec ns fr ms pr u hruns htr hen hdom
    exact ⟨if_neg (ptpMessage_taken hruns htr hen hdom (by decide)), if_neg (ptpMessage_taken hruns htr hen hdom (by decide))⟩
  case ignored => exact fun s p tr dom q sec ns fr ms pr u m hno => if_pos hno
  case delayReq => exact fun s q sec ns fr hruns => execPtpDelayReqSend_runs hruns q sec ns fr
  case read => exact fun s x l hfifo => ⟨_, execPtpTsRead_head hfifo, rfl, rfl, rfl⟩
  case clear => exact fun s p sel hdefined => ⟨_, if_neg (by simp [hdefined]), rfl, rfl⟩

end Sys2Proof.Machine
end

section
/-! The admin commands (05): what each opcode answers and does when it runs, and the media operations that it starts. -/

namespace Sys2Proof.Machine

/-! ## Commands that run -/

theorem execIdentify_runs {s : State} {slot : Nat} (hruns : adminRuns s slot 0x06 = true) :
    execIdentify slot s = .next (match identifyData s (getTask s slot) with
      | .inl e => finishErr slot e.1 e.2 s
      | .inr d => replyFixed slot d s) := next_eq (adminRun_ok hruns)

/-- A feature without data is set at once (05 R169). -/
theorem execSetFeatures_runs {s : State} {slot fid : Nat} (hruns : adminRuns s slot 0x09 = true) (hfid : fid = (getTask s slot).cap.cdw10 % 256)
    (hset : settable (getTask s slot).tenant fid = true) (hsave : natBits (getTask s slot).cap.cdw10 31 1 = 0)
    (hvalue : fid = 0x06 ∨ fid = 0x0B ∨ fid = 0x07 ∨ (fid = 0x02 ∧ (getTask s slot).cap.cdw11 % 32 ≤ 4)) :
    execSetFeatures slot s = .next (finish slot 0 0 false (if fid = 0x07 then queueCount s (getTask s slot).tenant else 0) 0
      (setFeature (getTask s slot) fid (getTask s slot).cap.cdw11 s)) := by
  refine next_eq ((adminRun_ok hruns).trans ?_)
  dsimp only
  rw [← hfid, if_neg (by simp [hset]), if_neg (by omega), if_neg ?_, if_neg (by omega)]
  rintro (⟨h, h'⟩ | ⟨h, _⟩ | ⟨h, _⟩) <;> omega

/-- A feature without data that is not saved is read at once (05 R169). -/
theorem execGetFeatures_runs {s : State} {slot fid : Nat} (hruns : adminRuns s slot 0x0A = true) (hfid : fid = (getTask s slot).cap.cdw10 % 256)
    (hserved : features.contains fid = true) (hsel : natBits (getTask s slot).cap.cdw10 8 3 ≤ 2) (hplain : fid ≠ 0x04 ∧ fid ≠ 0x0E ∧ fid ≠ 0x16) :
    execGetFeatures slot s = .next (finish slot 0 0 false
      (featureValue s (getTask s slot) (ctlOf s (getTask s slot)) fid (natBits (getTask s slot).cap.cdw10 8 3 == 0)) 0 s) := by
  obtain ⟨htemp, htime, hacre⟩ := hplain
  refine next_eq ((adminRun_ok hruns).trans ?_)
  dsimp only
  rw [← hfid, if_neg ?_, if_neg (by omega), if_neg htime, if_neg hacre]
  rintro (h | h | h)
  · rw [hserved] at h
    cases h
  · omega
  · exact htemp h.1

theorem execAbort_runs {s : State} {slot : Nat} (hruns : adminRuns s slot 0x08 = true) :
    execAbort slot s = .next (match abortTarget s slot (getTask s slot) with
      | some k => finish slot 0 0 false (bitOf (!(abortTask k s).1)) 0
        (bumpF (if (abortTask k s).1 then F.QE_ABORT_CNT_ABORTED else F.QE_ABORT_CNT_NOT_ABORTED) 1 (abortTask k s).2)
      | none => finish slot 0 0 false 1 0 (bumpF F.QE_ABORT_CNT_NOT_ABORTED 1 s)) := by
  refine next_eq ((adminRun_ok hruns).trans ?_)
  cases abortTarget s slot (getTask s slot) <;> rfl

theorem execAsyncEventRequest_runs {s : State} {slot : Nat} (hruns : adminRuns s slot 0x0C = true)
    (hroom : (ctlOf s (getTask s slot)).aers.length < 8) :
    execAsyncEventRequest slot s = .next (match (ctlOf s (getTask s slot)).waitingEv with
      | ev :: rest => finish slot 0 0 false (ev / 256 + ev % 256 * 2 ^ 8 + aenLog (ev / 256) (ev % 256) * 2 ^ 16) 0
        (updCtl (ctlKey (getTask s slot).tenant (getTask s slot).cntlid) (fun c => { c with waitingEv := rest }) s)
      | [] => updTask slot (fun t => { t with st := .executing })
        (updCtl (ctlKey (getTask s slot).tenant (getTask s slot).cntlid) (fun c => { c with aers := c.aers ++ [slot] }) s)) :=
  next_eq ((adminRun_ok hruns).trans (if_neg (Nat.not_le.mpr hroom)))

theorem ctl_updCtl (key : Nat) (f : Ctl → Ctl) (s : State) :
    mapGet ctl0 (updCtl key f s).qe.ctls key = f (mapGet ctl0 s.qe.ctls key) := mapGet_mapUpd_self _ _ _ _

/-- Settles O39: a command that runs does what its opcode says, and without a waiting command nothing happens. -/
theorem adminCommands : Obligations.AdminCommands := by
  refine ⟨?idle, ?identify, ?identifyErr, fun s slot hruns => next_eq (adminRun_ok hruns), fun s slot fid => execSetFeatures_runs,
    fun s slot fid => execGetFeatures_runs, ?abort, ?abortNone, ?aer, ?aerWaiting, ?raise, fun s slot hruns => next_eq (adminRun_ok hruns),
    fun s tn c hlive => if_pos hlive, fun s tn c hdead => if_neg (by simp [hdead]), ?invalid⟩
  case idle =>
    intro s slot hidle
    exact ⟨next_eq (adminRun_idle hidle), next_eq (adminRun_idle hidle), next_eq (adminRun_idle hidle), next_eq (adminRun_idle hidle),
      next_eq (adminRun_idle hidle), next_eq (adminRun_idle hidle), next_eq (adminRun_idle hidle), next_eq (adminRun_idle hidle),
      next_eq (adminRun_idle hidle), next_eq (adminRun_idle hidle), next_eq (adminRun_idle hidle), next_eq (adminRun_idle hidle),
      next_eq (adminRun_idle hidle)⟩
  case identify => exact fun s slot d hruns hdata => (execIdentify_runs hruns).trans (by rw [hdata])
  case identifyErr => exact fun s slot sct sc hruns hdata => (execIdentify_runs hruns).trans (by rw [hdata])
  case abort => exact fun s slot k hruns htarget => (execAbort_runs hruns).trans (by rw [htarget])
  case abortNone => exact fun s slot hruns htarget => (execAbort_runs hruns).trans (by rw [htarget])
  case aer =>
    intro s slot hruns hroom hnone
    have heq := execAsyncEventRequest_runs hruns hroom
    rw [hnone] at heq
    dsimp only at heq
    refine ⟨_, heq, ?_, ?_, rfl⟩
    · rw [getTask_updTask]
    · exact congrArg Ctl.aers (ctl_updCtl _ (fun c => { c with aers := c.aers ++ [slot] }) s)
  case aerWaiting => exact fun s slot ev rest hruns hroom hev => (execAsyncEventRequest_runs hruns hroom).trans (by rw [hev])
  case raise => exact fun s tn c typ info htyp hvendor => if_neg (fun h => h.elim htyp (fun h => h.2 (hvendor h.1)))
  case invalid =>
    intro s slot hwaits hopc
    refine if_neg ?_
    rw [hwaits, hopc]
    decide

/-! ## Media operations -/

theorem execNamespaceAttachment_runs {s : State} {slot : Nat} (hruns : adminRuns s slot 0x15 = true) :
    execNamespaceAttachment slot s = .next (match nsIndex? s (getTask s slot).tenant (getTask s slot).cap.nsid with
      | none => finishErr slot 0 0x0B s
      | some n => withData slot 4096 (attachNs slot n) s) := next_eq (adminRun_ok hruns)

theorem execFirmwareImageDownload_runs {s : State} {slot : Nat} (hruns : adminRuns s slot 0x11 = true) :
    execFirmwareImageDownload slot s = .next (if s.fws.job.isSome then finishBusy slot s
      else if 2097152 < 4 * ((getTask s slot).cap.cdw10 + 1) ∨ 25165824 < 4 * (getTask s slot).cap.cdw11 + 4 * ((getTask s slot).cap.cdw10 + 1) then
        finishErr slot 0 0x02 s
      else withData slot (4 * ((getTask s slot).cap.cdw10 + 1)) (fun d s => finishOk slot (stageBytes (4 * (getTask s slot).cap.cdw11) d s)) s) :=
  next_eq (adminRun_ok hruns)

theorem execFirmwareCommit_runs {s : State} {slot : Nat} (hruns : adminRuns s slot 0x10 = true) :
    execFirmwareCommit slot s = .next (if s.fws.job.isSome then finishBusy slot s
      else commitStart ((getTask s slot).cap.cdw10 % 8) (natBits (getTask s slot).cap.cdw10 3 3) (some slot) none (fun _ s => finishErr slot 0 0x02 s)
        (updTask slot (fun t => { t with st := .executing }) s)) := next_eq (adminRun_ok hruns)

/-- A wipe that starts issues its first record, and its command waits for the record's number. -/
def wipeStarted (slot typ : Nat) (w : List Nat) (a : After) (jsn : Option Nat) (s : State) : State :=
  updTask slot (fun t => { t with st := .executing, waitJsn := jsn }) (issue typ 24 w [] a s)

theorem wipeStarted_frame (slot typ : Nat) (w : List Nat) (a : After) (jsn : Option Nat) (s : State) :
    (wipeStarted slot typ w a jsn s).jnl.buffer.map Rec.typ = s.jnl.buffer.map Rec.typ ++ [typ] ∧
      (getTask (wipeStarted slot typ w a jsn s) slot).st = .executing ∧ (getTask (wipeStarted slot typ w a jsn s) slot).waitJsn = jsn ∧
      (wipeStarted slot typ w a jsn s).units = s.units ∧ (wipeStarted slot typ w a jsn s).tabs = s.tabs := by
  unfold wipeStarted
  refine ⟨?_, ?_, ?_, rfl, rfl⟩
  · rw [updTask_jnl, issue_buffer, List.map_append]
    rfl
  · rw [getTask_updTask]
  · rw [getTask_updTask]

/-- Settings of an erase that FORMAT_NVM takes: LBAF 0, no PI, SES 0 or 1. -/
theorem execFormatNvm_runs {s : State} {slot n : Nat} (hruns : adminRuns s slot 0x80 = true) (hstate : stateErr s true = none)
    (hns : nsOf s (getTask s slot) = some n) (hopts : (getTask s slot).cap.cdw10 = 0 ∨ (getTask s slot).cap.cdw10 = 0x200)
    (hidle : wipeBusy s = false) (hroom : bufFull s = false) :
    ∃ w a, execFormatNvm slot s =
      .next (wipeStarted slot 0x18 w a (if (getTask s slot).cap.cdw10 = 0 then some s.jnl.nextJsn else none) s) := by
  have heq : execFormatNvm slot s = .next _ := next_eq (adminRun_ok hruns)
  dsimp only at heq
  rw [hstate, hns] at heq
  dsimp only at heq
  rw [if_neg (by rcases hopts with h | h <;> rw [h] <;> decide), if_neg (by simp [hidle, hroom])] at heq
  have hwait : (if natBits (getTask s slot).cap.cdw10 9 3 = 1 then none else some s.jnl.nextJsn) =
      if (getTask s slot).cap.cdw10 = 0 then some s.jnl.nextJsn else none := by
    rcases hopts with h | h <;> rw [h] <;> rfl
  rw [hwait] at heq
  exact ⟨_, _, heq⟩

theorem execSanitize_blockErase {s : State} {slot : Nat} (hruns : adminRuns s slot 0x84 = true) (hact : (getTask s slot).cap.cdw10 % 8 = 2)
    (hstate : stateErr s true = none) (hidle : wipeBusy s = false) (hroom : bufFull s = false) :
    ∃ w a, execSanitize slot s = .next (wipeStarted slot 0x17 w a (some s.jnl.nextJsn) s) := by
  have heq : execSanitize slot s = .next _ := next_eq (adminRun_ok hruns)
  dsimp only at heq
  rw [hact, hstate, if_neg (by decide), if_neg (by decide)] at heq
  dsimp only at heq
  rw [if_neg (by simp [hidle, hroom]), if_neg (by simp)] at heq
  exact ⟨_, _, heq⟩

theorem execSanitizeBlockDone_block {s : State} {r : Nat} {rest : List Nat} (hactive : s.tabs.san.active = true) (hdev : s.top.dev = .serving)
    (hroom : bufFull s = false) (hwork : s.tabs.san.work = r :: rest) (hready : sanBlockReady s r = true) (ok : Bool) :
    execSanitizeBlockDone ok s = .next (zmSettle s (if rest = [] then
      sanEnd { (sanBlock s.tabs.san r ok s).1 with work := rest } (updTabs (setSan { (sanBlock s.tabs.san r ok s).1 with work := rest }) (sanBlock s.tabs.san r ok s).2)
      else sanRecord { (sanBlock s.tabs.san r ok s).1 with work := rest } 1
        (updTabs (setSan { (sanBlock s.tabs.san r ok s).1 with work := rest }) (sanBlock s.tabs.san r ok s).2))) := by
  unfold execSanitizeBlockDone
  dsimp only
  rw [if_neg (by simp [hactive, hdev, hroom]), hwork]
  exact if_neg (by simp [hready])

/-- Settles O40: each command by its opcode, and the die-blocks of a wipe one at a time. -/
theorem adminMedia : Obligations.AdminMedia := by
  refine ⟨?attach, ?noNs, ?download, ?downloadBusy, ?commit, ?commitBusy, ?format, ?sanitize, ?exitFailure, ?block, ?idle⟩
  case attach =>
    intro s slot n hruns hns hlen
    rw [← withData_ok (f := attachNs slot n) (List.ne_nil_of_length_eq_add_one hlen) hlen]
    exact (execNamespaceAttachment_runs hruns).trans (by rw [hns])
  case noNs => exact fun s slot hruns hns => (execNamespaceAttachment_runs hruns).trans (by rw [hns])
  case download =>
    intro s slot hruns hjob hlen hmax hend
    refine (execFirmwareImageDownload_runs hruns).trans (next_eq ?_)
    rw [if_neg (by simp [hjob]), if_neg (by omega)]
    exact withData_ok (List.ne_nil_of_length_pos (by omega)) hlen
  case downloadBusy => exact fun s slot hruns hjob => (execFirmwareImageDownload_runs hruns).trans (next_eq (if_pos hjob))
  case commit => exact fun s slot hruns hjob => ⟨_, rfl, (execFirmwareCommit_runs hruns).trans (next_eq (if_neg (by simp [hjob])))⟩
  case commitBusy => exact fun s slot hruns hjob => (execFirmwareCommit_runs hruns).trans (next_eq (if_pos hjob))
  case format =>
    intro s slot n hruns hstate hns hopts hidle hroom
    obtain ⟨w, a, heq⟩ := execFormatNvm_runs hruns hstate hns hopts hidle hroom
    exact ⟨_, heq, wipeStarted_frame _ _ _ _ _ _⟩
  case sanitize =>
    intro s slot hruns hact hstate hidle hroom
    obtain ⟨w, a, heq⟩ := execSanitize_blockErase hruns hact hstate hidle hroom
    exact ⟨_, heq, wipeStarted_frame _ _ _ _ _ _⟩
  case exitFailure =>
    exact fun s slot hruns hact => next_eq ((adminRun_ok hruns).trans (if_neg (fun h => h hact)))
  case block =>
    exact fun s r rest ok hactive hdev hroom hwork hready => ⟨_, _, rfl, rfl, execSanitizeBlockDone_block hactive hdev hroom hwork hready ok⟩
  case idle => exact fun s ok hidle => if_pos (Or.inl hidle)

end Sys2Proof.Machine
end

section
/-! Command fetch (04 R131, R132, R138) and the Fabrics commands (05 R162 to R164). -/

namespace Sys2Proof.Machine

theorem execCommandFetch_capsule {s u : State} {slot tn c : Nat} {cap : Capsule} {rest : List Capsule} (hslot : slot < 262144)
    (hfree : (getTask s slot).st = .free) (hhold : s.pad.hold = false) (hgrant : fetchGrant s = some (tn, u)) (hconn : fetchConn u tn = some c)
    (hring : (getConn u c).ring = cap :: rest) :
    execCommandFetch slot s = .next (fetchChecks slot (getConn u c) (updTask slot (fun _ => taskOf c (getConn u c) cap)
      (updTenant tn (fun y => { y with lastConn := c }) (updConn c (fun y => { y with ring := rest }) u)))) := by
  have hcond : ¬(262144 ≤ slot ∨ (getTask s slot).st ≠ .free ∨ s.pad.hold = true) := by
    rintro (h | h | h)
    · omega
    · exact h hfree
    · simp [hhold] at h
  unfold execCommandFetch
  rw [if_neg hcond, hgrant]
  dsimp only
  rw [hconn]
  dsimp only
  rw [hring]

theorem execConnect_waits {s : State} {slot : Nat} (hwaits : fabricsWaits s slot 0x01 = true) :
    execConnect slot s = if (getConn s (getTask s slot).conn).role ≠ .unassigned then .next (finishErr slot 0 0x02 s)
      else .next (withData slot 1024 (connectWith slot) s) := if_neg (by simp [hwaits])

/-- A write of CC with SHN begins the shutdown (05 R162, R164). -/
theorem execPropertySet_shutdown {s : State} {slot v : Nat} (hwaits : fabricsWaits s slot 0x00 = true) (hruns : adminRuns s slot 0x7F = true)
    (hoff : (getTask s slot).cap.cdw11 = 0x14) (hsize : (getTask s slot).cap.cdw10 % 8 = 0) (hv : v = (getTask s slot).cap.cdw12 % 2 ^ 32)
    (hidle : (ctlOf s (getTask s slot)).shst = 0) (hshn : natBits v 14 2 ≠ 0) :
    execPropertySet slot s = .next (finishOk slot (updCtl (ctlKey (getTask s slot).tenant (getTask s slot).cntlid)
      (fun c => { c with cc := v, shst := 1, shutting := true }) s)) := by
  have hstarts : (natBits v 14 2 != 0 && (ctlOf s (getTask s slot)).shst == 0) = true := by simp [hshn, hidle]
  refine (if_neg (by simp [hwaits])).trans (next_eq ((adminRun_ok hruns).trans ?_))
  rw [if_neg (by simp [hoff, hsize]), ← hv]
  dsimp only
  rw [hstarts]
  simp only [Bool.true_eq_false, and_false, if_false, if_true, Bool.or_true]

/-- A property read in its size (05 R162, R163). -/
theorem execPropertyGet_runs {s : State} {slot : Nat} (hwaits : fabricsWaits s slot 0x04 = true) (hruns : adminRuns s slot 0x7F = true) :
    execPropertyGet slot s = .next (
      if (getTask s slot).cap.cdw11 = 0 ∧ (getTask s slot).cap.cdw10 % 8 = 1 then finish slot 0 0 false (4095 + 2 ^ 16 + 2 * 2 ^ 24) (2 ^ 5 + 2 ^ 11) s
      else if (getTask s slot).cap.cdw11 = 8 ∧ (getTask s slot).cap.cdw10 % 8 = 0 then finish slot 0 0 false 0x20000 0 s
      else if (getTask s slot).cap.cdw11 = 0x14 ∧ (getTask s slot).cap.cdw10 % 8 = 0 then finish slot 0 0 false (ctlOf s (getTask s slot)).cc 0 s
      else if (getTask s slot).cap.cdw11 = 0x1C ∧ (getTask s slot).cap.cdw10 % 8 = 0 then finish slot 0 0 false (cstsOf (ctlOf s (getTask s slot))) 0 s
      else finishErr slot 0 0x02 s) :=
  (if_neg (by simp [hwaits])).trans (next_eq (adminRun_ok hruns))

/-- A controller whose shutdown has nothing left to wait for reports it (05 R164). -/
theorem execShutdownNotification_done {s : State} {tn c : Nat} (hlive : (mapGet ctl0 s.qe.ctls (ctlKey tn c)).live = true)
    (hshst : (mapGet ctl0 s.qe.ctls (ctlKey tn c)).shst = 1) (hflushed : (mapGet ctl0 s.qe.ctls (ctlKey tn c)).shutting = false)
    (hwait : (mapGet ctl0 s.qe.ctls (ctlKey tn c)).shutWait = []) (hidle : shutBusy s tn c = false) :
    execShutdownNotification tn c s = .next (updCtl (ctlKey tn c) (fun c => { c with shst := 2, shutWait := [] }) s) := by
  unfold execShutdownNotification
  dsimp only
  rw [if_neg (by simp [hlive, hshst]), hflushed]
  simp only [Bool.false_eq_true, if_false, hwait, hidle, List.any_nil, or_self]

/-- Settles O41: the capsule fetched, and each Fabrics command by its branch. -/
theorem fetchAndFabrics : Obligations.FetchAndFabrics := by
  refine ⟨fun s slot hno => if_pos hno, ?fetch, ?connect, ?again, fun s slot v => execPropertySet_shutdown, ?get, ?shutdown, ?disconnect, ?invalid⟩
  case fetch =>
    intro s u slot tn c cap rest hslot hfree hhold hgrant hconn hring
    refine ⟨_, rfl, ?_, getTask_updTask _ _ _, execCommandFetch_capsule hslot hfree hhold hgrant hconn hring⟩
    exact congrArg Conn.ring (getConn_updConn c (fun y => { y with ring := rest }) u)
  case connect =>
    intro s slot hwaits hrole hlen
    exact (execConnect_waits hwaits).trans ((if_neg (fun h => h hrole)).trans (next_eq (withData_ok (List.ne_nil_of_length_eq_add_one hlen) hlen)))
  case again => exact fun s slot hwaits hrole => (execConnect_waits hwaits).trans (if_pos hrole)
  case get =>
    intro s slot lo hi hwaits hruns hprop
    refine (execPropertyGet_runs hwaits hruns).trans (next_eq ?_)
    obtain ⟨hoff, hsize, rfl, rfl⟩ | ⟨hoff, hsize, rfl, rfl⟩ | ⟨hoff, hsize, rfl, rfl⟩ | ⟨hoff, hsize, rfl, rfl⟩ := hprop
    · exact if_pos ⟨hoff, hsize⟩
    · rw [if_neg (by omega), if_pos ⟨hoff, hsize⟩]
    · rw [if_neg (by omega), if_neg (by omega), if_pos ⟨hoff, hsize⟩]
    · rw [if_neg (by omega), if_neg (by omega), if_neg (by omega), if_pos ⟨hoff, hsize⟩]
  case shutdown =>
    intro s tn c hlive hshst hflushed hwait hidle
    refine ⟨_, execShutdownNotification_done hlive hshst hflushed hwait hidle, ?_, rfl⟩
    exact congrArg Ctl.shst (ctl_updCtl _ (fun c => { c with shst := 2, shutWait := [] }) s)
  case disconnect => exact fun s slot hwaits => (if_neg (by simp [hwaits])).trans (apply_ite Host.Outcome.next _ _ _).symm
  case invalid =>
    intro s slot hwaits hopc hfc
    refine if_neg ?_
    rw [hwaits, hopc, hfc]
    decide

end Sys2Proof.Machine
end

section
/-! The writes of I/O (05, 06, 10): admission of a zoned and of a conventional write, the data phase, the commit. -/

namespace Sys2Proof.Machine

/-! ## Admission -/

theorem admitWrite_nsErr {s : State} {slot opc : Nat} {e : IoErr} {c : Bool} (hfresh : freshIo s slot opc = true)
    (herr : nsErr s (getTask s slot) true c true = .inl e) : admitWrite slot opc c s = failIo slot e s := by
  unfold admitWrite
  rw [if_neg (by simp [hfresh])]
  dsimp only
  rw [herr]

/-- A write whose namespace and range are good needs an active key (13 R500). -/
theorem admitWrite_range {s : State} {slot opc n : Nat} {c : Bool} (hfresh : freshIo s slot opc = true)
    (hns : nsErr s (getTask s slot) true c true = .inr n)
    (hrange : rangeErr s (getTask s slot) n (if opc = 0x08 then none else some ((getTask s slot).cap.nlb * 4096)) = none) :
    admitWrite slot opc c s = if keyActive s (getNs s n).tenant = false then failIo slot (1, 0xC1, true) s
      else if (getNs s n).conv then admitConvWrite slot n s else admitZonedWrite slot n s := by
  unfold admitWrite
  rw [if_neg (by simp [hfresh])]
  dsimp only
  rw [hns]
  dsimp only
  rw [hrange]

/-- The zone of a write as its admission leaves it: the pointer advanced, the order drawn (06 R200, R203). -/
def zoneAdmitted (zk nlb : Nat) (u : State) : State :=
  updZone zk (fun z => { z with adm := z.adm + nlb, lastOrder := u.qe.order + 1 }) (nextOrder u).2

/-- A zoned write admitted at the admission pointer of its zone. -/
def zonedAdmitted (slot n : Nat) (s u : State) : State :=
  updTask slot (fun t => { t with
    ns := n, slba := zslba (zoneOfLba n (getTask s slot).cap.slba) + (getZone s (zoneOfLba n (getTask s slot).cap.slba)).adm
    nlb := t.cap.nlb, order := u.qe.order + 1, append := (getTask s slot).cap.opc == 0x7D, zeroes := t.cap.opc == 0x08
    fua := t.cap.fua || wceOff s t })
    (zoneAdmitted (zoneOfLba n (getTask s slot).cap.slba) (getTask s slot).cap.nlb u)

theorem admitZonedWrite_open {s u : State} {slot n : Nat} (hheld : zoneHeld s (zoneOfLba n (getTask s slot).cap.slba) = false)
    (hroom : bufFull s = false)
    (hopen : admitZoned (zoneOfLba n (getTask s slot).cap.slba) (if (getTask s slot).cap.opc = 0x7D then
      (if (getTask s slot).cap.slba % zoneLbas = 0 then none else some ((getZone s (zoneOfLba n (getTask s slot).cap.slba)).adm + 1))
      else some ((getTask s slot).cap.slba % zoneLbas)) (getTask s slot).cap.nlb s = .inr u) :
    admitZonedWrite slot n s = zmSettle s (stageNewlyClosed s (zonedAdmitted slot n s u)) := by
  unfold admitZonedWrite
  dsimp only
  rw [if_neg (by simp [hheld, hroom])]
  simp only [beq_iff_eq]
  rw [hopen]
  rfl

/-- A conventional write admitted; Write Zeroes has no data and goes to Executing. -/
theorem admitConvWrite_open {s : State} {slot n : Nat} (hwp : s.mme.convWp = false) :
    admitConvWrite slot n s = updTask slot (fun t => { t with
      st := if (getTask s slot).cap.opc == 0x08 then .executing else .admitted
      ns := n, slba := t.cap.slba, nlb := t.cap.nlb, order := s.qe.order + 1, zeroes := (getTask s slot).cap.opc == 0x08
      fua := t.cap.fua || wceOff (nextOrder s).2 t }) (nextOrder s).2 := if_neg (by simp [hwp])

/-! ## The data phase -/

/-- A write that has been admitted with an order. -/
theorem write_ordered {s : State} {slot : Nat} (hadmin : (getTask s slot).admin = false) (horder : (getTask s slot).order ≠ 0)
    (hnlb : (getTask s slot).nlb ≠ 0) (hopc : (getTask s slot).cap.opc = 0x01 ∨ (getTask s slot).cap.opc = 0x08 ∨ (getTask s slot).cap.opc = 0x7D) :
    ¬((getTask s slot).admin = true ∨ (getTask s slot).order = 0 ∨ (getTask s slot).nlb = 0 ∨
      ¬((getTask s slot).cap.opc = 0x01 ∨ (getTask s slot).cap.opc = 0x08 ∨ (getTask s slot).cap.opc = 0x7D)) := by
  simp [hadmin, horder, hnlb, hopc]

/-- Its first data phase needs buffers. -/
theorem execDataPhaseStart_turn {s : State} {slot : Nat} (hadmin : (getTask s slot).admin = false) (horder : (getTask s slot).order ≠ 0)
    (hnlb : (getTask s slot).nlb ≠ 0) (hopc : (getTask s slot).cap.opc = 0x01 ∨ (getTask s slot).cap.opc = 0x08 ∨ (getTask s slot).cap.opc = 0x7D)
    (hst : (getTask s slot).st = .admitted) (hturn : turnCome s (getTask s slot) = true) (hbind : bindAccepted s (getTask s slot) = true) :
    (startReceive slot s = none → execDataPhaseStart slot s = .next (updTask slot (fun t => { t with held := true }) s)) ∧
    (∀ u, startReceive slot s = some u → (getTask s slot).zeroes = false →
      execDataPhaseStart slot s = .next (nextFetch slot (updTask slot (fun t => { t with st := .receiving }) u))) := by
  unfold execDataPhaseStart
  dsimp only
  rw [if_neg (write_ordered hadmin horder hnlb hopc), if_neg (by simp [hst]), if_neg (by simp [hst, hturn, hbind])]
  refine ⟨fun hnone => by rw [hnone], fun u hstart hdata => ?_⟩
  rw [hstart]
  exact if_neg (by simp [hdata])

/-! ## The commit -/

/-- The data of a zoned write in its zone and its COMMIT issued, with the tenant's counts. -/
def zonedCounted (slot : Nat) (s : State) : State :=
  updTenant (getTask s slot).tenant (fun x => { x with writeCmds := x.writeCmds + 1, writeLbas := x.writeLbas + (getTask s slot).nlb })
    (commitZoned slot (drawStamp (getTask s slot).ns s).1 (drawStamp (getTask s slot).ns s).2)

/-- A zoned write committed: it waits for its record with no data left to its name. -/
def zonedCommitted (slot : Nat) (s : State) : State :=
  updTask slot (fun x => { x with
    st := .committed, stamp := (drawStamp (getTask s slot).ns s).1, bufs := [], units := []
    waitJsn := ((zonedCounted slot s).jnl.commits.find? (fun c => c.ns == (getTask s slot).ns && c.stamp == (drawStamp (getTask s slot).ns s).1)).map (·.jsn)
    waitDurable := if x.fua then [(x.ns, (drawStamp (getTask s slot).ns s).1 + 1)] else []
    dw0 := if x.append then x.slba % 2 ^ 32 else 0
    dw1 := if x.append then x.slba / 2 ^ 32 else 0 }) (zonedCounted slot s)

theorem execWriteCommit_zoned {s : State} {slot : Nat} (hdata : (getTask s slot).uncommitted = true)
    (hst : (getTask s slot).st = .receiving ∨ (getTask s slot).st = .executing) (hzoned : (getNs s (getTask s slot).ns).conv = false)
    (hunits : unitsReady (getTask s slot) = true)
    (hfirst : (zonePending s (zoneOfLba (getTask s slot).ns (getTask s slot).slba)).all (fun k => decide ((getTask s slot).order ≤ (getTask s k).order)) = true)
    (hroom : bufFull s = false) (hheld : journalHeld s = false) :
    execWriteCommit slot s =
      .next (zmSettle s (if (getTask s slot).fua then serveFlush (getTask s slot).ns (zonedCommitted slot s) else zonedCommitted slot s)) := by
  have hst' : ((getTask s slot).st == .receiving || (getTask s slot).st == .executing) = true := by simpa using hst
  unfold execWriteCommit zonedCommitted zonedCounted
  dsimp only
  rw [hdata, hst', hunits, hfirst, hroom, hheld, hzoned, if_neg (by simp), if_neg Bool.false_ne_true]

/-- Settles O43: the admission of both kinds of write, then each event of the data phase and the commit by its branch. -/
theorem writesOfIo : Obligations.WritesOfIo := by
  refine ⟨fun s slot => ⟨rfl, rfl, rfl⟩, fun s slot opc e c => admitWrite_nsErr, ?zoned, ?conv, ?noKey, ?fetchNext, ?noBuffers, ?starts,
    ?commit, ?uncommitted, fun s slot hst hadmin => if_pos ⟨hst, hadmin⟩, fun s slot hst => if_neg (fun h => hst h.1)⟩
  case zoned =>
    intro s slot opc n c u hfresh hns hrange hkey hzoned hopc hheld hroom hopen
    subst hopc
    refine ⟨zonedAdmitted slot n s u, ?_, ?_, ?_, ?_, ?_, rfl⟩
    · rw [admitWrite_range hfresh hns hrange, if_neg (by simp [hkey]), if_neg (by simp [hzoned]), admitZonedWrite_open hheld hroom hopen]
    · rw [zonedAdmitted, getTask_updTask]
    · rw [zonedAdmitted, getTask_updTask]
      rfl
    · rw [zonedAdmitted, getTask_updTask]
    · exact (congrArg Zone.adm (getZone_updZone _ _ _)).trans rfl
  case conv =>
    intro s slot opc n hfresh hopc hns hrange hkey hconv hwp
    subst hopc
    refine ⟨_, (admitWrite_range hfresh hns hrange).trans ((if_neg (by simp [hkey])).trans ((if_pos hconv).trans (admitConvWrite_open hwp))),
      ?_, ?_, ?_, ?_, rfl⟩
    · rw [getTask_updTask]
    · rw [getTask_updTask]
      rfl
    · rw [getTask_updTask]
      rfl
    · rw [getTask_updTask]
      simp only [beq_iff_eq]
  case noKey => exact fun s slot opc n c hfresh hns hrange hkey => (admitWrite_range hfresh hns hrange).trans (if_pos hkey)
  case fetchNext =>
    exact fun s slot hadmin horder hnlb hopc hst => (if_neg (write_ordered hadmin horder hnlb hopc)).trans (if_pos hst)
  case noBuffers =>
    intro s slot hadmin horder hnlb hopc hst hturn hbind hnone
    exact ⟨_, (execDataPhaseStart_turn hadmin horder hnlb hopc hst hturn hbind).1 hnone, getTask_updTask _ _ _, rfl⟩
  case starts =>
    intro s u slot hadmin horder hnlb hopc hst hturn hbind hdata hstart
    exact (execDataPhaseStart_turn hadmin horder hnlb hopc hst hturn hbind).2 u hstart hdata
  case commit =>
    intro s slot hdata hst hzoned hunits hfirst hroom hheld
    refine ⟨zonedCommitted slot s, execWriteCommit_zoned hdata hst hzoned hunits hfirst hroom hheld, ?_, ?_, ?_⟩ <;>
      rw [zonedCommitted, getTask_updTask]
  case uncommitted =>
    intro s slot hno
    refine if_pos (hno.imp_left fun h => ?_)
    rw [h]
    rfl

end Sys2Proof.Machine
end

section
/-! Reads, Flush, Dataset Management, zone management and lost connections (05, 06). -/

namespace Sys2Proof.Machine

/-! ## Reads -/

/-- A read whose namespace, range and zones are good and that needs no Flush first starts its units (05 R176). -/
theorem admitRead_start {s : State} {slot opc n : Nat} (hfresh : freshIo s slot opc = true)
    (hns : nsErr s (getTask s slot) false true true = .inr n)
    (hrange : rangeErr s (getTask s slot) n (if opc = 0x02 then some ((getTask s slot).cap.nlb * 4096) else none) = none)
    (hzones : (getNs s n).conv = true ∨ (zonesOfRange n (getTask s slot).cap.slba (getTask s slot).cap.nlb).any (fun zk => (getZone s zk).st == .offline) = false)
    (hfua : opc ≠ 0x02 ∨ (getTask s slot).cap.fua = false) :
    admitRead slot opc s = readStart slot (updTask slot (fun t => { t with ns := n, slba := t.cap.slba, nlb := t.cap.nlb, fua := false, waitDurable := [] }) s) := by
  have hplain : (opc == 0x02 && (getTask s slot).cap.fua) = false := by
    rcases hfua with h | h <;> simp [h]
  have hoffline : ¬((getNs s n).conv = false ∧ (zonesOfRange n (getTask s slot).cap.slba (getTask s slot).cap.nlb).any (fun zk => (getZone s zk).st == .offline) = true) := by
    rintro ⟨hconv, hany⟩
    rcases hzones with h | h
    · simp [hconv] at h
    · exact Bool.false_ne_true (h.symm.trans hany)
  unfold admitRead
  rw [if_neg (by simp [hfresh])]
  dsimp only
  rw [hns]
  dsimp only
  rw [hrange]
  dsimp only
  rw [if_neg hoffline, hplain, if_neg (fun h => Bool.false_ne_true h.1), if_neg Bool.false_ne_true]

theorem admitRead_nsErr {s : State} {slot opc : Nat} {e : IoErr} (hfresh : freshIo s slot opc = true)
    (herr : nsErr s (getTask s slot) false true true = .inl e) : admitRead slot opc s = failIo slot e s := by
  unfold admitRead
  rw [if_neg (by simp [hfresh])]
  dsimp only
  rw [herr]

/-- A read each of whose units has passed or failed. -/
theorem execReadTransferStart_all {s : State} {slot : Nat} (hreads : (getTask s slot).reads = true) (hst : (getTask s slot).st = .reading)
    (hall : (getTask s slot).nlb ≤ (getTask s slot).passed.length + (getTask s slot).failed.length) :
    (∀ f, lowestFail (getTask s slot).failed = some f → execReadTransferStart slot s = .next (readFails slot f s)) ∧
    (lowestFail (getTask s slot).failed = none → execReadTransferStart slot s =
      .next (if (getTask s slot).cap.opc = 0x0C then finishOk slot (countRead (getTask s slot) s) else nextSend slot s)) := by
  unfold execReadTransferStart
  dsimp only
  rw [if_neg (by simp [hreads]), if_neg (by simp [hst]), if_neg (by simp [hst]; omega)]
  refine ⟨fun f hfail => by rw [hfail], fun hnone => ?_⟩
  rw [hnone]
  exact (apply_ite Host.Outcome.next _ _ _).symm

/-! ## Flush and Dataset Management -/

/-- A Flush of one namespace waits for what was committed before it (05 R179). -/
theorem execFlush_one {s : State} {slot n : Nat} (hfresh : freshIo s slot 0x00 = true) (hone : (getTask s slot).cap.nsid ≠ 0xFFFFFFFF)
    (hns : nsErr s (getTask s slot) false true true = .inr n) {u : State}
    (hu : u = updTask slot (fun t => { t with st := .executing, waitDurable := [(n, (drawStamp n s).1)] }) (drawStamp n s).2) :
    execFlush slot s = .next (settleTasks (if undurable u n (drawStamp n s).1 ≠ [] then serveFlush n u else u)) := by
  unfold execFlush
  rw [if_neg (by simp [hfresh])]
  dsimp only
  rw [if_neg hone, hns]
  simp only [List.foldl_cons, List.foldl_nil, List.nil_append, reduceCtorEq, if_false, ← hu]
  by_cases hdone : undurable u n (drawStamp n s).1 = [] <;> simp [hdone]

/-- The common checks of a Dataset Management, and its list fetched first (05 R178). -/
theorem execDatasetManagement_fetch {s : State} {slot n : Nat} (hst : (getTask s slot).st = .admitted) (hadmin : (getTask s slot).admin = false)
    (hopc : (getTask s slot).cap.opc = 0x09) (hns : nsErr s (getTask s slot) true true false = .inr n) (hcap : (getTask s slot).cap.inCapsule = [])
    (hlen : (getTask s slot).cap.sglLen = 16 * ((getTask s slot).cap.cdw10 % 256 + 1)) (hwp : s.mme.convWp = false)
    (hnone : (getTask s slot).moved = 0) {u : State}
    (hu : u = updTask slot (fun t => { t with ns := n, moved := 16 * ((getTask s slot).cap.cdw10 % 256 + 1) }) s) :
    execDatasetManagement slot s = .next (emit (.frame (getTask s slot).conn
      (if (getConn u (getTask s slot).conn).tcp then "R2T" else "RDMA READ") 0) (transmit (getTask s slot).conn u)) := by
  unfold execDatasetManagement
  dsimp only
  rw [if_neg (by simp [hst, hadmin, hopc]), hns]
  dsimp only
  rw [if_neg (by simp [hcap, hlen]), if_neg (by simp [hwp]), if_pos hnone, ← hu]

/-- Every unit of a range deallocated. -/
def goneRange (n st : Nat) (s : State) (r : Nat × Nat) : State :=
  (rangeKeys s n r.1 r.2).foldl (fun s k => updUnit k (fun l => goneUnit st :: l) s) s

theorem goneRange_jnl (n st : Nat) (s : State) (r : Nat × Nat) : (goneRange n st s r).jnl = s.jnl :=
  fold_same State.jnl (fun s k => updUnit k (fun l => goneUnit st :: l) s) (fun _ _ => rfl) _ s

theorem goneRanges_jnl (n st : Nat) (l : List (Nat × Nat)) (s : State) : (l.foldl (goneRange n st) s).jnl = s.jnl :=
  fold_same State.jnl (goneRange n st) (goneRange_jnl n st) l s

/-- A Dataset Management with its list there that asks for Deallocate discards the ranges and waits for its record. -/
theorem execDatasetManagement_deallocate {s u : State} {slot n st : Nat} (hst : (getTask s slot).st = .admitted)
    (hadmin : (getTask s slot).admin = false) (hopc : (getTask s slot).cap.opc = 0x09)
    (hns : nsErr s (getTask s slot) true true false = .inr n) (hcap : (getTask s slot).cap.inCapsule = [])
    (hlen : (getTask s slot).cap.sglLen = 16 * ((getTask s slot).cap.cdw10 % 256 + 1)) (hwp : s.mme.convWp = false)
    (hmoved : (getTask s slot).moved ≠ 0)
    (hbytes : (mapGet tunit0 (getTask s slot).units 0).bytes = 16 * ((getTask s slot).cap.cdw10 % 256 + 1)) (hroom : bufFull s = false)
    (hrange : (dsmRanges ((getTask s slot).cap.cdw10 % 256 + 1) (mapGet tunit0 (getTask s slot).units 0).data).any (fun r => decide (nsLbas (getNs s n) < r.1 + r.2)) = false)
    (had : natBits (getTask s slot).cap.cdw11 2 1 = 1) (hstamp : drawStamp n s = (st, u)) :
    ∃ v len w p a, v.jnl = u.jnl ∧ execDatasetManagement slot s =
      .next (updTask slot (fun t => { t with st := .executing, stamp := st, waitJsn := some v.jnl.nextJsn, units := [] }) (issue 0x02 len w p a v)) := by
  have heq : execDatasetManagement slot s = execDatasetManagement slot s := rfl
  conv at heq => rhs; unfold execDatasetManagement
  dsimp only at heq
  rw [if_neg (by simp [hst, hadmin, hopc]), hns] at heq
  dsimp only at heq
  rw [if_neg (by simp [hcap, hlen]), if_neg (by simp [hwp]), if_neg hmoved, if_neg (by simp [hbytes, hroom]),
    if_neg (by rw [hrange]; exact Bool.false_ne_true), if_neg (by omega), hstamp] at heq
  exact ⟨_, _, _, _, _, goneRanges_jnl n st _ u, heq⟩

/-! ## Zone management -/

/-- An action on one zone that no earlier write delays: done at once when it issues no record (06 R201 to R203). -/
theorem zoneSend_one {s u v w : State} {slot act n st : Nat} (hst : (getTask s slot).st = .admitted) (hadmin : (getTask s slot).admin = false)
    (hopc : (getTask s slot).cap.opc = 0x79) (hact : (getTask s slot).cap.zsa = act) (hns : nsErr s (getTask s slot) true false true = .inr n)
    (hone : (getTask s slot).cap.zall = false) (hrange : (getTask s slot).cap.slba < nsLbas (getNs s n)) (hfirst : (getTask s slot).order = 0)
    (hu : u = updTask slot (fun t => { t with ns := n, order := s.qe.order + 1, zones := [zoneOfLba n (getTask s slot).cap.slba] })
      { s with qe := { s.qe with order := s.qe.order + 1 } })
    (hturn : (zonePending u (zoneOfLba n (getTask s slot).cap.slba)).any (fun k => decide ((getTask u k).order < s.qe.order + 1)) = false)
    (hroom : bufFull u = false) (hstamp : drawStamp n u = (st, v)) (hdone : zoneAction act (zoneOfLba n (getTask s slot).cap.slba) st v = .inr w) :
    zoneSend slot act s = if (zmSettle u w).jnl.nextJsn = u.jnl.nextJsn then finishOk slot (zmSettle u w)
      else updTask slot (fun t => { t with st := .executing, stamp := st, waitJsn := some (lastJsn (zmSettle u w)), zones := [] }) (zmSettle u w) := by
  have hzones : (getTask u slot).zones = [zoneOfLba n (getTask s slot).cap.slba] := by rw [hu, getTask_updTask]
  have horder : (getTask u slot).order = s.qe.order + 1 := by rw [hu, getTask_updTask]
  have hactions : zoneActions act st v [zoneOfLba n (getTask s slot).cap.slba] = (w, none) := by
    unfold zoneActions
    rw [hdone]
    rfl
  unfold zoneSend
  dsimp only
  rw [if_neg (by simp [hst, hadmin, hopc, hact]), hns]
  dsimp only
  rw [if_neg (by omega), if_neg (not_not_intro hfirst), hone, if_neg Bool.false_ne_true]
  simp only [nextOrder, ← hu, hzones, horder, List.any_cons, List.any_nil, Bool.or_false, hturn, hroom, hstamp, hactions]
  rw [if_neg (by simp)]

/-! ## Report Zones -/

theorem execReportZones_data {s : State} {slot n : Nat} (hfresh : freshIo s slot 0x7A = true) (hns : nsErr s (getTask s slot) false false true = .inr n)
    (hzsa : (getTask s slot).cap.zsa = 0) (hopt : (getTask s slot).cap.cdw13 / 256 % 256 ≤ 7) (hcap : (getTask s slot).cap.inCapsule = [])
    (hlen : (getTask s slot).cap.sglLen = ((getTask s slot).cap.cdw12 + 1) * 4) (hrange : (getTask s slot).cap.slba < nsLbas (getNs s n)) :
    ∃ b : List Nat, execReportZones slot s = .next (finishOk slot (emit (.data (getTask s slot).conn (getTask s slot).cap.cid
      (b.take (((getTask s slot).cap.cdw12 + 1) * 4))) s)) := by
  have heq : execReportZones slot s = execReportZones slot s := rfl
  conv at heq => rhs; unfold execReportZones
  rw [if_neg (by simp [hfresh])] at heq
  dsimp only at heq
  rw [hns] at heq
  dsimp only at heq
  rw [if_neg (by omega), if_neg (by simp [hcap, hlen]), if_neg (by omega)] at heq
  exact ⟨_, heq⟩

theorem loseConn_io {s : State} {c : Nat} (hport : (getConn s c).port ≠ 8) (hrole : (getConn s c).role = .io) : loseConn c s = dropConn c s :=
  (if_neg hport).trans (if_neg (by simp [hrole]))

/-- Settles O44: each command by the checks it passes. -/
theorem readsAndZoneCommands : Obligations.ReadsAndZoneCommands := by
  refine ⟨fun s slot => ⟨rfl, rfl⟩, ?start, fun s slot opc e => admitRead_nsErr, ?fails, ?sends, fun s slot hst hall => if_pos ⟨hst, hall⟩, ?flush,
    ?fetchList, ?deallocate, fun s slot => ⟨rfl, rfl, rfl, rfl, rfl⟩, ?zone, ?zoneInvalid, ?report, ?invalid, ?loss⟩
  case start =>
    exact fun s slot opc n hfresh hns hrange hzones hfua => ⟨_, rfl, admitRead_start hfresh hns hrange hzones hfua⟩
  case fails => exact fun s slot f hreads hst hall hfail => (execReadTransferStart_all hreads hst hall).1 f hfail
  case sends => exact fun s slot hreads hst hall hnone => (execReadTransferStart_all hreads hst hall).2 hnone
  case flush => exact fun s slot n hfresh hone hns => ⟨_, rfl, execFlush_one hfresh hone hns rfl⟩
  case fetchList =>
    exact fun s slot n hst hadmin hopc hns hcap hlen hwp hnone => ⟨_, rfl, execDatasetManagement_fetch hst hadmin hopc hns hcap hlen hwp hnone rfl⟩
  case deallocate =>
    intro s slot n st u hst hadmin hopc hns hcap hlen hwp hmoved hbytes hroom hrange had hstamp
    obtain ⟨v, len, w, p, a, hjnl, heq⟩ :=
      execDatasetManagement_deallocate hst hadmin hopc hns hcap hlen hwp hmoved hbytes hroom hrange had hstamp
    refine ⟨_, heq, ?_, ?_, ?_, ?_⟩
    · rw [getTask_updTask]
    · rw [getTask_updTask]
    · rw [updTask_jnl, issue_jsn, hjnl]
    · rw [updTask_jnl, issue_buffer, hjnl, List.map_append]
      rfl
  case zone =>
    exact fun s u v w slot act n st hst hadmin hopc hact hns hone hrange hfirst hu hturn hroom hstamp hdone =>
      ⟨_, rfl, zoneSend_one hst hadmin hopc hact hns hone hrange hfirst hu hturn hroom hstamp hdone⟩
  case zoneInvalid =>
    intro s slot n hfresh hzsa hns
    show execZoneSendInvalidAction slot s = _
    unfold execZoneSendInvalidAction
    rw [if_neg (by simp [hfresh]; omega), hns]
  case report =>
    intro s slot n hfresh hns hzsa hopt hcap hlen hrange
    obtain ⟨b, heq⟩ := execReportZones_data hfresh hns hzsa hopt hcap hlen hrange
    exact ⟨_, heq, hlen ▸ List.length_take_le _ _⟩
  case invalid =>
    intro s slot hfresh hopc hstate
    show execInvalidIoOpcode slot s = _
    unfold execInvalidIoOpcode
    dsimp only
    rw [if_neg (by simp [hfresh]), if_pos hopc, hstate]
  case loss => exact fun s c => ⟨rfl, fun hport hrole => next_eq (loseConn_io hport hrole)⟩

end Sys2Proof.Machine
end

section
/-! The flash links (07): training, failures and control (R237 to R251, R279), frames (R243 to R250). -/

namespace Sys2Proof.Machine

/-! ## Training and control -/

/-- A training result counts for a link in Training or Retraining. -/
theorem execLinkTrainingDone_training {s : State} {k : Nat} (hlink : linkExists s k = true) (hst : (getLink s k).st = 2 ∨ (getLink s k).st = 4)
    (ok : Bool) (c n : Nat) :
    execLinkTrainingDone k ok c n s = if ok then .next (linkUp k (serialSeen k n s))
      else if (getLink s k).st = 2 ∧ (getLink s k).stored ∧ c ≠ 3 then .next (trainFallback k s)
      else .next (failLink k 5 (if 1 ≤ c ∧ c ≤ 4 then c else 1) s) := by
  refine if_neg ?_
  rintro (h | ⟨h2, h4⟩)
  · simp [hlink] at h
  · exact hst.elim h2 h4

/-- The full training that a link starts anew. -/
theorem fullTraining_frame (k : Nat) (f : Link → Link) (s : State) :
    getLink (updLink k f s) k = f (getLink s k) ∧ (∀ j, j ≠ k → getLink (updLink k f s) j = getLink s j) ∧
      updLink k f s = { s with flc := { s.flc with links := (updLink k f s).flc.links } } :=
  ⟨getLink_updLink _ _ _, fun j hne => getLink_updLink_ne _ _ _ j hne, rfl⟩

/-- Settles O45: each event of a link by the states that allow it. -/
theorem linkTraining : Obligations.LinkTraining := by
  refine ⟨fun s k c n hlink hst => execLinkTrainingDone_training hlink hst true c n, ?fallback, ?failed, ?absent,
    fun s k hlink hst hlock => if_pos ⟨hlink, hst, hlock⟩, fun s k hlink hst => if_pos ⟨hlink, hst⟩, ?retry, ?fail, ?grace, ?graceNone,
    fun s k hlink => ⟨_, rfl, if_pos hlink⟩, fun s k hlink => ⟨_, rfl, if_pos hlink⟩, fun s k hlink => if_pos hlink, ?full⟩
  case fallback =>
    intro s k c n hlink hst hstored hc
    refine ⟨(execLinkTrainingDone_training hlink (Or.inl hst) false c n).trans ((if_neg Bool.false_ne_true).trans (if_pos ⟨hst, hstored, hc⟩)), ?_⟩
    exact if_pos ⟨hlink, hst, hstored⟩
  case failed =>
    intro s k c n hlink hst hlo hhi
    have hfull : ¬((getLink s k).st = 2 ∧ (getLink s k).stored ∧ c ≠ 3) := by
      rintro ⟨h2, hstored, hc⟩
      rcases hst with h | ⟨_, h | h⟩
      · omega
      · simp [hstored] at h
      · exact hc h
    refine (execLinkTrainingDone_training hlink (hst.symm.imp_left And.left) false c n).trans ?_
    rw [if_neg Bool.false_ne_true, if_neg hfull, if_pos ⟨hlo, hhi⟩]
  case absent =>
    intro s k c n ok hno
    have hno' : ¬linkExists s k = true := by simp [hno]
    exact ⟨if_pos (Or.inl hno), if_neg (fun h => hno' h.1), if_neg (fun h => hno' h.1), if_pos (Or.inl hno), if_neg hno', if_neg hno',
      if_neg (fun h => hno' h.1)⟩
  case retry =>
    exact fun s k hlink hst hen => ⟨_, if_pos ⟨hlink, hst, hen⟩,
      fullTraining_frame k (fun l => { l with st := 2, stored := false, lock := false, misses := 0, cands := [] }) s⟩
  case fail => exact fun s k hlink hfailed => if_neg (by simp [hlink, hfailed])
  case grace => exact fun s k hlink hfailed hst hlost hreads => if_pos ⟨hlink, hfailed, hst, hlost, hreads⟩
  case graceNone =>
    intro s k hno
    refine if_neg ?_
    rintro ⟨_, _, hst, _, hreads⟩
    exact hno.elim (fun h => by simp [hreads] at h) hst
  case full =>
    intro s k hlink hst
    exact ⟨_, (if_pos hlink).trans (next_eq (if_neg (by omega))),
      fullTraining_frame k (fun l => { l with haveStored := false, stored := false, st := 2, lock := false, misses := 0, cands := [] }) s⟩

/-! ## Frames -/

/-- The states in which a link looks at frames (07 R246). -/
theorem link_looks {s : State} {k : Nat} (hlink : linkExists s k = true)
    (hst : (getLink s k).st = 2 ∨ (getLink s k).st = 3 ∨ (getLink s k).st = 4) :
    ¬(linkExists s k = false ∨ ((getLink s k).st ≠ 2 ∧ (getLink s k).st ≠ 3 ∧ (getLink s k).st ≠ 4)) := by
  rintro (h | h)
  · simp [hlink] at h
  · omega

/-- A frame in lock whose mark is no miss (07 R246, R249). -/
theorem execFlashFrameReceive_locked {s : State} {k d : Nat} (hlink : linkExists s k = true)
    (hst : (getLink s k).st = 2 ∨ (getLink s k).st = 3 ∨ (getLink s k).st = 4) (hlock : (getLink s k).lock = true) (hd : d < 3) (ok : Bool)
    (ty q a : Nat) {u : State} (hu : u = updLink k (fun l => { l with misses := 0 }) s) :
    execFlashFrameReceive k d ok ty q a s = .next (if ok = false then frameDiscard k (bumpF (F.FLC_LN_ERR_CRC_ERR k) 1 u)
      else if 6 ≤ ty then frameDiscard k u
      else if ty = 1 ∨ ty = 2 ∨ ty = 3 then
        (if q = ((getLink (takeAck k a u) k).rxLast + 1) % 4096 then updLink k (fun l => { l with rxLast := q, nakSent := false }) (takeAck k a u)
          else frameDiscard k (takeAck k a u))
      else if ty = 5 then takeNak k a u else takeAck k a u) := by
  unfold execFlashFrameReceive
  dsimp only
  rw [if_neg (link_looks hlink hst), if_neg (by simp [hlock]), if_neg (by omega), ← hu]
  by_cases hok : ok = false
  · rw [if_pos hok, if_pos hok]
  rw [if_neg hok, if_neg hok]
  by_cases hty : 6 ≤ ty
  · rw [if_pos hty, if_pos hty]
  rw [if_neg hty, if_neg hty]
  by_cases hdata : ty = 1 ∨ ty = 2 ∨ ty = 3
  · have hnak : ty ≠ 5 := by omega
    rw [if_pos hdata, if_pos hdata, if_neg hnak]
    exact (apply_ite Host.Outcome.next _ _ _).symm
  · rw [if_neg hdata, if_neg hdata]

/-- A frame in hunt confirms the oldest candidate or drops it. -/
theorem execFlashFrameReceive_hunt {s : State} {k : Nat} (hlink : linkExists s k = true)
    (hst : (getLink s k).st = 2 ∨ (getLink s k).st = 3 ∨ (getLink s k).st = 4) (hhunt : (getLink s k).lock = false) (d : Nat) (ok : Bool)
    (ty q a : Nat) : execFlashFrameReceive k d ok ty q a s = .next (huntFrame k d ok s) :=
  (if_neg (link_looks hlink hst)).trans (if_pos hhunt)

theorem getLink_huntFrame {s : State} {k : Nat} (hcands : (getLink s k).cands ≠ []) (d : Nat) (ok : Bool) :
    getLink (huntFrame k d ok s) k = if ok = true ∧ d = 0 then { getLink s k with lock := true, misses := 0, cands := [] }
      else { getLink s k with cands := (getLink s k).cands.drop 1 } := by
  unfold huntFrame
  rw [getLink_updLink, if_neg hcands]

/-- Settles O46: each frame by the checks it passes. -/
theorem linkFrames : Obligations.LinkFrames := by
  refine ⟨?opens, ?inLock, ?hunt, ?missed, ?discarded, ?data, ?control, fun s k a hlink => ⟨if_pos hlink, if_pos hlink⟩,
    fun s k hlink hst => if_pos ⟨hlink, hst⟩, ?maint, ?off⟩
  case opens =>
    intro s k b hlink hst hhunt hroom hnew
    refine ⟨_, if_neg ?_, fullTraining_frame k (fun l => { l with cands := l.cands ++ [b] }) s⟩
    rintro (h | h | h | h | h)
    · simp [hlink] at h
    · simp [hhunt] at h
    · omega
    · omega
    · exact Bool.false_ne_true (hnew.symm.trans h)
  case inLock => exact fun s k b hlock => if_pos (Or.inr (Or.inl hlock))
  case hunt =>
    intro s k ty q a d hlink hst hhunt hcands
    refine ⟨_, _, execFlashFrameReceive_hunt hlink hst hhunt 0 true ty q a, ?_, execFlashFrameReceive_hunt hlink hst hhunt d false ty q a, ?_⟩
    · exact (getLink_huntFrame hcands 0 true).trans (if_pos ⟨rfl, rfl⟩)
    · exact (getLink_huntFrame hcands d false).trans (if_neg (fun h => Bool.false_ne_true h.1))
  case missed =>
    exact fun s k ty q a d ok hlink hst hlock hd => (if_neg (link_looks hlink hst)).trans ((if_neg (by simp [hlock])).trans (if_pos hd))
  case discarded =>
    intro s k ty q a d hlink hst hlock hd
    exact ⟨_, rfl, execFlashFrameReceive_locked hlink hst hlock hd false ty q a rfl,
      fun hty => (execFlashFrameReceive_locked hlink hst hlock hd true ty q a rfl).trans (next_eq (if_pos hty))⟩
  case data =>
    intro s v k ty q a d hlink hst hlock hd hty hv
    rw [hv]
    exact (execFlashFrameReceive_locked hlink hst hlock hd true ty q a rfl).trans
      (next_eq ((if_neg (by omega : ¬6 ≤ ty)).trans (if_pos hty)))
  case control =>
    intro s k ty q a d hlink hst hlock hd hty
    exact ⟨_, rfl, (execFlashFrameReceive_locked hlink hst hlock hd true ty q a rfl).trans
      (next_eq ((if_neg (by omega : ¬6 ≤ ty)).trans (if_neg (by omega))))⟩
  case maint =>
    intro s k f b ts flt hlink hst
    exact ⟨_, _, _, rfl, rfl, rfl, (if_neg (by simp [hlink, hst])).trans (apply_ite Host.Outcome.next _ _ _).symm⟩
  case off =>
    intro s k f b d ty q a ts flt hoff
    exact ⟨if_pos (Or.inr (by omega)), if_pos (Or.inr (by omega))⟩

end Sys2Proof.Machine
end

section
/-! The answers of dies and towers (07 R252 to R262), link groups and the power budget (07 R264 to R275). -/

namespace Sys2Proof.Machine

/-! ## Answers that fit the outstanding operation -/

theorem execReadPageDone_sent {s : State} {d : Nat} {o : DieOp} (hsent : sentRead s d .readPage = some o) (st : Nat) (data : List Nat) :
    execReadPageDone d st data s = .next (dieNext d (readStatus d st o (pageRead d o data) (endRead d o s))) := by
  unfold execReadPageDone
  rw [hsent]

theorem execReadLevelDone_sent {s : State} {d : Nat} {o : DieOp} (hsent : sentRead s d .readLevel = some o) (st : Nat) (codes : List (List Nat)) :
    execReadLevelDone d st codes s = .next (dieNext d (readStatus d st o (levelSensed d o codes) (endRead d o s))) := by
  unfold execReadLevelDone
  rw [hsent]

theorem execProgramFoggyDone_running {s : State} {d : Nat} {o : DieOp} (hop : runningOp s d .foggy = some o) (st x : Nat) :
    execProgramFoggyDone d st x s = .next (dieNext d (programStatus d st o (foggyDone d o.block o.wl) (endOp d s))) := by
  unfold execProgramFoggyDone
  rw [hop]

theorem execProgramFineDone_running {s : State} {d : Nat} {o : DieOp} (hop : runningOp s d .fine = some o) (st x : Nat) :
    execProgramFineDone d st x s = .next (dieNext d (programStatus d st o (wordlineDone (refOf d o.block) o.wl)
      (updDie d (fun x => { x with held := x.held.filter (· != (o.block, o.wl)) }) (endOp d s)))) := by
  unfold execProgramFineDone
  rw [hop]

theorem execProgramOneDone_sent {s : State} {d : Nat} {o : DieOp} (hsent : sentRead s d .one = some o) (st x : Nat) :
    execProgramOneDone d st x s = .next (dieNext d (programStatus d st o id (endRead d o s))) := by
  unfold execProgramOneDone
  rw [hsent]

theorem execProgramOneDone_running {s : State} {d : Nat} {o : DieOp} (hnone : sentRead s d .one = none) (hop : runningOp s d .one = some o)
    (hmode : o.mode = 1) (st x : Nat) :
    execProgramOneDone d st x s = .next (dieNext d (programStatus d st o (wordlineDone (refOf d o.block) o.wl) (endOp d s))) := by
  unfold execProgramOneDone
  rw [hnone]
  dsimp only
  rw [hop]
  dsimp only
  simp only [if_pos hmode]

theorem execEraseDone_running {s : State} {d : Nat} {o : DieOp} (hop : runningOp s d .erase = some o) (st : Nat) :
    execEraseDone d st s = .next (zmSettle s (dieNext d (if st = 0 then queueVerify (refOf d o.block) (endOp d s)
      else if st = 2 ∨ st = 8 then retireBlock (refOf d o.block) 1 (endOp d s)
      else if st = 4 ∨ 9 ≤ st then loseDie d (endOp d s)
      else if st = 5 then requeue d o (endOp d s) else eraseAgain (refOf d o.block) (endOp d s)))) := by
  unfold execEraseDone
  rw [hop]

theorem execEraseVerifyDone_running {s : State} {d : Nat} {o : DieOp} (hop : runningOp s d .verify = some o) (n : Nat) :
    execEraseVerifyDone d 0 n s = .next (zmSettle s (dieNext d (if n ≤ getF (endOp d s) F.MME_ERASE_CFG_MAX_UNERASED then
        issueHeader (refOf d o.block) n (endOp d s)
      else if (getBlock (endOp d s) (refOf d o.block)).recovery then retireBlock (refOf d o.block) 1 (endOp d s)
      else issueErase (refOf d o.block) (getBlock (endOp d s) (refOf d o.block)).mode true (endOp d s)))) := by
  unfold execEraseVerifyDone
  rw [hop]
  dsimp only
  rw [if_pos rfl]

/-! ## Answers that fit nothing -/

theorem sentRead_die0 {s : State} {d : Nat} (hdie : getDie s d = die0) (k : OpKind) : sentRead s d k = none := by
  unfold sentRead
  rw [hdie]
  rfl

theorem runningOp_die0 {s : State} {d : Nat} (hdie : getDie s d = die0) (k : OpKind) : runningOp s d k = none := by
  unfold runningOp
  rw [hdie]
  rfl

/-- A die with no operation takes no answer of one. -/
theorem answers_die0 {s : State} {d : Nat} (hdie : getDie s d = die0) (st x : Nat) (data : List Nat) (codes : List (List Nat)) :
    execReadPageDone d st data s = .next s ∧ execReadLevelDone d st codes s = .next s ∧ execProgramFoggyDone d st x s = .next s ∧
    execProgramFineDone d st x s = .next s ∧ execProgramOneDone d st x s = .next s ∧ execEraseDone d st s = .next s ∧
    execEraseVerifyDone d st x s = .next s := by
  unfold execReadPageDone execReadLevelDone execProgramFoggyDone execProgramFineDone execProgramOneDone execEraseDone execEraseVerifyDone
  simp only [sentRead_die0 hdie, runningOp_die0 hdie, and_self]

/-- Settles O47: each answer by the operation it ends. -/
theorem towerAnswers : Obligations.TowerAnswers := by
  refine ⟨fun s d st o data hsent => execReadPageDone_sent hsent st data, fun s d st o codes hsent => execReadLevelDone_sent hsent st codes,
    fun s d st x o hop => execProgramFoggyDone_running hop st x, fun s d st x o hop => execProgramFineDone_running hop st x,
    fun s d st x o hsent => execProgramOneDone_sent hsent st x, fun s d st x o hnone hop hmode => execProgramOneDone_running hnone hop hmode st x,
    fun s d st o hop => ⟨_, _, rfl, rfl, execEraseDone_running hop st⟩, fun s d n o hop => ⟨_, _, rfl, rfl, execEraseVerifyDone_running hop n⟩,
    ?suspended, ?resumed, ?nothing⟩
  case suspended => exact fun s d ns hsent => ⟨_, if_neg (by simp [hsent]), getDie_updDie _ _ _⟩
  case resumed =>
    exact fun s d hsent => ⟨_, (if_neg (by simp [hsent])).trans (if_neg (by decide)), getDie_updDie _ _ _⟩
  case nothing =>
    intro s d st x data codes ns hdie
    obtain ⟨hpage, hlevel, hfoggy, hfine, hone, herase, hverify⟩ := answers_die0 hdie st x data codes
    refine ⟨hpage, hlevel, hfoggy, hfine, hone, herase, hverify, ?_, ?_, ?_, ?_⟩
    · exact if_pos (by rw [hdie]; rfl)
    · exact if_pos (by rw [hdie]; rfl)
    · exact if_pos (by rw [hdie]; rfl)
    · exact if_pos (Or.inl (by rw [hdie]; exact ⟨rfl, rfl⟩))

/-! ## Dies -/

theorem execDieOpTimeout_running {s : State} {d : Nat} (hop : (getDie s d).op ≠ none ∨ (getDie s d).reading ≠ [])
    (hreset : (getDie s d).resetSent = false) :
    ¬(((getDie s d).op = none ∧ (getDie s d).reading = []) ∨ (getDie s d).resetSent = true) := by
  rintro (⟨h, h'⟩ | h)
  · exact hop.elim (fun hne => hne h) (fun hne => hne h')
  · simp [hreset] at h

/-- A reset die on which nothing was outstanding. -/
theorem execResetDieDone_idle {s : State} {d : Nat} (hsent : (getDie s d).resetSent = true) (hop : (getDie s d).op = none)
    (hheld : (getDie s d).held = []) (hreading : (getDie s d).reading = []) :
    execResetDieDone d s = .next (zmSettle s (dieNext d (updDie d (fun x => { x with
      resetSent := false, suspSent := false, resumeSent := false, op := none, reading := [], held := [], waiting := [] ++ x.waiting }) s))) := by
  unfold execResetDieDone
  dsimp only
  rw [if_neg (by simp [hsent]), hop, hheld, hreading]
  rfl

/-- A calibration page that fails its CRC feeds no model, and source 512 fires (07 R257). -/
theorem execReadCalDone_bad {s : State} {k : Nat} (hk : k < linkCount s) (rs : List (Nat × List Int × Nat × Nat)) :
    execReadCalDone k false rs s =
      .next ((List.range 32).foldl (fun s d => usableSettle (k * 32 + d) s) (updLink k (fun l => { l with awaitCal := false }) (fire 512 k s))) := by
  have hnone : ¬((List.range 32).all fun d => ([] : List (Nat × List Int × Nat × Nat)).any fun r => r.1 == d) = true := by decide
  unfold execReadCalDone
  rw [if_neg (Nat.not_le.mpr hk)]
  dsimp only
  rw [if_neg Bool.false_ne_true, List.foldl_nil, if_neg hnone]

/-- A defect list read before the reads-served point stands without a record (08 R288). -/
theorem execReadDefectsDone_boot {s : State} {d p : Nat} {gs : List Nat} (hd : d < linkCount s * 32) (hp : p < 4) (hgs : gs.length ≤ 32)
    (hreads : s.top.readsOk = false) {u : State} (hu : u = updTabs (fun t => { t with skips := mapSet [] t.skips (d * 4 + p) gs }) s) :
    execReadDefectsDone d p gs s = .next (usableSettle d (updDie d (fun x => { x with defectsLeft := x.defectsLeft - 1 })
      { u with dur := { u.dur with skips := mapSet [] u.dur.skips (d * 4 + p) gs } })) := by
  have htop : u.top.readsOk = false := by rw [hu]; exact hreads
  unfold execReadDefectsDone
  rw [if_neg (by omega)]
  dsimp only
  rw [← hu, htop, if_neg Bool.false_ne_true]

/-! ## Link groups -/

theorem execStandbyDone_sent {s u : State} {k g : Nat} (hg : g = k / 8) (hu : u = updLink k (fun l => { l with standby := true }) s)
    (hdrain : groupSt s g = .draining) (hsent : s.flc.standbySent.contains g = true) {ups : List Nat}
    (hups : ups = (groupLinks u g).filter (fun j => (getLink u j).st == 3 || (getLink u j).st == 4)) {v : State}
    (hv : v = linkSettle s (ups.foldl (fun s j => updLink j (fun l => { l with st := 1, lock := false }) s)
      (setGroup g .gated (updFlc (fun f => { f with standbySent := f.standbySent.filter (· != g) }) u)))) :
    execStandbyDone k s = .next (if ups.all (fun j => (getLink u j).standby) then
      (if groupWaiting v g ∧ v.top.dev ≠ .retained then wakeGroup g v else v) else u) := by
  unfold execStandbyDone
  dsimp only
  rw [← hg, hdrain, hsent, if_neg (by decide), ← hu, ← hups, ← hv]
  exact (apply_ite Host.Outcome.next _ _ _).symm

theorem execGroupDrainStart_idle {s : State} {g : Nat} (hg : g < groupCount s) (hreads : s.top.readsOk = true) (hawake : groupSt s g = .awake)
    (hen : flagF s F.FLC_GATE_CFG_GATE_EN = true) (hkeep : natBits (getF s F.FLC_GATE_CTL_KEEP) g 1 = 0) (hdies : s.flc.dies = [])
    (hrows : groupRows s g = false) (hmin : min (getF s F.FLC_GATE_CFG_MIN_AWAKE) (groupCount s) ≤ (awakeGroups s).length - 1) {u : State}
    (hu : u = setGroup g .draining (updFlc (fun f => { f with standbySent := f.standbySent ++ [g] }) s)) :
    execGroupDrainStart g s = .next (linkSettle s (((groupLinks u g).filter (fun k => (getLink u k).st == 3)).foldl
      (fun s k => sendTower (k * 32) "STANDBY" 0 s) u)) := by
  unfold execGroupDrainStart
  dsimp only
  rw [if_pos ⟨hg, hreads, hawake, hen, hkeep, by rw [hdies]; rfl, hrows, hmin⟩, ← hu]

/-- Settles O48: each event of a die and of a link group by the state that allows it. -/
theorem diesAndGroups : Obligations.DiesAndGroups := by
  refine ⟨?loss, ?timeout, ?reset, ?identify, fun s k rs hk => execReadCalDone_bad hk rs,
    fun s d p gs hd hp hgs hreads => ⟨_, rfl, execReadDefectsDone_boot hd hp hgs hreads rfl⟩, fun s k hno => if_pos hno,
    fun s u k g hg hu hdrain hsent => ⟨_, _, rfl, rfl, execStandbyDone_sent hg hu hdrain hsent rfl rfl⟩, fun s k v => rfl, fun s d => rfl,
    fun s g hg hreads hawake hen hkeep hdies hrows hmin => ⟨_, rfl, execGroupDrainStart_idle hg hreads hawake hen hkeep hdies hrows hmin rfl⟩,
    ?noDrain, fun s g hg hdev => if_pos ⟨hg, hdev⟩, ?retained, fun s g hg hst => ⟨_, rfl, if_pos ⟨hg, hst⟩⟩, fun s v => ⟨rfl, rfl⟩⟩
  case loss =>
    exact fun s d hd => ⟨if_pos hd, fun b u => ⟨if_pos ⟨rfl, hd⟩, rfl⟩⟩
  case timeout =>
    exact fun s d hop hreset => ⟨_, _, rfl, rfl, (if_neg (execDieOpTimeout_running hop hreset)).trans (apply_ite Host.Outcome.next _ _ _).symm⟩
  case reset =>
    intro s d hsent hop hheld hreading
    refine ⟨_, execResetDieDone_idle hsent hop hheld hreading, ?_⟩
    rw [getDie_updDie, List.nil_append, ← hop, ← hreading, ← hheld]
  case identify =>
    intro s k n g p m hk hst
    exact (if_neg (by omega)).trans (apply_ite Host.Outcome.next _ _ _).symm
  case noDrain =>
    intro s g hno
    refine if_neg ?_
    rintro ⟨_, hreads, hawake, hen, _⟩
    rcases hno with h | h | h
    · simp [hreads] at h
    · exact h hawake
    · simp [hen] at h
  case retained => exact fun s g hdev => ⟨if_neg (fun h => h.2 hdev), fun v => next_eq (if_pos hdev)⟩

end Sys2Proof.Machine
end

section
/-! The management port (17 R637 to R642, R653), Sirsis in band (R652) and the load window (R634). -/

namespace Sys2Proof.Machine

/-! ## The port -/

theorem replyBytes_length (r : Reply) : (replyBytes r).length = 16 + r.params.length := by
  simp only [replyBytes, leBytes, List.length_append, List.length_map, List.length_range, List.length_cons, List.length_nil]

theorem taskGo_free {s : State} (hfree : s.mgc.taskSt ≠ 1) :
    taskGo s = sirPacket 0 none (taskPacket s) 4096 (updMgc (fun m => { m with taskSt := 1, replyLen := 0 }) s) := if_neg hfree

/-- A reply in the task buffer of the port: STATE is done (17 R639). -/
def replyStored (r : Reply) (s : State) : State :=
  updMgc (fun m => { m with
    buf := (List.range (replyBytes r).length).foldl (fun m i => mapSet 0 m i (BitVec.ofNat 8 ((replyBytes r).getD i 0))) m.buf
    taskSt := 2, replyLen := (replyBytes r).length }) (updPath 0 (fun x => { x with ready := none }) s)

theorem execTaskReplyDone_ready {s : State} {r : Reply} (hready : (getPath s 0).ready = some r) (hbusy : s.mgc.taskSt = 1) :
    execTaskReplyDone s =
      .next (if (replyStored r s).mgc.ibiEn ∧ (replyStored r s).mgc.ibiAllowed ∧ (replyStored r s).pad.mgmtI3c then
        emit (.ibi 1) (replyStored r s) else replyStored r s) := by
  unfold execTaskReplyDone replyStored
  rw [hready]
  dsimp only
  rw [if_neg (not_not_intro hbusy)]
  exact (apply_ite Host.Outcome.next _ _ _).symm

theorem cccReply_addressed {s : State} (hheard : cccHeard s = true) (haddr : s.mgc.dynAddr.isSome = true) (name : String) (bytes : List Nat) :
    cccReply name bytes s = emit (.mgmt name bytes) s := (if_neg (by simp [hheard])).trans (if_pos haddr)

theorem cccReply_none {s : State} (hheard : cccHeard s = true) (haddr : s.mgc.dynAddr = none) (name : String) (bytes : List Nat) :
    cccReply name bytes s = emit (.mgmt "NACK" []) s := (if_neg (by simp [hheard])).trans (if_neg (by simp [haddr]))

theorem execMgmtPortWrite_heard {s : State} {o : Nat} (hheard : portHears s = true) (ho : o ≤ 0xFFFF) (d : List Nat) (pec : Bool) :
    execMgmtPortWrite o d pec s = if s.pad.mgmtI3c = false ∧ pec = false then .next (emit (.mgmt "NACK" []) s)
      else .next (((List.range (d.take (portLimit s)).length).map (fun i => (o + i, (d.take (portLimit s)).getD i 0))).foldl (portByte (portRegion o))
        (updMgc (fun m => { m with portOff := o }) s)) := if_neg (by simp [hheard]; omega)

/-- Settles O49: each access of the port by what it hears. -/
theorem managementPort : Obligations.ManagementPort := by
  refine ⟨?write, ?badPec, ?go, ?overrun, ?reply, ?assign, ?codes, ?addressed, ?noAddress, fun s => rfl, ?basicRead⟩
  case write =>
    intro s o d pec hheard ho hpec
    refine ⟨_, rfl, (execMgmtPortWrite_heard hheard ho d pec).trans (if_neg ?_)⟩
    rintro ⟨hsmbus, hbad⟩
    simp [hsmbus, hbad] at hpec
  case badPec => exact fun s o d hheard ho hsmbus => (execMgmtPortWrite_heard hheard ho d false).trans (if_pos ⟨hsmbus, rfl⟩)
  case go => exact fun s hheard hfree => (if_pos hheard : exec .taskGo s = .next (taskGo s)).trans (next_eq (taskGo_free hfree))
  case overrun => exact fun s hheard hbusy => (if_pos hheard).trans (next_eq (if_pos hbusy))
  case reply =>
    intro s r hready hbusy
    refine ⟨_, execTaskReplyDone_ready hready hbusy, ?_⟩
    split
    next hibi => exact ⟨rfl, replyBytes_length r, rfl, (if_pos hibi).symm⟩
    next hibi => exact ⟨rfl, replyBytes_length r, rfl, (if_neg hibi).symm⟩
  case assign =>
    intro s a hheard hnone
    have hisNone : s.mgc.dynAddr.isNone = true := by rw [hnone]; rfl
    exact ⟨if_pos ⟨hheard, hisNone⟩, if_pos ⟨hheard, rfl, hisNone⟩⟩
  case codes =>
    intro s hheard
    refine ⟨if_pos hheard, if_pos hheard, if_pos ⟨hheard, rfl⟩, if_pos ⟨hheard, rfl⟩, fun c => ⟨if_pos ⟨hheard, rfl⟩, if_neg ?_⟩⟩
    exact fun h => Bool.false_ne_true h.2
  case addressed =>
    intro s hheard haddr
    exact ⟨next_eq (cccReply_addressed hheard haddr _ _), next_eq (cccReply_addressed hheard haddr _ _),
      next_eq (cccReply_addressed hheard haddr _ _), next_eq (cccReply_addressed hheard haddr _ _),
      next_eq (cccReply_addressed (s := (drawFree 16 s).2) hheard haddr _ _)⟩
  case noAddress => exact fun s hheard hnone => next_eq (cccReply_none hheard hnone _ _)
  case basicRead => exact fun s o hheard => if_neg (by simp [hheard])

/-! ## In band -/

/-- A phase 0 command. -/
theorem execSirsisInbandSubmit_runs {s : State} {slot : Nat} (hruns : adminRuns s slot 0xC4 = true) (hphase : (getTask s slot).cap.cdw10 % 2 = 0) :
    execSirsisInbandSubmit slot s = .next (if inbandClean (getTask s slot) = false then finishErr slot 0 0x02 s
      else if (getTask s slot).cap.inCapsule.length < 16 ∨ 4096 < (getTask s slot).cap.inCapsule.length
          ∨ (getTask s slot).cap.inCapsule.length ≠ (getTask s slot).cap.sglLen then finishErr slot 0 0x0F s
      else if (getPath s ((getTask s slot).cntlid + 1)).packet.isSome then finishBusy slot s
      else sirPacket ((getTask s slot).cntlid + 1) (some slot) (getTask s slot).cap.inCapsule (getTask s slot).cap.inCapsule.length s) :=
  (if_neg (by omega)).trans (next_eq (adminRun_ok hruns))

/-- A whole packet of a phase 0 command. -/
theorem execSirsisInbandSubmit_packet {s : State} {slot : Nat} (hruns : adminRuns s slot 0xC4 = true)
    (hphase : (getTask s slot).cap.cdw10 % 2 = 0) (hclean : inbandClean (getTask s slot) = true)
    (hmin : 16 ≤ (getTask s slot).cap.inCapsule.length) (hmax : (getTask s slot).cap.inCapsule.length ≤ 4096)
    (hlen : (getTask s slot).cap.inCapsule.length = (getTask s slot).cap.sglLen) :
    execSirsisInbandSubmit slot s = .next (if (getPath s ((getTask s slot).cntlid + 1)).packet.isSome then finishBusy slot s
      else sirPacket ((getTask s slot).cntlid + 1) (some slot) (getTask s slot).cap.inCapsule (getTask s slot).cap.inCapsule.length s) := by
  rw [execSirsisInbandSubmit_runs hruns hphase, if_neg (by simp [hclean]), if_neg (by omega)]

theorem execSirsisInbandFetch_runs {s : State} {slot : Nat} (hruns : adminRuns s slot 0xC4 = true) (hphase : (getTask s slot).cap.cdw10 % 2 = 1) :
    execSirsisInbandFetch slot s = .next (match (getPath s ((getTask s slot).cntlid + 1)).kept with
      | none => finishErr slot 0 0x02 s
      | some r => if inbandClean (getTask s slot) = false ∨ (getTask s slot).cap.sglLen < (replyBytes r).length then finishErr slot 0 0x02 s
        else replyData slot (replyBytes r) s) :=
  (if_neg (by omega)).trans (next_eq (adminRun_ok hruns))

/-! ## The load window -/

theorem execLoadWindow_eq {s u : State} {a b c d e x y l n : Nat} (hl : l = min 100 (max (max a b) (max c d)))
    (hn : n = if l ≤ getF s F.MGC_SHED_CFG_EXIT_PCT then s.mgc.lowRun + 1 else 0)
    (hu : u = updMgc (fun m => { m with
      loads := [min 100 a, min 100 b, min 100 c, min 100 d], scLoad := min 100 e, svcSum := x, svcCount := y, lowRun := n }) s) :
    execLoadWindow a b c d e x y s = .next (if s.mgc.shed = false then
        (if getF u F.MGC_SHED_CFG_SHED_PCT < l then fire 800 l (updMgc (fun m => { m with shed := true, lowRun := 0 }) u) else u)
      else if 10 ≤ n then fire 801 l (updMgc (fun m => { m with shed := false }) u) else u) := by
  subst hl hn hu
  by_cases hopen : s.mgc.shed = false
  · exact (if_pos hopen).trans ((apply_ite Host.Outcome.next _ _ _).symm.trans (next_eq (if_pos hopen).symm))
  · exact (if_neg hopen).trans ((apply_ite Host.Outcome.next _ _ _).symm.trans (next_eq (if_neg hopen).symm))

/-- Settles O50: a command in band by its phase and its packet, and a load window by its load. -/
theorem inBandAndLoad : Obligations.InBandAndLoad := by
  refine ⟨?packet, ?unclean, ?busy, ?kept, ?nothing, fun s u a b c d e x y l n => execLoadWindow_eq⟩
  case packet =>
    intro s slot hruns hphase hclean hmin hmax hlen hnone
    exact (execSirsisInbandSubmit_packet hruns hphase hclean hmin hmax hlen).trans (next_eq (if_neg (by simp [hnone])))
  case unclean => exact fun s slot hruns hphase hclean => (execSirsisInbandSubmit_runs hruns hphase).trans (next_eq (if_pos hclean))
  case busy =>
    intro s slot hruns hphase hclean hmin hmax hlen hsome
    exact (execSirsisInbandSubmit_packet hruns hphase hclean hmin hmax hlen).trans (next_eq (if_pos (Option.isSome_iff_ne_none.mpr hsome)))
  case kept =>
    intro s slot r hruns hphase hclean hkept hlen
    refine (execSirsisInbandFetch_runs hruns hphase).trans ?_
    rw [hkept]
    refine next_eq (if_neg ?_)
    rw [replyBytes_length]
    exact not_or.mpr ⟨by simp [hclean], by omega⟩
  case nothing =>
    intro s slot hruns hphase hnone
    exact ⟨(execSirsisInbandFetch_runs hruns hphase).trans (by rw [hnone]), if_pos hphase⟩

end Sys2Proof.Machine
end

section
/-! The Sirsis opcodes (17 Table 17-10): those that hardware executes, those of the management complex, those of namespaces. -/

namespace Sys2Proof.Machine

/-! ## Hardware opcodes -/

/-- Without a packet no opcode of the hardware or the management complex does anything. -/
theorem sirsis_none {s : State} {path : Nat} (hnone : (getPath s path).packet = none) (op : Nat) (f : Packet → State → State) :
    (.next (sirRun path op f s) : Host.Outcome State Fault Refusal) = .next s ∧
      (.next (sirRecord path op f s) : Host.Outcome State Fault Refusal) = .next s :=
  ⟨next_eq (sirRun_none hnone), next_eq (sirRecord_none hnone)⟩

theorem execRegRead_runs {s : State} {path : Nat} {q : Packet} {as : List Nat} (hruns : sirRuns s path 0x10 q = true)
    (has : as = (List.range (par q.params 4 2)).map (fun i => (par q.params 0 4 + i * par q.params 6 2) % 2 ^ 32)) :
    (∀ i, unaligned as = some i → execRegRead path s = .next (sirFail path stAlignment i s)) ∧
    (unaligned as = none → execRegRead path s = .next (sirAccessed path ((sirReads as 0 [] none s).1.flatMap (leBytes 4))
      (sirReads as 0 [] none s).2.1 (sirReads as 0 [] none s).2.2)) := by
  unfold execRegRead
  rw [sirRun_ok hruns]
  dsimp only
  rw [← has]
  exact ⟨fun i hbad => by rw [hbad], fun hgood => by rw [hgood]⟩

theorem execRegWrite_runs {s : State} {path : Nat} {q : Packet} {l : List (Nat × Nat)} (hruns : sirRuns s path 0x11 q = true)
    (hl : l = (List.range (par q.params 0 2)).map (fun i => (par q.params (4 + 8 * i) 4, par q.params (8 + 8 * i) 4)))
    (haligned : unaligned (l.map Prod.fst) = none) :
    execRegWrite path s = .next (sirAccessed path [] (sirWrites path l 0 none s).1 (sirWrites path l 0 none s).2) := by
  unfold execRegWrite
  rw [sirRun_ok hruns]
  dsimp only
  rw [← hl, haligned]

theorem execRegRmw_runs {s : State} {path : Nat} {q : Packet} {a m : Nat} (hruns : sirRuns s path 0x12 q = true) (ha : a = par q.params 0 4)
    (hm : m = par q.params 4 4) (haligned : a % 4 = 0) :
    execRegRmw path s = .next (sirAccessed path (leBytes 4 (regReadAt a s).1) (firstFail none (accessStatus s a) 0)
      (regWriteAt .operator a (((regReadAt a s).1 - ((regReadAt a s).1 &&& m)) ||| (par q.params 8 4 &&& m)) (regReadAt a s).2)) := by
  refine next_eq ((sirRun_ok hruns).trans ?_)
  dsimp only
  rw [← ha, ← hm, if_neg (not_not_intro haligned)]

/-- Settles O51: each opcode by the packet it runs on. -/
theorem sirsisHardware : Obligations.SirsisHardware := by
  refine ⟨?none, ?refused, fun s path q hruns => next_eq (sirRun_ok hruns), ?read, ?readUnaligned, ?write, ?rmw,
    fun s path q hruns => ⟨_, rfl, next_eq (sirRun_ok hruns)⟩, fun s path q hruns => next_eq (sirRun_ok hruns), ?reset, ?noReset⟩
  case none =>
    intro s path hnone
    have hrun (op : Nat) (f : Packet → State → State) := (sirsis_none hnone op f).1
    have hrecord (op : Nat) (f : Packet → State → State) := (sirsis_none hnone op f).2
    exact ⟨hrun _ _, hrun _ _, hrun _ _, hrun _ _, hrun _ _, hrun _ _, hrun _ _, hrun _ _, hrecord _ _, hrun _ _, hrun _ _, hrun _ _, hrun _ _,
      hrun _ _, hrecord _ _, hrecord _ _, hrecord _ _, hrecord _ _, hrun _ _, hrecord _ _, hrun _ _, hrun _ _, hrun _ _, hrun _ _, hrun _ _, hrun _ _⟩
  case refused =>
    intro s path op st d q hpacket hop hstate
    have hrefused (k : Nat) (f : Packet → State → State) (hk : op = k) :
        (.next (sirRun path k f s) : Host.Outcome State Fault Refusal) = .next (sirAnswer path st d [] s) :=
      next_eq (sirRun_refused hpacket (hop.trans hk) (hk ▸ hstate))
    exact ⟨hrefused _ _, hrefused _ _, hrefused _ _, hrefused _ _, hrefused _ _, hrefused _ _, hrefused _ _, hrefused _ _, hrefused _ _,
      hrefused _ _, hrefused _ _, hrefused _ _⟩
  case read =>
    intro s path q as hruns has haligned
    exact ⟨_, _, _, rfl, (execRegRead_runs hruns has).2 haligned⟩
  case readUnaligned => exact fun s path q i hruns hunaligned => (execRegRead_runs hruns rfl).1 i hunaligned
  case write =>
    intro s path q l hruns hl haligned
    exact ⟨_, _, rfl, execRegWrite_runs hruns hl haligned⟩
  case rmw => exact fun s path q a m hruns ha hm haligned => ⟨_, _, rfl, rfl, execRegRmw_runs hruns ha hm haligned⟩
  case reset => exact fun s hpending hready => if_neg (by simp [hpending, hready])
  case noReset => exact fun s hpending => if_pos (Or.inl hpending)

end Sys2Proof.Machine
end

section
/-! The Sirsis opcodes of the management complex (17 R648 to R651): time, climate, models, ports, access lists, firmware and the Herdbook. -/

namespace Sys2Proof.Machine

/-- A climate record is judged by `climateError` (09 R342). -/
theorem execShelfClimate_runs {s : State} {path : Nat} {q : Packet} (hruns : sirRuns s path 0x70 q = true) :
    (∀ st d, climateError q.params = some (st, d) → execShelfClimate path s = .next (sirAnswer path st d [] s)) ∧
    (climateError q.params = none → execShelfClimate path s = .next (sirAnswer path 0 0 [] (darkRecompute (updRcu (fun r => { r with
      climate := some ⟨par q.params 4 4, par q.params 8 2, par q.params 10 2, climateSamples q.params (par q.params 2 2)⟩ }) s)))) := by
  unfold execShelfClimate
  rw [sirRun_ok hruns]
  dsimp only
  refine ⟨fun st d hbad => ?_, fun hgood => ?_⟩
  · rw [hbad]
    rfl
  · rw [hgood]
    rfl

/-- An address entry that was not valid closes no connection (17 R650). -/
theorem execPortCfg_new {s : State} {path p k : Nat} {q : Packet} (hruns : sirRuns s path 0x30 q = true) (hp : p = par q.params 0 1)
    (hk : k = par q.params 1 1) (hnew : (mapGet addr0 s.hfe.addrs (p * 8 + k)).valid = false) {u : State}
    (hu : u = saveSetting (addrSetting p k) [bitOf (cfgEntry q.params).valid, bitOf (cfgEntry q.params).tagged, (cfgEntry q.params).pfx,
      (cfgEntry q.params).vlan, (cfgEntry q.params).addr] (updHfe (fun h => { h with addrs := mapSet addr0 h.addrs (p * 8 + k) (cfgEntry q.params) }) s)) :
    execPortCfg path s =
      .next (sirAnswer path 0 0 [] (if mapGet addr0 s.hfe.addrs (p * 8 + k) = cfgEntry q.params then u else discChanged u)) := by
  unfold execPortCfg
  rw [sirRun_ok hruns]
  dsimp only
  rw [← hp, ← hk, hnew, Bool.false_and, if_neg Bool.false_ne_true, ← hu]
  rfl

theorem execAclAdd_new {s : State} {path : Nat} {q : Packet} {l : List Nat} (hruns : sirRuns s path 0x40 q = true) (hl : l = (getTenant s q.scope).acl)
    (hnew : l.contains (aclNqn q.params) = false) :
    execAclAdd path s =
      .next (if 256 ≤ l.length then sirAnswer path 0xE 0 [] s else sirAnswer path 0 0 [] (setAcl q.scope (l ++ [aclNqn q.params]) s)) := by
  unfold execAclAdd
  rw [sirRun_ok hruns]
  dsimp only
  rw [← hl, hnew, if_neg Bool.false_ne_true]
  rfl

theorem execAclRemove_runs {s : State} {path : Nat} {q : Packet} {l : List Nat} (hruns : sirRuns s path 0x41 q = true)
    (hl : l = (getTenant s q.scope).acl) {u : State} (hu : u = setAcl q.scope (l.filter (· != aclNqn q.params)) s) :
    execAclRemove path s = .next (if l.contains (aclNqn q.params) = false then sirAnswer path 0xD 0 [] s
      else sirAnswer path 0 0 [] ((mapKeysWhere (fun k c => c.live && k / 0x100 == q.scope && c.host == aclNqn q.params) u.qe.ctls).foldl
        (fun s k => tearCtl q.scope (k % 0x100) s) u)) := by
  unfold execAclRemove
  rw [sirRun_ok hruns]
  dsimp only
  rw [← hl, ← hu]
  rfl

theorem execFwDownload_idle {s : State} {path : Nat} {q : Packet} (hruns : sirRuns s path 0x80 q = true) (hidle : s.fws.job = none) :
    execFwDownload path s = .next (sirAnswer path 0 0 [] (stageBytes (par q.params 0 4) (q.params.drop 4) s)) := by
  unfold execFwDownload
  rw [sirRun_ok hruns, hidle]
  rfl

theorem execFwCommit_idle {s : State} {path : Nat} {q : Packet} (hruns : sirRuns s path 0x81 q = true) (hidle : s.fws.job = none) :
    execFwCommit path s =
      .next (commitStart (par q.params 0 1) (par q.params 1 1) none (some path) (fun d s => sirAnswer path 2 d [] s) s) := by
  unfold execFwCommit
  rw [sirRun_ok hruns, hidle]
  rfl

/-- Settles O52: each opcode by the packet it runs on. -/
theorem sirsisManagement : Obligations.SirsisManagement := by
  refine ⟨fun s path q hruns => next_eq (sirRun_ok hruns), fun s path q hruns => (execShelfClimate_runs hruns).2,
    fun s path q st d hruns => (execShelfClimate_runs hruns).1 st d, ?model, ?portCfg, fun s path q hruns => next_eq (sirRun_ok hruns),
    fun s path q l hruns hl hnew => execAclAdd_new hruns hl hnew, ?aclRemove, ?aclNone, ?aclList,
    fun s path q hruns hidle => execFwDownload_idle hruns hidle, fun s path q hruns hidle => execFwCommit_idle hruns hidle,
    fun s path q hruns => ⟨_, rfl, next_eq (sirRun_ok hruns)⟩, fun s path q hruns => next_eq (sirRun_ok hruns),
    fun s path q hruns => next_eq (sirRun_ok hruns)⟩
  case model =>
    intro s path q d hruns hd
    rw [hd]
    exact ⟨_, _, rfl, rfl, next_eq (sirRecord_ok hruns)⟩
  case portCfg =>
    intro s path q p k old hruns hp hk hold hnew
    subst hold
    exact ⟨_, _, rfl, rfl, execPortCfg_new hruns hp hk hnew rfl⟩
  case aclRemove =>
    intro s path q l hruns hl hin
    exact ⟨_, _, rfl, rfl, (execAclRemove_runs hruns hl rfl).trans (next_eq (if_neg (by rw [hin]; decide)))⟩
  case aclNone => exact fun s path q hruns hnot => (execAclRemove_runs hruns rfl rfl).trans (next_eq (if_pos hnot))
  case aclList =>
    intro s path q l hruns hl
    rw [hl]
    exact ⟨_, rfl, next_eq (sirRun_ok hruns)⟩

end Sys2Proof.Machine
end

section
/-! The Sirsis opcodes of namespaces and hints (17 R648, R649, 06 R216 to R218). -/

namespace Sys2Proof.Machine

/-! ## The namespace an opcode names -/

theorem onNs_valid {path n : Nat} {x : Ns} {q : Packet} {s : State} {f : Nat → Ns → State} (hn : n = par q.params 0 2) (hx : x = getNs s n)
    (hvalid : x.valid = true) : onNs path q f s = f n x := by
  subst hx hn
  exact if_pos hvalid

theorem onNs_none {path : Nat} {q : Packet} {s : State} {f : Nat → Ns → State} (hnone : getNs s (par q.params 0 2) = ns0) :
    onNs path q f s = sirAnswer path 0xD 0 [] s := if_neg (by rw [hnone]; decide)

/-- A packet that its state serves runs, with a record or without. -/
theorem sirRecords_of {s : State} {path : Nat} {q : Packet} (hstate : sirState s q.opcode = none) (hpacket : (getPath s path).packet = some q)
    (hreads : s.top.readsOk = true) (hroom : bufFull s = false) : sirRuns s path q.opcode q = true ∧ sirRecords s path q.opcode q = true := by
  have hruns : sirRuns s path q.opcode q = true := decide_eq_true ⟨hpacket, rfl, hstate⟩
  refine ⟨hruns, ?_⟩
  unfold sirRecords
  rw [hreads, hroom, hruns]
  rfl

/-! ## Namespaces -/

/-- NS_CREATE with room for one more namespace (17 R649). -/
theorem execNsCreate_room {s : State} {path n : Nat} {q : Packet} {x : Ns} (hruns : sirRecords s path 0x50 q = true)
    (hn : n = if par q.params 2 2 = 0xFFFF then ((List.range 8192).find? (fun n => !(nsTaken s n))).getD 8192 else par q.params 2 2)
    (hx : x = { ns0 with valid := true, tenant := q.scope, nsid := freeNsid s q.scope, conv := par q.params 0 1 == 1, size := par q.params 4 8 })
    (hmine : nssOf s q.scope < 16) (hall : mapCount (fun _ x => x.valid) s.tabs.nss < 8192) (hindex : n ≠ 8192) (hfree : nsTaken s n = false)
    (htenant : tenantState s q.scope ≠ 0) (hroom : nsNoRoom s (par q.params 0 1 == 1) (par q.params 4 8) = false) :
    execNsCreate path s = .next (sirAnswer path 0 0 (leBytes 2 n ++ [0, 0] ++ leBytes 4 x.nsid)
      (zmSettle s (nsRecord 0 n [.ns n x] .nothing (updNs n (fun _ => x) s)))) := by
  unfold execNsCreate
  rw [sirRecord_ok hruns]
  dsimp only
  rw [← hn, ← hx, if_neg (by omega), if_neg (by simp [hfree, htenant]), if_neg (by simp [hroom]), hx]
  rfl

theorem execNsDelete_names {s : State} {path n : Nat} {q : Packet} {x : Ns} (hruns : sirRecords s path 0x51 q = true) (hn : n = par q.params 0 2)
    (hx : x = getNs s n) (hvalid : x.valid = true) (hfree : x.attached = []) :
    execNsDelete path s = .next (sirAnswer path 0 0 [] (zmSettle s (updNs n (fun x => { x with valid := false })
      (nsRecord 1 n [] (.wipe ⟨x.tenant, [n], 3, san0⟩) s)))) := by
  unfold execNsDelete
  rw [sirRecord_ok hruns, onNs_valid hn hx hvalid, if_neg (not_not_intro hfree)]
  rfl

theorem execNsMove_names {s : State} {path n t : Nat} {q : Packet} {x : Ns} (hruns : sirRecords s path 0x52 q = true) (hn : n = par q.params 0 2)
    (hx : x = getNs s n) (hvalid : x.valid = true) (hfree : x.attached = []) (ht : t = par q.params 2 2) (htenant : tenantState s t ≠ 0)
    (hroom : nssOf s t < 16) {k : Nat} (hk : k = if t = x.tenant then x.nsid else freeNsid s t) {u : State}
    (hu : u = moveStripes n t (updNs n (fun x => { x with tenant := t, nsid := k }) s)) :
    execNsMove path s = .next (sirAnswer path 0 0 (leBytes 4 k) (zmSettle s (nsRecord 2 n (movePatches n u) .nothing u))) := by
  unfold execNsMove
  rw [sirRecord_ok hruns, onNs_valid hn hx hvalid]
  dsimp only
  rw [← ht, if_neg (by simp [hfree, htenant]), if_neg (by omega), ← hk, ← hu]
  rfl

/-- NS_RESIZE of a conventional namespace to no smaller a size that fits (17 R649). -/
theorem execNsResize_grows {s : State} {path n : Nat} {q : Packet} {x : Ns} (hruns : sirRecords s path 0x53 q = true) (hn : n = par q.params 0 2)
    (hx : x = getNs s n) (hvalid : x.valid = true) (hconv : x.conv = true) (hgrows : x.size ≤ par q.params 8 8) (hpos : 0 < par q.params 8 8)
    (hmax : par q.params 8 8 ≤ 2684354560) (hroom : lbasMade s - x.size + par q.params 8 8 ≤ lbasMax s) {u : State}
    (hu : u = updNs n (fun x => { x with size := par q.params 8 8 }) s) :
    execNsResize path s = .next (sirAnswer path 0 0 [] (nsChanged n (nsRecord 3 n [.ns n (getNs u n)] .nothing u))) := by
  unfold execNsResize
  rw [sirRecord_ok hruns, onNs_valid hn hx hvalid]
  dsimp only
  rw [if_neg (by simp [hconv]), if_neg (by omega), if_neg (by omega), if_neg (by omega), ← hu]
  rfl

theorem execNsInfo_names {s : State} {path n : Nat} {q : Packet} {x : Ns} (hruns : sirRuns s path 0x54 q = true) (hn : n = par q.params 0 2)
    (hx : x = getNs s n) (hvalid : x.valid = true) :
    execNsInfo path s = .next (sirAnswer path 0 0 (leBytes 2 x.tenant ++ [bitOf x.conv, bitOf (x.conv && s.mme.convWp)] ++ leBytes 4 x.nsid
      ++ leBytes 8 x.size ++ leBytes 4 (if x.conv then 0 else zonesIn s n (fun z => z.st != .offline)) ++ leBytes 4 x.attached.length) s) := by
  unfold execNsInfo
  rw [sirRun_ok hruns, onNs_valid hn hx hvalid]
  rfl

/-! ## Hints -/

/-- A hint of a range of zones that does not choose a home (06 R216, R218). -/
theorem execZoneHint_stored {s : State} {path n first count hint : Nat} {q : Packet} {x : Ns} (hruns : sirRecords s path 0x60 q = true)
    (hn : n = par q.params 0 2) (hx : x = getNs s n) (hvalid : x.valid = true) (hzoned : x.conv = false) (hfirst : first = par q.params 4 4)
    (hcount : count = par q.params 8 4) (hhint : hint = par q.params 12 4) (hend : first + count ≤ x.size) (hstart : first < x.size)
    (hmode : natBits hint 12 2 ≠ 1) {u : State} (hu : u = issue 0x1A 24 [n, 0, first, count, hint] [.hints n first count hint] .nothing
      (updTabs (fun t => { t with zones := setHints n first count hint t.zones }) s)) :
    execZoneHint path s = .next (sirAnswer path 0 0 [] ((idleHomes u).foldl (fun s g => issue 0x1A 24 [g, 0] [.home g 0] .nothing (forgetHome s g)) u)) := by
  unfold execZoneHint
  rw [sirRecord_ok hruns, onNs_valid hn hx hvalid]
  dsimp only
  rw [← hfirst, ← hcount, ← hhint, if_neg (by simp [hzoned]), if_neg (by omega), if_neg (by omega), ← hu, if_neg (fun h => hmode h.1)]
  rfl

/-- Settles O53: each opcode by the namespace it names. -/
theorem sirsisNamespaces : Obligations.SirsisNamespaces := by
  refine ⟨fun s path q n x => execNsCreate_room, ?limit, fun s path q n x => execNsDelete_names, ?unknown, ?move, ?resize,
    fun s path q n x hruns hn hx hvalid => ⟨_, rfl, execNsInfo_names hruns hn hx hvalid⟩, ?hint,
    fun s path q hruns => ⟨_, _, rfl, rfl, next_eq (sirRun_ok hruns)⟩⟩
  case limit => exact fun s path q hruns hfull => next_eq ((sirRecord_ok hruns).trans (if_pos (Or.inl hfull)))
  case unknown =>
    intro s path q hnone hstate hpacket hreads hroom
    obtain ⟨hruns, hrecords⟩ := sirRecords_of hstate hpacket hreads hroom
    refine ⟨fun hop => ?_, fun hop => ?_, fun hop => ?_, fun hop => ?_, fun hop => ?_⟩
    · exact next_eq ((sirRecord_ok (hop ▸ hrecords)).trans (onNs_none hnone))
    · exact next_eq ((sirRecord_ok (hop ▸ hrecords)).trans (onNs_none hnone))
    · exact next_eq ((sirRecord_ok (hop ▸ hrecords)).trans (onNs_none hnone))
    · exact next_eq ((sirRun_ok (hop ▸ hruns)).trans (onNs_none hnone))
    · exact next_eq ((sirRecord_ok (hop ▸ hrecords)).trans (onNs_none hnone))
  case move =>
    exact fun s path q n x hruns hn hx hvalid hfree htenant hroom =>
      ⟨_, _, _, rfl, rfl, rfl, execNsMove_names hruns hn hx hvalid hfree rfl htenant hroom rfl rfl⟩
  case resize =>
    exact fun s path q n x hruns hn hx hvalid hconv hgrows hpos hmax hroom =>
      ⟨_, rfl, execNsResize_grows hruns hn hx hvalid hconv hgrows hpos hmax hroom rfl⟩
  case hint =>
    exact fun s path q n x first count hint hruns hn hx hvalid hzoned hfirst hcount hhint hend hstart hmode =>
      ⟨_, rfl, execZoneHint_stored hruns hn hx hvalid hzoned hfirst hcount hhint hend hstart hmode rfl⟩

end Sys2Proof.Machine
end
